-- ==== Sys2Proof/Word.lean ====
section
/-!
DEFINITION. Sys2Proof/Word.lean: the register word (R12: every register is 32 bits wide) and the byte.
-/
namespace Sys2Proof

/-- The value of one register access (R12). -/
abbrev Word := BitVec 32

/-- One byte of memory or of a frame. -/
abbrev Byte := BitVec 8

end Sys2Proof
end

