-- ==== Sys2Proof/Syntax.lean ====
section
/-!
DEFINITION. Sys2Proof/Syntax.lean: the commands the block takes (one constructor for each row of the operation table)
and the data their operands carry.
-/
namespace Sys2Proof

/-- The two parts: the Tally on its host die and the Hub package (00_scope.md). -/
inductive Part | tally | hub
  deriving DecidableEq, Repr

/-- A register page: of the Tally (R15), or of a die of the Hub (R14). -/
inductive Page
  | tally (page : Nat)
  | hub (die page : Nat)
  deriving DecidableEq, Repr

/-- The page belongs to the Tally. -/
def Page.isTally : Page → Bool
  | .tally _ => true
  | .hub _ _ => false

/-- The die field of a Hub page; 0 for a Tally page. -/
def Page.die : Page → Nat
  | .tally _ => 0
  | .hub d _ => d

/-- The page number. -/
def Page.num : Page → Nat
  | .tally p => p
  | .hub _ p => p

/-- The part a page belongs to. -/
def Page.part : Page → Part
  | .tally _ => .tally
  | .hub _ _ => .hub

/-- A register address as software writes it: the 18-bit Tally address of R15 or the 30-bit Hub address of R14. -/
inductive RegAddr
  | tally (a : BitVec 18)
  | hub (a : BitVec 30)
  deriving DecidableEq, Repr

/-- Who makes a register access (R17, R21): the host register port of a Tally, a steward core, the active Cabinet of a
Hub or the command inlet of a Tally, the block itself. -/
inductive Agent | regPort | steward | cabinet | block
  deriving DecidableEq, Repr

/-- BLK_SYNDROME_INFO.AGENT (R21). -/
def Agent.code : Agent → Nat
  | .regPort => 0
  | .steward => 0
  | .cabinet => 1
  | .block => 2

/-- A QRP header (R130), but for the segment byte. -/
structure QrpHdr where
  ver : Nat
  kind : Nat
  /-- FLAGS byte; [0] SNAPSHOT. -/
  flags : Nat
  job : Nat
  unit : Nat
  k : Nat
  epoch : Nat
  window : Nat
  tgen : Nat
  tq : Nat
  rev : Nat
  sealedLen : Nat
  deriving DecidableEq, Repr

/-- Sealed data as a term (log entry 3): the key value it was sealed with, the header that is its additional
authenticated data and gives its nonce (R134), the plaintext bytes, and whether ciphertext and tag arrived unaltered.
It opens only under the same key and header. -/
structure Sealed where
  key : Nat
  hdr : QrpHdr
  plain : List Nat
  intact : Bool
  deriving DecidableEq, Repr

/-- A frame arriving at a Tally's command inlet (R137): the header in clear, the segment byte, the number of sealed bytes
that follow, the key value it was sealed with, and whether header and sealed data are as the sender sealed them. The
plaintext is the command's own operands. -/
structure InFrame where
  hdr : QrpHdr
  seg : Nat
  bytes : Nat
  key : Nat
  intact : Bool
  deriving DecidableEq, Repr

/-- What a PTP message received on a port says (R70): the message types of the supported part of IEEE 1588-2019. Times
are nanoseconds since the PTP epoch, corrections picoseconds. -/
inductive PtpBody
  /-- A Sync; with `twoStep` the origin time follows in a Follow_Up. -/
  | sync (twoStep : Bool) (origin : Nat) (corr : Int)
  | followUp (origin : Nat) (corr : Int)
  /-- The answer to the port's Delay_Req: when the transmitter received it. -/
  | delayResp (rx : Nat) (corr : Int)
  /-- A Delay_Req or Pdelay_Req of another clock, answered. -/
  | delayReq
  | pdelayReq
  /-- Pdelay_Resp: when the peer received the request; Pdelay_Resp_Follow_Up: when it answered. -/
  | pdelayResp (rx : Nat)
  | pdelayRespFollowUp (tx : Nat) (corr : Int)
  /-- Announce, with the site time state of the organisation extension where it carries one (R70, R86). -/
  | announce (site : Option Nat)
  | signaling
  /-- Management messages are discarded and counted. -/
  | management
  deriving DecidableEq, Repr

/-- An extent of a shard descriptor (R40, R331). -/
structure Extent where
  tensor : Nat
  bits : Nat
  base : Nat
  len : Nat
  addr : Nat
  stride : Nat
  deriving DecidableEq, Repr

/-- A member entry of a roster (R37): the unit, its serving Hub (the sender form of R191), Tally job slot, replica group, peer
group, shard descriptor, and whether the unit is a Tally-L. -/
structure Member where
  unit : Nat
  hub : Nat
  slot : Nat
  rgroup : Nat
  pgroup : Nat
  shard : List Extent
  lite : Bool
  deriving DecidableEq, Repr

/-- A roster (R37); `leads` gives the lead Hub of each site. -/
structure Roster where
  job : Nat
  gen : Nat
  k : Nat
  epoch : Nat
  groups : Nat
  members : List Member
  leads : List (Nat × Nat)
  deriving DecidableEq, Repr

/-- A frame arriving on a fabric port of the Hub (R170, R174): whether its FCS is valid, its UDP destination port, the QRP header,
its segment and the sealed data it carries a segment of. -/
structure QFrame where
  fcs : Bool
  udp : Nat
  hdr : QrpHdr
  seg : Nat
  segs : Nat
  len : Nat
  body : Sealed
  deriving DecidableEq, Repr

/-- The state of one Trestle field (R184); `hist` lists the nonzero counts by peer group × 128 + bucket, ascending. -/
structure FState where
  sum : Int
  count : Nat
  sat : Nat
  min : Int
  minU : Nat
  max : Int
  maxU : Nat
  under : Nat
  above : Nat
  hist : List (Nat × Nat)
  deriving DecidableEq, Repr

/-- What an aggregate says (R191): counts, flags, peer groups and field states. -/
structure Agg where
  expected : Nat
  records : Nat
  late : Nat
  missing : Nat
  flags : Nat
  pg : Nat
  fields : List FState
  deriving DecidableEq, Repr

/-- An aggregate frame set (R191): header fields, the key it was sealed with, whether it arrived unaltered, the content. -/
structure AggFrame where
  ver : Nat
  level : Nat
  job : Nat
  contrib : Nat
  k : Nat
  epoch : Nat
  window : Nat
  tgen : Nat
  tq : Nat
  rev : Nat
  key : Nat
  intact : Bool
  agg : Agg
  deriving DecidableEq, Repr

/-- The digest sum of one replica group in a partial (R341): STATE 0 complete, 1 incomplete, 2 split. -/
structure DGroup where
  group : Nat
  state : Nat
  units : Nat
  expected : Nat
  a : Nat
  b : Nat
  deriving DecidableEq, Repr

/-- A digest partial (R341): its sender, state, round and revision; the key it was sealed with and whether it arrived unaltered; the
groups; of a replay round also the units its sender names with the code of R351, and the groups' bin digests (group, tensor, bin, lane A,
lane B). -/
structure DPart where
  ver : Nat
  job : Nat
  contrib : Nat
  epoch : Nat
  step : Nat
  round : Nat
  rev : Nat
  key : Nat
  intact : Bool
  groups : List DGroup
  named : List (Nat × Nat)
  bins : List (Nat × Nat × Nat × Nat × Nat)
  deriving DecidableEq, Repr

/-- What a Reach DATA frame carries (R362). -/
inductive RInner
  | agg (f : AggFrame)
  | dpart (f : DPart)
  deriving DecidableEq, Repr

/-- One segment of an inner frame set (R365): its index, the number of segments, its bytes with the inner header. -/
structure RSeg where
  inner : RInner
  seg : Nat
  segs : Nat
  bytes : Nat
  deriving DecidableEq, Repr

/-- A Reach DATA frame (R364); `lenOk`: LEN equals the UDP payload less 24. -/
structure RData where
  ver : Nat
  type : Nat
  flags : Nat
  cls : Nat
  session : Nat
  seq : Nat
  lenOk : Bool
  dest : Nat
  seg : RSeg
  deriving DecidableEq, Repr

/-- A Reach ACK payload (R366): a block is its BASE and its bitmap, bit j of which stands for SEQ BASE + j. -/
structure RAck where
  cum : Nat
  credit : Nat
  echo : Nat
  hold : Nat
  blocks : List (Nat × Nat)
  deriving DecidableEq, Repr

/-- A packet of a trace source (R446): type, header [3:0], source, payload. -/
structure TPacket where
  type : Nat
  low : Nat
  source : Nat
  payload : List Nat
  deriving DecidableEq, Repr

/-- The verdict policy of a job (R308). -/
structure VPolicy where
  level : Nat
  absNs : Nat
  mult : Nat
  markWait : Nat
  minUnits : Nat
  freqGauge : Nat
  levelTop : Nat
  levelFloor : Nat
  raisePct : Nat
  headroom : Nat
  migrate : Nat
  driftThr : Nat
  driftWin : Nat
  deriving DecidableEq, Repr

/-- The digest policy of a job (R335). -/
structure DPolicy where
  every : Nat
  reportWait : Nat
  replayWait : Nat
  obsH : Nat
  testS : Nat
  deriving DecidableEq, Repr

/-- The key policy of a job (R416). -/
structure KPolicy where
  overlap : Nat
  rollS : Nat
  powerMask : Nat
  deriving DecidableEq, Repr

/-- A drift score a model of the job's image has written for a window (R314): unit, model index, against its history or its peers, tensor
model or ensemble, the FP32 score. -/
structure Score where
  unit : Nat
  model : Nat
  history : Bool
  tensor : Bool
  score : Nat
  deriving DecidableEq, Repr

/-- A rank of a Weaja image (R246). -/
structure WRank where
  sram : Nat
  entry : Nat
  aNs : Nat
  bNs : Nat
  aIn : Nat
  inA : Bool
  inB : Bool
  fold : Bool
  deriving DecidableEq, Repr

/-- An edge of a Weaja image (R246); stage 0 A, 1 B. -/
structure WEdge where
  from_ : Nat
  to_ : Nat
  bytes : Nat
  stage : Nat
  deriving DecidableEq, Repr

/-- A section of a Weaja image (R246); `data` is its content in clear. -/
structure WSection where
  rank : Nat
  dest : Nat
  len : Nat
  source : Nat
  data : List Nat
  deriving DecidableEq, Repr

/-- A Weaja image (R245, R246): header fields, tables; whether the signature of R412 verifies and the tag of R423 holds under the content
key of its binding set. -/
structure Weaja where
  magic : Nat
  version : Nat
  flags : Nat
  fplan : Nat
  modelId : Nat
  total : Nat
  hbmWork : Nat
  binding : Nat
  ranks : List WRank
  edges : List WEdge
  sections : List WSection
  sig : Bool
  tag : Bool
  deriving DecidableEq, Repr

/-- A binding set (R422): its identifier, model, the device IDs of its members; whether its signature verifies and the content key
unwraps. -/
structure BindSet where
  setId : Nat
  modelId : Nat
  devices : List Nat
  sig : Bool
  unwraps : Bool
  deriving DecidableEq, Repr

/-- Where the Cabinet places ranks (R248): the lowest rank, the ranks folded onto the tile less one, the hub index and the tile. -/
structure Place where
  rank : Nat
  fold : Nat
  hub : Nat
  tile : Nat
  deriving DecidableEq, Repr

/-- A placement: the tiles of the ranks; the tile of the check copy, where there is one (R353); where the Cabinet keeps the job's image and
work space in HBM, 4 KiB units. -/
structure Placement where
  places : List Place
  check : Option Nat
  base : Nat
  size : Nat
  deriving DecidableEq, Repr

/-- The CONFIG content (R467): the PMBus devices as (address, class), the routes by site; of the management ports the addresses, prefix lengths
and gateways of MA and MB and the TCP port; the model-signing key and the operator CA by their hashes. -/
structure CfgImage where
  serial : Nat
  minCab : Nat
  board : Nat
  site : Nat
  hubIndex : Nat
  limFast : Nat
  lim1ms : Nat
  limSust : Nat
  thrLevel : Nat
  vrEn : Nat
  pmb : List (Nat × Nat)
  tscAdj : List Nat
  route : List (Option Nat)
  portLanes : List Nat
  mgmtLanes : List Nat
  mgmtAddr : List Nat
  modelKey : Nat
  ca : Nat
  deriving DecidableEq, Repr

/-- A copy of an image in board storage (R465): its version and whether it verifies (R412, R466). -/
structure ImgCopy where
  version : Nat
  ok : Bool
  deriving DecidableEq, Repr

/-- What a boot finds (R468): the population; for XD0 and XD1 whether the identity is rebuilt and whether phases 0–3 end by 300 ms; the
voucher; the lowest serial it accepts; the copies A and B of the CABINET image and of the CONFIG image with its content; cab_chain_in: low
for 100 µs, idle until an ENUM frame comes, or no index in time; phases 5 and 6: every die and link found, the HUB_STEWARD images, the HBM;
whether the signature of the retirement list verifies; the tiles that fail the self-test of R470. -/
structure BootIn where
  qh40 : Bool
  identity : List Bool
  inTime : List Bool
  voucher : Bool
  minSerial : Nat
  cabinet : List ImgCopy
  config : List (ImgCopy × CfgImage)
  chainLow : Bool
  chainNone : Bool
  package : Bool
  steward : Bool
  hbm : Bool
  listOk : Bool
  failTiles : List Nat
  deriving DecidableEq, Repr

/-- One entry of a Trestle field table (R182, R199). -/
structure TField where
  src : Nat
  sum : Bool
  ext : Bool
  hist : Bool
  mkind : Nat
  index : Nat
  shift : Nat
  bias : Int
  deriving DecidableEq, Repr

end Sys2Proof

namespace Sys2Proof

/-- The commands the block takes: one constructor for each row of the operation table, in its order. -/
inductive Instr where
  /-- R22. A write to a register that has no row of its own sets the live value, the staged copy or both, after the
      access, agent, state and range checks. `a` the byte address, `v` the word written. -/
  | registerWrite (a : RegAddr) (ag : Agent) (v : Word)
  /-- R18. Writing BLK_CTRL.SYN_CLR = 1 clears BLK_SYNDROME and BLK_SYNDROME_INFO of the page. -/
  | synClr (pg : Page) (ag : Agent)
  /-- R20. Writing BLK_CTRL.SRST = 1 returns the page's registers and staged copies to reset, moves the appointment
      state to IDLE and clears the syndrome, with the page-specific effects of its chapter. -/
  | softReset (pg : Page) (ag : Agent)
  /-- R23. Writing BLK_APPT_CTRL.ARM runs the arming checks and moves the appointment state to ARMED or REFUSED. -/
  | apptArm (pg : Page) (ag : Agent)
  /-- R23. Writing BLK_APPT_CTRL.CANCEL returns an ARMED page to IDLE, keeping the staged copies unapplied. -/
  | apptCancel (pg : Page) (ag : Agent)
  /-- R23. At the first timebase tick at or after the appointment time, all staged copies of an ARMED page are
      copied to the live registers and the state becomes APPLIED. The page whose appointment falls due. -/
  | apptApply (pg : Page)
  /-- R67. A soft reset of the Tally LCS page or of XD0's LCS page returns the Longcase to UNSET, refuses every
      ARMED page with STATE and increments the time generation. -/
  | longcaseReset (p : Part) (ag : Agent)
  /-- R62. Writing LCS_CTRL.STEP = 1 while UNSET with AUTO_STEP = 0 loads LCS_STEP_* into the Longcase, clears the
      servo and moves to ACQUIRE. -/
  | lcsStep (p : Part) (ag : Agent)
  /-- R92. Writing LCS_CTRL.CLR_CNT = 1 clears the counts in LCS_TB_STAT and LCS_SRC_STAT. -/
  | clrCnt (p : Part) (ag : Agent)
  /-- R92. A write of LCS_GEN is accepted once while UNSET and LOADED = 0, loading the time generation and setting
      LOADED. -/
  | lcsGenWrite (p : Part) (ag : Agent) (gen : BitVec 16)
  /-- R91. A read of LCS_NOW_NS captures nanoseconds, seconds and fraction of the Longcase in one tick. The LCS page
      read (the page of every Hub die has the register). -/
  | lcsNowRead (pg : Page)
  /-- R76. A three-beat time-bus announcement of the time of the next pulse is taken and checked against the timing
      of R76. The beats of one announcement: their number and whether tb_tod_valid was consecutive. -/
  | tbAnnouncement (sec : BitVec 64) (ns : Word) (beats : Nat) (consecutive : Bool)
  /-- R77. At a rising edge of tb_pulse the Tally captures its Longcase, forms e_ps against the announced time and
      runs the servo, or counts BAD_ANN. `status` is tb_status at the pulse. -/
  | tbPulse (status : BitVec 2)
  /-- R77. No tb_pulse within 1 ms + 2 µs of the previous one increments TB_STAT.MISSED and raises PULSE_MISS. -/
  | pulseMiss
  /-- R66. More than MISS_LIMIT consecutive expected measurements missing from every usable source moves the servo
      to HOLDOVER. -/
  | measurementMissLimit (p : Part)
  /-- R79. When a live slot has closed 16 windows since the last accepted verdict, the Tally's site time state
      returns to UNKNOWN. -/
  | siteQualExpiry
  /-- R60. Once per millisecond each Hub follower compares its Longcase with XD0's. `diff` is the follower's value
      minus XD0's, in nanoseconds. -/
  | followerCheck (die : Nat) (diff : Int)
  /-- R70. A PTP message received on a fabric or peer port is timestamped and updates its tracker, giving a
      measurement for the servo when its source is selected. Ports F0–F9 are 0–9 and P0–P3 10–13; `pos` is the SFD's
      bit position in its codeword (R81), `interval` the message interval in milliseconds. -/
  | ptpMessageRx (port : Nat) (domain : Nat) (pos : Nat) (interval : Nat) (body : PtpBody)
  /-- R70. As time transmitter on BOARD or B the Hub sends its periodic two-step Sync, Follow_Up and Announce
      messages with the site time state extension. -/
  | ptpMessageTx (port : Nat)
  /-- R69. Expiry of a domain's announce receipt timeout makes its PTP tracker invalid. -/
  | announceTimeout (domain : Nat)
  /-- R71. A higher-priority source that has been valid for STABLE_MS is selected again. -/
  | sourceStable
  /-- R87. One second after a change of selected source, TQ.SWITCHED returns to 0. -/
  | switchedExpiry
  /-- R73. A rising edge of pps_in is timestamped and its offset from the nearest whole second stored in
      LCS_PPS_OFS. -/
  | ppsEdge
  /-- R83. Every 2^-n s the time-transfer Hub starts a timestamped delay request-response exchange over its Reach
      port. `am` is am_ps of R81. -/
  | ttExchangeTx (am : Nat)
  /-- R86. A completed time-transfer exchange gives e to the REACH tracker, detects a round-trip jump, or advances
      the stable run that identifies the path and unfreezes the tracker. The reference site's timestamps,
      nanoseconds, and the SFD position of the answer. -/
  | ttExchangeDone (t2 t3 : Nat) (pos : Nat)
  /-- R381. A filtered rising edge of pse_a or pse_b is timestamped, freezes the REACH tracker into HOLDOVER and
      pauses the Reach sender of its port. 0: pse_a, port L0; 1: pse_b, port L1. -/
  | pseRise (port : Nat)
  /-- R381. A filtered falling edge of pse_a or pse_b ends the Reach pause, marks recent unacknowledged frames lost
      and clears srtt. -/
  | pseFall (port : Nat)
  /-- R381. PSE_MAX_MS after the rising edge a Reach pause ends and raises PSE_STUCK. -/
  | pauseTimeout (port : Nat)
  /-- R97. Assertion and release of tly_por_n resets the whole Tally, its Longcase, time generation, locks, keys and
      outputs. -/
  | tallyPor
  /-- R97. Assertion and release of tly_hrst_n resets the Tally's pages, locks and keys while the Longcase keeps
      running. -/
  | tallyHrst
  /-- R98. An UNADDRESSED Tally seeing tch_in_tok with an address of 15 or below takes it as its chain address and
      passes address + 1 on. -/
  | chainAddress (addr : BitVec 5)
  /-- R35. The host's write of the 24-bit unit number into TLY_UNIT locks it until the next reset. -/
  | tlyUnitWrite (ag : Agent) (unit : BitVec 24)
  /-- R95. TLY_FCLK.LEAD × 100 ns before a live slot's boundary, or when fast-clock work is pending, the Tally
      raises fclk_req. -/
  | fclkRequest
  /-- R95. Arrival of fclk_ack lets waiting records, frames and fast-clock work proceed, recording TIMEOUT and
      FCLK_LATE when it came late. -/
  | fclkAck
  /-- R102. At a boundary of a live slot the Tally snapshots the closing window, applies due appointments and starts
      counting into the new window. -/
  | windowBoundary
  /-- R104. At each slow boundary the Tally snapshots BATCH consecutive counters from the slow cursor and advances
      it. -/
  | slowBoundary
  /-- R134. Once fclk runs the Tally builds, packs, seals and segments each slot's record and places its frames in
      the egress buffer, or drops and counts it. -/
  | recordSeal
  /-- R113. Each microsecond a power-sense conversion yields a sample that feeds the gauges, the energy sum and the
      supply limiter. -/
  | powerSample (codeV codeI : BitVec 16)
  /-- R107. Every 125 µs a FREQ gauge samples the ev_clk cycles of the preceding interval. -/
  | freqSample
  /-- R122. A write of CNT_GAUGE_WLO commits CNT_GAUGE_WHI:WLO as a sample of a HOST gauge. -/
  | gaugeHostWrite (ag : Agent) (lo : Word)
  /-- R122. A read of CNT_VAL_LO or CNT_GAUGE_RLO captures the selected 64-bit counter or gauge value. `gauge`: the
      read is of CNT_GAUGE_RLO. -/
  | cntValRead (gauge : Bool)
  /-- R109. A host write of STP_MARK timestamps a STEP, ENTRY or EXIT mark, buffers it and may open a digest. -/
  | stepMark (ag : Agent) (kind : BitVec 2) (slot : BitVec 2) (id : BitVec 12) (tag : BitVec 16)
  /-- R114. A register-port write of PWR_LOCK, CAP_LOCK or SHP_LOCK sets the host lock that holds the host-owned
      registers until reset. `pg` the PWR, CAP or SHP page of the Tally. -/
  | lockWrite (pg : Page) (ag : Agent) (v : Bool)
  /-- R115. A write of the staged CAP_CODE is checked against the floor, the top and the largest raise. -/
  | capCodeWrite (ag : Agent) (code : BitVec 12)
  /-- R116. The host clock controller's cap_ack confirms the ceiling is in force and records its latency. -/
  | capAck
  /-- R116. No cap_ack within 100 µs of cap_upd records TIMEOUT and raises ACK_TIMEOUT. -/
  | capAckTimeout
  /-- R117. Writing STW_CTRL.START with a nonzero image length moves a HALTED steward core to VERIFYING. -/
  | stewardStart (pg : Page) (ag : Agent)
  /-- R117. Completion of the image signature check moves the steward core to RUNNING or back to HALTED with AUTH.
      Whether trailer, signer and signature are good (R412); the image's ANCHOR; on a Tally whether the identity key
      was rebuilt (R410). -/
  | stewardVerifyDone (pg : Page) (ok : Bool) (anchor : Nat) (rebuilt : Bool)
  /-- R117. Writing STW_CTRL.HALT moves a RUNNING or FAULT steward core to HALTED. -/
  | stewardHalt (pg : Page) (ag : Agent)
  /-- R117. An unhandled exception stops the steward core in FAULT and raises FAULT. -/
  | stewardFault (pg : Page) (cause : BitVec 16)
  /-- R128. A write of STW_LOAD_DATA stores one word at STW_LOAD_ADDR and advances it by 4. -/
  | stewardLoadWord (pg : Page) (ag : Agent) (w : Word)
  /-- R143. At each 250 ns boundary the class and ceiling token buckets are refilled and the calendar slot is
      served. -/
  | shaperRefill
  /-- R144. A waiting egress frame whose class bucket, ceiling and gate allow it starts on the egress stream and is
      debited. -/
  | frameStart
  /-- R95. The last beat of an egress frame is accepted, and fclk_req falls when no work remains. -/
  | frameSent
  /-- R148. At a cycle boundary or at the end of an entry's duration the gate control list moves to its next entry
      and opens its classes. -/
  | gateEntryAdvance
  /-- R138. A WRITE command writes COUNT consecutive Tally registers, stopping at the first refused word, and is
      answered by a RESPONSE. The frame and the operands of its plaintext. -/
  | write (f : InFrame) (page : BitVec 6) (off : BitVec 12) (count : Byte) (data : List Word)
  /-- R138. A READ command returns COUNT consecutive Tally registers in its RESPONSE. The frame and the operands of
      its plaintext. -/
  | read (f : InFrame) (page : BitVec 6) (off : BitVec 12) (count : Byte)
  /-- R138. An ARM command writes the appointment time and ARM on each named page in ascending order and reports the
      refused pages. The frame, the pages and the appointment: seconds [95:32], nanoseconds [31:0]. -/
  | arm (f : InFrame) (mask : BitVec 64) (appt : BitVec 96)
  /-- R138. The CAP action writes the staged CAP_CODE and arms the CAP page for its appointment. The frame, the code
      and the appointment. -/
  | cap (f : InFrame) (code : BitVec 12) (appt : BitVec 96)
  /-- R418. A KEYLOAD command unwraps a job or command key and installs it as NEXT for its epoch. The fields of
      R418's plaintext; `ok`: the unwrap succeeds, `key` the key it gives. -/
  | keyload (f : InFrame) (kind : Byte) (epoch : Word) (appt : BitVec 96) (ok : Bool) (key : Nat)
  /-- R336. The DIGEST action writes the slot's digest cadence EVERY and FIRST. The action's operands (R336). -/
  | digest (f : InFrame) (every : BitVec 16) (first : Word)
  /-- R345. The REPLAY action orders a replay of state s, derives the digest keys of its epoch and moves the engine
      towards RPL_WAIT. The action's operands (R345). -/
  | replay (f : InFrame) (step : Word) (id : BitVec 16) (shift : BitVec 6) (epoch : Word)
  /-- R349. The OBSERVE action loads the observation end and test period and raises OBSERVE. END and TEST_S of R349. -/
  | observe (f : InFrame) (endSec : BitVec 64) (endNs : Word) (testS : BitVec 16)
  /-- R419. A signed EPOCH-0 bootstrap COMMAND installs the site command key on a Tally without one. The KEYLOAD
      plaintext's KIND and EPOCH; `anchor` the SHA-384 of the public key carried; whether the signature holds; the
      unwrap and its key. -/
  | bootstrap (f : InFrame) (kind : Byte) (epoch : Word) (anchor : Nat) (sigOk : Bool) (ok : Bool) (key : Nat)
  /-- R141. A VERDICT frame passing the inlet checks updates the site time state, SEAL_VERD_* and the verdict buffer
      and raises VERDICT. The frame and its plaintext. -/
  | verdictAccept (f : InFrame) (plain : List Byte)
  /-- R135. Four windows plus 1,100 µs after the last window of an old epoch the Tally discards the slot's previous
      key. -/
  | prevKeyDiscard (slot : Nat)
  /-- R420. Ten seconds after a command key's appointment the PREVIOUS command key is no longer accepted. -/
  | cmdKeyOverlapEnd
  /-- R170. A frame received on a fabric port is timestamped, checked for FCS, UDP port, version and segments, and
      forwarded to its unit's ingest die. Port F0–F9; the SFD's bit position in its codeword (R81). -/
  | qrpFrameRx (port : Nat) (pos : Nat) (f : QFrame)
  /-- R174. A reassembled record passes the acceptance checks and is reduced, tabled as on time or late, or refused
      and counted. The ingest die; whether the plaintext reads poisoned in the ingest buffer (check 13). -/
  | recordRx (d : Nat) (poison : Bool)
  /-- R174. A record whose segments are not all present within REASM_US is discarded whole with TIMEOUT. The ingest
      die, 56–63. -/
  | reasmTimeout (d : Nat)
  /-- R340. A DIGEST frame is checked and its report summed per state, round and replica group in both Trestle
      lanes. The ingest die; whether the two lanes of the sum agree (0), differ and agree when made again (1), or
      stay different (2); whether the plaintext reads poisoned. -/
  | digestReportRx (d lanes : Nat) (poison : Bool)
  /-- R176. A RESPONSE frame is checked against the command key and resolves the journal command it answers. The I/O
      die whose queue of received RESPONSEs is taken. -/
  | responseRx (d : Nat)
  /-- R179. At the seal deadline revision 0 of a job window closes and every ingest die sends its partial state to
      the home die. Job slot and window; the ingest dies (0–7) whose lanes differ at the snapshot, and those whose
      field states read poisoned. -/
  | sealDeadline (slot : Nat) (n : Nat) (mism : List Nat) (poison : List Nat)
  /-- R172. When all eight partials have arrived the home die merges them in two lanes, compares the lanes and
      issues the Hub aggregate. `mism`: the lanes of the merge differ. -/
  | hubAggregateIssue (slot : Nat) (n : Nat) (mism : Bool)
  /-- R189. Completion of a re-reduction replaces the failed partial when both lanes agree, or withholds the
      revision with LANE_EXCL. -/
  | reReductionDone (slot : Nat) (n : Nat) (agree : Bool)
  /-- R199. A partial that has not reached the home die by the seal deadline + 40 µs raises MERGE_LATE. -/
  | mergeLate (slot : Nat) (n : Nat)
  /-- R180. At the late horizon revision 1 is snapshot and merged when a late record was accepted, and the window's
      identities expire. As SEAL_DEADLINE. -/
  | lateHorizon (slot : Nat) (n : Nat) (mism : List Nat) (poison : List Nat)
  /-- R193. An aggregate frame set from another Hub is checked, deduplicated and merged, and the aggregate is issued
      again with a higher revision. The I/O die that takes the frame set. -/
  | aggregateRx (d : Nat) (f : AggFrame)
  /-- R192. At the seal deadline + 60 µs the group aggregate is issued and sent to the job's site lead Hub. -/
  | groupAggregateIssue (slot : Nat) (n : Nat) (mism : Bool)
  /-- R192. At the seal deadline + 340 µs the lead Hub issues the site aggregate to the other sites' leads and to
      its site's Hubs. -/
  | siteAggregateIssue (slot : Nat) (n : Nat) (mism : Bool)
  /-- R54. At the seal deadline + 340 µs + D each lead Hub issues the fleet aggregate, flagging missing sites. -/
  | fleetAggregateIssue (slot : Nat) (n : Nat) (mism : Bool)
  /-- R193. After the late horizon of window n plus HOLD ms further contributions are discarded and counted. -/
  | aggregateHoldExpiry (slot : Nat) (n : Nat)
  /-- R229. DPUSH copies a descriptor into a queue and returns its ticket, stalling while the queue is full. The
      tile; rd; the value of rs1; the queue. -/
  | dpush (t : Nat) (rd : BitVec 5) (rs1 : Word) (q : BitVec 2)
  /-- R229. DTRY copies a descriptor into a queue if there is room, or returns 0xFFFF_FFFF. As DPUSH. -/
  | dtry (t : Nat) (rd : BitVec 5) (rs1 : Word) (q : BitVec 2)
  /-- R229. DWAIT stalls until a ticket is complete and returns its status word. As DPUSH. -/
  | dwait (t : Nat) (rd : BitVec 5) (rs1 : Word) (q : BitVec 2)
  /-- R229. DPOLL returns the last completed ticket and the number of descriptors held. As DPUSH. -/
  | dpoll (t : Nat) (rd : BitVec 5) (q : BitVec 2)
  /-- R230. A write of 1 bits to the tflags CSR clears those sticky flags. The tile and the word written. -/
  | tflagsClear (t : Nat) (v : Word)
  /-- R230. A write of the tsleep CSR requests GATED or PARKED for the tile. The tile and the word written. -/
  | tsleep (t : Nat) (v : Word)
  /-- R230. A write of 1 bits to the tevent CSR clears those event bits. The tile and the word written. -/
  | teventClear (t : Nat) (v : Word)
  /-- R251. A write of the tdone CSR reports the tile's window done and may let the verdict be assembled. The tile
      and the word written. -/
  | tdone (t : Nat) (v : Word)
  /-- R230. A write of the tmbox_out CSR sets TIL_MBOX_OUT and raises MBOX. The tile and the word written. -/
  | tmboxOut (t : Nat) (v : Word)
  /-- R228. An exception taken with mtvec 0 stops the sequencer in FAULT and raises SEQ_FAULT. The tile, mcause, the
      core's pc and its mtvec. -/
  | sequencerException (t : Nat) (cause : Word) (pc : Word) (mtvec : Word)
  /-- R237. A descriptor at the head of its queue whose predecessor completed and dependencies are met is checked
      and starts or halts the queue. The tile and the queue. -/
  | descriptorStart (t : Nat) (q : BitVec 2)
  /-- R234. A MATMUL descriptor computes OUT = A × B (+ ACC) in chunks with one rounding per chunk. The tile whose
      running descriptor it is. -/
  | matmul (t : Nat)
  /-- R272. A TREE descriptor evaluates ensemble trees over feature rows into exact accumulators and optionally
      final linked scores. As MATMUL. -/
  | tree (t : Nat)
  /-- R236. A COPY descriptor moves rows bit for bit between local SRAM, other tiles, peer tiles and HBM. As MATMUL;
      of a PEER_TILE source or destination: the rows the peer serves before it refuses with `code` (0: none), the
      bytes it reads, row after row, and whether they are poisoned. -/
  | copy (t : Nat) (rows code : Nat) (data : List Nat) (poison : Bool)
  /-- R232. A FENCE descriptor completes as soon as its dependencies are met. The tile and the queue. -/
  | fence (t : Nat) (q : BitVec 2)
  /-- R223. VECTOR VOP ADD adds lanes, rounded once. The tile whose running VECTOR descriptor it is. -/
  | add (t : Nat)
  /-- R223. VECTOR VOP SUB subtracts lanes, rounded once. The tile whose running VECTOR descriptor it is. -/
  | sub (t : Nat)
  /-- R223. VECTOR VOP MUL multiplies lanes, rounded once. The tile whose running VECTOR descriptor it is. -/
  | mul (t : Nat)
  /-- R223. VECTOR VOP FMA computes a × b + c, rounded once. The tile whose running VECTOR descriptor it is. -/
  | fma (t : Nat)
  /-- R224. VECTOR VOP DIV divides FP32 lanes, correctly rounded. The tile whose running VECTOR descriptor it is. -/
  | div (t : Nat)
  /-- R224. VECTOR VOP SQRT takes the correctly rounded FP32 square root. The tile whose running VECTOR descriptor
      it is. -/
  | sqrt (t : Nat)
  /-- R224. VECTOR VOP RCP takes the correctly rounded FP32 reciprocal. The tile whose running VECTOR descriptor it
      is. -/
  | rcp (t : Nat)
  /-- R224. VECTOR VOP RSQRT takes the correctly rounded FP32 reciprocal square root. The tile whose running VECTOR
      descriptor it is. -/
  | rsqrt (t : Nat)
  /-- R224. VECTOR VOP EXP2 takes the correctly rounded FP32 power of two. The tile whose running VECTOR descriptor
      it is. -/
  | exp2 (t : Nat)
  /-- R224. VECTOR VOP LOG2 takes the correctly rounded FP32 base-2 logarithm. The tile whose running VECTOR
      descriptor it is. -/
  | log2 (t : Nat)
  /-- R224. VECTOR VOP MIN takes the smaller lane value under the NaN and signed-zero rules. The tile whose running
      VECTOR descriptor it is. -/
  | min (t : Nat)
  /-- R224. VECTOR VOP MAX takes the larger lane value under the NaN and signed-zero rules. The tile whose running
      VECTOR descriptor it is. -/
  | max (t : Nat)
  /-- R224. VECTOR VOP CMP.EQ writes a lane mask of equality. The tile whose running VECTOR descriptor it is. -/
  | cmpEq (t : Nat)
  /-- R224. VECTOR VOP CMP.NE writes a lane mask of inequality. The tile whose running VECTOR descriptor it is. -/
  | cmpNe (t : Nat)
  /-- R224. VECTOR VOP CMP.LT writes a lane mask of less-than. The tile whose running VECTOR descriptor it is. -/
  | cmpLt (t : Nat)
  /-- R224. VECTOR VOP CMP.LE writes a lane mask of less-or-equal. The tile whose running VECTOR descriptor it is. -/
  | cmpLe (t : Nat)
  /-- R223. VECTOR VOP ABS clears the sign bit of each lane. The tile whose running VECTOR descriptor it is. -/
  | abs (t : Nat)
  /-- R223. VECTOR VOP NEG inverts the sign bit of each lane. The tile whose running VECTOR descriptor it is. -/
  | neg (t : Nat)
  /-- R212. VECTOR VOP CVT converts between formats with one rounding, MX scaling and special-value rules. The tile
      whose running VECTOR descriptor it is. -/
  | cvt (t : Nat)
  /-- R223. VECTOR VOP CVT.FX converts FP32 to a 64-bit fixed-point integer in a pair of INT32 lanes. The tile whose
      running VECTOR descriptor it is. -/
  | cvtFx (t : Nat)
  /-- R223. VECTOR VOP IADD adds INT32 lanes modulo 2^32 with carry in and out through lane masks. The tile whose
      running VECTOR descriptor it is. -/
  | iadd (t : Nat)
  /-- R223. VECTOR VOP ISUB subtracts INT32 lanes modulo 2^32 with borrow through lane masks. The tile whose running
      VECTOR descriptor it is. -/
  | isub (t : Nat)
  /-- R223. VECTOR VOP IMUL.LO returns the low word of the 64-bit product. The tile whose running VECTOR descriptor
      it is. -/
  | imulLo (t : Nat)
  /-- R223. VECTOR VOP IMUL.HI returns the signed high word of the 64-bit product. The tile whose running VECTOR
      descriptor it is. -/
  | imulHi (t : Nat)
  /-- R223. VECTOR VOP IMULU.HI returns the unsigned high word of the 64-bit product. The tile whose running VECTOR
      descriptor it is. -/
  | imuluHi (t : Nat)
  /-- R223. VECTOR VOP SHL shifts INT32 lanes left by counts modulo 32. The tile whose running VECTOR descriptor it
      is. -/
  | shl (t : Nat)
  /-- R223. VECTOR VOP SHR shifts INT32 lanes right logically. The tile whose running VECTOR descriptor it is. -/
  | shr (t : Nat)
  /-- R223. VECTOR VOP SRA shifts INT32 lanes right arithmetically. The tile whose running VECTOR descriptor it is. -/
  | sra (t : Nat)
  /-- R223. VECTOR VOP AND takes the bitwise AND of lanes. The tile whose running VECTOR descriptor it is. -/
  | and (t : Nat)
  /-- R223. VECTOR VOP OR takes the bitwise OR of lanes. The tile whose running VECTOR descriptor it is. -/
  | or (t : Nat)
  /-- R223. VECTOR VOP XOR takes the bitwise XOR of lanes. The tile whose running VECTOR descriptor it is. -/
  | xor (t : Nat)
  /-- R223. VECTOR VOP IMIN takes the signed or unsigned minimum of INT32 lanes. The tile whose running VECTOR
      descriptor it is. -/
  | imin (t : Nat)
  /-- R223. VECTOR VOP IMAX takes the signed or unsigned maximum of INT32 lanes. The tile whose running VECTOR
      descriptor it is. -/
  | imax (t : Nat)
  /-- R235. VECTOR VOP ICMP writes a lane mask of the selected signed or unsigned integer predicate. The tile whose
      running VECTOR descriptor it is. -/
  | icmp (t : Nat)
  /-- R231. A descriptor completes, its ticket becomes complete and its writes and flags become visible. The tile
      and the queue. -/
  | descriptorComplete (t : Nat) (q : BitVec 2)
  /-- R237. Writing TIL_QCTRL.FLUSH completes held descriptors with STATE and resumes a halted queue. The tile, who
      writes, the queues. -/
  | queueFlush (t : Nat) (ag : Agent) (mask : BitVec 4)
  /-- R162. Writing TIL_CTRL.WAKE starts waking a GATED or PARKED tile. -/
  | wake (t : Nat) (ag : Agent)
  /-- R162. Writing TIL_CTRL.GATE requests GATED once the tile's queues drain. -/
  | gate (t : Nat) (ag : Agent)
  /-- R250. Writing TIL_CTRL.PARK requests PARKED, served as GATE or not at all near the next wake instant. -/
  | park (t : Nat) (ag : Agent)
  /-- R162. After its queues drain a tile completes entry into GATED or PARKED and the sequencer becomes ASLEEP. -/
  | tileSleepEntered (t : Nat)
  /-- R162. A waking tile reaches ACTIVE and its sequencer resumes. -/
  | tileWakeDone (t : Nat)
  /-- R228. Writing TIL_CTRL.SEQ_START starts a HALTED sequencer at TIL_SEQ_CFG.ENTRY. -/
  | seqStart (t : Nat) (ag : Agent)
  /-- R228. Writing TIL_CTRL.SEQ_HALT halts the sequencer and flushes every queue. -/
  | seqHalt (t : Nat) (ag : Agent)
  /-- R254. Writing TIL_CTRL.RETIRE stops the sequencer, discards its descriptors and power gates the tile until
      package reset. -/
  | tileRetire (t : Nat) (ag : Agent)
  /-- R257. A Cabinet write of TIL_MBOX_IN sets tevent.MBOX. -/
  | mboxInWrite (t : Nat) (ag : Agent) (v : Word)
  /-- R249. At T + ACTIVE_OFS − 25 µs or − 2 µs the tile's always-on schedule wakes a PARKED or GATED tile. -/
  | scheduledWake (t : Nat)
  /-- R249. At T + ACTIVE_OFS twin takes the closed window's index and WAKE is set, and a tile not ACTIVE counts
      WAKE_LATE. -/
  | activeInstant (t : Nat)
  /-- R251. At VERD_OFS − 10 µs the verdict is assembled if every tile is done, and tiles not done count DONE_LATE.
      The job slot and the window. -/
  | verdictAssembly (slot n : Nat)
  /-- R316. The tile set issues the verdict record to the ring and sends unit frames and action commands to the
      members. The job slot, the window, the revision of the Hub aggregate judged (0, 1); the drift scores the image
      has written; the tiles of peer Hubs that report the window done (hub index, tile). -/
  | verdictIssue (slot n rev : Nat) (scores : List Score) (peers : List (Nat × Nat))
  /-- R51. At the seal deadline of window n + 4 a verdict not yet issued is abandoned and recorded as missing. The
      job slot and the window. -/
  | verdictAbandon (slot n : Nat)
  /-- R353. In a check window the Cabinet signals the check rank, compares the two output regions bit for bit and
      sets CHECKED or lists HUB_FAULT CHECK. The job slot and the window; none at the window's WAKE, then the output
      regions the rank's tile and the check tile report (address, length); the region of a rank that a peer Hub
      holds. -/
  | checkWindow (slot n : Nat) (regions : Option ((Nat × Nat) × (Nat × Nat))) (peer : List Nat)
  /-- R354. A self-test chunk runs while the tile would otherwise sleep and is compared with its signature, retiring
      the tile on failure. The tile; whether the chunk equals its stored signature. -/
  | selftestChunk (t : Nat) (ok : Bool)
  /-- R356. A partition fault starts re-placement, a move to a peer Hub or a partition reset of the job's tile set
      on a free recovery engine. The job, the placement the Cabinet finds, the peer Hub that could hold the set. -/
  | partitionRecovery (job : Nat) (place : Option Placement) (peer : Option Nat)
  /-- R289. After its late horizon the table MD tapes the window's marker and records into the streams and closes
      blocks and summaries. `slot` the job slot, `n` the window, `poison` the units whose record reads poisoned in
      the window table. -/
  | tapeWindow (slot n : Nat) (poison : List Nat)
  /-- R295. An engine finishes compressing and verifying a block, which is committed to the data and index rings or
      retried or lost. `m` the memory-side die (0–7), `b` the place of the block among those that wait there, `eng`
      the engine, `frame` the frame it built. -/
  | blockCompressDone (m b eng : Nat) (frame : List Nat)
  /-- R298. Writing TAP_SCAN_CTRL.START begins a scan of one tier or refuses it ABORTED. `m` the memory-side die
      (0–7), `v` the word written to TAP_SCAN_CTRL, its START bit taken as 1. -/
  | scanStart (m : Nat) (ag : Agent) (v : Word)
  /-- R306. Writing TAP_SCAN_CTRL.ABORT ends a RUNNING scan ABORTED. `m` the memory-side die (0–7), `v` the word
      written to TAP_SCAN_CTRL, its ABORT bit taken as 1. -/
  | scanAbort (m : Nat) (ag : Agent) (v : Word)
  /-- R299. When the ring has room the MD reads, decompresses if asked, and writes the next matching block into the
      scan ring. `m` the memory-side die (0–7), `eng1` the engine that decompresses, `fail1` and `fail2` whether it
      and the second engine fail. -/
  | scanDeliver (m eng1 : Nat) (fail1 fail2 : Bool)
  /-- R299. No change of CONSUMED for TIMEOUT ms ends the scan ABORTED with TIMEOUT. `m` the memory-side die (0–7). -/
  | scanTimeout (m : Nat)
  /-- R286. The HBM patrol reads and corrects each granule of the range once per MEM_SCRUB.HOURS and raises
      SCRUB_DONE per pass. `m` the memory-side die (0–7); the 32-byte granules the pass found with a correctable and
      an uncorrectable error. -/
  | patrol (m : Nat) (corr unc : List Nat)
  /-- R303. After a TAP soft reset the manager recovers head and tail from the index rings and sets READY. `m` the
      memory-side die (0–7). -/
  | tapRecoveryDone (m : Nat)
  /-- R305. A Cabinet write of MEM_INJ_CTRL arms a correctable or uncorrectable error for the next write of the
      granule. `m` the memory-side die (0–7), `v` the word written to MEM_INJ_CTRL. -/
  | errorInject (m : Nat) (ag : Agent) (v : Word)
  /-- R307. Writing 1 to a CMP_ENG_EN bit returns an out-of-service engine to service. `pg` the CMP page, `v` the
      word written to CMP_ENG_EN. -/
  | engineEnableWrite (pg : Page) (ag : Agent) (v : Word)
  /-- R315. A correlation search completes and its connected sets are reported in the next verdict and the journal
      entry. The journal entry of the search; the connected sets, each unit with the FP32 coefficient it has with
      the set's lowest unit. -/
  | correlationDone (entry : Nat) (sets : List (List (Nat × Nat)))
  /-- R338. A digest or replay digest finishes reading its extents, or ends on err, and sends its report. Whether a
      beat returned err; the bytes of the host's memory the reads returned, by address (an address not listed holds
      0). -/
  | digestComplete (err : Bool) (mem : List (Nat × Byte))
  /-- R338. Writing DGS_CTRL.RPL_READY in RPL_WAIT starts digesting the replayed state. -/
  | rplReady (ag : Agent)
  /-- R338. Writing DGS_CTRL.RPL_DECLINE in RPL_WAIT returns the engine to IDLE and sends a DECLINED report. -/
  | rplDecline (ag : Agent)
  /-- R341. REPORT_WAIT_MS after the first report of a state a serving Hub sends its digest partial. -/
  | reportWaitExpiry (job step : Nat)
  /-- R341. A digest partial is checked, deduplicated and summed at a lead Hub, deciding the outcome when every
      partial is in. The I/O die that receives it. -/
  | dpartialRx (d : Nat) (f : DPart)
  /-- R341. 2 × REPORT_WAIT_MS after a state's first report reached its site the lead decides the outcome with what
      it holds. -/
  | outcomeWaitExpiry (job step : Nat)
  /-- R346. A unit with no replay report by REPLAY_WAIT_MS is named NO_REPLAY. -/
  | replayWaitExpiry (job : Nat)
  /-- R347. A replay not decided within its bound ends EXPIRED and its named units become suspects. -/
  | replayExpired (job : Nat)
  /-- R349. OBS_H after its last event a unit's observation ends and the policy's EVERY is restored when none
      remain. -/
  | observationEnd (job unit : Nat)
  /-- R367. Every 1 ms an aligned, enabled Reach port sends a HELLO. 0: L0, 1: L1. -/
  | reachHelloTx (l : Nat)
  /-- R368. A received Reach HELLO moves the port among CONNECT, UP and MISWIRED and records the peer's session. `l`
      the port, `ok` whether the Reach header is well formed, SENDER and PORT of the header, TX_SESSION and
      RX_SESSION. -/
  | reachHello (l : Nat) (ok : Bool) (sender port tx rx : Nat)
  /-- R368. No valid HELLO for HELLO_LOSS_MS, or lost alignment, moves the Reach port to DOWN. 0: L0, 1: L1. -/
  | helloLoss (l : Nat)
  /-- R371. A queued DATA frame is sent when the window and credit allow, lost frames first. 0: L0, 1: L1. -/
  | dataTx (l : Nat)
  /-- R375. A received Reach DATA frame is checked, stored and acknowledged. `l` the port, `pos` the SFD's bit
      position in its codeword (R81). -/
  | data (l pos : Nat) (f : RData)
  /-- R376. In SEQ order a held Reach frame is handed to ingest or forwarded when they can take it. 0: L0, 1: L1. -/
  | rxDeliver (l : Nat)
  /-- R373. A received ACK advances CUM, updates the round-trip estimate and credit and marks frames lost on
      evidence. `l` the port, `ok` whether the Reach header is well formed. -/
  | ack (l : Nat) (ok : Bool) (a : RAck)
  /-- R376. Within ACK_US of an unacknowledged accepted frame, or at once on a gap, the receiver sends an ACK. 0:
      L0, 1: L1. -/
  | ackTx (l : Nat)
  /-- R373. A frame's retransmission timer expires and the frame is retransmitted with RETX set. The frame's port
      and SEQ. -/
  | rtoExpiry (l seq : Nat)
  /-- R378. A frame unacknowledged RETX_MAX_MS after first transmission resets the session, re-offering young frames
      and abandoning old ones. 0: L0, 1: L1. -/
  | sessionReset (l : Nat)
  /-- R378. A frame still unacknowledged at age 2 × RETX_MAX_MS is released and counted ABANDONED. 0: L0, 1: L1. -/
  | frameAbandon (l : Nat)
  /-- R385. At the gateway job's seal deadline + 20 µs the GSI page updates each line from revision 0 and cross-
      checks pse edges. `l` the GSI page (0: XD6, 1: XD7), `slot` the gateway job's slot, `n` the window. -/
  | gsiUpdate (l slot n : Nat)
  /-- R166. Every 1 ms each peer port sends a hello naming board, hub index and port. 0–3: P0–P3. -/
  | peerHelloTx (p : Nat)
  /-- R166. A received peer hello moves the port to UP or MISWIRED. The port, and what the hello names. -/
  | peerHello (p board hub port : Nat)
  /-- R166. No peer hello for 4 ms takes the port out of UP and removes spanning tiles from tile sets. 0–3: P0–P3. -/
  | peerHelloLoss (p : Nat)
  /-- R397. Every 1 µs the die estimators give a sample tested against the fast, 1 ms and sustained limits and added
      to the energy counters. The raw energies of the components: die field, for a tile's component the global tile
      and the queue (0–3, 4: TILE), the raw value. -/
  | powerEstimateSample (raw : List (Nat × Option (Nat × Nat) × Nat))
  /-- R397. An enabled vr_alert_n going low sets the FAST_VR ceiling to PWR_THR_LEVEL. The input vr_alert_n[k]. -/
  | vrAlert (k : Nat)
  /-- R397. A brd_thr_n going low sets the BOARD ceiling to PWR_THR_LEVEL. The input brd_thr_n[k]. -/
  | boardThrottle (k : Nat)
  /-- R397. At a cause's raising interval while clear its ceiling rises by one level. The cause, by its code of R408
      (1 FAST_VR to 6 THERM). -/
  | ceilingRaise (c : Nat)
  /-- R398. At the broadcast application tick every compute die switches to the new frequency level. -/
  | levelApply
  /-- R401. Every 10 ms the controller reads READ_VOUT and READ_IOUT of every listed regulator. For each listed
      regulator its READ_VOUT (mV) and READ_IOUT (mA), none where the transaction failed twice. -/
  | pmbusPoll (readings : List (Option (Nat × Nat)))
  /-- R400. pmb_alert_n is answered by a status read of each device. -/
  | pmbusAlert
  /-- R402. Every 100 ms each die class's GAIN is moved toward the regulators' energy or held STALE. -/
  | calibration
  /-- R403. A die's 100 µs junction reading lowers or raises the THERM ceiling or trips therm_trip_n. The die field
      and its hottest junction sensor, °C. -/
  | thermalReading (die temp : Nat)
  /-- R393. Setting PWR_LOCK.LOCK on the Hub freezes the limits and throttle level until package reset. `v` the bit
      written. -/
  | hubPwrLockWrite (ag : Agent) (v : Bool)
  /-- R431. SEC_LOAD_CTRL OP INSTALL unwraps a key record from HBM into a key slot of every security engine. `d` the
      die field of the I/O die whose page is written. -/
  | install (d : Nat) (ag : Agent)
  /-- R431. SEC_LOAD_CTRL OP ERASE erases one key slot. `d` the die field of the I/O die whose page is written. -/
  | erase (d : Nat) (ag : Agent) (slot : BitVec 12)
  /-- R431. Writing SEC_ZEROIZE with 0x5A45_524F erases every key but the identity. `d` the die field of the I/O die
      whose page is written, `v` the word. -/
  | zeroize (d : Nat) (ag : Agent) (v : Word)
  /-- R417. OVERLAP_MS after its successor's appointment a PREVIOUS job key is discarded at the Hub. The key slot
      (R431). -/
  | keyDiscard (slot : Nat)
  /-- R415. Every ROLL_S seconds a job's key epoch rolls as a fleet-level change. The job. -/
  | keyRoll (job : Nat)
  /-- R424. A TLS 1.3 mutual handshake on MA or MB opens an operator or tenant session or is refused. 0 MA, 1 MB;
      whether the settings are those of R424; whether the client certificate chains to the operator CA and names one
      role; none an operator, or a tenant's jobs; the certificate's hash. -/
  | mgmtSessionOpen (port : Nat) (tls chains : Bool) (role : Option (List Nat)) (cert : Nat)
  /-- R475. A management session idle for 300 s is closed. The session. -/
  | sessionIdle (ses : Nat)
  /-- R425. SPDM GET_VERSION is answered. The session and the REQ_ID. -/
  | getVersion (ses req : Nat)
  /-- R425. SPDM GET_CAPABILITIES is answered. The session and the REQ_ID. -/
  | getCapabilities (ses req : Nat)
  /-- R425. SPDM NEGOTIATE_ALGORITHMS selects P-384 and SHA-384. The session, the REQ_ID; whether the requester
      offers these algorithms. -/
  | negotiateAlgorithms (ses req : Nat) (offered : Bool)
  /-- R425. SPDM GET_DIGESTS returns the digests of certificate slots 0 and 1. The session and the REQ_ID. -/
  | getDigests (ses req : Nat)
  /-- R425. SPDM GET_CERTIFICATE returns a certificate chain. The session, the REQ_ID, the slot. -/
  | getCertificate (ses req slot : Nat)
  /-- R425. SPDM CHALLENGE is answered with an identity-key signature. The session, the REQ_ID, the slot, the nonce. -/
  | challenge (ses req slot nonce : Nat)
  /-- R425. SPDM GET_MEASUREMENTS returns the five measurements. The session, the REQ_ID; the measurement 1–5, or
      0xFF for all. -/
  | getMeasurements (ses req index : Nat)
  /-- R425. SPDM GET_CSR returns a request over a TLS key generated in the security engine. The session and the
      REQ_ID. -/
  | getCsr (ses req : Nat)
  /-- R425. SPDM SET_CERTIFICATE installs the operator's TLS certificate in slot 1. The session, the REQ_ID, the
      slot, the certificate's hash. -/
  | setCertificate (ses req slot cert : Nat)
  /-- R436. A write of BUR_POST_CTRL posts a FIRMWARE Bureau entry with the BUR_POST payload. The BUR page written,
      the poster, BUR_POST_CTRL's fields. -/
  | firmwarePost (pg : Page) (ag : Agent) (sev : BitVec 3) (detail : BitVec 12)
  /-- R438. An entry reaching the store takes the next SEQ, evicting an older entry or being dropped when full. -/
  | bureauPost (p : Part)
  /-- R441. A write of BUR_RD_SEQ_HI starts a lookup of the lowest stored SEQ at or above BUR_RD_SEQ. `hi` is the
      word written to BUR_RD_SEQ_HI. -/
  | bureauLookup (p : Part) (ag : Agent) (hi : Word)
  /-- R441. A lookup completes, clearing BUSY and capturing the entry or clearing FOUND. -/
  | bureauLookupDone (p : Part) (ag : Agent)
  /-- R450. Writing TRC_CTRL.ARM moves an IDLE trace unit to RUN or ARMED. The TRC page written. -/
  | traceArm (pg : Page) (ag : Agent)
  /-- R450. Writing TRC_CTRL.STOP moves an ARMED or RUN trace unit to HOLD. The TRC page written. -/
  | traceStop (pg : Page) (ag : Agent)
  /-- R450. Writing TRC_CTRL.CLEAR returns a HOLD trace unit to IDLE. The TRC page written. -/
  | traceClear (pg : Page) (ag : Agent)
  /-- R450. A trace comparator fires and starts, stops or triggers recording. The TRC page and the comparator; for
      the kinds PC, TRAP and BUREAU the command is the event. -/
  | traceComparator (pg : Page) (c : BitVec 3)
  /-- R449. When FIFO room returns after lost packets the unit writes OVERFLOW and SYNC packets and raises OVERFLOW.
      The TRC page, the bytes lost since the previous OVERFLOW, the sources that lost packets with the address of
      their next instruction. -/
  | traceOverflow (pg : Page) (lost : Nat) (syncs : List (Nat × Word))
  /-- R453. FRZ_DUR µs after the freeze instant a TIMED freeze releases itself. The FRZ page. -/
  | timedRelease (pg : Page)
  /-- R453. FRZ_LIMIT ms after the freeze instant a frozen unit releases itself and raises AUTO_REL. The FRZ page. -/
  | autoRelease (pg : Page)
  /-- R468. Release of hub_por_n runs the boot phases from mask ROM to SERVICE or SAFE. -/
  | hubPor (b : BootIn)
  /-- R484. Release of hub_rst_n performs a package reset and runs boot again. -/
  | hubReset (b : BootIn)
  /-- R471. An ENUM frame on cab_chain_in gives the hub index, or after phase 4 raises CHAIN. The frame's two
      fields. -/
  | chainFrame (index type : BitVec 4)
  /-- R471. Every 1 ms an indexed Hub sends ENUM with its index. -/
  | chainEnumTx
  /-- R473. Every 1 ms the ACTIVE complex sends a heartbeat. -/
  | heartbeatTx
  /-- R473. After 10 missed heartbeats the STANDBY complex takes over, resets the other and resumes the journal.
      Whether the complex that was reset returns as STANDBY. -/
  | takeover (back : Bool)
  /-- R487. Writing CAB_CTRL.SWITCHOVER with the code hands the active role to the STANDBY complex. The die whose
      page is written, the writer, the word, whether the reset complex returns as STANDBY. -/
  | cabSwitchover (d : Nat) (ag : Agent) (v : Word) (back : Bool)
  /-- R487. Writing CAB_CTRL.RESET_PKG with the code performs a package reset. The die whose page is written, the
      writer, the word, the boot's inputs. -/
  | resetPkg (d : Nat) (ag : Agent) (v : Word) (b : BootIn)
  /-- R47. At the commit point a fleet-level change stands if every page reads ARMED, or is cancelled on every armed
      page. The journal entry; whether every other Hub's Cabinet has reported its steps done. -/
  | commitPoint (id : Nat) (others : Bool)
  /-- R482. A unit command unanswered within 5 ms is resolved by rounds of READs, bootstrap or UNREACHABLE. The unit
      and the outstanding command's sequence number. -/
  | responseTimeout (unit seq : Nat)
  /-- R477. Management HELLO replies device ID, population, role, hub index and boot count. The session and the
      REQ_ID. -/
  | hello (ses req : Nat)
  /-- R477. Management BOOT_STATUS replies CAB_STATE. The session and the REQ_ID. -/
  | bootStatus (ses req : Nat)
  /-- R477. Management REG_READ reads up to 256 Hub or Tally registers. The session, the REQ_ID, the address, the
      unit of a Tally's register, the words. -/
  | regRead (ses req : Nat) (a : RegAddr) (unit count : Nat)
  /-- R477. Management REG_WRITE writes up to 256 Hub or Tally registers under a journal entry. The session, the
      REQ_ID, the address, the unit of a Tally's register, the words. -/
  | regWrite (ses req : Nat) (a : RegAddr) (unit : Nat) (words : List Word)
  /-- R479. JOB_CREATE arms the ING, TRS, Tally pages and first key of a new job at one appointment. The session,
      the REQ_ID, the job, its roster, window length code, policies, field table, peer groups, the memory-side die
      (0–7) that holds its window table, the appointment in ns. -/
  | jobCreate (ses req job : Nat) (roster : Roster) (k : Nat) (v : VPolicy) (d : DPolicy) (p : KPolicy) (fields : List TField) (pg md : Nat) (appt : Option Nat)
  /-- R47. ROSTER_CHANGE checks, arms and commits a new roster generation and key epoch across the serving Hubs and
      units. The session, the REQ_ID, the job, its new roster; the record addresses (four words) of the Hubs that
      units move to; the appointment in ns. -/
  | rosterChange (ses req job : Nat) (roster : Roster) (addrs : List (Nat × List Nat)) (appt : Option Nat)
  /-- R308. POLICY_SET stages and appoints a job's verdict, digest or key policy. The session, the REQ_ID, the job,
      the policies to change, the appointment in ns. -/
  | policySet (ses req job : Nat) (v : Option VPolicy) (d : Option DPolicy) (p : Option KPolicy) (appt : Option Nat)
  /-- R479. JOB_DELETE clears the job's slots at its appointment, reads its energy and later erases its last key.
      The session, the REQ_ID, the job, the appointment in ns. -/
  | jobDelete (ses req job : Nat) (appt : Option Nat)
  /-- R247. IMAGE_LOAD checks, places, loads and arms a Weaja image on the job's tile set. The session, the REQ_ID,
      the job, the image, the binding set sent with it, the placement the Cabinet finds. -/
  | imageLoad (ses req job : Nat) (x : Weaja) (b : Option BindSet) (place : Option Placement)
  /-- R453. Management FREEZE arms a freeze, with a separate or TIMED release, on the named units. The session, the
      REQ_ID, the units and the dies of this Hub, the freeze and its release in ns. -/
  | freeze (ses req : Nat) (units dies : List Nat) (t : Nat) (release : Option Nat)
  /-- R302. SCAN_EXPORT runs a RAW scan on every MD and sends the blocks as sealed export frames. The session, the
      REQ_ID, the tier, the job, the span in 125 µs units, the fabric ports, the rate. -/
  | scanExport (ses req tier job lo hi : Nat) (ports : List Nat) (rate : Nat)
  /-- R315. CORRELATE starts a correlation search on free tiles over a T0 span. The session, the REQ_ID, the record
      field, the span of windows, the FP32 threshold. -/
  | correlate (ses req : Nat) (field : TField) (lo hi threshold : Nat)
  /-- R350. OBS_CLEAR clears a unit's observation and quarantine. The session, the REQ_ID, the job, the unit. -/
  | obsClear (ses req job unit : Nat)
  /-- R254. Management RETIRE retires a tile and records it in the persistent retirement list. The session, the
      REQ_ID, the tile. -/
  | retire (ses req tile : Nat)
  /-- R421. KEY_INSTALL installs a wrapped command or export key at an appointment. The session, the REQ_ID, the
      kind (2 COMMAND, 3 EXPORT), the epoch, the wrapped record of R431, the appointment in ns. -/
  | keyInstall (ses req kind epoch : Nat) (record : List Byte) (appt : Option Nat)
  /-- R480. JOURNAL_GET returns a journal entry by ID or request ID. The session, the REQ_ID; the journal ID, or
      none for the request's REQ_ID. -/
  | journalGet (ses req : Nat) (id : Option Nat) (reqId : Nat)
  /-- R480. JOURNAL_LIST returns up to 1,024 entries by state. The session, the REQ_ID, the state, the first ID, the
      count. -/
  | journalList (ses req st fromId count : Nat)
  /-- R426. VERDICTS_GET returns a job's verdict records, filtered for tenants. The session, the REQ_ID, the job,
      the first and last window. -/
  | verdictsGet (ses req job lo hi : Nat)
  /-- R426. SUMMARY_GET returns a job's one-second summaries, filtered for tenants. The session, the REQ_ID, the
      job, the first and last TAI second. -/
  | summaryGet (ses req job lo hi : Nat)
  /-- R427. ENERGY_GET returns a job's energy as power over 100 ms-aligned intervals. The session, the REQ_ID, the
      job, the interval in ns. -/
  | energyGet (ses req job lo hi : Nat)
  /-- R442. BUREAU_READ returns Bureau entries from a SEQ, reporting lost ones. The session, the REQ_ID, the first
      SEQ. -/
  | bureauRead (ses req fromSeq : Nat)
  /-- R478. SUBSCRIBE turns journal events and Bureau events above a severity on or off for the session. The
      session, the REQ_ID; journal events on or off; the Bureau severity threshold, none for off. -/
  | subscribe (ses req : Nat) (journal : Bool) (bureau : Option Nat)
  /-- R469. IMAGE_WRITE verifies an image and writes it over the copy that did not boot. The session, the REQ_ID,
      the image's version, whether it verifies; the content of a CONFIG image, none for a CABINET image. -/
  | imageWrite (ses req version : Nat) (ok : Bool) (cfg : Option CfgImage)
  /-- R473. Management SWITCHOVER hands the active role to the STANDBY complex. The session, the REQ_ID; whether the
      complex that was ACTIVE returns as STANDBY. -/
  | switchover (ses req : Nat) (back : Bool)
  /-- R484. Management RESET of kind PACKAGE performs a package reset. The session, the REQ_ID, the kind (1
      PACKAGE), what the boot finds. -/
  | reset (ses req kind : Nat) (b : BootIn)
  /-- R499. A write of TST_MODE takes a port out of service, moves a UCIe module to a half, or sets a loopback. The
      die field, the word written; the port or module is that of TST_SEL. -/
  | tstModeWrite (d : Nat) (ag : Agent) (v : Word)
  /-- R500. Writing TST_GEN.INJECT inverts one bit of the generated stream. The die field; the lane is that of
      TST_SEL. -/
  | inject (d : Nat) (ag : Agent)
  /-- R500. Writing TST_CHK.CLEAR zeroes the checker's bit and error counts. The die field; the lane is that of
      TST_SEL. -/
  | clear (d : Nat) (ag : Agent)
  /-- R501. A UCIe half with 16 retries in 1 ms, or failing its lane check, retrains the module on the other half or
      takes it DOWN. The die, the module, the half (0 lanes 0–31, 1 lanes 32–63). -/
  | halfFail (d m half : Nat)
  /-- R99. At each tb_clk tick the lanes' summed increments are counted into the mapped counters, and ticks with
      host_throttle, a cap or host_thr_cause bits are counted into the residency counters. Each lane with the sum of
      its increments and its nonzero cycles in the tick; the ev_clk cycles of the tick; host_thr_cause. -/
  | eventLaneCount (lanes : List (Nat × Nat × Nat)) (evCycles : Nat) (cause : BitVec 3)
  /-- R500. A TST checker seeded from 64 received bits sets LOCKED after 256 further error-free bits and starts
      counting TST_BITS and TST_ERR. The die field and the lane as TST_SEL names it. -/
  | checkerLocked (d kind index lane : Nat)
  /-- R500. A locked checker seeing 64 errors within 1,024 bits clears LOCKED, holds its counts and raises
      LOCK_LOST. The die field and the lane as TST_SEL names it; the errors counted since the checker locked. -/
  | lockLost (d kind index lane errs : Nat)
  /-- R451. A trace unit writes a line of source packets to its buffer, setting WRAPPED, or entering HOLD when the
      buffer is full in STOP_ON_FULL or TRC_POST KiB follow the trigger. The TRC page and the packets its sources
      have emitted. -/
  | traceLineWrite (pg : Page) (packets : List TPacket)
  /-- R83. The reference site's Hub receives a time-transfer exchange frame on a Reach port, timestamps it and
      answers with its own timestamped frame. -/
  | ttExchangeRx (port : Nat) (pos : Nat) (am : Nat)
  /-- R397. An enabled vr_alert_n returning high clears its PWR_VR bit and starts the 100 µs wait before the FAST
      ceiling may rise. The input vr_alert_n[k]. -/
  | vrAlertDeassert (k : Nat)
  /-- R397. A brd_thr_n returning high clears its PWR_VR bit and starts the hold count before the BOARD ceiling may
      rise. The input brd_thr_n[k]. -/
  | boardThrottleDeassert (k : Nat)
  /-- R81. A port's PCS gains or loses lane alignment, measuring deskew into LCS_TSC_STAT, updating TST_LINK.UP or
      CAB_MGMT link state and starting or stopping peer hellos. Ports F0–F9 0–9, P0–P3 10–13, L0–L1 14–15, MA 16, MB
      17; whether alignment is gained; the deskew measured. -/
  | laneAlignment (port : Nat) (up : Bool) (deskew : Nat)
  /-- R69. A source that delivers no measurement for MISS_LIMIT intervals makes its tracker invalid, and if it was
      selected the Hub switches to the next valid source. `src` in the encoding of R69. -/
  | trackerMissLimit (src : Nat)
  /-- R356. Re-placement, move or partition reset of a job's tile set completes, its verdicts resume and the
      recovery engine is freed for a waiting job. The job. -/
  | partitionRecoveryDone (job : Nat)
  /-- R503. Assertion of tly_test_mode forces host_throttle to 0 and cap_code to 0xFFF and leaves all Tally state
      undefined until tly_por_n. -/
  | tlyTestMode
  deriving DecidableEq, Repr

end Sys2Proof
end

