-- ==== Sys2Proof/Machine/Bits.lean ====
section
/-!
DEFINITION. Sys2Proof/Machine/Bits.lean: bit fields, sign extension, saturation, byte order and the shifts and
divisions of the spec's pseudocode (R65: shifts are arithmetic, divisions truncate toward zero).
-/
namespace Sys2Proof.Machine

/-- Bits [hi:lo] of a natural number. -/
def bits (x hi lo : Nat) : Nat := x / 2 ^ lo % 2 ^ (hi - lo + 1)

/-- Bit `n` of a natural number as a truth value. -/
def bit (x n : Nat) : Bool := x / 2 ^ n % 2 == 1

/-- A truth value as a one-bit field. -/
def b2n (b : Bool) : Nat := if b then 1 else 0

/-- Two's complement reading of a `w`-bit value. -/
def toSigned (w x : Nat) : Int :=
  if x % 2 ^ w < 2 ^ (w - 1) then (x % 2 ^ w : Nat) else ((x % 2 ^ w : Nat) : Int) - (2 ^ w : Nat)

/-- The `w`-bit two's complement form of an integer. -/
def ofSigned (w : Nat) (x : Int) : Nat := (x % ((2 ^ w : Nat) : Int)).toNat

/-- Clamp an integer to `[lo, hi]`. -/
def clamp (lo hi x : Int) : Int := if x > hi then hi else if x < lo then lo else x

/-- Arithmetic shift right (R65). -/
def sra (x : Int) (n : Nat) : Int := x.fdiv ((2 ^ n : Nat) : Int)

/-- Add with saturation at the largest value of a `w`-bit field. -/
def satAdd (w x d : Nat) : Nat := if x + d < 2 ^ w then x + d else 2 ^ w - 1

/-- A signed picosecond value as the offset registers show it (R91): a value beyond the range saturates at
0x7FFF_FFFF or 0x8000_0001; 0x8000_0000 stands for no valid measurement. -/
def offsetWord : Option Int → Nat
  | none => 0x80000000
  | some v => if v > 0x7FFFFFFF then 0x7FFFFFFF else if v < -0x7FFFFFFF then 0x80000001 else ofSigned 32 v

/-- The `n` bytes of a value, least significant first. -/
def leBytes : Nat → Nat → List Nat
  | 0, _ => []
  | n + 1, x => x % 256 :: leBytes n (x / 256)

/-- The `n` bytes of a value, most significant first. -/
def beBytes (n x : Nat) : List Nat := (leBytes n x).reverse

/-- The value of a list of bytes, least significant first. -/
def ofLe : List Nat → Nat
  | [] => 0
  | b :: bs => b % 256 + 256 * ofLe bs

/-- The value of a list of bytes, most significant first. -/
def ofBe (bs : List Nat) : Nat := ofLe bs.reverse

/-- The number of bits set in the `n` low bits of a value. -/
def popcount : Nat → Nat → Nat
  | 0, _ => 0
  | n + 1, x => x % 2 + popcount n (x / 2)

/-- Ceiling of a quotient. -/
def ceilDiv (a b : Nat) : Nat := (a + b - 1) / b

/-- The indices below `n` whose bits are set in `x`, ascending. -/
def setBits (n x : Nat) : List Nat := (List.range n).filter (bit x)

/-- Set or clear bit `n` of a value. -/
def putBit (x n : Nat) (v : Bool) : Nat :=
  if bit x n == v then x else if v then x + 2 ^ n else x - 2 ^ n

/-- A stable sort of a list, by structural recursion. -/
def insertLe {α : Type} (le : α → α → Bool) (x : α) : List α → List α
  | [] => [x]
  | a :: t => if le x a then x :: a :: t else a :: insertLe le x t
def sortLe {α : Type} (le : α → α → Bool) : List α → List α
  | [] => []
  | a :: t => insertLe le a (sortLe le t)

end Sys2Proof.Machine
end

