-- ==== Sys2Proof/Config.lean ====
section
/-!
DEFINITION. Sys2Proof/Config.lean: what an implementation fixes and what the spec leaves open. Every constant here is
opaque: it has no body, so nothing can be proved about its value.
-/
namespace Sys2Proof.Config

/-- A free value: one 32-bit value for each use, the use being numbered by `State.freeCtr` (log entry 2). -/
opaque freeWord : Nat → BitVec 32

/-- The 64-bit device ID of the Hub that SEC_ID reads ("per device", R430; log entry 5). -/
opaque deviceId : BitVec 64

/-- AES-256 of one block (FIPS 197, which R330 names and does not restate): key, block (log entry 10). -/
opaque aes256 : Nat → Nat → BitVec 128

/-- The key a wrapped-key record (R414, R431) unwraps to under this Hub's identity; none where the unwrap fails (log entry 3). -/
opaque unwrap : List Nat → Option (BitVec 256)

/-- The content a Compressed Zstandard block (RFC 8878, which R293 names and does not restate) stands for: none where it is malformed
(log entry 17). -/
opaque zstdBlock : List Nat → Option (List Nat)

/-- XXH64 with seed 0 of some content (named and not restated by R293; log entry 17). -/
opaque xxh64 : List Nat → BitVec 64

/-- The frame a compression engine makes of some content at a level (R293 leaves the search to the engine; log entry 17). -/
opaque zstdFrame : Nat → List Nat → List Nat

/-- D of R49 for a job at more than one site: the largest one-way Reach delay between two of its sites, ns (log entry 18). -/
opaque reachDelay : Nat → Nat

/-- R48: for a change of a job with members at more than one site, the largest one-way management-network delay between two of the sites, ns
(log entry 18). -/
opaque mgmtDelay : Nat → Nat

end Sys2Proof.Config
end

