-- ==== Sys2Proof/Machine/Fields.lean ====
section
/-!
DEFINITION. Sys2Proof/Machine/Fields.lean: every register field of the spec's register tables as a named place
(offset in the page, lowest bit, width), and the key of the register store. A field holds a natural number below
2^width. A read-only register pair _LO, _HI (and a time triple _NS, _SLO, _SHI) is one field, wide enough for the
whole value, named without the suffix and kept at the offset of its first half.
-/
namespace Sys2Proof.Machine

/-- The place of a register field inside a page: offset, lowest bit, width. -/
structure Fld where
  off : Nat
  lo : Nat
  w : Nat
  deriving DecidableEq, Repr

/-- The key of one stored register field: its page, its offset (0x800 added for the staged copy, R22), the index
of a banked register (0 where the register is not banked) and its lowest bit. -/
structure RegKey where
  pg : Page
  off : Nat
  idx : Nat
  lo : Nat
  deriving DecidableEq, Repr

/-- The key of a field on a page, at a bank index. -/
def Fld.key (f : Fld) (pg : Page) (i : Nat) : RegKey := ⟨pg, f.off, i, f.lo⟩

/-- The staged copy of a field (R22: at offset + 0x800). -/
def Fld.staged (f : Fld) : Fld := ⟨f.off + 0x800, f.lo, f.w⟩

namespace Reg

/-! ### The common page (R18, 01_conventions.md) -/

def BLK_CTRL_EN : Fld := ⟨0x008, 0, 1⟩
def BLK_CTRL_FRZ_P : Fld := ⟨0x008, 2, 1⟩
def BLK_STAT_FROZEN : Fld := ⟨0x00C, 2, 1⟩
def BLK_STAT_BUSY : Fld := ⟨0x00C, 1, 1⟩
def BLK_STAT_ERROR : Fld := ⟨0x00C, 4, 1⟩
def BLK_STAT_ASLEEP : Fld := ⟨0x00C, 3, 1⟩
def BLK_IRQ_STAT (n : Nat) : Fld := ⟨0x010, n, 1⟩
def BLK_IRQ_EN (n : Nat) : Fld := ⟨0x014, n, 1⟩
def BLK_SYNDROME_CODE : Fld := ⟨0x018, 0, 8⟩
def BLK_SYNDROME_COUNT : Fld := ⟨0x018, 16, 16⟩
def BLK_SYNDROME_INFO_OFFSET : Fld := ⟨0x01C, 0, 12⟩
def BLK_SYNDROME_INFO_AGENT : Fld := ⟨0x01C, 12, 2⟩
def BLK_SYNDROME_INFO_STAGED : Fld := ⟨0x01C, 14, 1⟩
def BLK_SYNDROME_INFO_DETAIL : Fld := ⟨0x01C, 16, 16⟩
def BLK_APPT_TIME_NS : Fld := ⟨0x020, 0, 32⟩
def BLK_APPT_TIME_SLO : Fld := ⟨0x024, 0, 32⟩
def BLK_APPT_TIME_SHI : Fld := ⟨0x028, 0, 32⟩
def BLK_APPT_CTRL_STATE : Fld := ⟨0x02C, 4, 2⟩
def BLK_APPT_CTRL_APPLIED_CNT : Fld := ⟨0x02C, 16, 16⟩

/-! ### Longcase (R89-R92, 03_longcase_time.md) -/

def LCS_NOW_NS : Fld := ⟨0x040, 0, 32⟩
def LCS_NOW_SLO : Fld := ⟨0x044, 0, 32⟩
def LCS_NOW_SHI : Fld := ⟨0x048, 0, 32⟩
def LCS_NOW_FRAC : Fld := ⟨0x04C, 0, 32⟩
def LCS_STATUS_TQ : Fld := ⟨0x050, 0, 8⟩
def LCS_STATUS_STEP_DONE : Fld := ⟨0x050, 8, 1⟩
def LCS_STATUS_SOURCE : Fld := ⟨0x050, 16, 4⟩
def LCS_GEN_GEN : Fld := ⟨0x054, 0, 16⟩
def LCS_GEN_LOADED : Fld := ⟨0x054, 16, 1⟩
def LCS_RATE : Fld := ⟨0x058, 0, 32⟩
def LCS_OFFSET : Fld := ⟨0x05C, 0, 32⟩
def LCS_STEP_NS : Fld := ⟨0x060, 0, 32⟩
def LCS_STEP_SLO : Fld := ⟨0x064, 0, 32⟩
def LCS_STEP_SHI : Fld := ⟨0x068, 0, 32⟩
def LCS_CTRL_AUTO_STEP : Fld := ⟨0x06C, 0, 1⟩
def LCS_CTRL_STEP : Fld := ⟨0x06C, 1, 1⟩
def LCS_CTRL_CLR_CNT : Fld := ⟨0x06C, 2, 1⟩
def LCS_SERVO_MISS_LIMIT : Fld := ⟨0x070, 0, 4⟩
def LCS_SERVO_LOCK_COUNT : Fld := ⟨0x070, 4, 4⟩
def LCS_SERVO_LOCK_THR : Fld := ⟨0x070, 8, 8⟩
def LCS_SERVO_KI_SHIFT : Fld := ⟨0x070, 16, 4⟩
def LCS_SERVO_KP_SHIFT : Fld := ⟨0x070, 20, 3⟩
def LCS_SERVO_SLEW_MAX : Fld := ⟨0x070, 23, 9⟩
def LCS_HOLD_DISAGREE_NS : Fld := ⟨0x074, 0, 16⟩
def LCS_HOLD_STABLE_MS : Fld := ⟨0x074, 16, 16⟩
def LCS_SRC_CFG_DOM_B : Fld := ⟨0x078, 0, 8⟩
def LCS_SRC_CFG_DOM_A : Fld := ⟨0x078, 8, 8⟩
def LCS_SRC_CFG_PRIO3 : Fld := ⟨0x078, 16, 4⟩
def LCS_SRC_CFG_PRIO2 : Fld := ⟨0x078, 20, 4⟩
def LCS_SRC_CFG_PRIO1 : Fld := ⟨0x078, 24, 4⟩
def LCS_SRC_CFG_PRIO0 : Fld := ⟨0x078, 28, 4⟩
def LCS_SRC_STAT_VALID : Fld := ⟨0x07C, 0, 4⟩
def LCS_SRC_STAT_SWITCHES : Fld := ⟨0x07C, 24, 8⟩
def LCS_SRC_OFS_A : Fld := ⟨0x080, 0, 32⟩
def LCS_SRC_OFS_B : Fld := ⟨0x084, 0, 32⟩
def LCS_SRC_OFS_BOARD : Fld := ⟨0x088, 0, 32⟩
def LCS_SRC_OFS_REACH : Fld := ⟨0x08C, 0, 32⟩
def LCS_TB_COMP : Fld := ⟨0x090, 0, 32⟩
def LCS_TB_STAT_HOST : Fld := ⟨0x094, 0, 2⟩
def LCS_TB_STAT_BAD_ANN : Fld := ⟨0x094, 16, 8⟩
def LCS_TB_STAT_MISSED : Fld := ⟨0x094, 24, 8⟩
def LCS_SITE_QUAL : Fld := ⟨0x098, 0, 2⟩
def LCS_PPS_OFS : Fld := ⟨0x09C, 0, 32⟩
def LCS_ASYM_W : Fld := ⟨0x0A0, 0, 32⟩
def LCS_ASYM_P : Fld := ⟨0x0A4, 0, 32⟩
def LCS_RTT_W : Fld := ⟨0x0A8, 0, 32⟩
def LCS_RTT_P : Fld := ⟨0x0AC, 0, 32⟩
def LCS_REACH_CFG_PORT : Fld := ⟨0x0B0, 3, 1⟩
def LCS_REACH_CFG_INTERVAL : Fld := ⟨0x0B0, 4, 4⟩
def LCS_REACH_CFG_RTT_JUMP : Fld := ⟨0x0B0, 8, 8⟩
def LCS_REACH_CFG_RTT_TOL : Fld := ⟨0x0B0, 16, 16⟩
def LCS_REACH_STAT_TRACKER : Fld := ⟨0x0B4, 4, 2⟩
def LCS_REACH_STAT_PATH : Fld := ⟨0x0B4, 6, 2⟩
def LCS_REACH_STAT_RUN_MS : Fld := ⟨0x0B4, 16, 16⟩
def LCS_ROLE_BOARD_LEAD : Fld := ⟨0x0B8, 0, 1⟩
def LCS_ROLE_TX_B : Fld := ⟨0x0B8, 1, 1⟩
def LCS_ROLE_REF_SITE : Fld := ⟨0x0B8, 2, 1⟩
def LCS_ROLE_DOM_BOARD : Fld := ⟨0x0B8, 8, 8⟩
def LCS_TSC_ADJ_RX_ADJ (n : Nat) : Fld := ⟨0x0C0 + 4 * n, 0, 16⟩
def LCS_TSC_ADJ_TX_ADJ (n : Nat) : Fld := ⟨0x0C0 + 4 * n, 16, 16⟩
def LCS_TSC_STAT_DESKEW (n : Nat) : Fld := ⟨0x100 + 4 * n, 0, 16⟩
def LCS_TSC_STAT_MODE (n : Nat) : Fld := ⟨0x100 + 4 * n, 30, 2⟩

/-! ### Tally identity and chain (R121, 04_tally_counting.md) -/

def TLY_UNIT_UNIT : Fld := ⟨0x040, 0, 24⟩
def TLY_UNIT_LOCKED : Fld := ⟨0x040, 31, 1⟩
def TLY_CHAIN_ADDR : Fld := ⟨0x044, 0, 4⟩
def TLY_CHAIN_ADDRESSED : Fld := ⟨0x044, 4, 1⟩
def TLY_CONFIG_MARK_LOG2 : Fld := ⟨0x048, 0, 4⟩
def TLY_CONFIG_GAUGE_LOG2 : Fld := ⟨0x048, 4, 4⟩
def TLY_CONFIG_PART_LOG2 : Fld := ⟨0x048, 8, 4⟩
def TLY_CONFIG_HOT_LOG2 : Fld := ⟨0x048, 12, 4⟩
def TLY_CONFIG_CNT_LOG2 : Fld := ⟨0x048, 16, 4⟩
def TLY_CONFIG_LANES_LOG2 : Fld := ⟨0x048, 20, 4⟩
def TLY_CONFIG_SLOTS : Fld := ⟨0x048, 24, 3⟩
def TLY_CONFIG_LITE : Fld := ⟨0x048, 31, 1⟩
def TLY_FCLK_LEAD : Fld := ⟨0x04C, 0, 8⟩
def TLY_FCLK_LATE : Fld := ⟨0x04C, 24, 8⟩

/-! ### counters (R122, 04) -/

def CNT_MAP_IDX : Fld := ⟨0x040, 0, 12⟩
def CNT_MAP_DATA0_JOBMASK : Fld := ⟨0x044, 0, 4⟩
def CNT_MAP_DATA0_QUEUE : Fld := ⟨0x044, 12, 4⟩
def CNT_MAP_DATA0_PART : Fld := ⟨0x044, 16, 4⟩
def CNT_MAP_DATA0_LANE : Fld := ⟨0x044, 20, 8⟩
def CNT_MAP_DATA0_MODE : Fld := ⟨0x044, 30, 2⟩
def CNT_MAP_DATA1 : Fld := ⟨0x048, 0, 24⟩
def CNT_VAL_IDX : Fld := ⟨0x04C, 0, 12⟩
def CNT_VAL : Fld := ⟨0x050, 0, 64⟩
def CNT_VAL_HI : Fld := ⟨0x054, 0, 32⟩
def CNT_GAUGE_IDX : Fld := ⟨0x058, 0, 4⟩
def CNT_GAUGE_CFG_JOBMASK : Fld := ⟨0x05C, 0, 4⟩
def CNT_GAUGE_CFG_SRC : Fld := ⟨0x05C, 28, 4⟩
def CNT_GAUGE_WLO : Fld := ⟨0x060, 0, 32⟩
def CNT_GAUGE_WHI : Fld := ⟨0x064, 0, 32⟩
def CNT_GAUGE_RLO : Fld := ⟨0x068, 0, 32⟩
def CNT_GAUGE_RHI : Fld := ⟨0x06C, 0, 32⟩

/-! ### hot set and windows (R123, 04) -/

def HOT_JOB (n : Nat) : Fld := ⟨0x040 + 4 * n, 0, 32⟩
def HOT_WIN_K0 : Fld := ⟨0x050, 0, 4⟩
def HOT_WIN_K1 : Fld := ⟨0x050, 4, 4⟩
def HOT_WIN_K2 : Fld := ⟨0x050, 8, 4⟩
def HOT_WIN_K3 : Fld := ⟨0x050, 12, 4⟩
def HOT_COUNT : Fld := ⟨0x054, 0, 10⟩
def HOT_LIST_IDX : Fld := ⟨0x058, 0, 9⟩
def HOT_LIST_DATA : Fld := ⟨0x05C, 0, 12⟩
def HOT_SLOW_BATCH : Fld := ⟨0x060, 0, 10⟩
def HOT_SLOW_SLOW_S : Fld := ⟨0x060, 16, 5⟩
def HOT_SLOW_CUR : Fld := ⟨0x064, 0, 12⟩
def HOT_STAT_WINDOWS : Fld := ⟨0x068, 0, 16⟩
def HOT_STAT_SAT : Fld := ⟨0x068, 16, 16⟩

/-! ### step marks (R124, 04) -/

def STP_MARK_TAG : Fld := ⟨0x040, 0, 16⟩
def STP_MARK_MARK_ID : Fld := ⟨0x040, 16, 12⟩
def STP_MARK_SLOT : Fld := ⟨0x040, 28, 2⟩
def STP_MARK_KIND : Fld := ⟨0x040, 30, 2⟩
def STP_STEP (n : Nat) : Fld := ⟨0x044 + 4 * n, 0, 32⟩
def STP_STAT_PENDING : Fld := ⟨0x054, 0, 9⟩
def STP_STAT_DROPPED : Fld := ⟨0x054, 16, 16⟩

/-! ### energy (R125, 04) -/

def NRG_OWNER_LO_SLOT0 : Fld := ⟨0x040, 0, 2⟩
def NRG_OWNER_LO_VALID0 : Fld := ⟨0x040, 3, 1⟩
def NRG_OWNER_LO_SLOT1 : Fld := ⟨0x040, 4, 2⟩
def NRG_OWNER_LO_VALID1 : Fld := ⟨0x040, 7, 1⟩
def NRG_OWNER_LO_SLOT2 : Fld := ⟨0x040, 8, 2⟩
def NRG_OWNER_LO_VALID2 : Fld := ⟨0x040, 11, 1⟩
def NRG_OWNER_LO_SLOT3 : Fld := ⟨0x040, 12, 2⟩
def NRG_OWNER_LO_VALID3 : Fld := ⟨0x040, 15, 1⟩
def NRG_OWNER_LO_SLOT4 : Fld := ⟨0x040, 16, 2⟩
def NRG_OWNER_LO_VALID4 : Fld := ⟨0x040, 19, 1⟩
def NRG_OWNER_LO_SLOT5 : Fld := ⟨0x040, 20, 2⟩
def NRG_OWNER_LO_VALID5 : Fld := ⟨0x040, 23, 1⟩
def NRG_OWNER_LO_SLOT6 : Fld := ⟨0x040, 24, 2⟩
def NRG_OWNER_LO_VALID6 : Fld := ⟨0x040, 27, 1⟩
def NRG_OWNER_LO_SLOT7 : Fld := ⟨0x040, 28, 2⟩
def NRG_OWNER_LO_VALID7 : Fld := ⟨0x040, 31, 1⟩
def NRG_OWNER_HI_SLOT0 : Fld := ⟨0x044, 0, 2⟩
def NRG_OWNER_HI_VALID0 : Fld := ⟨0x044, 3, 1⟩
def NRG_OWNER_HI_SLOT1 : Fld := ⟨0x044, 4, 2⟩
def NRG_OWNER_HI_VALID1 : Fld := ⟨0x044, 7, 1⟩
def NRG_OWNER_HI_SLOT2 : Fld := ⟨0x044, 8, 2⟩
def NRG_OWNER_HI_VALID2 : Fld := ⟨0x044, 11, 1⟩
def NRG_OWNER_HI_SLOT3 : Fld := ⟨0x044, 12, 2⟩
def NRG_OWNER_HI_VALID3 : Fld := ⟨0x044, 15, 1⟩
def NRG_OWNER_HI_SLOT4 : Fld := ⟨0x044, 16, 2⟩
def NRG_OWNER_HI_VALID4 : Fld := ⟨0x044, 19, 1⟩
def NRG_OWNER_HI_SLOT5 : Fld := ⟨0x044, 20, 2⟩
def NRG_OWNER_HI_VALID5 : Fld := ⟨0x044, 23, 1⟩
def NRG_OWNER_HI_SLOT6 : Fld := ⟨0x044, 24, 2⟩
def NRG_OWNER_HI_VALID6 : Fld := ⟨0x044, 27, 1⟩
def NRG_OWNER_HI_SLOT7 : Fld := ⟨0x044, 28, 2⟩
def NRG_OWNER_HI_VALID7 : Fld := ⟨0x044, 31, 1⟩
def NRG_IDX_QUEUE : Fld := ⟨0x048, 0, 4⟩
def NRG_IDX_PART : Fld := ⟨0x048, 4, 4⟩
def NRG_ACC : Fld := ⟨0x04C, 0, 64⟩
def NRG_ACC_HI : Fld := ⟨0x050, 0, 32⟩
def NRG_UNATTR : Fld := ⟨0x054, 0, 64⟩
def NRG_UNATTR_HI : Fld := ⟨0x058, 0, 32⟩
def NRG_TOTAL : Fld := ⟨0x05C, 0, 64⟩
def NRG_TOTAL_HI : Fld := ⟨0x060, 0, 32⟩
def NRG_STAT_NOACT : Fld := ⟨0x064, 0, 1⟩
def NRG_STAT_SAT : Fld := ⟨0x064, 1, 1⟩
def NRG_STAT_SPLITS : Fld := ⟨0x064, 16, 16⟩

/-! ### Tally power (R126, 04) -/

def PWR_V_LSB : Fld := ⟨0x040, 0, 8⟩
def PWR_I_LSB : Fld := ⟨0x044, 0, 8⟩
def PWR_LIM_INST : Fld := ⟨0x048, 0, 32⟩
def PWR_LIM_1MS : Fld := ⟨0x04C, 0, 32⟩
def PWR_LIM_10MS : Fld := ⟨0x050, 0, 32⟩
def PWR_HOLD : Fld := ⟨0x054, 0, 16⟩
def PWR_LOCK : Fld := ⟨0x058, 0, 1⟩
def PWR_NOW : Fld := ⟨0x05C, 0, 32⟩
def PWR_AVG1 : Fld := ⟨0x060, 0, 32⟩
def PWR_AVG10 : Fld := ⟨0x064, 0, 32⟩
def PWR_STAT_STATE : Fld := ⟨0x068, 0, 2⟩
def PWR_STAT_CAUSE : Fld := ⟨0x068, 2, 3⟩
def PWR_STAT_TRIPS : Fld := ⟨0x068, 16, 16⟩
def PWR_RES_LIM : Fld := ⟨0x06C, 0, 32⟩
def PWR_RES_CAP : Fld := ⟨0x070, 0, 32⟩
def PWR_RES_THERM : Fld := ⟨0x074, 0, 32⟩
def PWR_RES_HPWR : Fld := ⟨0x078, 0, 32⟩
def PWR_RES_LINK : Fld := ⟨0x07C, 0, 32⟩

/-! ### clock cap (R127, 04) -/

def CAP_CODE : Fld := ⟨0x040, 0, 12⟩
def CAP_FLOOR : Fld := ⟨0x044, 0, 12⟩
def CAP_TOP : Fld := ⟨0x048, 0, 12⟩
def CAP_STEP : Fld := ⟨0x04C, 0, 12⟩
def CAP_LOCK : Fld := ⟨0x050, 0, 1⟩
def CAP_STAT_ACK_TO : Fld := ⟨0x054, 8, 8⟩
def CAP_STAT_ACK_LAT : Fld := ⟨0x054, 16, 16⟩

/-! ### steward core (R128 04, R486 18) -/

def STW_CTRL_START : Fld := ⟨0x040, 0, 1⟩
def STW_CTRL_HALT : Fld := ⟨0x040, 1, 1⟩
def STW_STAT_STATE : Fld := ⟨0x044, 0, 2⟩
def STW_STAT_CAUSE : Fld := ⟨0x044, 16, 16⟩
def STW_LOAD_ADDR : Fld := ⟨0x048, 2, 15⟩
def STW_LOAD_DATA : Fld := ⟨0x04C, 0, 32⟩
def STW_IMG_LEN : Fld := ⟨0x050, 0, 17⟩
def STW_H2S : Fld := ⟨0x054, 0, 32⟩
def STW_S2H : Fld := ⟨0x058, 0, 32⟩
def STW_PC : Fld := ⟨0x05C, 0, 32⟩

/-! ### sealing (R152, 05) -/

def SEAL_CFG_SEG_MAX : Fld := ⟨0x040, 0, 14⟩
def SEAL_CFG_TC_RSP : Fld := ⟨0x040, 18, 3⟩
def SEAL_CFG_TC_DGS : Fld := ⟨0x040, 21, 3⟩
def SEAL_CFG_TC_REC : Fld := ⟨0x040, 24, 3⟩
def SEAL_CFG_PACK : Fld := ⟨0x040, 31, 1⟩
def SEAL_EPOCH (n : Nat) : Fld := ⟨0x044 + 4 * n, 0, 32⟩
def SEAL_KEYSTAT_CUR0 : Fld := ⟨0x054, 0, 1⟩
def SEAL_KEYSTAT_NEXT0 : Fld := ⟨0x054, 1, 1⟩
def SEAL_KEYSTAT_PREV0 : Fld := ⟨0x054, 2, 1⟩
def SEAL_KEYSTAT_CUR1 : Fld := ⟨0x054, 4, 1⟩
def SEAL_KEYSTAT_NEXT1 : Fld := ⟨0x054, 5, 1⟩
def SEAL_KEYSTAT_PREV1 : Fld := ⟨0x054, 6, 1⟩
def SEAL_KEYSTAT_CUR2 : Fld := ⟨0x054, 8, 1⟩
def SEAL_KEYSTAT_NEXT2 : Fld := ⟨0x054, 9, 1⟩
def SEAL_KEYSTAT_PREV2 : Fld := ⟨0x054, 10, 1⟩
def SEAL_KEYSTAT_CUR3 : Fld := ⟨0x054, 12, 1⟩
def SEAL_KEYSTAT_NEXT3 : Fld := ⟨0x054, 13, 1⟩
def SEAL_KEYSTAT_PREV3 : Fld := ⟨0x054, 14, 1⟩
def SEAL_KEYSTAT_CMD : Fld := ⟨0x054, 16, 1⟩
def SEAL_CMD_EPOCH : Fld := ⟨0x058, 0, 32⟩
def SEAL_CMD_SEQ : Fld := ⟨0x05C, 0, 64⟩
def SEAL_CMD_SEQ_HI : Fld := ⟨0x060, 0, 32⟩
def SEAL_INLET_STAT_UNIT_MISS : Fld := ⟨0x064, 0, 8⟩
def SEAL_INLET_STAT_REPLAYED : Fld := ⟨0x064, 8, 8⟩
def SEAL_INLET_STAT_AUTH : Fld := ⟨0x064, 16, 16⟩
def SEAL_ACT_STAT_ROSTER : Fld := ⟨0x068, 0, 16⟩
def SEAL_ACT_STAT_RATE : Fld := ⟨0x068, 16, 16⟩
def SEAL_RECORDS : Fld := ⟨0x06C, 0, 32⟩
def SEAL_VERD_W : Fld := ⟨0x070, 0, 64⟩
def SEAL_VERD_WHI : Fld := ⟨0x074, 0, 32⟩
def SEAL_VERD_INFO_LEN : Fld := ⟨0x078, 0, 12⟩
def SEAL_VERD_INFO_REV : Fld := ⟨0x078, 16, 8⟩
def SEAL_VERD_INFO_SLOT : Fld := ⟨0x078, 30, 2⟩
def SEAL_VBUF_IDX : Fld := ⟨0x07C, 0, 9⟩
def SEAL_VBUF_DATA : Fld := ⟨0x080, 0, 32⟩
def SEAL_DST (n : Nat) : Fld := ⟨0x084 + 4 * n, 0, 32⟩
def SEAL_HDR (n : Nat) : Fld := ⟨0x0C0 + 4 * n, 0, 32⟩
def SEAL_HDR16 : Fld := ⟨0x100, 16, 16⟩

/-! ### shaper and gates (R153, 05) -/

def SHP_PORT_RATE : Fld := ⟨0x040, 0, 11⟩
def SHP_CEIL : Fld := ⟨0x044, 0, 14⟩
def SHP_CEIL_BURST : Fld := ⟨0x048, 0, 16⟩
def SHP_LOCK : Fld := ⟨0x04C, 0, 1⟩
def SHP_OVH : Fld := ⟨0x050, 0, 8⟩
def SHP_CLS_IDX : Fld := ⟨0x054, 0, 3⟩
def SHP_CLS_RATE : Fld := ⟨0x058, 0, 24⟩
def SHP_CLS_BURST : Fld := ⟨0x05C, 0, 20⟩
def SHP_CLS_TOK : Fld := ⟨0x060, 0, 32⟩
def SHP_GCL_CFG_LEN : Fld := ⟨0x064, 0, 7⟩
def SHP_GCL_CFG_CYC : Fld := ⟨0x064, 8, 4⟩
def SHP_GCL_IDX : Fld := ⟨0x068, 0, 6⟩
def SHP_GCL_DATA_DUR : Fld := ⟨0x06C, 0, 22⟩
def SHP_GCL_DATA_GATES : Fld := ⟨0x06C, 24, 8⟩
def SHP_CEIL_TOK : Fld := ⟨0x070, 0, 32⟩
def SHP_STAT_FALLBACK : Fld := ⟨0x074, 8, 8⟩
def SHP_STAT_DROP : Fld := ⟨0x074, 16, 16⟩
def SHP_BUF : Fld := ⟨0x078, 0, 16⟩

/-! ### ingest (R195-R197, 07) -/

def ING_CFG_REASM_US : Fld := ⟨0x040, 8, 8⟩
def ING_CFG_UDP_PORT : Fld := ⟨0x040, 16, 16⟩
def ING_MAP_DIE0 : Fld := ⟨0x044, 0, 3⟩
def ING_MAP_DIE1 : Fld := ⟨0x044, 3, 3⟩
def ING_MAP_DIE2 : Fld := ⟨0x044, 6, 3⟩
def ING_MAP_DIE3 : Fld := ⟨0x044, 9, 3⟩
def ING_MAP_DIE4 : Fld := ⟨0x044, 12, 3⟩
def ING_MAP_DIE5 : Fld := ⟨0x044, 15, 3⟩
def ING_MAP_DIE6 : Fld := ⟨0x044, 18, 3⟩
def ING_MAP_DIE7 : Fld := ⟨0x044, 21, 3⟩
def ING_JOB_IDX : Fld := ⟨0x048, 0, 8⟩
def ING_JOB_ID : Fld := ⟨0x04C, 0, 32⟩
def ING_JOB_CFG_PG : Fld := ⟨0x050, 0, 5⟩
def ING_JOB_CFG_HOME : Fld := ⟨0x050, 16, 3⟩
def ING_JOB_CFG_LATE_WIN : Fld := ⟨0x050, 20, 4⟩
def ING_JOB_CFG_K : Fld := ⟨0x050, 24, 4⟩
def ING_JOB_DL_SEAL_OFS : Fld := ⟨0x054, 0, 16⟩
def ING_JOB_DL_VERD_OFS : Fld := ⟨0x054, 16, 16⟩
def ING_JOB_HOLD : Fld := ⟨0x058, 0, 16⟩
def ING_JOB_GEN : Fld := ⟨0x05C, 0, 32⟩
def ING_JOB_EPOCH : Fld := ⟨0x060, 0, 32⟩
def ING_JOB_STAT_WINDOWS : Fld := ⟨0x064, 0, 8⟩
def ING_JOB_STAT_GENS : Fld := ⟨0x064, 8, 3⟩
def ING_JOB_STAT_SEALED : Fld := ⟨0x064, 16, 16⟩
def ING_CNT_SEL : Fld := ⟨0x068, 0, 5⟩
def ING_CNT : Fld := ⟨0x06C, 0, 64⟩
def ING_CNT_HI : Fld := ⟨0x070, 0, 32⟩
def ING_BUF : Fld := ⟨0x074, 0, 13⟩

/-! ### Trestle (R198, 07) -/

def TRS_FLD_JOB : Fld := ⟨0x040, 0, 8⟩
def TRS_FLD_COUNT : Fld := ⟨0x044, 0, 12⟩
def TRS_FLD_IDX : Fld := ⟨0x048, 0, 11⟩
def TRS_FLD_DATA0_INDEX : Fld := ⟨0x04C, 0, 16⟩
def TRS_FLD_DATA0_MKIND : Fld := ⟨0x04C, 22, 2⟩
def TRS_FLD_DATA0_HIST : Fld := ⟨0x04C, 25, 1⟩
def TRS_FLD_DATA0_EXT : Fld := ⟨0x04C, 26, 1⟩
def TRS_FLD_DATA0_SUM : Fld := ⟨0x04C, 27, 1⟩
def TRS_FLD_DATA0_SRC : Fld := ⟨0x04C, 28, 4⟩
def TRS_FLD_DATA1_BIAS : Fld := ⟨0x050, 0, 26⟩
def TRS_FLD_DATA1_SHIFT : Fld := ⟨0x050, 26, 6⟩
def TRS_FREE : Fld := ⟨0x054, 0, 18⟩
def TRS_FREE_HIST : Fld := ⟨0x058, 0, 14⟩
def TRS_LANE_SLOT : Fld := ⟨0x05C, 0, 8⟩
def TRS_LANE_MISMATCH : Fld := ⟨0x05C, 16, 16⟩
def TRS_BYTES : Fld := ⟨0x060, 0, 64⟩
def TRS_BYTES_HI : Fld := ⟨0x064, 0, 32⟩

/-! ### tile (R257, 09) -/

def TIL_CTRL_WAKE : Fld := ⟨0x040, 0, 1⟩
def TIL_CTRL_GATE : Fld := ⟨0x040, 1, 1⟩
def TIL_CTRL_PARK : Fld := ⟨0x040, 2, 1⟩
def TIL_CTRL_SEQ_START : Fld := ⟨0x040, 5, 1⟩
def TIL_CTRL_SEQ_HALT : Fld := ⟨0x040, 6, 1⟩
def TIL_CTRL_RETIRE : Fld := ⟨0x040, 7, 1⟩
def TIL_STAT_PSTATE : Fld := ⟨0x044, 0, 3⟩
def TIL_STAT_SEQ : Fld := ⟨0x044, 16, 2⟩
def TIL_STAT_QHALT : Fld := ⟨0x044, 20, 4⟩
def TIL_JOB_SLOT : Fld := ⟨0x048, 0, 8⟩
def TIL_JOB_RANK : Fld := ⟨0x048, 16, 13⟩
def TIL_JOB_FOLD : Fld := ⟨0x048, 29, 2⟩
def TIL_JOB_VALID : Fld := ⟨0x048, 31, 1⟩
def TIL_SCHED_ACTIVE_OFS : Fld := ⟨0x04C, 0, 16⟩
def TIL_SCHED_SLEEP : Fld := ⟨0x04C, 24, 2⟩
def TIL_SCHED_EN : Fld := ⟨0x04C, 27, 1⟩
def TIL_SCHED_K : Fld := ⟨0x04C, 28, 4⟩
def TIL_SEQ_CFG : Fld := ⟨0x050, 2, 20⟩
def TIL_SEQ_PC : Fld := ⟨0x054, 0, 32⟩
def TIL_SEQ_CAUSE : Fld := ⟨0x058, 0, 16⟩
def TIL_FLAGS_INEXACT : Fld := ⟨0x05C, 0, 1⟩
def TIL_FLAGS_UNDERFLOW : Fld := ⟨0x05C, 1, 1⟩
def TIL_FLAGS_OVERFLOW : Fld := ⟨0x05C, 2, 1⟩
def TIL_FLAGS_SATURATION : Fld := ⟨0x05C, 3, 1⟩
def TIL_FLAGS_INVALID : Fld := ⟨0x05C, 4, 1⟩
def TIL_QCTRL : Fld := ⟨0x060, 0, 4⟩
def TIL_QSTAT_LAST_ERR (n : Nat) : Fld := ⟨0x064 + 4 * n, 0, 8⟩
def TIL_QSTAT_HELD (n : Nat) : Fld := ⟨0x064 + 4 * n, 8, 5⟩
def TIL_QSTAT_DONE (n : Nat) : Fld := ⟨0x064 + 4 * n, 16, 16⟩
def TIL_HBM0_BASE : Fld := ⟨0x074, 0, 28⟩
def TIL_HBM0_SIZE : Fld := ⟨0x078, 0, 28⟩
def TIL_HBM1_BASE : Fld := ⟨0x07C, 0, 28⟩
def TIL_HBM1_SIZE : Fld := ⟨0x080, 0, 28⟩
def TIL_LATE_DONE : Fld := ⟨0x084, 0, 16⟩
def TIL_LATE_WAKE : Fld := ⟨0x084, 16, 16⟩
def TIL_ECC_UNCORR : Fld := ⟨0x088, 0, 16⟩
def TIL_ECC_CORR : Fld := ⟨0x088, 16, 16⟩
def TIL_MBOX_IN : Fld := ⟨0x08C, 0, 32⟩
def TIL_MBOX_OUT : Fld := ⟨0x090, 0, 32⟩
def TIL_WIN : Fld := ⟨0x094, 0, 32⟩

/-! ### Hutch (R280, 10) -/

def HUT_EVAL : Fld := ⟨0x040, 0, 64⟩
def HUT_EVAL_HI : Fld := ⟨0x044, 0, 32⟩
def HUT_BUSY : Fld := ⟨0x048, 0, 64⟩
def HUT_BUSY_HI : Fld := ⟨0x04C, 0, 32⟩
def HUT_FAULT_ROW : Fld := ⟨0x050, 0, 16⟩
def HUT_FAULT_TREE : Fld := ⟨0x050, 16, 16⟩
def HUT_FAULT_INFO_ITEM : Fld := ⟨0x054, 0, 16⟩
def HUT_FAULT_INFO_TICKET : Fld := ⟨0x054, 16, 8⟩
def HUT_FAULT_INFO_KIND : Fld := ⟨0x054, 24, 8⟩

/-! ### HBM controller (R304-R305, 11) -/

def MEM_CFG_GIB : Fld := ⟨0x040, 8, 8⟩
def MEM_CFG_STACKS : Fld := ⟨0x040, 16, 4⟩
def MEM_BASE : Fld := ⟨0x044, 0, 28⟩
def MEM_SIZE : Fld := ⟨0x048, 0, 28⟩
def MEM_SCRUB_HOURS : Fld := ⟨0x04C, 0, 8⟩
def MEM_SCRUB_PASSES : Fld := ⟨0x04C, 16, 16⟩
def MEM_ECC_UNCORR : Fld := ⟨0x050, 0, 16⟩
def MEM_ECC_CORR : Fld := ⟨0x050, 16, 16⟩
def MEM_ERR_ADDR : Fld := ⟨0x054, 0, 64⟩
def MEM_ERR_ADDR_HI : Fld := ⟨0x058, 0, 32⟩
def MEM_INJ_ADDR_LO : Fld := ⟨0x05C, 0, 32⟩
def MEM_INJ_ADDR_HI : Fld := ⟨0x060, 0, 32⟩
def MEM_INJ_CTRL : Fld := ⟨0x064, 0, 2⟩

/-! ### tape (R306, 11) -/

def TAP_CFG : Fld := ⟨0x040, 0, 8⟩
def TAP_ALARM_T0_S : Fld := ⟨0x044, 0, 16⟩
def TAP_ALARM_T1_MIN : Fld := ⟨0x044, 16, 16⟩
def TAP_SEL : Fld := ⟨0x048, 0, 1⟩
def TAP_HEAD : Fld := ⟨0x04C, 0, 64⟩
def TAP_HEAD_HI : Fld := ⟨0x050, 0, 32⟩
def TAP_TAIL : Fld := ⟨0x054, 0, 64⟩
def TAP_TAIL_HI : Fld := ⟨0x058, 0, 32⟩
def TAP_SPAN : Fld := ⟨0x05C, 0, 32⟩
def TAP_STAT_DAMAGED : Fld := ⟨0x060, 0, 16⟩
def TAP_STAT_LOST : Fld := ⟨0x060, 16, 16⟩
def TAP_PEND_WINDOWS : Fld := ⟨0x064, 0, 16⟩
def TAP_PEND_T1_GAP : Fld := ⟨0x064, 16, 16⟩
def TAP_SCAN_CTRL_START : Fld := ⟨0x068, 0, 1⟩
def TAP_SCAN_CTRL_ABORT : Fld := ⟨0x068, 1, 1⟩
def TAP_SCAN_CTRL_TIER : Fld := ⟨0x068, 4, 1⟩
def TAP_SCAN_CTRL_DELIVER : Fld := ⟨0x068, 5, 1⟩
def TAP_SCAN_CTRL_STATE : Fld := ⟨0x068, 6, 2⟩
def TAP_SCAN_CTRL_TIMEOUT : Fld := ⟨0x068, 16, 16⟩
def TAP_SCAN_JOB : Fld := ⟨0x06C, 0, 32⟩
def TAP_SCAN_FROM_LO : Fld := ⟨0x070, 0, 32⟩
def TAP_SCAN_FROM_HI : Fld := ⟨0x074, 0, 32⟩
def TAP_SCAN_TO_LO : Fld := ⟨0x078, 0, 32⟩
def TAP_SCAN_TO_HI : Fld := ⟨0x07C, 0, 32⟩
def TAP_SCAN_RING : Fld := ⟨0x080, 0, 28⟩
def TAP_SCAN_SLOTS : Fld := ⟨0x084, 0, 16⟩
def TAP_SCAN_CNT : Fld := ⟨0x088, 0, 64⟩
def TAP_SCAN_CNT_HI : Fld := ⟨0x08C, 0, 32⟩
def TAP_SCAN_SKIP : Fld := ⟨0x090, 0, 32⟩

/-! ### compression (R307, 11) -/

def CMP_CFG : Fld := ⟨0x040, 0, 4⟩
def CMP_ENG_EN : Fld := ⟨0x044, 0, 16⟩
def CMP_ENG_OUT : Fld := ⟨0x048, 0, 16⟩
def CMP_ENG_BUSY : Fld := ⟨0x04C, 0, 16⟩
def CMP_CIN : Fld := ⟨0x050, 0, 64⟩
def CMP_CIN_HI : Fld := ⟨0x054, 0, 32⟩
def CMP_DOUT : Fld := ⟨0x058, 0, 64⟩
def CMP_DOUT_HI : Fld := ⟨0x05C, 0, 32⟩
def CMP_FAIL_CHECKSUM : Fld := ⟨0x060, 0, 16⟩
def CMP_FAIL_VERIFY : Fld := ⟨0x060, 16, 16⟩

/-! ### digest (R360, 13) -/

def DGS_SLOT : Fld := ⟨0x040, 0, 2⟩
def DGS_EXT_IDX : Fld := ⟨0x044, 0, 6⟩
def DGS_EXT_COUNT : Fld := ⟨0x048, 0, 7⟩
def DGS_EXT_ATTR_ELEM_BITS : Fld := ⟨0x04C, 8, 8⟩
def DGS_EXT_ATTR_TENSOR : Fld := ⟨0x04C, 16, 16⟩
def DGS_EXT_BASE_LO : Fld := ⟨0x050, 0, 32⟩
def DGS_EXT_BASE_HI : Fld := ⟨0x054, 0, 16⟩
def DGS_EXT_LEN : Fld := ⟨0x058, 0, 32⟩
def DGS_EXT_ADDR_LO : Fld := ⟨0x05C, 0, 32⟩
def DGS_EXT_ADDR_HI : Fld := ⟨0x060, 0, 32⟩
def DGS_EXT_STRIDE : Fld := ⟨0x064, 0, 32⟩
def DGS_CAD_EVERY : Fld := ⟨0x068, 0, 16⟩
def DGS_CAD_FIRST : Fld := ⟨0x06C, 0, 32⟩
def DGS_STAT_STATE : Fld := ⟨0x070, 0, 3⟩
def DGS_STAT_OBSERVED : Fld := ⟨0x070, 3, 1⟩
def DGS_STAT_LAST_STATUS : Fld := ⟨0x070, 24, 8⟩
def DGS_LAST : Fld := ⟨0x074, 0, 32⟩
def DGS_RPL : Fld := ⟨0x078, 0, 32⟩
def DGS_RPL_INFO_SHIFT : Fld := ⟨0x07C, 0, 6⟩
def DGS_RPL_INFO_RPL_ID : Fld := ⟨0x07C, 16, 16⟩
def DGS_RPL_OFS_LO : Fld := ⟨0x080, 0, 32⟩
def DGS_RPL_OFS_HI : Fld := ⟨0x084, 0, 32⟩
def DGS_CTRL_RPL_READY : Fld := ⟨0x088, 0, 1⟩
def DGS_CTRL_RPL_DECLINE : Fld := ⟨0x088, 1, 1⟩
def DGS_OBS_END : Fld := ⟨0x08C, 0, 64⟩
def DGS_OBS_END_HI : Fld := ⟨0x090, 0, 32⟩
def DGS_OBS_CFG : Fld := ⟨0x094, 0, 16⟩
def DGS_TEST_FAIL : Fld := ⟨0x098, 0, 16⟩
def DGS_TEST_PASS : Fld := ⟨0x098, 16, 16⟩
def DGS_CNT_POISON : Fld := ⟨0x09C, 0, 16⟩
def DGS_CNT_ABANDONED : Fld := ⟨0x09C, 16, 16⟩

/-! ### Reach (R388-R390, 14) -/

def RCH_CFG_REORDER : Fld := ⟨0x040, 4, 4⟩
def RCH_CFG_ACK_US : Fld := ⟨0x040, 8, 8⟩
def RCH_CFG_UDP_PORT : Fld := ⟨0x040, 16, 16⟩
def RCH_RTO_PSE_MAX_MS : Fld := ⟨0x044, 0, 8⟩
def RCH_RTO_RTO_INIT_MS : Fld := ⟨0x044, 8, 8⟩
def RCH_RTO_RTO_MIN_US : Fld := ⟨0x044, 16, 16⟩
def RCH_RETX_HELLO_LOSS_MS : Fld := ⟨0x048, 8, 8⟩
def RCH_RETX_RETX_MAX_MS : Fld := ⟨0x048, 16, 16⟩
def RCH_WIN : Fld := ⟨0x04C, 0, 12⟩
def RCH_PEER_HUB : Fld := ⟨0x050, 0, 24⟩
def RCH_PEER_PORT : Fld := ⟨0x050, 24, 1⟩
def RCH_SITES : Fld := ⟨0x054, 0, 8⟩
def RCH_STATE_STATE : Fld := ⟨0x058, 0, 3⟩
def RCH_STATE_LIMITED : Fld := ⟨0x058, 4, 1⟩
def RCH_STATE_PAUSED : Fld := ⟨0x058, 5, 1⟩
def RCH_STATE_PATHCLR : Fld := ⟨0x058, 6, 1⟩
def RCH_SESSION : Fld := ⟨0x05C, 0, 32⟩
def RCH_NEXT : Fld := ⟨0x060, 0, 64⟩
def RCH_NEXT_HI : Fld := ⟨0x064, 0, 32⟩
def RCH_CUM : Fld := ⟨0x068, 0, 64⟩
def RCH_CUM_HI : Fld := ⟨0x06C, 0, 32⟩
def RCH_SRTT : Fld := ⟨0x070, 0, 32⟩
def RCH_RTTVAR : Fld := ⟨0x074, 0, 32⟩
def RCH_INFLIGHT : Fld := ⟨0x078, 0, 22⟩
def RCH_QUEUED : Fld := ⟨0x07C, 0, 22⟩
def RCH_CREDIT : Fld := ⟨0x080, 0, 22⟩
def RCH_RX_HELD : Fld := ⟨0x084, 0, 22⟩
def RCH_CNT_SEL : Fld := ⟨0x088, 0, 5⟩
def RCH_CNT : Fld := ⟨0x08C, 0, 64⟩
def RCH_CNT_HI : Fld := ⟨0x090, 0, 32⟩

/-! ### gateway status (R391, 14) -/

def GSI_CFG : Fld := ⟨0x040, 0, 8⟩
def GSI_JOB : Fld := ⟨0x044, 0, 32⟩
def GSI_LINE_IDX : Fld := ⟨0x048, 0, 3⟩
def GSI_LINE_CFG_UNIT : Fld := ⟨0x04C, 0, 24⟩
def GSI_LINE_CFG_ROLE : Fld := ⟨0x04C, 30, 2⟩
def GSI_LINE_STAT_MISSING : Fld := ⟨0x050, 0, 16⟩
def GSI_LINE_STAT_TSI_PAGE : Fld := ⟨0x050, 28, 1⟩
def GSI_LINE_STAT_ACTIVE_PATH : Fld := ⟨0x050, 29, 1⟩
def GSI_LINE_STAT_FRAME : Fld := ⟨0x050, 30, 2⟩
def GSI_LINE_SPAR : Fld := ⟨0x054, 0, 32⟩
def GSI_LINE_PPAR : Fld := ⟨0x058, 0, 32⟩
def GSI_LINE_FEE : Fld := ⟨0x05C, 0, 32⟩
def GSI_LINE_SW_TSI : Fld := ⟨0x060, 0, 16⟩
def GSI_LINE_SW_APS : Fld := ⟨0x060, 16, 16⟩
def GSI_LINE_FRM_LOF : Fld := ⟨0x064, 0, 16⟩
def GSI_LINE_FRM_OOF : Fld := ⟨0x064, 16, 16⟩
def GSI_PSE_RISES : Fld := ⟨0x068, 0, 16⟩
def GSI_PSE_LEVEL : Fld := ⟨0x068, 31, 1⟩
def GSI_PSE_T : Fld := ⟨0x06C, 0, 96⟩
def GSI_PSE_T_SLO : Fld := ⟨0x070, 0, 32⟩
def GSI_PSE_T_SHI : Fld := ⟨0x074, 0, 32⟩
def GSI_PSE_LEN : Fld := ⟨0x078, 0, 32⟩
def GSI_MISMATCH_PSE_NO_APS : Fld := ⟨0x07C, 0, 16⟩
def GSI_MISMATCH_APS_NO_PSE : Fld := ⟨0x07C, 16, 16⟩

/-! ### Hub power (R407-R408, 15) -/

def HPWR_LEVEL : Fld := ⟨0x040, 0, 6⟩
def HPWR_STATUS_LEVEL : Fld := ⟨0x044, 0, 6⟩
def HPWR_STATUS_CAUSE : Fld := ⟨0x044, 16, 4⟩
def HPWR_STATUS_MHZ : Fld := ⟨0x044, 20, 12⟩
def HPWR_LIM_FAST : Fld := ⟨0x048, 0, 13⟩
def HPWR_LIM_1MS : Fld := ⟨0x04C, 0, 13⟩
def HPWR_LIM_SUST : Fld := ⟨0x050, 0, 13⟩
def HPWR_THR_LEVEL : Fld := ⟨0x054, 0, 6⟩
def HPWR_LOCK : Fld := ⟨0x058, 0, 1⟩
def HPWR_OP_CAP : Fld := ⟨0x05C, 0, 13⟩
def HPWR_TJ_TJ_THR : Fld := ⟨0x060, 0, 8⟩
def HPWR_TJ_TJ_CRIT : Fld := ⟨0x060, 8, 8⟩
def HPWR_NOW : Fld := ⟨0x064, 0, 32⟩
def HPWR_AVG1 : Fld := ⟨0x068, 0, 32⟩
def HPWR_AVG1S : Fld := ⟨0x06C, 0, 32⟩
def HPWR_DIE_IDX : Fld := ⟨0x070, 0, 6⟩
def HPWR_DIE_STAT_MW : Fld := ⟨0x074, 0, 24⟩
def HPWR_DIE_STAT_TJ : Fld := ⟨0x074, 24, 8⟩
def HPWR_CAL_GAIN : Fld := ⟨0x078, 0, 18⟩
def HPWR_CAL_RESID : Fld := ⟨0x078, 24, 7⟩
def HPWR_CAL_STALE : Fld := ⟨0x078, 31, 1⟩
def HPWR_VR_ALERT : Fld := ⟨0x07C, 0, 8⟩
def HPWR_VR_BRD : Fld := ⟨0x07C, 8, 2⟩
def HPWR_VR_PMB_ERR : Fld := ⟨0x07C, 16, 16⟩
def HPWR_EVENTS_THERM : Fld := ⟨0x080, 0, 8⟩
def HPWR_EVENTS_SUST : Fld := ⟨0x080, 8, 8⟩
def HPWR_EVENTS_AVG1 : Fld := ⟨0x080, 16, 8⟩
def HPWR_EVENTS_FAST : Fld := ⟨0x080, 24, 8⟩
def HPWR_EN_IDX_SLOT : Fld := ⟨0x084, 0, 8⟩
def HPWR_EN_IDX_QUEUE : Fld := ⟨0x084, 8, 3⟩
def HPWR_EN_JOB : Fld := ⟨0x088, 0, 64⟩
def HPWR_EN_JOB_HI : Fld := ⟨0x08C, 0, 32⟩
def HPWR_EN_UNATTR : Fld := ⟨0x090, 0, 64⟩
def HPWR_EN_UNATTR_HI : Fld := ⟨0x094, 0, 32⟩
def HPWR_EN_SHARED : Fld := ⟨0x098, 0, 64⟩
def HPWR_EN_SHARED_HI : Fld := ⟨0x09C, 0, 32⟩
def HPWR_EN_TOTAL : Fld := ⟨0x0A0, 0, 64⟩
def HPWR_EN_TOTAL_HI : Fld := ⟨0x0A4, 0, 32⟩

/-! ### security (R430-R431, 16) -/

def SEC_ID : Fld := ⟨0x040, 0, 64⟩
def SEC_ID_HI : Fld := ⟨0x044, 0, 32⟩
def SEC_STAT_ID : Fld := ⟨0x048, 0, 2⟩
def SEC_STAT_KEYS : Fld := ⟨0x048, 16, 16⟩
def SEC_LOAD_LO : Fld := ⟨0x04C, 0, 32⟩
def SEC_LOAD_HI : Fld := ⟨0x050, 0, 8⟩
def SEC_LOAD_CTRL_SLOT : Fld := ⟨0x054, 0, 12⟩
def SEC_LOAD_CTRL_OP : Fld := ⟨0x054, 28, 4⟩
def SEC_LOAD_STAT_SLOT : Fld := ⟨0x058, 0, 12⟩
def SEC_LOAD_STAT_CODE : Fld := ⟨0x058, 24, 8⟩
def SEC_KS_SEL : Fld := ⟨0x05C, 0, 12⟩
def SEC_KS_INFO_JOB_SLOT : Fld := ⟨0x060, 0, 8⟩
def SEC_KS_INFO_KIND : Fld := ⟨0x060, 24, 4⟩
def SEC_KS_INFO_STATE : Fld := ⟨0x060, 30, 2⟩
def SEC_KS_EPOCH : Fld := ⟨0x064, 0, 32⟩
def SEC_KS_END : Fld := ⟨0x068, 0, 96⟩
def SEC_KS_END_SLO : Fld := ⟨0x06C, 0, 32⟩
def SEC_KS_END_SHI : Fld := ⟨0x070, 0, 32⟩
def SEC_CNT_BIND_REFUSED : Fld := ⟨0x074, 0, 16⟩
def SEC_CNT_UNWRAP_FAIL : Fld := ⟨0x074, 16, 16⟩
def SEC_ZEROIZE : Fld := ⟨0x078, 0, 32⟩

/-! ### Bureau (R459, 17) -/

def BUR_HEAD : Fld := ⟨0x040, 0, 64⟩
def BUR_HEAD_HI : Fld := ⟨0x044, 0, 32⟩
def BUR_RD_SEQ_LO : Fld := ⟨0x048, 0, 32⟩
def BUR_RD_SEQ_HI : Fld := ⟨0x04C, 0, 32⟩
def BUR_RD_STAT_BUSY : Fld := ⟨0x050, 0, 1⟩
def BUR_RD_STAT_FOUND : Fld := ⟨0x050, 1, 1⟩
def BUR_RD_DATA (n : Nat) : Fld := ⟨0x054 + 4 * n, 0, 32⟩
def BUR_CNT_SEL : Fld := ⟨0x094, 0, 3⟩
def BUR_CNT_EVICTED : Fld := ⟨0x098, 0, 16⟩
def BUR_CNT_DROPPED : Fld := ⟨0x098, 16, 16⟩
def BUR_SPILL_BASE : Fld := ⟨0x09C, 0, 28⟩
def BUR_SPILL_SIZE : Fld := ⟨0x0A0, 0, 28⟩
def BUR_POST_CTRL_DETAIL : Fld := ⟨0x0A4, 0, 12⟩
def BUR_POST_CTRL_SEV : Fld := ⟨0x0A4, 16, 3⟩
def BUR_POST_P (n : Nat) : Fld := ⟨0x0A8 + 4 * n, 0, 32⟩
def BUR_LEAP_CNT : Fld := ⟨0x0C0, 0, 6⟩
def BUR_LEAP_IDX : Fld := ⟨0x0C4, 0, 5⟩
def BUR_LEAP_START_LO : Fld := ⟨0x0C8, 0, 32⟩
def BUR_LEAP_START_HI : Fld := ⟨0x0CC, 0, 32⟩
def BUR_LEAP_OFS : Fld := ⟨0x0D0, 0, 8⟩
def BUR_LEAP_EXP_LO : Fld := ⟨0x0D4, 0, 32⟩
def BUR_LEAP_EXP_HI : Fld := ⟨0x0D8, 0, 32⟩
def BUR_AOC_SEL : Fld := ⟨0x0DC, 0, 5⟩
def BUR_AOC : Fld := ⟨0x0E0, 0, 64⟩
def BUR_AOC_HI : Fld := ⟨0x0E4, 0, 32⟩
def BUR_CFG : Fld := ⟨0x0E8, 0, 3⟩

/-! ### trace (R461, 17) -/

def TRC_CTRL_ARM : Fld := ⟨0x040, 0, 1⟩
def TRC_CTRL_STOP : Fld := ⟨0x040, 1, 1⟩
def TRC_CTRL_CLEAR : Fld := ⟨0x040, 2, 1⟩
def TRC_STAT_STATE : Fld := ⟨0x044, 0, 2⟩
def TRC_STAT_WRAPPED : Fld := ⟨0x044, 2, 1⟩
def TRC_STAT_TRIGGERED : Fld := ⟨0x044, 3, 1⟩
def TRC_STAT_TRIG_CMP : Fld := ⟨0x044, 8, 8⟩
def TRC_CFG_MODE : Fld := ⟨0x048, 0, 1⟩
def TRC_CFG_COMPRESS : Fld := ⟨0x048, 1, 1⟩
def TRC_CFG_SYNC_LOG : Fld := ⟨0x048, 20, 4⟩
def TRC_CFG_TS_US : Fld := ⟨0x048, 24, 8⟩
def TRC_SRC_LO : Fld := ⟨0x04C, 0, 32⟩
def TRC_SRC_HI : Fld := ⟨0x050, 0, 1⟩
def TRC_BUF_LO : Fld := ⟨0x054, 12, 20⟩
def TRC_BUF_HI : Fld := ⟨0x058, 0, 32⟩
def TRC_BUF_SIZE : Fld := ⟨0x05C, 0, 22⟩
def TRC_POST : Fld := ⟨0x060, 0, 20⟩
def TRC_WPTR : Fld := ⟨0x064, 0, 32⟩
def TRC_TRIG_PTR : Fld := ⟨0x068, 0, 32⟩
def TRC_LOST : Fld := ⟨0x06C, 0, 32⟩
def TRC_CMP_IDX : Fld := ⟨0x070, 0, 3⟩
def TRC_CMP_CFG_SRC : Fld := ⟨0x074, 0, 6⟩
def TRC_CMP_CFG_ACTION : Fld := ⟨0x074, 26, 2⟩
def TRC_CMP_CFG_KIND : Fld := ⟨0x074, 28, 4⟩
def TRC_CMP_A_LO : Fld := ⟨0x078, 0, 32⟩
def TRC_CMP_A_HI : Fld := ⟨0x07C, 0, 32⟩
def TRC_CMP_B : Fld := ⟨0x080, 0, 32⟩

/-! ### freeze (R462, 17) -/

def FRZ_CTRL : Fld := ⟨0x040, 0, 2⟩
def FRZ_STAT_FROZEN : Fld := ⟨0x044, 0, 1⟩
def FRZ_STAT_AUTO : Fld := ⟨0x044, 1, 1⟩
def FRZ_STAT_CHAN_FULL : Fld := ⟨0x044, 2, 1⟩
def FRZ_LIMIT : Fld := ⟨0x048, 0, 16⟩
def FRZ_T : Fld := ⟨0x04C, 0, 96⟩
def FRZ_T_SLO : Fld := ⟨0x050, 0, 32⟩
def FRZ_T_SHI : Fld := ⟨0x054, 0, 32⟩
def FRZ_CHAN_BASE_LO : Fld := ⟨0x058, 12, 20⟩
def FRZ_CHAN_BASE_HI : Fld := ⟨0x05C, 0, 8⟩
def FRZ_CHAN_SIZE : Fld := ⟨0x060, 0, 22⟩
def FRZ_CHAN_USED : Fld := ⟨0x064, 0, 32⟩
def FRZ_CHAN_RECS : Fld := ⟨0x068, 0, 32⟩
def FRZ_COUNT_AUTO : Fld := ⟨0x06C, 0, 16⟩
def FRZ_COUNT_FREEZES : Fld := ⟨0x06C, 16, 16⟩
def FRZ_DUR : Fld := ⟨0x070, 0, 32⟩

/-! ### Cabinet (R487, 18) -/

def CAB_STATE_FAIL : Fld := ⟨0x040, 8, 8⟩
def CAB_STATE_POP : Fld := ⟨0x040, 23, 1⟩
def CAB_STATE_HUB_INDEX : Fld := ⟨0x040, 24, 2⟩
def CAB_STATE_INDEXED : Fld := ⟨0x040, 26, 1⟩
def CAB_STATE_PHASE : Fld := ⟨0x040, 27, 3⟩
def CAB_STATE_ROLE : Fld := ⟨0x040, 30, 2⟩
def CAB_BOARD_SITE : Fld := ⟨0x044, 0, 3⟩
def CAB_BOARD_BOARD_ID : Fld := ⟨0x044, 16, 16⟩
def CAB_BOOTS : Fld := ⟨0x048, 0, 16⟩
def CAB_PEER_HB_MISS : Fld := ⟨0x04C, 0, 8⟩
def CAB_PEER_TAKEOVERS : Fld := ⟨0x04C, 16, 16⟩
def CAB_JRNL_NEXT : Fld := ⟨0x050, 0, 64⟩
def CAB_JRNL_NEXT_HI : Fld := ⟨0x054, 0, 32⟩
def CAB_JRNL_OPEN : Fld := ⟨0x058, 0, 17⟩
def CAB_JOBS : Fld := ⟨0x05C, 0, 9⟩
def CAB_MGMT_MA_UP : Fld := ⟨0x060, 0, 1⟩
def CAB_MGMT_MB_UP : Fld := ⟨0x060, 1, 1⟩
def CAB_MGMT_TENANT : Fld := ⟨0x060, 16, 8⟩
def CAB_MGMT_OPERATOR : Fld := ⟨0x060, 24, 8⟩
def CAB_CTRL_SWITCHOVER : Fld := ⟨0x064, 0, 1⟩
def CAB_CTRL_RESET_PKG : Fld := ⟨0x064, 1, 1⟩
def CAB_CTRL_CODE : Fld := ⟨0x064, 16, 16⟩
def CAB_RETIRED : Fld := ⟨0x068, 0, 11⟩

/-! ### link test (R499-R500, 19) -/

def TST_SEL_LANE : Fld := ⟨0x040, 0, 6⟩
def TST_SEL_INDEX : Fld := ⟨0x040, 16, 8⟩
def TST_SEL_KIND : Fld := ⟨0x040, 30, 2⟩
def TST_MODE_LOOP : Fld := ⟨0x044, 0, 2⟩
def TST_MODE_HALF : Fld := ⟨0x044, 8, 2⟩
def TST_MODE_TEST : Fld := ⟨0x044, 31, 1⟩
def TST_GEN_PATTERN : Fld := ⟨0x048, 0, 4⟩
def TST_GEN_INVERT : Fld := ⟨0x048, 8, 1⟩
def TST_GEN_INJECT : Fld := ⟨0x048, 16, 1⟩
def TST_CHK_PATTERN : Fld := ⟨0x04C, 0, 4⟩
def TST_CHK_INVERT : Fld := ⟨0x04C, 8, 1⟩
def TST_CHK_CLEAR : Fld := ⟨0x04C, 16, 1⟩
def TST_CHK_LOCKED : Fld := ⟨0x04C, 24, 1⟩
def TST_ERR : Fld := ⟨0x050, 0, 32⟩
def TST_BITS : Fld := ⟨0x054, 0, 64⟩
def TST_BITS_HI : Fld := ⟨0x058, 0, 32⟩
def TST_LINK_UP : Fld := ⟨0x05C, 0, 1⟩
def TST_LINK_WIDTH : Fld := ⟨0x05C, 8, 2⟩
def TST_LINK_RETRAINS : Fld := ⟨0x05C, 16, 16⟩

end Reg

end Sys2Proof.Machine
end

