-- ==== Sys2Proof/Machine/RegMap.lean ====
section
/-!
DEFINITION. Sys2Proof/Machine/RegMap.lean: the register map. Which block sits on which page, which registers a block
has, the type (R18's table of field types) and the reset value of every field, the interrupt causes of every block
and the severity their chapters state for them (R436).
-/
namespace Sys2Proof.Machine
open Reg

/-- Register and field types of 01_conventions.md. -/
inductive RTy | ro | rw | rw1c | wo | rwa
  deriving DecidableEq, Repr

/-- One field of a register: its type, its place, its reset value. -/
structure FldS where
  ty : RTy
  f : Fld
  rst : Nat
  deriving DecidableEq, Repr

/-- One register: its offset, its type and its fields; bits no field covers are RSVD. -/
structure RegS where
  off : Nat
  ty : RTy
  flds : List FldS
  deriving DecidableEq, Repr

/-- The block kinds of R30 (the PWR prefix names a different block on each part). -/
inductive Blk
  | lcs | tly | cnt | hot | stp | nrg | pwrT | cap | stw | seal | shp | ing | trs | til
  | hut | mem | tap | cmp | dgs | rch | gsi | pwrH | sec | bur | trc | frz | cab | tst
  deriving DecidableEq, Repr

/-- Registers of the Longcase (R89-R92, 03_longcase_time.md) page. -/
def regs_lcs : List RegS :=
  [ ⟨0x040, .ro, [⟨.ro, LCS_NOW_NS, 0⟩]⟩,
    ⟨0x044, .ro, [⟨.ro, LCS_NOW_SLO, 0⟩]⟩,
    ⟨0x048, .ro, [⟨.ro, LCS_NOW_SHI, 0⟩]⟩,
    ⟨0x04C, .ro, [⟨.ro, LCS_NOW_FRAC, 0⟩]⟩,
    ⟨0x050, .ro, [⟨.ro, LCS_STATUS_TQ, 0⟩,
      ⟨.ro, LCS_STATUS_STEP_DONE, 0⟩,
      ⟨.ro, LCS_STATUS_SOURCE, 0⟩]⟩,
    ⟨0x054, .rw, [⟨.rw, LCS_GEN_GEN, 0⟩, ⟨.ro, LCS_GEN_LOADED, 0⟩]⟩,
    ⟨0x058, .ro, [⟨.ro, LCS_RATE, 0⟩]⟩,
    ⟨0x05C, .ro, [⟨.ro, LCS_OFFSET, 2147483648⟩]⟩,
    ⟨0x060, .rw, [⟨.rw, LCS_STEP_NS, 0⟩]⟩,
    ⟨0x064, .rw, [⟨.rw, LCS_STEP_SLO, 0⟩]⟩,
    ⟨0x068, .rw, [⟨.rw, LCS_STEP_SHI, 0⟩]⟩,
    ⟨0x06C, .rw, [⟨.rw, LCS_CTRL_AUTO_STEP, 0⟩,
      ⟨.wo, LCS_CTRL_STEP, 0⟩,
      ⟨.wo, LCS_CTRL_CLR_CNT, 0⟩]⟩,
    ⟨0x070, .rwa, [⟨.rwa, LCS_SERVO_MISS_LIMIT, 3⟩,
      ⟨.rwa, LCS_SERVO_LOCK_COUNT, 8⟩,
      ⟨.rwa, LCS_SERVO_LOCK_THR, 3⟩,
      ⟨.rwa, LCS_SERVO_KI_SHIFT, 4⟩,
      ⟨.rwa, LCS_SERVO_KP_SHIFT, 1⟩,
      ⟨.rwa, LCS_SERVO_SLEW_MAX, 100⟩]⟩,
    ⟨0x074, .rwa, [⟨.rwa, LCS_HOLD_DISAGREE_NS, 0⟩, ⟨.rwa, LCS_HOLD_STABLE_MS, 100⟩]⟩,
    ⟨0x078, .rwa, [⟨.rwa, LCS_SRC_CFG_DOM_B, 1⟩,
      ⟨.rwa, LCS_SRC_CFG_DOM_A, 0⟩,
      ⟨.rwa, LCS_SRC_CFG_PRIO3, 0⟩,
      ⟨.rwa, LCS_SRC_CFG_PRIO2, 0⟩,
      ⟨.rwa, LCS_SRC_CFG_PRIO1, 3⟩,
      ⟨.rwa, LCS_SRC_CFG_PRIO0, 2⟩]⟩,
    ⟨0x07C, .ro, [⟨.ro, LCS_SRC_STAT_VALID, 0⟩, ⟨.ro, LCS_SRC_STAT_SWITCHES, 0⟩]⟩ ] ++
  [ ⟨0x080, .ro, [⟨.ro, LCS_SRC_OFS_A, 2147483648⟩]⟩,
    ⟨0x084, .ro, [⟨.ro, LCS_SRC_OFS_B, 2147483648⟩]⟩,
    ⟨0x088, .ro, [⟨.ro, LCS_SRC_OFS_BOARD, 2147483648⟩]⟩,
    ⟨0x08C, .ro, [⟨.ro, LCS_SRC_OFS_REACH, 2147483648⟩]⟩,
    ⟨0x090, .rwa, [⟨.rwa, LCS_TB_COMP, 0⟩]⟩,
    ⟨0x094, .ro, [⟨.ro, LCS_TB_STAT_HOST, 0⟩,
      ⟨.ro, LCS_TB_STAT_BAD_ANN, 0⟩,
      ⟨.ro, LCS_TB_STAT_MISSED, 0⟩]⟩,
    ⟨0x098, .ro, [⟨.ro, LCS_SITE_QUAL, 0⟩]⟩,
    ⟨0x09C, .ro, [⟨.ro, LCS_PPS_OFS, 2147483648⟩]⟩,
    ⟨0x0A0, .rwa, [⟨.rwa, LCS_ASYM_W, 0⟩]⟩,
    ⟨0x0A4, .rwa, [⟨.rwa, LCS_ASYM_P, 0⟩]⟩,
    ⟨0x0A8, .rwa, [⟨.rwa, LCS_RTT_W, 0⟩]⟩,
    ⟨0x0AC, .rwa, [⟨.rwa, LCS_RTT_P, 0⟩]⟩,
    ⟨0x0B0, .rwa, [⟨.rwa, LCS_REACH_CFG_PORT, 0⟩,
      ⟨.rwa, LCS_REACH_CFG_INTERVAL, 6⟩,
      ⟨.rwa, LCS_REACH_CFG_RTT_JUMP, 25⟩,
      ⟨.rwa, LCS_REACH_CFG_RTT_TOL, 1000⟩]⟩,
    ⟨0x0B4, .ro, [⟨.ro, LCS_REACH_STAT_TRACKER, 0⟩,
      ⟨.ro, LCS_REACH_STAT_PATH, 0⟩,
      ⟨.ro, LCS_REACH_STAT_RUN_MS, 0⟩]⟩,
    ⟨0x0B8, .rwa, [⟨.ro, LCS_ROLE_BOARD_LEAD, 0⟩,
      ⟨.rwa, LCS_ROLE_TX_B, 0⟩,
      ⟨.rwa, LCS_ROLE_REF_SITE, 0⟩,
      ⟨.rwa, LCS_ROLE_DOM_BOARD, 126⟩]⟩ ] ++
  (List.range 16).map (fun n => ⟨0x0C0 + 4 * n, .rwa, [⟨.rwa, LCS_TSC_ADJ_RX_ADJ n, 0⟩, ⟨.rwa, LCS_TSC_ADJ_TX_ADJ n, 0⟩]⟩) ++
  (List.range 16).map (fun n => ⟨0x100 + 4 * n, .ro, [⟨.ro, LCS_TSC_STAT_DESKEW n, 0⟩, ⟨.ro, LCS_TSC_STAT_MODE n, 0⟩]⟩)

/-- Registers of the Tally identity and chain (R121, 04_tally_counting.md) page. -/
def regs_tly : List RegS :=
  [ ⟨0x040, .rw, [⟨.rw, TLY_UNIT_UNIT, 0⟩, ⟨.ro, TLY_UNIT_LOCKED, 0⟩]⟩,
    ⟨0x044, .ro, [⟨.ro, TLY_CHAIN_ADDR, 0⟩, ⟨.ro, TLY_CHAIN_ADDRESSED, 0⟩]⟩,
    ⟨0x048, .ro, [⟨.ro, TLY_CONFIG_MARK_LOG2, 8⟩,
      ⟨.ro, TLY_CONFIG_GAUGE_LOG2, 4⟩,
      ⟨.ro, TLY_CONFIG_PART_LOG2, 4⟩,
      ⟨.ro, TLY_CONFIG_HOT_LOG2, 9⟩,
      ⟨.ro, TLY_CONFIG_CNT_LOG2, 12⟩,
      ⟨.ro, TLY_CONFIG_LANES_LOG2, 8⟩,
      ⟨.ro, TLY_CONFIG_SLOTS, 4⟩,
      ⟨.ro, TLY_CONFIG_LITE, 0⟩]⟩,
    ⟨0x04C, .rw, [⟨.rw, TLY_FCLK_LEAD, 10⟩, ⟨.ro, TLY_FCLK_LATE, 0⟩]⟩ ]

/-- Registers of the counters (R122, 04) page. -/
def regs_cnt : List RegS :=
  [ ⟨0x040, .rw, [⟨.rw, CNT_MAP_IDX, 0⟩]⟩,
    ⟨0x044, .rwa, [⟨.rwa, CNT_MAP_DATA0_JOBMASK, 0⟩,
      ⟨.rwa, CNT_MAP_DATA0_QUEUE, 0⟩,
      ⟨.rwa, CNT_MAP_DATA0_PART, 0⟩,
      ⟨.rwa, CNT_MAP_DATA0_LANE, 0⟩,
      ⟨.rwa, CNT_MAP_DATA0_MODE, 0⟩]⟩,
    ⟨0x048, .rwa, [⟨.rwa, CNT_MAP_DATA1, 0⟩]⟩,
    ⟨0x04C, .rw, [⟨.rw, CNT_VAL_IDX, 0⟩]⟩,
    ⟨0x050, .ro, [⟨.ro, CNT_VAL, 0⟩]⟩,
    ⟨0x054, .ro, [⟨.ro, CNT_VAL_HI, 0⟩]⟩,
    ⟨0x058, .rw, [⟨.rw, CNT_GAUGE_IDX, 0⟩]⟩,
    ⟨0x05C, .rwa, [⟨.rwa, CNT_GAUGE_CFG_JOBMASK, 0⟩, ⟨.rwa, CNT_GAUGE_CFG_SRC, 0⟩]⟩,
    ⟨0x060, .rw, [⟨.rw, CNT_GAUGE_WLO, 0⟩]⟩,
    ⟨0x064, .rw, [⟨.rw, CNT_GAUGE_WHI, 0⟩]⟩,
    ⟨0x068, .ro, [⟨.ro, CNT_GAUGE_RLO, 0⟩]⟩,
    ⟨0x06C, .ro, [⟨.ro, CNT_GAUGE_RHI, 0⟩]⟩ ]

/-- Registers of the hot set and windows (R123, 04) page. -/
def regs_hot : List RegS :=
  (List.range 4).map (fun n => ⟨0x040 + 4 * n, .rwa, [⟨.rwa, HOT_JOB n, 0⟩]⟩) ++
  [ ⟨0x050, .rwa, [⟨.rwa, HOT_WIN_K0, 3⟩,
      ⟨.rwa, HOT_WIN_K1, 3⟩,
      ⟨.rwa, HOT_WIN_K2, 3⟩,
      ⟨.rwa, HOT_WIN_K3, 3⟩]⟩,
    ⟨0x054, .rwa, [⟨.rwa, HOT_COUNT, 0⟩]⟩,
    ⟨0x058, .rw, [⟨.rw, HOT_LIST_IDX, 0⟩]⟩,
    ⟨0x05C, .rwa, [⟨.rwa, HOT_LIST_DATA, 0⟩]⟩,
    ⟨0x060, .rwa, [⟨.rwa, HOT_SLOW_BATCH, 0⟩, ⟨.rwa, HOT_SLOW_SLOW_S, 13⟩]⟩,
    ⟨0x064, .ro, [⟨.ro, HOT_SLOW_CUR, 0⟩]⟩,
    ⟨0x068, .ro, [⟨.ro, HOT_STAT_WINDOWS, 0⟩, ⟨.ro, HOT_STAT_SAT, 0⟩]⟩ ]

/-- Registers of the step marks (R124, 04) page. -/
def regs_stp : List RegS :=
  [ ⟨0x040, .wo, [⟨.wo, STP_MARK_TAG, 0⟩,
      ⟨.wo, STP_MARK_MARK_ID, 0⟩,
      ⟨.wo, STP_MARK_SLOT, 0⟩,
      ⟨.wo, STP_MARK_KIND, 0⟩]⟩ ] ++
  (List.range 4).map (fun n => ⟨0x044 + 4 * n, .rw, [⟨.rw, STP_STEP n, 0⟩]⟩) ++
  [ ⟨0x054, .ro, [⟨.ro, STP_STAT_PENDING, 0⟩, ⟨.ro, STP_STAT_DROPPED, 0⟩]⟩ ]

/-- Registers of the energy (R125, 04) page. -/
def regs_nrg : List RegS :=
  [ ⟨0x040, .rwa, [⟨.rwa, NRG_OWNER_LO_SLOT0, 0⟩,
      ⟨.rwa, NRG_OWNER_LO_VALID0, 0⟩,
      ⟨.rwa, NRG_OWNER_LO_SLOT1, 0⟩,
      ⟨.rwa, NRG_OWNER_LO_VALID1, 0⟩,
      ⟨.rwa, NRG_OWNER_LO_SLOT2, 0⟩,
      ⟨.rwa, NRG_OWNER_LO_VALID2, 0⟩,
      ⟨.rwa, NRG_OWNER_LO_SLOT3, 0⟩,
      ⟨.rwa, NRG_OWNER_LO_VALID3, 0⟩,
      ⟨.rwa, NRG_OWNER_LO_SLOT4, 0⟩,
      ⟨.rwa, NRG_OWNER_LO_VALID4, 0⟩,
      ⟨.rwa, NRG_OWNER_LO_SLOT5, 0⟩,
      ⟨.rwa, NRG_OWNER_LO_VALID5, 0⟩,
      ⟨.rwa, NRG_OWNER_LO_SLOT6, 0⟩,
      ⟨.rwa, NRG_OWNER_LO_VALID6, 0⟩,
      ⟨.rwa, NRG_OWNER_LO_SLOT7, 0⟩,
      ⟨.rwa, NRG_OWNER_LO_VALID7, 0⟩]⟩,
    ⟨0x044, .rwa, [⟨.rwa, NRG_OWNER_HI_SLOT0, 0⟩,
      ⟨.rwa, NRG_OWNER_HI_VALID0, 0⟩,
      ⟨.rwa, NRG_OWNER_HI_SLOT1, 0⟩,
      ⟨.rwa, NRG_OWNER_HI_VALID1, 0⟩,
      ⟨.rwa, NRG_OWNER_HI_SLOT2, 0⟩,
      ⟨.rwa, NRG_OWNER_HI_VALID2, 0⟩,
      ⟨.rwa, NRG_OWNER_HI_SLOT3, 0⟩,
      ⟨.rwa, NRG_OWNER_HI_VALID3, 0⟩,
      ⟨.rwa, NRG_OWNER_HI_SLOT4, 0⟩,
      ⟨.rwa, NRG_OWNER_HI_VALID4, 0⟩,
      ⟨.rwa, NRG_OWNER_HI_SLOT5, 0⟩,
      ⟨.rwa, NRG_OWNER_HI_VALID5, 0⟩,
      ⟨.rwa, NRG_OWNER_HI_SLOT6, 0⟩,
      ⟨.rwa, NRG_OWNER_HI_VALID6, 0⟩,
      ⟨.rwa, NRG_OWNER_HI_SLOT7, 0⟩,
      ⟨.rwa, NRG_OWNER_HI_VALID7, 0⟩]⟩,
    ⟨0x048, .rw, [⟨.rw, NRG_IDX_QUEUE, 0⟩, ⟨.rw, NRG_IDX_PART, 0⟩]⟩,
    ⟨0x04C, .ro, [⟨.ro, NRG_ACC, 0⟩]⟩,
    ⟨0x050, .ro, [⟨.ro, NRG_ACC_HI, 0⟩]⟩,
    ⟨0x054, .ro, [⟨.ro, NRG_UNATTR, 0⟩]⟩,
    ⟨0x058, .ro, [⟨.ro, NRG_UNATTR_HI, 0⟩]⟩,
    ⟨0x05C, .ro, [⟨.ro, NRG_TOTAL, 0⟩]⟩,
    ⟨0x060, .ro, [⟨.ro, NRG_TOTAL_HI, 0⟩]⟩,
    ⟨0x064, .ro, [⟨.ro, NRG_STAT_NOACT, 0⟩, ⟨.ro, NRG_STAT_SAT, 0⟩, ⟨.ro, NRG_STAT_SPLITS, 0⟩]⟩ ]

/-- Registers of the Tally power (R126, 04) page. -/
def regs_pwrT : List RegS :=
  [ ⟨0x040, .rw, [⟨.rw, PWR_V_LSB, 1⟩]⟩,
    ⟨0x044, .rw, [⟨.rw, PWR_I_LSB, 1⟩]⟩,
    ⟨0x048, .rw, [⟨.rw, PWR_LIM_INST, 0⟩]⟩,
    ⟨0x04C, .rw, [⟨.rw, PWR_LIM_1MS, 0⟩]⟩,
    ⟨0x050, .rw, [⟨.rw, PWR_LIM_10MS, 0⟩]⟩,
    ⟨0x054, .rw, [⟨.rw, PWR_HOLD, 50⟩]⟩,
    ⟨0x058, .rw, [⟨.rw, PWR_LOCK, 0⟩]⟩,
    ⟨0x05C, .ro, [⟨.ro, PWR_NOW, 0⟩]⟩,
    ⟨0x060, .ro, [⟨.ro, PWR_AVG1, 0⟩]⟩,
    ⟨0x064, .ro, [⟨.ro, PWR_AVG10, 0⟩]⟩,
    ⟨0x068, .ro, [⟨.ro, PWR_STAT_STATE, 0⟩, ⟨.ro, PWR_STAT_CAUSE, 0⟩, ⟨.ro, PWR_STAT_TRIPS, 0⟩]⟩,
    ⟨0x06C, .ro, [⟨.ro, PWR_RES_LIM, 0⟩]⟩,
    ⟨0x070, .ro, [⟨.ro, PWR_RES_CAP, 0⟩]⟩,
    ⟨0x074, .ro, [⟨.ro, PWR_RES_THERM, 0⟩]⟩,
    ⟨0x078, .ro, [⟨.ro, PWR_RES_HPWR, 0⟩]⟩,
    ⟨0x07C, .ro, [⟨.ro, PWR_RES_LINK, 0⟩]⟩ ]

/-- Registers of the clock cap (R127, 04) page. -/
def regs_cap : List RegS :=
  [ ⟨0x040, .rwa, [⟨.rwa, CAP_CODE, 4095⟩]⟩,
    ⟨0x044, .rw, [⟨.rw, CAP_FLOOR, 0⟩]⟩,
    ⟨0x048, .rw, [⟨.rw, CAP_TOP, 4094⟩]⟩,
    ⟨0x04C, .rw, [⟨.rw, CAP_STEP, 100⟩]⟩,
    ⟨0x050, .rw, [⟨.rw, CAP_LOCK, 0⟩]⟩,
    ⟨0x054, .ro, [⟨.ro, CAP_STAT_ACK_TO, 0⟩, ⟨.ro, CAP_STAT_ACK_LAT, 0⟩]⟩ ]

/-- Registers of the steward core (R128 04, R486 18) page. -/
def regs_stw : List RegS :=
  [ ⟨0x040, .rw, [⟨.wo, STW_CTRL_START, 0⟩, ⟨.wo, STW_CTRL_HALT, 0⟩]⟩,
    ⟨0x044, .ro, [⟨.ro, STW_STAT_STATE, 0⟩, ⟨.ro, STW_STAT_CAUSE, 0⟩]⟩,
    ⟨0x048, .rw, [⟨.rw, STW_LOAD_ADDR, 0⟩]⟩,
    ⟨0x04C, .rw, [⟨.rw, STW_LOAD_DATA, 0⟩]⟩,
    ⟨0x050, .rw, [⟨.rw, STW_IMG_LEN, 0⟩]⟩,
    ⟨0x054, .rw, [⟨.rw, STW_H2S, 0⟩]⟩,
    ⟨0x058, .ro, [⟨.ro, STW_S2H, 0⟩]⟩,
    ⟨0x05C, .ro, [⟨.ro, STW_PC, 0⟩]⟩ ]

/-- Registers of the sealing (R152, 05) page. -/
def regs_seal : List RegS :=
  [ ⟨0x040, .rwa, [⟨.rwa, SEAL_CFG_SEG_MAX, 1420⟩,
      ⟨.rwa, SEAL_CFG_TC_RSP, 7⟩,
      ⟨.rwa, SEAL_CFG_TC_DGS, 5⟩,
      ⟨.rwa, SEAL_CFG_TC_REC, 6⟩,
      ⟨.rwa, SEAL_CFG_PACK, 1⟩]⟩ ] ++
  (List.range 4).map (fun n => ⟨0x044 + 4 * n, .rwa, [⟨.rwa, SEAL_EPOCH n, 0⟩]⟩) ++
  [ ⟨0x054, .ro, [⟨.ro, SEAL_KEYSTAT_CUR0, 0⟩,
      ⟨.ro, SEAL_KEYSTAT_NEXT0, 0⟩,
      ⟨.ro, SEAL_KEYSTAT_PREV0, 0⟩,
      ⟨.ro, SEAL_KEYSTAT_CUR1, 0⟩,
      ⟨.ro, SEAL_KEYSTAT_NEXT1, 0⟩,
      ⟨.ro, SEAL_KEYSTAT_PREV1, 0⟩,
      ⟨.ro, SEAL_KEYSTAT_CUR2, 0⟩,
      ⟨.ro, SEAL_KEYSTAT_NEXT2, 0⟩,
      ⟨.ro, SEAL_KEYSTAT_PREV2, 0⟩,
      ⟨.ro, SEAL_KEYSTAT_CUR3, 0⟩,
      ⟨.ro, SEAL_KEYSTAT_NEXT3, 0⟩,
      ⟨.ro, SEAL_KEYSTAT_PREV3, 0⟩,
      ⟨.ro, SEAL_KEYSTAT_CMD, 0⟩]⟩,
    ⟨0x058, .ro, [⟨.ro, SEAL_CMD_EPOCH, 0⟩]⟩,
    ⟨0x05C, .ro, [⟨.ro, SEAL_CMD_SEQ, 0⟩]⟩,
    ⟨0x060, .ro, [⟨.ro, SEAL_CMD_SEQ_HI, 0⟩]⟩,
    ⟨0x064, .ro, [⟨.ro, SEAL_INLET_STAT_UNIT_MISS, 0⟩,
      ⟨.ro, SEAL_INLET_STAT_REPLAYED, 0⟩,
      ⟨.ro, SEAL_INLET_STAT_AUTH, 0⟩]⟩,
    ⟨0x068, .ro, [⟨.ro, SEAL_ACT_STAT_ROSTER, 0⟩, ⟨.ro, SEAL_ACT_STAT_RATE, 0⟩]⟩,
    ⟨0x06C, .ro, [⟨.ro, SEAL_RECORDS, 0⟩]⟩,
    ⟨0x070, .ro, [⟨.ro, SEAL_VERD_W, 0⟩]⟩,
    ⟨0x074, .ro, [⟨.ro, SEAL_VERD_WHI, 0⟩]⟩,
    ⟨0x078, .ro, [⟨.ro, SEAL_VERD_INFO_LEN, 0⟩,
      ⟨.ro, SEAL_VERD_INFO_REV, 0⟩,
      ⟨.ro, SEAL_VERD_INFO_SLOT, 0⟩]⟩,
    ⟨0x07C, .rw, [⟨.rw, SEAL_VBUF_IDX, 0⟩]⟩,
    ⟨0x080, .ro, [⟨.ro, SEAL_VBUF_DATA, 0⟩]⟩ ] ++
  (List.range 4).map (fun n => ⟨0x084 + 4 * n, .rwa, [⟨.rwa, SEAL_DST n, 0⟩]⟩) ++
  (List.range 16).map (fun n => ⟨0x0C0 + 4 * n, .rwa, [⟨.rwa, SEAL_HDR n, 0⟩]⟩) ++
  [ ⟨0x100, .rwa, [⟨.rwa, SEAL_HDR16, 0⟩]⟩ ]

/-- Registers of the shaper and gates (R153, 05) page. -/
def regs_shp : List RegS :=
  [ ⟨0x040, .rw, [⟨.rw, SHP_PORT_RATE, 400⟩]⟩,
    ⟨0x044, .rw, [⟨.rw, SHP_CEIL, 100⟩]⟩,
    ⟨0x048, .rw, [⟨.rw, SHP_CEIL_BURST, 16384⟩]⟩,
    ⟨0x04C, .rw, [⟨.rw, SHP_LOCK, 0⟩]⟩,
    ⟨0x050, .rwa, [⟨.rwa, SHP_OVH, 20⟩]⟩,
    ⟨0x054, .rw, [⟨.rw, SHP_CLS_IDX, 0⟩]⟩,
    ⟨0x058, .rwa, [⟨.rwa, SHP_CLS_RATE, 0⟩]⟩,
    ⟨0x05C, .rwa, [⟨.rwa, SHP_CLS_BURST, 0⟩]⟩,
    ⟨0x060, .ro, [⟨.ro, SHP_CLS_TOK, 0⟩]⟩,
    ⟨0x064, .rwa, [⟨.rwa, SHP_GCL_CFG_LEN, 0⟩, ⟨.rwa, SHP_GCL_CFG_CYC, 3⟩]⟩,
    ⟨0x068, .rw, [⟨.rw, SHP_GCL_IDX, 0⟩]⟩,
    ⟨0x06C, .rwa, [⟨.rwa, SHP_GCL_DATA_DUR, 0⟩, ⟨.rwa, SHP_GCL_DATA_GATES, 0⟩]⟩,
    ⟨0x070, .ro, [⟨.ro, SHP_CEIL_TOK, 0⟩]⟩,
    ⟨0x074, .ro, [⟨.ro, SHP_STAT_FALLBACK, 0⟩, ⟨.ro, SHP_STAT_DROP, 0⟩]⟩,
    ⟨0x078, .ro, [⟨.ro, SHP_BUF, 0⟩]⟩ ]

/-- Registers of the ingest (R195-R197, 07) page. -/
def regs_ing : List RegS :=
  [ ⟨0x040, .rwa, [⟨.rwa, ING_CFG_REASM_US, 20⟩, ⟨.rwa, ING_CFG_UDP_PORT, 31313⟩]⟩,
    ⟨0x044, .rwa, [⟨.rwa, ING_MAP_DIE0, 0⟩,
      ⟨.rwa, ING_MAP_DIE1, 1⟩,
      ⟨.rwa, ING_MAP_DIE2, 2⟩,
      ⟨.rwa, ING_MAP_DIE3, 3⟩,
      ⟨.rwa, ING_MAP_DIE4, 4⟩,
      ⟨.rwa, ING_MAP_DIE5, 5⟩,
      ⟨.rwa, ING_MAP_DIE6, 6⟩,
      ⟨.rwa, ING_MAP_DIE7, 7⟩]⟩,
    ⟨0x048, .rw, [⟨.rw, ING_JOB_IDX, 0⟩]⟩,
    ⟨0x04C, .rwa, [⟨.rwa, ING_JOB_ID, 0⟩]⟩,
    ⟨0x050, .rwa, [⟨.rwa, ING_JOB_CFG_PG, 1⟩,
      ⟨.rwa, ING_JOB_CFG_HOME, 0⟩,
      ⟨.rwa, ING_JOB_CFG_LATE_WIN, 4⟩,
      ⟨.rwa, ING_JOB_CFG_K, 3⟩]⟩,
    ⟨0x054, .rwa, [⟨.rwa, ING_JOB_DL_SEAL_OFS, 60⟩, ⟨.rwa, ING_JOB_DL_VERD_OFS, 200⟩]⟩,
    ⟨0x058, .rwa, [⟨.rwa, ING_JOB_HOLD, 50⟩]⟩,
    ⟨0x05C, .rwa, [⟨.rwa, ING_JOB_GEN, 0⟩]⟩,
    ⟨0x060, .rwa, [⟨.rwa, ING_JOB_EPOCH, 0⟩]⟩,
    ⟨0x064, .ro, [⟨.ro, ING_JOB_STAT_WINDOWS, 0⟩,
      ⟨.ro, ING_JOB_STAT_GENS, 0⟩,
      ⟨.ro, ING_JOB_STAT_SEALED, 0⟩]⟩,
    ⟨0x068, .rw, [⟨.rw, ING_CNT_SEL, 0⟩]⟩,
    ⟨0x06C, .ro, [⟨.ro, ING_CNT, 0⟩]⟩,
    ⟨0x070, .ro, [⟨.ro, ING_CNT_HI, 0⟩]⟩,
    ⟨0x074, .ro, [⟨.ro, ING_BUF, 0⟩]⟩ ]

/-- Registers of the Trestle (R198, 07) page. -/
def regs_trs : List RegS :=
  [ ⟨0x040, .rw, [⟨.rw, TRS_FLD_JOB, 0⟩]⟩,
    ⟨0x044, .rwa, [⟨.rwa, TRS_FLD_COUNT, 0⟩]⟩,
    ⟨0x048, .rw, [⟨.rw, TRS_FLD_IDX, 0⟩]⟩,
    ⟨0x04C, .rwa, [⟨.rwa, TRS_FLD_DATA0_INDEX, 0⟩,
      ⟨.rwa, TRS_FLD_DATA0_MKIND, 0⟩,
      ⟨.rwa, TRS_FLD_DATA0_HIST, 0⟩,
      ⟨.rwa, TRS_FLD_DATA0_EXT, 0⟩,
      ⟨.rwa, TRS_FLD_DATA0_SUM, 0⟩,
      ⟨.rwa, TRS_FLD_DATA0_SRC, 0⟩]⟩,
    ⟨0x050, .rwa, [⟨.rwa, TRS_FLD_DATA1_BIAS, 0⟩, ⟨.rwa, TRS_FLD_DATA1_SHIFT, 0⟩]⟩,
    ⟨0x054, .ro, [⟨.ro, TRS_FREE, 131072⟩]⟩,
    ⟨0x058, .ro, [⟨.ro, TRS_FREE_HIST, 8192⟩]⟩,
    ⟨0x05C, .ro, [⟨.ro, TRS_LANE_SLOT, 0⟩, ⟨.ro, TRS_LANE_MISMATCH, 0⟩]⟩,
    ⟨0x060, .ro, [⟨.ro, TRS_BYTES, 0⟩]⟩,
    ⟨0x064, .ro, [⟨.ro, TRS_BYTES_HI, 0⟩]⟩ ]

/-- Registers of the tile (R257, 09) page. -/
def regs_til : List RegS :=
  [ ⟨0x040, .rw, [⟨.wo, TIL_CTRL_WAKE, 0⟩,
      ⟨.wo, TIL_CTRL_GATE, 0⟩,
      ⟨.wo, TIL_CTRL_PARK, 0⟩,
      ⟨.wo, TIL_CTRL_SEQ_START, 0⟩,
      ⟨.wo, TIL_CTRL_SEQ_HALT, 0⟩,
      ⟨.wo, TIL_CTRL_RETIRE, 0⟩]⟩,
    ⟨0x044, .ro, [⟨.ro, TIL_STAT_PSTATE, 1⟩, ⟨.ro, TIL_STAT_SEQ, 0⟩, ⟨.ro, TIL_STAT_QHALT, 0⟩]⟩,
    ⟨0x048, .rwa, [⟨.rwa, TIL_JOB_SLOT, 0⟩,
      ⟨.rwa, TIL_JOB_RANK, 0⟩,
      ⟨.rwa, TIL_JOB_FOLD, 0⟩,
      ⟨.rwa, TIL_JOB_VALID, 0⟩]⟩,
    ⟨0x04C, .rwa, [⟨.rwa, TIL_SCHED_ACTIVE_OFS, 40⟩,
      ⟨.rwa, TIL_SCHED_SLEEP, 2⟩,
      ⟨.rwa, TIL_SCHED_EN, 0⟩,
      ⟨.rwa, TIL_SCHED_K, 3⟩]⟩,
    ⟨0x050, .rw, [⟨.rw, TIL_SEQ_CFG, 0⟩]⟩,
    ⟨0x054, .ro, [⟨.ro, TIL_SEQ_PC, 0⟩]⟩,
    ⟨0x058, .ro, [⟨.ro, TIL_SEQ_CAUSE, 0⟩]⟩,
    ⟨0x05C, .rw1c, [⟨.rw1c, TIL_FLAGS_INEXACT, 0⟩,
      ⟨.rw1c, TIL_FLAGS_UNDERFLOW, 0⟩,
      ⟨.rw1c, TIL_FLAGS_OVERFLOW, 0⟩,
      ⟨.rw1c, TIL_FLAGS_SATURATION, 0⟩,
      ⟨.rw1c, TIL_FLAGS_INVALID, 0⟩]⟩,
    ⟨0x060, .rw, [⟨.wo, TIL_QCTRL, 0⟩]⟩ ] ++
  (List.range 4).map (fun n => ⟨0x064 + 4 * n, .ro, [⟨.ro, TIL_QSTAT_LAST_ERR n, 0⟩,
      ⟨.ro, TIL_QSTAT_HELD n, 0⟩,
      ⟨.ro, TIL_QSTAT_DONE n, 0⟩]⟩) ++
  [ ⟨0x074, .rwa, [⟨.rwa, TIL_HBM0_BASE, 0⟩]⟩,
    ⟨0x078, .rwa, [⟨.rwa, TIL_HBM0_SIZE, 0⟩]⟩,
    ⟨0x07C, .rwa, [⟨.rwa, TIL_HBM1_BASE, 0⟩]⟩,
    ⟨0x080, .rwa, [⟨.rwa, TIL_HBM1_SIZE, 0⟩]⟩,
    ⟨0x084, .ro, [⟨.ro, TIL_LATE_DONE, 0⟩, ⟨.ro, TIL_LATE_WAKE, 0⟩]⟩,
    ⟨0x088, .ro, [⟨.ro, TIL_ECC_UNCORR, 0⟩, ⟨.ro, TIL_ECC_CORR, 0⟩]⟩,
    ⟨0x08C, .rw, [⟨.rw, TIL_MBOX_IN, 0⟩]⟩,
    ⟨0x090, .ro, [⟨.ro, TIL_MBOX_OUT, 0⟩]⟩,
    ⟨0x094, .ro, [⟨.ro, TIL_WIN, 0⟩]⟩ ]

/-- Registers of the Hutch (R280, 10) page. -/
def regs_hut : List RegS :=
  [ ⟨0x040, .ro, [⟨.ro, HUT_EVAL, 0⟩]⟩,
    ⟨0x044, .ro, [⟨.ro, HUT_EVAL_HI, 0⟩]⟩,
    ⟨0x048, .ro, [⟨.ro, HUT_BUSY, 0⟩]⟩,
    ⟨0x04C, .ro, [⟨.ro, HUT_BUSY_HI, 0⟩]⟩,
    ⟨0x050, .ro, [⟨.ro, HUT_FAULT_ROW, 0⟩, ⟨.ro, HUT_FAULT_TREE, 0⟩]⟩,
    ⟨0x054, .ro, [⟨.ro, HUT_FAULT_INFO_ITEM, 0⟩,
      ⟨.ro, HUT_FAULT_INFO_TICKET, 0⟩,
      ⟨.ro, HUT_FAULT_INFO_KIND, 0⟩]⟩ ]

/-- Registers of the HBM controller (R304-R305, 11) page. -/
def regs_mem : List RegS :=
  [ ⟨0x040, .ro, [⟨.ro, MEM_CFG_GIB, 24⟩, ⟨.ro, MEM_CFG_STACKS, 15⟩]⟩,
    ⟨0x044, .ro, [⟨.ro, MEM_BASE, 0⟩]⟩,
    ⟨0x048, .ro, [⟨.ro, MEM_SIZE, 0⟩]⟩,
    ⟨0x04C, .rw, [⟨.rw, MEM_SCRUB_HOURS, 24⟩, ⟨.ro, MEM_SCRUB_PASSES, 0⟩]⟩,
    ⟨0x050, .ro, [⟨.ro, MEM_ECC_UNCORR, 0⟩, ⟨.ro, MEM_ECC_CORR, 0⟩]⟩,
    ⟨0x054, .ro, [⟨.ro, MEM_ERR_ADDR, 0⟩]⟩,
    ⟨0x058, .ro, [⟨.ro, MEM_ERR_ADDR_HI, 0⟩]⟩,
    ⟨0x05C, .rw, [⟨.rw, MEM_INJ_ADDR_LO, 0⟩]⟩,
    ⟨0x060, .rw, [⟨.rw, MEM_INJ_ADDR_HI, 0⟩]⟩,
    ⟨0x064, .rw, [⟨.rw, MEM_INJ_CTRL, 0⟩]⟩ ]

/-- Registers of the tape (R306, 11) page. -/
def regs_tap : List RegS :=
  [ ⟨0x040, .rw, [⟨.rw, TAP_CFG, 10⟩]⟩,
    ⟨0x044, .rw, [⟨.rw, TAP_ALARM_T0_S, 60⟩, ⟨.rw, TAP_ALARM_T1_MIN, 300⟩]⟩,
    ⟨0x048, .rw, [⟨.rw, TAP_SEL, 0⟩]⟩,
    ⟨0x04C, .ro, [⟨.ro, TAP_HEAD, 1⟩]⟩,
    ⟨0x050, .ro, [⟨.ro, TAP_HEAD_HI, 0⟩]⟩,
    ⟨0x054, .ro, [⟨.ro, TAP_TAIL, 1⟩]⟩,
    ⟨0x058, .ro, [⟨.ro, TAP_TAIL_HI, 0⟩]⟩,
    ⟨0x05C, .ro, [⟨.ro, TAP_SPAN, 0⟩]⟩,
    ⟨0x060, .ro, [⟨.ro, TAP_STAT_DAMAGED, 0⟩, ⟨.ro, TAP_STAT_LOST, 0⟩]⟩,
    ⟨0x064, .ro, [⟨.ro, TAP_PEND_WINDOWS, 0⟩, ⟨.ro, TAP_PEND_T1_GAP, 0⟩]⟩,
    ⟨0x068, .rw, [⟨.wo, TAP_SCAN_CTRL_START, 0⟩,
      ⟨.wo, TAP_SCAN_CTRL_ABORT, 0⟩,
      ⟨.rw, TAP_SCAN_CTRL_TIER, 0⟩,
      ⟨.rw, TAP_SCAN_CTRL_DELIVER, 0⟩,
      ⟨.ro, TAP_SCAN_CTRL_STATE, 0⟩,
      ⟨.rw, TAP_SCAN_CTRL_TIMEOUT, 1000⟩]⟩,
    ⟨0x06C, .rw, [⟨.rw, TAP_SCAN_JOB, 0⟩]⟩,
    ⟨0x070, .rw, [⟨.rw, TAP_SCAN_FROM_LO, 0⟩]⟩,
    ⟨0x074, .rw, [⟨.rw, TAP_SCAN_FROM_HI, 0⟩]⟩,
    ⟨0x078, .rw, [⟨.rw, TAP_SCAN_TO_LO, 0⟩]⟩,
    ⟨0x07C, .rw, [⟨.rw, TAP_SCAN_TO_HI, 0⟩]⟩ ] ++
  [ ⟨0x080, .rw, [⟨.rw, TAP_SCAN_RING, 0⟩]⟩,
    ⟨0x084, .rw, [⟨.rw, TAP_SCAN_SLOTS, 0⟩]⟩,
    ⟨0x088, .ro, [⟨.ro, TAP_SCAN_CNT, 0⟩]⟩,
    ⟨0x08C, .ro, [⟨.ro, TAP_SCAN_CNT_HI, 0⟩]⟩,
    ⟨0x090, .ro, [⟨.ro, TAP_SCAN_SKIP, 0⟩]⟩ ]

/-- Registers of the compression (R307, 11) page. -/
def regs_cmp : List RegS :=
  [ ⟨0x040, .rw, [⟨.rw, CMP_CFG, 3⟩]⟩,
    ⟨0x044, .rw, [⟨.rw, CMP_ENG_EN, 65535⟩]⟩,
    ⟨0x048, .ro, [⟨.ro, CMP_ENG_OUT, 0⟩]⟩,
    ⟨0x04C, .ro, [⟨.ro, CMP_ENG_BUSY, 0⟩]⟩,
    ⟨0x050, .ro, [⟨.ro, CMP_CIN, 0⟩]⟩,
    ⟨0x054, .ro, [⟨.ro, CMP_CIN_HI, 0⟩]⟩,
    ⟨0x058, .ro, [⟨.ro, CMP_DOUT, 0⟩]⟩,
    ⟨0x05C, .ro, [⟨.ro, CMP_DOUT_HI, 0⟩]⟩,
    ⟨0x060, .ro, [⟨.ro, CMP_FAIL_CHECKSUM, 0⟩, ⟨.ro, CMP_FAIL_VERIFY, 0⟩]⟩ ]

/-- Registers of the digest (R360, 13) page. -/
def regs_dgs : List RegS :=
  [ ⟨0x040, .rw, [⟨.rw, DGS_SLOT, 0⟩]⟩,
    ⟨0x044, .rw, [⟨.rw, DGS_EXT_IDX, 0⟩]⟩,
    ⟨0x048, .rwa, [⟨.rwa, DGS_EXT_COUNT, 0⟩]⟩,
    ⟨0x04C, .rwa, [⟨.rwa, DGS_EXT_ATTR_ELEM_BITS, 16⟩, ⟨.rwa, DGS_EXT_ATTR_TENSOR, 0⟩]⟩,
    ⟨0x050, .rwa, [⟨.rwa, DGS_EXT_BASE_LO, 0⟩]⟩,
    ⟨0x054, .rwa, [⟨.rwa, DGS_EXT_BASE_HI, 0⟩]⟩,
    ⟨0x058, .rwa, [⟨.rwa, DGS_EXT_LEN, 0⟩]⟩,
    ⟨0x05C, .rwa, [⟨.rwa, DGS_EXT_ADDR_LO, 0⟩]⟩,
    ⟨0x060, .rwa, [⟨.rwa, DGS_EXT_ADDR_HI, 0⟩]⟩,
    ⟨0x064, .rwa, [⟨.rwa, DGS_EXT_STRIDE, 0⟩]⟩,
    ⟨0x068, .ro, [⟨.ro, DGS_CAD_EVERY, 0⟩]⟩,
    ⟨0x06C, .ro, [⟨.ro, DGS_CAD_FIRST, 0⟩]⟩,
    ⟨0x070, .ro, [⟨.ro, DGS_STAT_STATE, 0⟩,
      ⟨.ro, DGS_STAT_OBSERVED, 0⟩,
      ⟨.ro, DGS_STAT_LAST_STATUS, 0⟩]⟩,
    ⟨0x074, .ro, [⟨.ro, DGS_LAST, 0⟩]⟩,
    ⟨0x078, .ro, [⟨.ro, DGS_RPL, 0⟩]⟩,
    ⟨0x07C, .ro, [⟨.ro, DGS_RPL_INFO_SHIFT, 0⟩, ⟨.ro, DGS_RPL_INFO_RPL_ID, 0⟩]⟩ ] ++
  [ ⟨0x080, .rw, [⟨.rw, DGS_RPL_OFS_LO, 0⟩]⟩,
    ⟨0x084, .rw, [⟨.rw, DGS_RPL_OFS_HI, 0⟩]⟩,
    ⟨0x088, .rw, [⟨.wo, DGS_CTRL_RPL_READY, 0⟩, ⟨.wo, DGS_CTRL_RPL_DECLINE, 0⟩]⟩,
    ⟨0x08C, .ro, [⟨.ro, DGS_OBS_END, 0⟩]⟩,
    ⟨0x090, .ro, [⟨.ro, DGS_OBS_END_HI, 0⟩]⟩,
    ⟨0x094, .ro, [⟨.ro, DGS_OBS_CFG, 0⟩]⟩,
    ⟨0x098, .rw, [⟨.rw, DGS_TEST_FAIL, 0⟩, ⟨.rw, DGS_TEST_PASS, 0⟩]⟩,
    ⟨0x09C, .ro, [⟨.ro, DGS_CNT_POISON, 0⟩, ⟨.ro, DGS_CNT_ABANDONED, 0⟩]⟩ ]

/-- Registers of the Reach (R388-R390, 14) page. -/
def regs_rch : List RegS :=
  [ ⟨0x040, .rwa, [⟨.rwa, RCH_CFG_REORDER, 3⟩,
      ⟨.rwa, RCH_CFG_ACK_US, 20⟩,
      ⟨.rwa, RCH_CFG_UDP_PORT, 31317⟩]⟩,
    ⟨0x044, .rwa, [⟨.rwa, RCH_RTO_PSE_MAX_MS, 100⟩,
      ⟨.rwa, RCH_RTO_RTO_INIT_MS, 50⟩,
      ⟨.rwa, RCH_RTO_RTO_MIN_US, 1000⟩]⟩,
    ⟨0x048, .rwa, [⟨.rwa, RCH_RETX_HELLO_LOSS_MS, 10⟩, ⟨.rwa, RCH_RETX_RETX_MAX_MS, 2000⟩]⟩,
    ⟨0x04C, .rwa, [⟨.rwa, RCH_WIN, 2047⟩]⟩,
    ⟨0x050, .rwa, [⟨.rwa, RCH_PEER_HUB, 0⟩, ⟨.rwa, RCH_PEER_PORT, 0⟩]⟩,
    ⟨0x054, .rwa, [⟨.rwa, RCH_SITES, 0⟩]⟩,
    ⟨0x058, .ro, [⟨.ro, RCH_STATE_STATE, 0⟩,
      ⟨.ro, RCH_STATE_LIMITED, 0⟩,
      ⟨.ro, RCH_STATE_PAUSED, 0⟩,
      ⟨.ro, RCH_STATE_PATHCLR, 0⟩]⟩,
    ⟨0x05C, .ro, [⟨.ro, RCH_SESSION, 0⟩]⟩,
    ⟨0x060, .ro, [⟨.ro, RCH_NEXT, 0⟩]⟩,
    ⟨0x064, .ro, [⟨.ro, RCH_NEXT_HI, 0⟩]⟩,
    ⟨0x068, .ro, [⟨.ro, RCH_CUM, 0⟩]⟩,
    ⟨0x06C, .ro, [⟨.ro, RCH_CUM_HI, 0⟩]⟩,
    ⟨0x070, .ro, [⟨.ro, RCH_SRTT, 0⟩]⟩,
    ⟨0x074, .ro, [⟨.ro, RCH_RTTVAR, 0⟩]⟩,
    ⟨0x078, .ro, [⟨.ro, RCH_INFLIGHT, 0⟩]⟩,
    ⟨0x07C, .ro, [⟨.ro, RCH_QUEUED, 0⟩]⟩ ] ++
  [ ⟨0x080, .ro, [⟨.ro, RCH_CREDIT, 0⟩]⟩,
    ⟨0x084, .ro, [⟨.ro, RCH_RX_HELD, 0⟩]⟩,
    ⟨0x088, .rw, [⟨.rw, RCH_CNT_SEL, 0⟩]⟩,
    ⟨0x08C, .ro, [⟨.ro, RCH_CNT, 0⟩]⟩,
    ⟨0x090, .ro, [⟨.ro, RCH_CNT_HI, 0⟩]⟩ ]

/-- Registers of the gateway status (R391, 14) page. -/
def regs_gsi : List RegS :=
  [ ⟨0x040, .rwa, [⟨.rwa, GSI_CFG, 5⟩]⟩,
    ⟨0x044, .rwa, [⟨.rwa, GSI_JOB, 0⟩]⟩,
    ⟨0x048, .rw, [⟨.rw, GSI_LINE_IDX, 0⟩]⟩,
    ⟨0x04C, .rwa, [⟨.rwa, GSI_LINE_CFG_UNIT, 0⟩, ⟨.rwa, GSI_LINE_CFG_ROLE, 0⟩]⟩,
    ⟨0x050, .ro, [⟨.ro, GSI_LINE_STAT_MISSING, 0⟩,
      ⟨.ro, GSI_LINE_STAT_TSI_PAGE, 0⟩,
      ⟨.ro, GSI_LINE_STAT_ACTIVE_PATH, 0⟩,
      ⟨.ro, GSI_LINE_STAT_FRAME, 3⟩]⟩,
    ⟨0x054, .ro, [⟨.ro, GSI_LINE_SPAR, 0⟩]⟩,
    ⟨0x058, .ro, [⟨.ro, GSI_LINE_PPAR, 0⟩]⟩,
    ⟨0x05C, .ro, [⟨.ro, GSI_LINE_FEE, 0⟩]⟩,
    ⟨0x060, .ro, [⟨.ro, GSI_LINE_SW_TSI, 0⟩, ⟨.ro, GSI_LINE_SW_APS, 0⟩]⟩,
    ⟨0x064, .ro, [⟨.ro, GSI_LINE_FRM_LOF, 0⟩, ⟨.ro, GSI_LINE_FRM_OOF, 0⟩]⟩,
    ⟨0x068, .ro, [⟨.ro, GSI_PSE_RISES, 0⟩, ⟨.ro, GSI_PSE_LEVEL, 0⟩]⟩,
    ⟨0x06C, .ro, [⟨.ro, GSI_PSE_T, 0⟩]⟩,
    ⟨0x070, .ro, [⟨.ro, GSI_PSE_T_SLO, 0⟩]⟩,
    ⟨0x074, .ro, [⟨.ro, GSI_PSE_T_SHI, 0⟩]⟩,
    ⟨0x078, .ro, [⟨.ro, GSI_PSE_LEN, 0⟩]⟩,
    ⟨0x07C, .ro, [⟨.ro, GSI_MISMATCH_PSE_NO_APS, 0⟩, ⟨.ro, GSI_MISMATCH_APS_NO_PSE, 0⟩]⟩ ]

/-- Registers of the Hub power (R407-R408, 15) page. -/
def regs_pwrH : List RegS :=
  [ ⟨0x040, .rwa, [⟨.rwa, HPWR_LEVEL, 63⟩]⟩,
    ⟨0x044, .ro, [⟨.ro, HPWR_STATUS_LEVEL, 63⟩,
      ⟨.ro, HPWR_STATUS_CAUSE, 0⟩,
      ⟨.ro, HPWR_STATUS_MHZ, 1800⟩]⟩,
    ⟨0x048, .rw, [⟨.rw, HPWR_LIM_FAST, 0⟩]⟩,
    ⟨0x04C, .rw, [⟨.rw, HPWR_LIM_1MS, 0⟩]⟩,
    ⟨0x050, .rw, [⟨.rw, HPWR_LIM_SUST, 0⟩]⟩,
    ⟨0x054, .rw, [⟨.rw, HPWR_THR_LEVEL, 31⟩]⟩,
    ⟨0x058, .rw, [⟨.rw, HPWR_LOCK, 0⟩]⟩,
    ⟨0x05C, .rwa, [⟨.rwa, HPWR_OP_CAP, 0⟩]⟩,
    ⟨0x060, .rwa, [⟨.rwa, HPWR_TJ_TJ_THR, 100⟩, ⟨.ro, HPWR_TJ_TJ_CRIT, 115⟩]⟩,
    ⟨0x064, .ro, [⟨.ro, HPWR_NOW, 0⟩]⟩,
    ⟨0x068, .ro, [⟨.ro, HPWR_AVG1, 0⟩]⟩,
    ⟨0x06C, .ro, [⟨.ro, HPWR_AVG1S, 0⟩]⟩,
    ⟨0x070, .rw, [⟨.rw, HPWR_DIE_IDX, 56⟩]⟩,
    ⟨0x074, .ro, [⟨.ro, HPWR_DIE_STAT_MW, 0⟩, ⟨.ro, HPWR_DIE_STAT_TJ, 0⟩]⟩,
    ⟨0x078, .ro, [⟨.ro, HPWR_CAL_GAIN, 65536⟩, ⟨.ro, HPWR_CAL_RESID, 0⟩, ⟨.ro, HPWR_CAL_STALE, 0⟩]⟩,
    ⟨0x07C, .ro, [⟨.ro, HPWR_VR_ALERT, 0⟩, ⟨.ro, HPWR_VR_BRD, 0⟩, ⟨.ro, HPWR_VR_PMB_ERR, 0⟩]⟩ ] ++
  [ ⟨0x080, .ro, [⟨.ro, HPWR_EVENTS_THERM, 0⟩,
      ⟨.ro, HPWR_EVENTS_SUST, 0⟩,
      ⟨.ro, HPWR_EVENTS_AVG1, 0⟩,
      ⟨.ro, HPWR_EVENTS_FAST, 0⟩]⟩,
    ⟨0x084, .rw, [⟨.rw, HPWR_EN_IDX_SLOT, 0⟩, ⟨.rw, HPWR_EN_IDX_QUEUE, 0⟩]⟩,
    ⟨0x088, .ro, [⟨.ro, HPWR_EN_JOB, 0⟩]⟩,
    ⟨0x08C, .ro, [⟨.ro, HPWR_EN_JOB_HI, 0⟩]⟩,
    ⟨0x090, .ro, [⟨.ro, HPWR_EN_UNATTR, 0⟩]⟩,
    ⟨0x094, .ro, [⟨.ro, HPWR_EN_UNATTR_HI, 0⟩]⟩,
    ⟨0x098, .ro, [⟨.ro, HPWR_EN_SHARED, 0⟩]⟩,
    ⟨0x09C, .ro, [⟨.ro, HPWR_EN_SHARED_HI, 0⟩]⟩,
    ⟨0x0A0, .ro, [⟨.ro, HPWR_EN_TOTAL, 0⟩]⟩,
    ⟨0x0A4, .ro, [⟨.ro, HPWR_EN_TOTAL_HI, 0⟩]⟩ ]

/-- Registers of the security (R430-R431, 16) page. -/
def regs_sec : List RegS :=
  [ ⟨0x040, .ro, [⟨.ro, SEC_ID, 0⟩]⟩,
    ⟨0x044, .ro, [⟨.ro, SEC_ID_HI, 0⟩]⟩,
    ⟨0x048, .ro, [⟨.ro, SEC_STAT_ID, 0⟩, ⟨.ro, SEC_STAT_KEYS, 0⟩]⟩,
    ⟨0x04C, .rw, [⟨.rw, SEC_LOAD_LO, 0⟩]⟩,
    ⟨0x050, .rw, [⟨.rw, SEC_LOAD_HI, 0⟩]⟩,
    ⟨0x054, .rw, [⟨.wo, SEC_LOAD_CTRL_SLOT, 0⟩, ⟨.wo, SEC_LOAD_CTRL_OP, 0⟩]⟩,
    ⟨0x058, .ro, [⟨.ro, SEC_LOAD_STAT_SLOT, 0⟩, ⟨.ro, SEC_LOAD_STAT_CODE, 0⟩]⟩,
    ⟨0x05C, .rw, [⟨.rw, SEC_KS_SEL, 0⟩]⟩,
    ⟨0x060, .ro, [⟨.ro, SEC_KS_INFO_JOB_SLOT, 0⟩,
      ⟨.ro, SEC_KS_INFO_KIND, 0⟩,
      ⟨.ro, SEC_KS_INFO_STATE, 0⟩]⟩,
    ⟨0x064, .ro, [⟨.ro, SEC_KS_EPOCH, 0⟩]⟩,
    ⟨0x068, .ro, [⟨.ro, SEC_KS_END, 0⟩]⟩,
    ⟨0x06C, .ro, [⟨.ro, SEC_KS_END_SLO, 0⟩]⟩,
    ⟨0x070, .ro, [⟨.ro, SEC_KS_END_SHI, 0⟩]⟩,
    ⟨0x074, .ro, [⟨.ro, SEC_CNT_BIND_REFUSED, 0⟩, ⟨.ro, SEC_CNT_UNWRAP_FAIL, 0⟩]⟩,
    ⟨0x078, .wo, [⟨.wo, SEC_ZEROIZE, 0⟩]⟩ ]

/-- Registers of the Bureau (R459, 17) page. -/
def regs_bur : List RegS :=
  [ ⟨0x040, .ro, [⟨.ro, BUR_HEAD, 1⟩]⟩,
    ⟨0x044, .ro, [⟨.ro, BUR_HEAD_HI, 0⟩]⟩,
    ⟨0x048, .rw, [⟨.rw, BUR_RD_SEQ_LO, 0⟩]⟩,
    ⟨0x04C, .rw, [⟨.rw, BUR_RD_SEQ_HI, 0⟩]⟩,
    ⟨0x050, .ro, [⟨.ro, BUR_RD_STAT_BUSY, 0⟩, ⟨.ro, BUR_RD_STAT_FOUND, 0⟩]⟩ ] ++
  (List.range 16).map (fun n => ⟨0x054 + 4 * n, .ro, [⟨.ro, BUR_RD_DATA n, 0⟩]⟩) ++
  [ ⟨0x094, .rw, [⟨.rw, BUR_CNT_SEL, 0⟩]⟩,
    ⟨0x098, .ro, [⟨.ro, BUR_CNT_EVICTED, 0⟩, ⟨.ro, BUR_CNT_DROPPED, 0⟩]⟩,
    ⟨0x09C, .rw, [⟨.rw, BUR_SPILL_BASE, 0⟩]⟩,
    ⟨0x0A0, .rw, [⟨.rw, BUR_SPILL_SIZE, 0⟩]⟩,
    ⟨0x0A4, .wo, [⟨.wo, BUR_POST_CTRL_DETAIL, 0⟩, ⟨.wo, BUR_POST_CTRL_SEV, 0⟩]⟩ ] ++
  (List.range 6).map (fun n => ⟨0x0A8 + 4 * n, .rw, [⟨.rw, BUR_POST_P n, 0⟩]⟩) ++
  [ ⟨0x0C0, .rwa, [⟨.rwa, BUR_LEAP_CNT, 0⟩]⟩,
    ⟨0x0C4, .rw, [⟨.rw, BUR_LEAP_IDX, 0⟩]⟩,
    ⟨0x0C8, .rwa, [⟨.rwa, BUR_LEAP_START_LO, 0⟩]⟩,
    ⟨0x0CC, .rwa, [⟨.rwa, BUR_LEAP_START_HI, 0⟩]⟩,
    ⟨0x0D0, .rwa, [⟨.rwa, BUR_LEAP_OFS, 37⟩]⟩,
    ⟨0x0D4, .rwa, [⟨.rwa, BUR_LEAP_EXP_LO, 0⟩]⟩,
    ⟨0x0D8, .rwa, [⟨.rwa, BUR_LEAP_EXP_HI, 0⟩]⟩,
    ⟨0x0DC, .rw, [⟨.rw, BUR_AOC_SEL, 0⟩]⟩,
    ⟨0x0E0, .ro, [⟨.ro, BUR_AOC, 0⟩]⟩,
    ⟨0x0E4, .ro, [⟨.ro, BUR_AOC_HI, 0⟩]⟩,
    ⟨0x0E8, .rw, [⟨.rw, BUR_CFG, 6⟩]⟩ ]

/-- Registers of the trace (R461, 17) page. -/
def regs_trc : List RegS :=
  [ ⟨0x040, .wo, [⟨.wo, TRC_CTRL_ARM, 0⟩, ⟨.wo, TRC_CTRL_STOP, 0⟩, ⟨.wo, TRC_CTRL_CLEAR, 0⟩]⟩,
    ⟨0x044, .ro, [⟨.ro, TRC_STAT_STATE, 0⟩,
      ⟨.ro, TRC_STAT_WRAPPED, 0⟩,
      ⟨.ro, TRC_STAT_TRIGGERED, 0⟩,
      ⟨.ro, TRC_STAT_TRIG_CMP, 0⟩]⟩,
    ⟨0x048, .rw, [⟨.rw, TRC_CFG_MODE, 0⟩,
      ⟨.rw, TRC_CFG_COMPRESS, 0⟩,
      ⟨.rw, TRC_CFG_SYNC_LOG, 12⟩,
      ⟨.rw, TRC_CFG_TS_US, 10⟩]⟩,
    ⟨0x04C, .rw, [⟨.rw, TRC_SRC_LO, 0⟩]⟩,
    ⟨0x050, .rw, [⟨.rw, TRC_SRC_HI, 0⟩]⟩,
    ⟨0x054, .rw, [⟨.rw, TRC_BUF_LO, 0⟩]⟩,
    ⟨0x058, .rw, [⟨.rw, TRC_BUF_HI, 0⟩]⟩,
    ⟨0x05C, .rw, [⟨.rw, TRC_BUF_SIZE, 0⟩]⟩,
    ⟨0x060, .rw, [⟨.rw, TRC_POST, 0⟩]⟩,
    ⟨0x064, .ro, [⟨.ro, TRC_WPTR, 0⟩]⟩,
    ⟨0x068, .ro, [⟨.ro, TRC_TRIG_PTR, 0⟩]⟩,
    ⟨0x06C, .ro, [⟨.ro, TRC_LOST, 0⟩]⟩,
    ⟨0x070, .rw, [⟨.rw, TRC_CMP_IDX, 0⟩]⟩,
    ⟨0x074, .rw, [⟨.rw, TRC_CMP_CFG_SRC, 0⟩,
      ⟨.rw, TRC_CMP_CFG_ACTION, 0⟩,
      ⟨.rw, TRC_CMP_CFG_KIND, 0⟩]⟩,
    ⟨0x078, .rw, [⟨.rw, TRC_CMP_A_LO, 0⟩]⟩,
    ⟨0x07C, .rw, [⟨.rw, TRC_CMP_A_HI, 0⟩]⟩ ] ++
  [ ⟨0x080, .rw, [⟨.rw, TRC_CMP_B, 0⟩]⟩ ]

/-- Registers of the freeze (R462, 17) page. -/
def regs_frz : List RegS :=
  [ ⟨0x040, .rwa, [⟨.rwa, FRZ_CTRL, 0⟩]⟩,
    ⟨0x044, .ro, [⟨.ro, FRZ_STAT_FROZEN, 0⟩,
      ⟨.ro, FRZ_STAT_AUTO, 0⟩,
      ⟨.ro, FRZ_STAT_CHAN_FULL, 0⟩]⟩,
    ⟨0x048, .rw, [⟨.rw, FRZ_LIMIT, 1000⟩]⟩,
    ⟨0x04C, .ro, [⟨.ro, FRZ_T, 0⟩]⟩,
    ⟨0x050, .ro, [⟨.ro, FRZ_T_SLO, 0⟩]⟩,
    ⟨0x054, .ro, [⟨.ro, FRZ_T_SHI, 0⟩]⟩,
    ⟨0x058, .rw, [⟨.rw, FRZ_CHAN_BASE_LO, 0⟩]⟩,
    ⟨0x05C, .rw, [⟨.rw, FRZ_CHAN_BASE_HI, 0⟩]⟩,
    ⟨0x060, .rw, [⟨.rw, FRZ_CHAN_SIZE, 0⟩]⟩,
    ⟨0x064, .ro, [⟨.ro, FRZ_CHAN_USED, 0⟩]⟩,
    ⟨0x068, .ro, [⟨.ro, FRZ_CHAN_RECS, 0⟩]⟩,
    ⟨0x06C, .ro, [⟨.ro, FRZ_COUNT_AUTO, 0⟩, ⟨.ro, FRZ_COUNT_FREEZES, 0⟩]⟩,
    ⟨0x070, .rwa, [⟨.rwa, FRZ_DUR, 0⟩]⟩ ]

/-- Registers of the Cabinet (R487, 18) page. -/
def regs_cab : List RegS :=
  [ ⟨0x040, .ro, [⟨.ro, CAB_STATE_FAIL, 0⟩,
      ⟨.ro, CAB_STATE_POP, 0⟩,
      ⟨.ro, CAB_STATE_HUB_INDEX, 0⟩,
      ⟨.ro, CAB_STATE_INDEXED, 0⟩,
      ⟨.ro, CAB_STATE_PHASE, 0⟩,
      ⟨.ro, CAB_STATE_ROLE, 0⟩]⟩,
    ⟨0x044, .ro, [⟨.ro, CAB_BOARD_SITE, 0⟩, ⟨.ro, CAB_BOARD_BOARD_ID, 0⟩]⟩,
    ⟨0x048, .ro, [⟨.ro, CAB_BOOTS, 0⟩]⟩,
    ⟨0x04C, .ro, [⟨.ro, CAB_PEER_HB_MISS, 0⟩, ⟨.ro, CAB_PEER_TAKEOVERS, 0⟩]⟩,
    ⟨0x050, .ro, [⟨.ro, CAB_JRNL_NEXT, 1⟩]⟩,
    ⟨0x054, .ro, [⟨.ro, CAB_JRNL_NEXT_HI, 0⟩]⟩,
    ⟨0x058, .ro, [⟨.ro, CAB_JRNL_OPEN, 0⟩]⟩,
    ⟨0x05C, .ro, [⟨.ro, CAB_JOBS, 0⟩]⟩,
    ⟨0x060, .ro, [⟨.ro, CAB_MGMT_MA_UP, 0⟩,
      ⟨.ro, CAB_MGMT_MB_UP, 0⟩,
      ⟨.ro, CAB_MGMT_TENANT, 0⟩,
      ⟨.ro, CAB_MGMT_OPERATOR, 0⟩]⟩,
    ⟨0x064, .wo, [⟨.wo, CAB_CTRL_SWITCHOVER, 0⟩,
      ⟨.wo, CAB_CTRL_RESET_PKG, 0⟩,
      ⟨.wo, CAB_CTRL_CODE, 0⟩]⟩,
    ⟨0x068, .ro, [⟨.ro, CAB_RETIRED, 0⟩]⟩ ]

/-- Registers of the link test (R499-R500, 19) page. -/
def regs_tst : List RegS :=
  [ ⟨0x040, .rw, [⟨.rw, TST_SEL_LANE, 0⟩, ⟨.rw, TST_SEL_INDEX, 0⟩, ⟨.rw, TST_SEL_KIND, 0⟩]⟩,
    ⟨0x044, .rw, [⟨.rw, TST_MODE_LOOP, 0⟩, ⟨.rw, TST_MODE_HALF, 0⟩, ⟨.rw, TST_MODE_TEST, 0⟩]⟩,
    ⟨0x048, .rw, [⟨.rw, TST_GEN_PATTERN, 0⟩, ⟨.rw, TST_GEN_INVERT, 0⟩, ⟨.wo, TST_GEN_INJECT, 0⟩]⟩,
    ⟨0x04C, .rw, [⟨.rw, TST_CHK_PATTERN, 0⟩,
      ⟨.rw, TST_CHK_INVERT, 0⟩,
      ⟨.wo, TST_CHK_CLEAR, 0⟩,
      ⟨.ro, TST_CHK_LOCKED, 0⟩]⟩,
    ⟨0x050, .ro, [⟨.ro, TST_ERR, 0⟩]⟩,
    ⟨0x054, .ro, [⟨.ro, TST_BITS, 0⟩]⟩,
    ⟨0x058, .ro, [⟨.ro, TST_BITS_HI, 0⟩]⟩,
    ⟨0x05C, .ro, [⟨.ro, TST_LINK_UP, 0⟩, ⟨.ro, TST_LINK_WIDTH, 0⟩, ⟨.ro, TST_LINK_RETRAINS, 0⟩]⟩ ]

/-- The block-specific registers of a block. -/
def blkRegs : Blk → List RegS
  | .lcs => regs_lcs
  | .tly => regs_tly
  | .cnt => regs_cnt
  | .hot => regs_hot
  | .stp => regs_stp
  | .nrg => regs_nrg
  | .pwrT => regs_pwrT
  | .cap => regs_cap
  | .stw => regs_stw
  | .seal => regs_seal
  | .shp => regs_shp
  | .ing => regs_ing
  | .trs => regs_trs
  | .til => regs_til
  | .hut => regs_hut
  | .mem => regs_mem
  | .tap => regs_tap
  | .cmp => regs_cmp
  | .dgs => regs_dgs
  | .rch => regs_rch
  | .gsi => regs_gsi
  | .pwrH => regs_pwrH
  | .sec => regs_sec
  | .bur => regs_bur
  | .trc => regs_trc
  | .frz => regs_frz
  | .cab => regs_cab
  | .tst => regs_tst

/-- BLK_ID.TYPE (R30). -/
def Blk.code : Blk → Nat
  | .lcs => 0x0010
  | .tly => 0x0026
  | .cnt => 0x0020
  | .hot => 0x0021
  | .stp => 0x0022
  | .nrg => 0x0023
  | .pwrT => 0x0024
  | .cap => 0x0025
  | .stw => 0x0027
  | .seal => 0x0030
  | .shp => 0x0031
  | .ing => 0x0050
  | .trs => 0x0051
  | .til => 0x0052
  | .hut => 0x0053
  | .mem => 0x0060
  | .tap => 0x0061
  | .cmp => 0x0033
  | .dgs => 0x0032
  | .rch => 0x0070
  | .gsi => 0x0071
  | .pwrH => 0x0024
  | .sec => 0x0080
  | .bur => 0x0040
  | .trc => 0x0041
  | .frz => 0x0042
  | .cab => 0x0081
  | .tst => 0x0090

namespace Irq
/-! Bit numbers of BLK_IRQ_STAT and BLK_IRQ_EN: the common causes (R18) and those of each chapter. -/

def SYN : Nat := 0
def POISON : Nat := 1
def APPT_APPLIED : Nat := 2
def APPT_REFUSED : Nat := 3
def FRZ : Nat := 4
def LCS_STEPPED : Nat := 16
def LCS_LOCKED : Nat := 17
def LCS_UNLOCKED : Nat := 18
def LCS_HOLD_IN : Nat := 19
def LCS_HOLD_OUT : Nat := 20
def LCS_SRC_SWITCH : Nat := 21
def LCS_DISAGREE : Nat := 22
def LCS_PULSE_MISS : Nat := 23
def LCS_PATH_CHANGE : Nat := 24
def LCS_UNCALIBRATED : Nat := 25
def LCS_FOLLOWER : Nat := 26
def TLY_FCLK_LATE : Nat := 16
def PWR_THR_ON : Nat := 16
def PWR_THR_OFF : Nat := 17
def CAP_ACK_TIMEOUT : Nat := 16
def STW_S2H : Nat := 16
def STW_FAULT : Nat := 17
def SEAL_VERDICT : Nat := 16
def SEAL_CMD_REFUSED : Nat := 17
def SEAL_KEY_MISSING : Nat := 18
def SHP_DROP : Nat := 16
def SHP_FALLBACK : Nat := 17
def ING_CONFLICT : Nat := 16
def ING_BUSY : Nat := 17
def TRS_LANE_MISMATCH : Nat := 16
def TRS_MERGE_LATE : Nat := 17
def TIL_MBOX : Nat := 16
def TIL_ECC_UNCORR : Nat := 17
def TIL_WAKE_LATE : Nat := 18
def TIL_DONE_LATE : Nat := 19
def TIL_QHALT : Nat := 20
def TIL_SEQ_FAULT : Nat := 21
def HUT_EVAL_FAULT : Nat := 16
def MEM_UNCORR : Nat := 16
def MEM_SCRUB_DONE : Nat := 17
def TAP_RET_LOW : Nat := 16
def TAP_DAMAGED : Nat := 17
def TAP_SCAN_END : Nat := 18
def CMP_VERIFY_FAIL : Nat := 16
def CMP_ENG_OUT : Nat := 17
def CMP_CHECKSUM_FAIL : Nat := 18
def DGS_DONE : Nat := 16
def DGS_REPLAY : Nat := 17
def DGS_OBSERVE : Nat := 18
def RCH_UP : Nat := 16
def RCH_DOWN : Nat := 17
def RCH_SESSION_RESET : Nat := 18
def RCH_LIMITED : Nat := 19
def RCH_PAUSE : Nat := 20
def RCH_MISWIRED : Nat := 21
def GSI_PSE_RISE : Nat := 16
def GSI_PSE_FALL : Nat := 17
def GSI_PSE_STUCK : Nat := 18
def GSI_LOF : Nat := 19
def GSI_APS : Nat := 20
def GSI_PSE_MISMATCH : Nat := 21
def HPWR_FAST : Nat := 16
def HPWR_AVG1 : Nat := 17
def HPWR_SUST : Nat := 18
def HPWR_THERM : Nat := 19
def HPWR_CAL_STALE : Nat := 20
def SEC_UNWRAP_FAIL : Nat := 16
def SEC_BIND_REFUSED : Nat := 17
def SEC_ZEROIZED : Nat := 18
def BUR_HIGH : Nat := 16
def BUR_DROP : Nat := 17
def BUR_LEAP_EXPIRED : Nat := 18
def TRC_TRIGGER : Nat := 16
def TRC_HOLD : Nat := 17
def TRC_OVERFLOW : Nat := 18
def FRZ_RELEASED : Nat := 16
def FRZ_AUTO_REL : Nat := 17
def CAB_TAKEOVER : Nat := 16
def CAB_JRNL_FULL : Nat := 17
def CAB_CHAIN : Nat := 18
def TST_LOCK_LOST : Nat := 16
def TST_HALF_WIDTH : Nat := 17

end Irq

/-- The interrupt causes of a block above bit 15. -/
def blkIrqs : Blk → List Nat
  | .lcs => [Irq.LCS_STEPPED, Irq.LCS_LOCKED, Irq.LCS_UNLOCKED, Irq.LCS_HOLD_IN, Irq.LCS_HOLD_OUT, Irq.LCS_SRC_SWITCH, Irq.LCS_DISAGREE, Irq.LCS_PULSE_MISS, Irq.LCS_PATH_CHANGE, Irq.LCS_UNCALIBRATED, Irq.LCS_FOLLOWER]
  | .tly => [Irq.TLY_FCLK_LATE]
  | .cnt => []
  | .hot => []
  | .stp => []
  | .nrg => []
  | .pwrT => [Irq.PWR_THR_ON, Irq.PWR_THR_OFF]
  | .cap => [Irq.CAP_ACK_TIMEOUT]
  | .stw => [Irq.STW_S2H, Irq.STW_FAULT]
  | .seal => [Irq.SEAL_VERDICT, Irq.SEAL_CMD_REFUSED, Irq.SEAL_KEY_MISSING]
  | .shp => [Irq.SHP_DROP, Irq.SHP_FALLBACK]
  | .ing => [Irq.ING_CONFLICT, Irq.ING_BUSY]
  | .trs => [Irq.TRS_LANE_MISMATCH, Irq.TRS_MERGE_LATE]
  | .til => [Irq.TIL_MBOX, Irq.TIL_ECC_UNCORR, Irq.TIL_WAKE_LATE, Irq.TIL_DONE_LATE, Irq.TIL_QHALT, Irq.TIL_SEQ_FAULT]
  | .hut => [Irq.HUT_EVAL_FAULT]
  | .mem => [Irq.MEM_UNCORR, Irq.MEM_SCRUB_DONE]
  | .tap => [Irq.TAP_RET_LOW, Irq.TAP_DAMAGED, Irq.TAP_SCAN_END]
  | .cmp => [Irq.CMP_VERIFY_FAIL, Irq.CMP_ENG_OUT, Irq.CMP_CHECKSUM_FAIL]
  | .dgs => [Irq.DGS_DONE, Irq.DGS_REPLAY, Irq.DGS_OBSERVE]
  | .rch => [Irq.RCH_UP, Irq.RCH_DOWN, Irq.RCH_SESSION_RESET, Irq.RCH_LIMITED, Irq.RCH_PAUSE, Irq.RCH_MISWIRED]
  | .gsi => [Irq.GSI_PSE_RISE, Irq.GSI_PSE_FALL, Irq.GSI_PSE_STUCK, Irq.GSI_LOF, Irq.GSI_APS, Irq.GSI_PSE_MISMATCH]
  | .pwrH => [Irq.HPWR_FAST, Irq.HPWR_AVG1, Irq.HPWR_SUST, Irq.HPWR_THERM, Irq.HPWR_CAL_STALE]
  | .sec => [Irq.SEC_UNWRAP_FAIL, Irq.SEC_BIND_REFUSED, Irq.SEC_ZEROIZED]
  | .bur => [Irq.BUR_HIGH, Irq.BUR_DROP, Irq.BUR_LEAP_EXPIRED]
  | .trc => [Irq.TRC_TRIGGER, Irq.TRC_HOLD, Irq.TRC_OVERFLOW]
  | .frz => [Irq.FRZ_RELEASED, Irq.FRZ_AUTO_REL]
  | .cab => [Irq.CAB_TAKEOVER, Irq.CAB_JRNL_FULL, Irq.CAB_CHAIN]
  | .tst => [Irq.TST_LOCK_LOST, Irq.TST_HALF_WIDTH]

/-- The severity a chapter states for an interrupt cause (R436); none where it states none. -/
def irqSev : Blk → Nat → Option Nat
  | .lcs, 22 => some 5
  | .ing, 16 => some 5
  | .trs, 16 => some 6
  | .til, 18 => some 4
  | .til, 19 => some 4
  | .tap, 17 => some 5
  | .cmp, 17 => some 5
  | .rch, 21 => some 6
  | .rch, 18 => some 6
  | .gsi, 21 => some 5
  | .pwrH, 16 => some 4
  | .pwrH, 17 => some 4
  | .pwrH, 18 => some 4
  | .pwrH, 19 => some 4
  | .cab, 16 => some 6
  | .cab, 18 => some 5
  | .tst, 17 => some 5
  | _, _ => none

/-- What fixes the layout of one unit pair: the Tally is a Tally-L (R2), the Hub is a QH-40 (R3), the hub index on its
board (R471). -/
structure Parts where
  lite : Bool
  qh40 : Bool
  hubIndex : Nat
  deriving DecidableEq, Repr

/-! ### Dies and pages (R14, R16, R154) -/

/-- The die is a compute die of the full population. -/
def isCD (d : Nat) : Bool := d < 48
/-- The die is a memory-side die. -/
def isMD (d : Nat) : Bool := 48 ≤ d && d < 56
/-- The die is an I/O die. -/
def isXD (d : Nat) : Bool := 56 ≤ d && d < 64
/-- The die field of XD0. -/
def xd0 : Nat := 56

/-- R154: the dies of the population. -/
def diePresent (c : Parts) (d : Nat) : Bool := d < (if c.qh40 then 24 else 48) || (48 ≤ d && d < 64)

/-- The block on a Hub page (the page numbers of each chapter); none for an absent die or an unassigned page. -/
def hubBlk (c : Parts) (d p : Nat) : Option Blk :=
  if !diePresent c d then none
  else match p with
    | 0x010 => some .lcs
    | 0x011 => some .stw
    | 0x012 => if d = 56 then some .pwrH else none
    | 0x014 => some .bur
    | 0x015 => some .trc
    | 0x016 => some .frz
    | 0x018 => if d = 56 ∨ d = 57 then some .cab else none
    | 0x019 => some .tst
    | 0x020 => if isXD d then some .ing else none
    | 0x021 => if isXD d then some .trs else none
    | 0x030 => if isMD d then some .mem else none
    | 0x031 => if isMD d then some .tap else none
    | 0x032 => if isMD d then some .cmp else none
    | 0x050 => if d = 62 ∨ d = 63 then some .rch else none
    | 0x051 => if d = 62 ∨ d = 63 then some .gsi else none
    | 0x070 => if isXD d then some .sec else none
    | p => if isCD d && 0x040 ≤ p && p < 0x060 then some .til
           else if isCD d && 0x060 ≤ p && p < 0x080 then some .hut else none

/-- The block on a Tally page. -/
def tallyBlk (c : Parts) : Nat → Option Blk
  | 0x00 => some .tly
  | 0x01 => some .lcs
  | 0x02 => some .cnt
  | 0x03 => some .hot
  | 0x04 => some .stp
  | 0x05 => some .nrg
  | 0x06 => some .pwrT
  | 0x07 => some .cap
  | 0x08 => some .stw
  | 0x09 => some .seal
  | 0x0A => some .shp
  | 0x0B => if c.lite then none else some .cmp
  | 0x0C => some .dgs
  | 0x0D => some .bur
  | 0x0E => if c.lite then none else some .trc
  | 0x0F => some .frz
  | _ => none

/-- The block on a page. -/
def pageBlk (c : Parts) : Page → Option Blk
  | .tally p => tallyBlk c p
  | .hub d p => hubBlk c d p

/-- R90: the LCS page of a Hub die other than XD0 is a follower page. -/
def isFollower : Page → Bool
  | .tally _ => false
  | .hub d _ => d != xd0

/-- Whether a register of a block is present on this page of this part: the Hub-only and Tally-only LCS registers and
the follower pages (R89), the intake BUR pages (R458), the FRZ channel registers (R462), the resources a Tally-L lacks
(R120). -/
def regPresent (c : Parts) (b : Blk) (pg : Page) (off : Nat) : Bool :=
  match b with
  | .lcs =>
    if pg.isTally then
      !(off = 0x078 || (0x07C ≤ off && off ≤ 0x08C) || (0x09C ≤ off))
    else if isFollower pg then off < 0x060 else !(off = 0x090 || off = 0x094)
  | .bur =>
    if pg.isTally then !(off = 0x09C || off = 0x0A0)
    else pg.die = xd0 || !(off ≤ 0x090 || off = 0x09C || off = 0x0A0 || (0x0C0 ≤ off && off ≤ 0x0D8))
  | .frz => !pg.isTally || !(0x058 ≤ off && off ≤ 0x068)
  | .hot => !c.lite || !(0x044 ≤ off && off ≤ 0x04C)
  | .stp => !c.lite || !(0x048 ≤ off && off ≤ 0x050)
  | .seal => !c.lite || !(0x048 ≤ off && off ≤ 0x050)
  | .nrg => !c.lite || !(off = 0x044)
  | _ => true

/-- The description of a block-specific register. -/
def findReg (c : Parts) (b : Blk) (pg : Page) (off : Nat) : Option RegS :=
  match (blkRegs b).find? (fun r => r.off == off) with
  | some r => if regPresent c b pg off then some r else none
  | none => none

/-! ### The common page -/

/-- BLK_CAP.FREEZE: the block takes part in a global freeze (each chapter's page). -/
def blkFreeze : Blk → Bool
  | .stw | .ing | .trs | .til | .hut | .tap | .cmp | .rch => true
  | _ => false

/-- The pages on which FRZ_P reads 0 and a write of FRZ_P = 1 is refused with STATE (R68, R119, R151). -/
def frzpFixed : Blk → Bool
  | .lcs | .tly | .cnt | .hot | .stp | .nrg | .pwrT | .cap | .seal | .shp => true
  | _ => false

/-- BLK_CAP.STAGED: the page holds RWA registers. -/
def blkStaged (c : Parts) (b : Blk) (pg : Page) : Bool :=
  (blkRegs b).any (fun r => r.ty == .rwa && regPresent c b pg r.off)

/-- BLK_CAP of a page: FREEZE, STAGED and the bits its chapter gives (R90, R280, R459, R461, R462, R500). -/
def blkCap (c : Parts) (b : Blk) (pg : Page) : Nat :=
  b2n (blkStaged c b pg) + 2 * b2n (blkFreeze b) +
  match b with
  | .lcs => if pg.isTally then 4 else 8 + 16 + 32 * b2n (isFollower pg)
  | .hut => 255 * 2 ^ 24 + 12 * 2 ^ 20 + 8 * 2 ^ 16
  | .bur => 4 * b2n (pg.isTally || pg.die = xd0)
  | .trc => 4 * b2n pg.isTally
  | .frz => 4 * b2n (!pg.isTally)
  | .tst => 4 * b2n (isXD pg.die)
  | _ => 0

/-- BLK_ID of a page: type, instance (the tile's local index on TIL and HUT pages, 0 elsewhere), version 1.0. -/
def blkId (b : Blk) (pg : Page) : Nat :=
  b.code * 2 ^ 16 +
    (match b with | .til => pg.num - 0x040 | .hut => pg.num - 0x060 | _ => 0) * 2 ^ 8 + 0x10

/-- Reset value of BLK_CTRL.EN. DESIGN CHOICE: the tables say "per block"; the Reach page starts disabled (R387), every
other page enabled. -/
def enReset : Blk → Nat
  | .rch => 0
  | _ => 1

/-! ### Reset values -/

/-- R283, R282: the size of one memory-side die's range, in bytes. -/
def mdSize (c : Parts) : Nat := if c.qh40 then 0xC00000000 else 0x1800000000

/-- Reset values that the tables give per part, per die or per hub index. -/
def resetSpecial (c : Parts) (b : Blk) (pg : Page) (off lo : Nat) : Option Nat :=
  match b, off, lo with
  | .lcs, 0x070, 8 => some (if pg.isTally then 3 else 2)
  | .lcs, 0x074, 0 => some (if pg.isTally then 0 else 50)
  | .lcs, 0x078, 28 => some (if c.hubIndex = 0 then 2 else 4)
  | .lcs, 0x078, 24 => some (if c.hubIndex = 0 then 3 else 2)
  | .lcs, 0x078, 20 => some (if c.hubIndex = 0 then 0 else 3)
  | .lcs, 0x0B8, 0 => some (if c.hubIndex = 0 then 1 else 0)
  | .hot, 0x050, 4 | .hot, 0x050, 8 | .hot, 0x050, 12 => some (if c.lite then 0 else 3)
  | .tly, 0x048, 31 => some (b2n c.lite)
  | .tly, 0x048, 24 => some (if c.lite then 1 else 4)
  | .tly, 0x048, 20 => some (if c.lite then 6 else 8)
  | .tly, 0x048, 16 => some (if c.lite then 10 else 12)
  | .tly, 0x048, 12 => some (if c.lite then 7 else 9)
  | .tly, 0x048, 8 => some (if c.lite then 2 else 4)
  | .tly, 0x048, 4 => some (if c.lite then 3 else 4)
  | .tly, 0x048, 0 => some (if c.lite then 6 else 8)
  | .mem, 0x040, 16 => some (if c.qh40 then 0x3 else 0xF)
  | .mem, 0x044, 0 => some ((pg.die - 48) * (mdSize c / 4096))
  | .mem, 0x048, 0 => some (mdSize c / 4096)
  | .cmp, 0x044, 0 => some (if pg.isTally then 1 else 0xFFFF)
  | .pwrH, 0x048, 0 => some (if c.qh40 then 2300 else 4000)
  | .pwrH, 0x04C, 0 => some (if c.qh40 then 2070 else 3600)
  | .pwrH, 0x050, 0 => some (if c.qh40 then 1900 else 3300)
  | .sec, 0x040, 0 => some (Config.deviceId.toNat)
  | _, _, _ => none

/-- Reset value of a field from its register table. -/
def resetTable (b : Blk) (off lo : Nat) : Nat :=
  match (blkRegs b).find? (fun r => r.off == off) with
  | some r => match r.flds.find? (fun f => f.f.lo == lo) with
    | some f => f.rst
    | none => 0
  | none => 0

/-- The reset value of a stored register field; a staged copy resets to the value of its live field (R20). -/
def resetVal (c : Parts) (k : RegKey) : Nat :=
  match pageBlk c k.pg with
  | none => 0
  | some b =>
    let off := if 0x800 ≤ k.off then k.off - 0x800 else k.off
    if off = 0x008 then
      (if k.lo = 0 then enReset b else if k.lo = 2 then b2n (!frzpFixed b) else 0)
    else if off < 0x040 then 0
    else match resetSpecial c b k.pg off k.lo with
      | some v => v
      | none => resetTable b off k.lo

end Sys2Proof.Machine
end

