-- ==== Sys2Proof/Machine/State.lean ====
section
/-!
DEFINITION. Sys2Proof/Machine/State.lean: the state of one Tally and one Hub as plain data, and the state after reset.
The registers of both parts are one store of register fields (`Cells`); what the spec gives beside the registers is
typed fields.
-/
namespace Sys2Proof.Machine

/-- The block has no fault: every error the spec describes is a recorded syndrome, a counter or an interrupt, and the
block goes on. -/
inductive Fault
  deriving DecidableEq, Repr

/-- Why a command is not executed. -/
inductive Refusal
  /-- Raised by an arm of `exec` whose command has no meaning yet. Safe: nothing can be proved about a state that is
  not reached. -/
  | notModelled (mnemonic : String)
  deriving DecidableEq, Repr

/-- The register store: the fields whose value has been set since reset. A field that is not listed holds its reset
value. -/
abbrev Cells := List (RegKey × Nat)

/-! ### Longcase (03_longcase_time.md) -/

/-- Servo states (R66), in the encoding of TQ.STATE (R87): 0 UNSET, 1 ACQUIRE, 2 LOCKED, 3 HOLDOVER. -/
inductive Servo | unset | acquire | locked | holdover
  deriving DecidableEq, Repr, Inhabited

/-- One Longcase and its servo. -/
structure Longcase where
  /-- R58: whole nanoseconds since the PTP epoch (seconds × 1,000,000,000 + nanoseconds). -/
  ns : Nat
  /-- R58: the 32-bit fraction, in 2^-32 ns. -/
  frac : Nat
  /-- R57: the live increment of one tick, in 2^-32 ns. -/
  incr : Nat
  /-- Timebase ticks since power-on. -/
  ticks : Nat
  servo : Servo
  /-- R65: the integral, in ps. -/
  integ : Int
  /-- R65: the frequency term in force, ppb. -/
  freq : Int
  /-- R87 TQ.SLEW: the proportional term is at its SLEW_MAX bound. -/
  slew : Bool
  /-- R66: consecutive measurements within the lock threshold, in ACQUIRE. -/
  good : Nat
  /-- R66: consecutive measurements beyond four times the threshold, in LOCKED. -/
  bad : Nat
  /-- R66: consecutive expected measurements missing. -/
  miss : Nat
  deriving DecidableEq, Repr, Inhabited

/-- R75, R76: the time-bus announcement waiting for its pulse. -/
structure TbAnn where
  /-- The announced time in nanoseconds. -/
  time : Nat
  /-- The announcement obeys R76. -/
  ok : Bool
  /-- Longcase time of its last beat. -/
  at_ : Nat
  deriving DecidableEq, Repr

/-- R69: the tracker of one Hub source. -/
structure Tracker where
  /-- Offset of the Longcase from the source, ps; none before the first measurement. -/
  ofs : Option Int
  /-- R69: validity. -/
  valid : Bool
  /-- Longcase time of the last measurement, and its nominal interval in ns. -/
  last : Nat
  interval : Nat
  /-- Longcase time since which the tracker has been valid (R71). -/
  since : Nat
  /-- The announce receipt timeout of the domain has expired (R69). -/
  annOut : Bool
  /-- The site time state of the last Announce extension (R86). -/
  site : Option Nat
  /-- IEEE 1588 delay mechanism: reference-plane receive time of the last Sync awaiting its Follow_Up, its forward delay t2 − t1, transmit time of
  the last Delay_Req or Pdelay_Req, receive time of its answer, the peer's receive time, and the mean path delay, ps. -/
  syncRx : Option Int
  fwd : Option Int
  reqTx : Option Int
  respRx : Option Int
  peerRx : Option Int
  delay : Int
  /-- The port its last measurement came in on. -/
  port : Nat
  deriving DecidableEq, Repr

/-- R83–R86: the time-transfer exchange of the REACH tracker. -/
structure ReachTT where
  /-- Longcase time the last exchange was started, and t1 of the exchange in progress, ps. -/
  started : Option Nat
  t1 : Option Int
  /-- Round trip of the last completed exchange, ps. -/
  rtt : Option Int
  /-- The stable run: Longcase time of its first exchange, exchanges in it, sums of t2 − t1 and of t4 − t3, ps. -/
  runStart : Option Nat
  runCount : Nat
  runFwd : Int
  runRev : Int
  deriving DecidableEq, Repr

/-! ### Bureau (17_observability.md) -/

/-- A Bureau entry (R434) before the store gives it a sequence number and calendar fields. -/
structure BurEntry where
  seq : Nat
  sev : Nat
  prov : Bool
  fw : Bool
  leap : Bool
  host : Bool
  die : Nat
  blk : Nat
  inst : Nat
  code : Nat
  sec : Nat
  ns : Nat
  tgen : Nat
  tq : Nat
  utcOfs : Nat
  year : Nat
  month : Nat
  day : Nat
  hour : Nat
  minute : Nat
  second : Nat
  payload : List Nat
  deriving DecidableEq, Repr

/-! ### The Tally -/

/-- R109: a step mark in the buffer. -/
structure Mark where
  kind : Nat
  slot : Nat
  id : Nat
  tag : Nat
  step : Nat
  /-- Longcase time of the tick that accepted it, ns. -/
  time : Nat
  deriving DecidableEq, Repr

/-- A symmetric key a unit holds: its epoch and its value. -/
structure Key where
  epoch : Nat
  val : Nat
  deriving DecidableEq, Repr

/-- A closed window waiting for its record to be sealed (R106, R131). -/
structure WinRec where
  slot : Nat
  job : Nat
  k : Nat
  win : Nat
  /-- Start of the interval and its end, ns. -/
  start : Nat
  stop : Nat
  /-- R456: forced snapshot of a freeze. -/
  snapshot : Bool
  /-- R103: one exact delta per hot-list entry carried, in list order. -/
  hot : List Nat
  /-- R104: (counter, value) of the slow batch carried. -/
  slow : List (Nat × Nat)
  /-- R108: (gauge, last, smallest, largest). -/
  gauges : List (Nat × Int × Int × Int)
  marks : List Mark
  markDrops : Nat
  /-- R112: owned partitions, ascending, and the shares of the window. -/
  owned : List Nat
  shares : List (Nat × Nat)
  total : Nat
  unattr : Nat
  /-- Residency ticks in the window. -/
  res : List Nat
  tgen : Nat
  tq : Nat
  epoch : Nat
  dst : List Nat
  deriving DecidableEq, Repr

/-- A frame of the egress buffer (R129). -/
structure EgFrame where
  /-- Traffic class. -/
  cls : Nat
  /-- The 66-byte header with the fields of R129 filled in (the UDP checksum and the FCS are not computed, log entry 4). -/
  head : List Nat
  hdr : QrpHdr
  seg : Nat
  segs : Nat
  /-- Sealed bytes of this segment. -/
  len : Nat
  body : Sealed
  /-- The job slot whose record the frame carries. -/
  slot : Option Nat
  /-- R144: the calendar slot the frame was placed in. -/
  due : Option Nat
  deriving DecidableEq, Repr

/-- Keys and inlet state of one job slot (R135, R137, R139). -/
structure SlotKeys where
  cur : Option Key
  next : Option Key
  prev : Option Key
  /-- Window length code and closing boundary of the last window of the previous key's epoch. -/
  prevK : Nat
  prevEnd : Nat
  /-- R137: window and revision of the last accepted verdict. -/
  lastVerd : Option (Nat × Nat)
  /-- R139: the window in which the slot last accepted an action. -/
  action : Option Nat
  deriving DecidableEq, Repr

/-- The command keys of a Tally (R420): current, previous with the end of its overlap, next with its appointment. -/
structure CmdKeys where
  cur : Option Key
  prev : Option (Key × Nat)
  next : Option (Key × Nat)
  deriving DecidableEq, Repr, Inhabited

/-- A job slot's window in progress (R101–R112). -/
structure TSlot where
  /-- Index of the window in progress (R42). -/
  win : Nat
  /-- Longcase time its window in progress was joined at. -/
  start : Nat
  /-- R101: a record of the window in progress may be built. -/
  build : Bool
  /-- Counter values at the window's start (R103): (counter, value), counters at 0 left out. -/
  base : List (Nat × Nat)
  /-- R112: energy shares of the split intervals ended inside the window: (partition × 16 + queue, fJ). -/
  shares : List (Nat × Nat)
  unattr : Nat
  total : Nat
  /-- Residency counters PWR_RES_* at the window's start. -/
  res : List Nat
  /-- R108: smallest and largest sample of a gauge in the window. -/
  gauges : List (Nat × Int × Int)
  /-- R110: marks dropped since the slot's previous record; records dropped since (R136, R147). -/
  markDrops : Nat
  recDrops : Nat
  /-- R43: the key epoch and the record destination live at the window's start. -/
  epoch : Nat
  dst : List Nat
  /-- R79: windows closed since the last accepted verdict. -/
  verdWins : Nat
  deriving DecidableEq, Repr

/-- A digest in progress (R338): the state, its STEP mark, the extents it began with, the epoch it is taken under and the
job key of that epoch. -/
structure DigRun where
  slot : Nat
  step : Nat
  mark : Nat
  exts : List Extent
  epoch : Nat
  key : Nat
  deriving DecidableEq, Repr

/-- A replay ordered (R345): its identifier and bin shift, the job key its digest is taken under, and the time of RPL_READY. -/
structure DigRpl where
  slot : Nat
  step : Nat
  id : Nat
  shift : Nat
  key : Nat
  ready : Nat
  deriving DecidableEq, Repr

/-- One Tally beside its registers. -/
structure Tally where
  lcs : Longcase
  /-- Job slots 0–3 (R36): windows in progress; keys and inlet state. -/
  slots : List TSlot
  keys : List SlotKeys
  cmd : CmdKeys
  /-- R409–R412: the identity key is rebuilt; the latched ANCHOR. -/
  identity : Bool
  anchor : Option Nat
  /-- R112: energy of the split interval in progress, fJ; counter values at its start; Longcase time of the last split
  end. -/
  nrgWin : Nat
  splitBase : List (Nat × Nat)
  splitAt : Option Nat
  /-- R110: the mark buffer, oldest first. -/
  marks : List Mark
  /-- R104: index of the slow window in progress; the last slow batch: boundary time, (counter, value, JOBMASK). -/
  slowWin : Nat
  slow : Option (Nat × List (Nat × Nat × Nat))
  /-- R107: ev_clk cycles since the last FREQ sample and its time. -/
  evCycles : Nat
  freqAt : Nat
  /-- R113: the last 10,000 power samples, nW, newest first; samples since the limiter was enabled; consecutive clean
  samples in THROTTLE. -/
  samples : List Nat
  limCount : Nat
  clean : Nat
  /-- R116: Longcase time of the cap_upd awaiting cap_ack and whether it has timed out; time of the last application of the CAP page (R115). -/
  capUpd : Option (Nat × Bool)
  capLast : Option Nat
  /-- R95: fclk_req, fclk_ack, Longcase time fclk_req rose, and whether fclk_ack is already counted late. -/
  fclkReq : Bool
  fclkAck : Bool
  fclkAt : Nat
  /-- R98: tch_out_addr with tch_out_tok, once driven. -/
  tchOut : Option Nat
  /-- R96, R98: an address of 16 or above was seen: UNADDRESSED until the next reset. -/
  chainDead : Bool
  /-- Closed windows whose record is not yet sealed. -/
  recs : List WinRec
  /-- R147: the egress buffer, oldest first; the frame on the egress stream. -/
  egress : List EgFrame
  sending : Option EgFrame
  /-- R143: class tokens and ceiling tokens in 2^-10 byte; the 250 ns slot of the last refill. -/
  clsTok : List Nat
  ceilTok : Nat
  refillAt : Nat
  /-- R146: class rates live when fclk was gated; a SHP appointment applied since. -/
  gatedRates : List Nat
  shpPend : Bool
  /-- R148: the entry of the gate control list in force. -/
  gateEntry : Nat
  /-- R338: the digest in progress, the replay held or in progress; (slot, epoch, next digest sequence) (R339). -/
  digRun : Option DigRun
  digRpl : Option DigRpl
  digSeq : List (Nat × Nat × Nat)
  /-- R503: TEST MODE is asserted. -/
  testMode : Bool
  ann : Option TbAnn
  /-- Longcase time of the last tb_pulse (R77). -/
  pulseAt : Option Nat
  /-- Bureau store (R433) and the entries on their way to it. -/
  burStore : List BurEntry
  burPend : List BurEntry
  /-- R437: LEAP_EXPIRED has been raised for the table in force. -/
  leapExpired : Bool
  deriving DecidableEq, Repr, Inhabited

/-! ### The Hub -/

/-- One generation of a job slot's settings on an ingest die (R173): the instant from which it governs windows that start then or
later. -/
structure JobGen where
  from_ : Nat
  slot : Nat
  job : Nat
  k : Nat
  late : Nat
  home : Nat
  pg : Nat
  sealO : Nat
  verdO : Nat
  hold : Nat
  gen : Nat
  epoch : Nat
  fields : List TField
  deriving DecidableEq, Repr

/-- A frame set in reassembly (R174 check 4): the header, the segment count, the segments held (index, length, data), the SFD times of
the first and last arriving segments, ns. -/
structure Reasm where
  hdr : QrpHdr
  segs : Nat
  parts : List (Nat × Nat × Sealed)
  tFirst : Nat
  tLast : Nat
  /-- The fabric port of the last segment (R320). -/
  port : Nat
  deriving DecidableEq, Repr

/-- One ingest unit (R170, R171, R173, R195): its settings generations and maps, newest first; frame sets in reassembly; frames held in
the port buffers during a freeze (port, SFD time, frame). -/
structure IngDie where
  gens : List JobGen
  maps : List (Nat × List Nat)
  reasm : List Reasm
  held : List (Nat × Nat × QFrame)
  deriving DecidableEq, Repr

/-- A record of a job's window table (R181, R457): the sealed data's header and plaintext, class, SFD time of the last segment, the
ingest die. -/
structure TabRec where
  body : Sealed
  late : Bool
  snapshot : Bool
  tLast : Nat
  die : Nat
  deriving DecidableEq, Repr

/-- The state of one job window on one ingest die (R172, R180). -/
structure Partial where
  fields : List FState
  records : Nat
  late : Nat
  deriving DecidableEq, Repr

/-- A snapshot on its way to the home die (R179, R180, R189): its revision, the eight partials, the dies whose lanes differ and await
re-reduction. -/
structure Snap where
  rev : Nat
  parts : List Partial
  failed : List Nat
  deriving DecidableEq, Repr

/-- An aggregate held: its level, sender and latest revision (R193, R194). -/
structure Contrib where
  level : Nat
  contrib : Nat
  rev : Nat
  agg : Agg
  deriving DecidableEq, Repr

/-- A window of a job in flight at the Hub (R172–R194). -/
structure JobWin where
  slot : Nat
  job : Nat
  win : Nat
  parts : List Partial
  table : List TabRec
  snap : Option Snap
  /-- Revision 0 is snapshot; the late horizon has passed. -/
  sealed : Bool
  closed : Bool
  /-- MERGE_LATE is raised for the snapshot; contributions are no longer taken (R193). -/
  mergeLate : Bool
  expired : Bool
  /-- R189, R190: [0] POISON_EXCL, [1] LANE_EXCL of the Hub's own contribution. -/
  flags : Nat
  contribs : List Contrib
  /-- R192, R193: the levels issued, with their last revision. -/
  issued : List (Nat × Nat)
  /-- R289: the window is taped; every block that carries it is committed. -/
  taped : Bool
  released : Bool
  deriving DecidableEq, Repr

/-- A key of the Hub's stores (R417, R431): its slot, KIND, job slot, job, epoch, value, state (1 NEXT, 2 CURRENT, 3 PREVIOUS), the
appointment of a NEXT key that has one and the discard time of a PREVIOUS key, ns. -/
structure HKey where
  slot : Nat
  kind : Nat
  jslot : Nat
  job : Nat
  epoch : Nat
  val : Nat
  state : Nat
  appt : Option Nat
  until_ : Nat
  deriving DecidableEq, Repr

/-! ### Tiles (06_hub_package.md, 09_tile_execution.md) -/

/-- A descriptor held by a queue (R231, R232): its ticket and its sixteen words; a FLUSH has marked it to complete with STATE when its
predecessor completes (R237). -/
structure TDesc where
  ticket : Nat
  words : List Nat
  flushed : Bool
  deriving DecidableEq, Repr

/-- The progress of the descriptor at the head of a queue. -/
inductive TRun
  /-- Not started (R231, R233). -/
  | waiting
  /-- Refused at its head: the queue is halted, the descriptor completes with the code at a FLUSH (R237). -/
  | refused (code : Nat)
  /-- Checked and executing. -/
  | running
  /-- Its effect is made; it completes with a code and a progress; the queue then halts where `halts` (R238, R276). -/
  | done (code progress : Nat) (halts : Bool)
  deriving DecidableEq, Repr

/-- One queue of a tile (R231): the descriptors held, oldest first; the head's progress; the next ticket; the last 32 completions
(ticket, status), newest first. -/
structure TQueue where
  held : List TDesc
  run : TRun
  next : Nat
  hist : List (Nat × Nat)
  deriving DecidableEq, Repr

/-- What a tile is asked for while its page is frozen, served in order at release (R163, R253). -/
inductive TReq
  | wake
  | sleep (depth : Nat)
  | active (win : Nat)
  deriving DecidableEq, Repr

/-- One tile beside its registers. -/
structure Tile where
  /-- R239: 4 MiB of SRAM; an address that is not listed reads 0; the poisoned 64-bit words, by number, ascending. -/
  sram : List Host.Cell
  poison : List Nat
  /-- MXU, VEC, HUT, DMA. -/
  queues : List TQueue
  /-- R228: the registers of the sequencer. -/
  x : List Nat
  pc : Nat
  mtvec : Nat
  mepc : Nat
  mcause : Nat
  mstatus : Nat
  mie : Nat
  /-- R230: tevent; the window twin names. -/
  tevent : Nat
  twin : Nat
  /-- R162, R163: a sleep request waiting for the queues (or for the end of a wake); the sleeping state being entered or left; a wake
  waiting for the end of an entry; requests held by a freeze. -/
  sleep : Option Nat
  depth : Nat
  wakeP : Bool
  held : List TReq
  /-- R249: windows whose active instant has been served, newest first; R251: windows reported done (twin's 32 bits), newest first. -/
  active : Option Nat
  doneWins : List Nat
  /-- R252: consecutive windows WAKE_LATE and DONE_LATE. -/
  wakeRun : Nat
  doneRun : Nat
  deriving DecidableEq, Repr

/-! ### The fleet tape (11_fleet_tape.md) -/

/-- R292: a one-second summary in progress: the folded sections; with `gap` it found the area full and is not built. -/
structure Summ where
  unit : Nat
  sec : Nat
  gap : Bool
  /-- Per hot-list entry: sum of deltas, any saturated. -/
  hot : List (Nat × Bool)
  slow : List (Nat × Nat)
  /-- (gauge, last, smallest, largest). -/
  gauges : List (Nat × Int × Int × Int)
  drops : Nat
  steps : Nat
  entries : Nat
  exits : Nat
  lastStep : Nat
  /-- Queues of a partition (16 or 4); (partition × 16 + queue, fJ). -/
  queues : Nat
  energy : List (Nat × Nat)
  total : Nat
  unattr : Nat
  res : List Nat
  loss : Option Nat
  wins : Nat
  late : Nat
  deriving DecidableEq, Repr

/-- R287, R291: a content stream of a job and its open block: the next stream block number, content, entries, first and last window (or
second), the time its first entry was taped, ns. -/
structure TStream where
  job : Nat
  tier : Nat
  next : Nat
  content : List Nat
  entries : Nat
  first : Nat
  last : Nat
  since : Nat
  deriving DecidableEq, Repr

/-- A closed block on its way to commit (R295): the engines that failed on it. -/
structure TBlock where
  job : Nat
  k : Nat
  tier : Nat
  b : Nat
  content : List Nat
  entries : Nat
  first : Nat
  last : Nat
  tries : List Nat
  deriving DecidableEq, Repr

/-- R298, R299: a scan in progress: the next SEQ, the head at START, the slots produced, CONSUMED as last seen and the time it last changed. -/
structure Scan where
  next : Nat
  head : Nat
  produced : Nat
  consumed : Nat
  since : Nat
  deriving DecidableEq, Repr

/-- The tape manager of one memory-side die. Per tier (T0, T1): the next SEQ, the lowest retained SEQ, the data ring's write position. -/
structure TapMd where
  head : List Nat
  tail : List Nat
  wptr : List Nat
  work : List TBlock
  scan : Option Scan
  /-- R295: failures charged (engine, time in ns). -/
  fails : List (Nat × Nat)
  /-- R288: the tier's span falls short of its alarm. -/
  low : List Bool
  /-- R303: false while head and tail are recovered. -/
  ready : Bool
  /-- R286: start of the patrol pass, ns. -/
  patrol : Nat
  deriving DecidableEq, Repr

/-! ### Jobs (12_verdicts_and_actions.md, 13_silent_errors.md) -/

/-- What a job's verdicts need of an accepted record: unit, window, time of acceptance (SFD of the last segment); whether its TQ.STATE is
LOCKED; marks dropped; marks (kind, step, MARK_ID, time in ns); residency ticks (limiter, cap, thermal, power, link); gauges (index,
smallest value). -/
structure RecInfo where
  unit : Nat
  win : Nat
  at_ : Nat
  locked : Bool
  drops : Nat
  marks : List (Nat × Nat × Nat × Nat)
  res : List Nat
  gauges : List (Nat × Int)
  deriving DecidableEq, Repr

/-- An entry of a verdict (R318). -/
structure VEntry where
  type : Nat
  code : Nat
  flags : Nat
  unit : Nat
  a : Nat
  b : Nat
  deriving DecidableEq, Repr

/-- The header of a verdict (R317). -/
structure VHead where
  status : Nat
  entries : Nat
  gen : Nat
  refWindow : Nat
  expected : Nat
  records : Nat
  late : Nat
  stragglers : Nat
  drift : Nat
  cap : Nat
  tilesSet : Nat
  tilesDone : Nat
  apptS : Nat
  apptNs : Nat
  issued : Nat
  deriving DecidableEq, Repr

/-- A full record of the verdict ring (R316). -/
structure VRec where
  win : Nat
  rev : Nat
  head : VHead
  entries : List VEntry
  deriving DecidableEq, Repr

/-- An action of a verdict on a unit (R329): REPLAY (state, RPL_ID, bin shift, epoch), CAP (code), OBSERVE (end in ns, TEST_S), DIGEST
(EVERY, FIRST). -/
inductive VAct
  | replay (step id shift epoch : Nat)
  | cap (code : Nat)
  | observe (end_ testS : Nat)
  | digest (every first : Nat)
  deriving DecidableEq, Repr

/-- A unit under observation (R349, R350): the end in ns, events in this observation, TAI seconds of the first; the QUARANTINE code; whether
the START entry has been listed. -/
structure Obs where
  unit : Nat
  until_ : Nat
  events : Nat
  first : Nat
  quarantine : Option Nat
  started : Bool
  deriving DecidableEq, Repr

/-- A digest report taken into a comparison (R340): the epoch it counts under, its STATUS, whether its extent list matches the shard
descriptor, the lanes, the bins, the time of its mark. -/
structure DRep where
  unit : Nat
  epoch : Nat
  status : Nat
  shard : Bool
  a : Nat
  b : Nat
  bins : List (Nat × Nat × Nat × Nat)
  mark : Nat
  deriving DecidableEq, Repr

/-- A comparison of a state and round (R340–R342): its epoch, bin shift, time of the first report received here and, at a lead, at the
site; reports; partials sent and held; the decision: outcome (0 CERTIFIED, 1 MISMATCH, 2 INCOMPLETE, 3 SPLIT) and time. -/
structure DCmp where
  step : Nat
  round : Nat
  epoch : Nat
  shift : Nat
  first : Nat
  siteFirst : Nat
  reports : List DRep
  sent : Bool
  partials : List DPart
  decided : Option (Nat × Nat)
  deriving DecidableEq, Repr

/-- A replay in progress (R345–R347): the time of its order, whether the wait for reports is over; units named (unit, code, tensor, bin). -/
structure Rpl where
  step : Nat
  id : Nat
  shift : Nat
  epoch : Nat
  ordered : Nat
  waited : Bool
  named : List (Nat × Nat × Nat × Nat)
  deriving DecidableEq, Repr

/-- The image a job runs (R247): the image, its placement, its stage times a and b in µs. -/
structure HImage where
  img : Weaja
  place : Placement
  aUs : Nat
  bUs : Nat
  deriving DecidableEq, Repr

/-- A job as the Cabinet holds it (R479). -/
structure HJob where
  job : Nat
  slot : Nat
  k : Nat
  /-- R287: the memory-side die (0–7) whose model and work region holds its window table. -/
  tableMd : Nat
  /-- R308, R335, R416: the policies, each with the instant from which it governs, newest first. -/
  vpol : List (Nat × VPolicy)
  dpol : List (Nat × DPolicy)
  kpol : List (Nat × KPolicy)
  image : Option HImage
  /-- R309–R313: records of recent windows; tuples judged (step, MARK_ID) with the window of their verdict; stragglers of the previous
  verdict. -/
  recs : List RecInfo
  judged : List (Nat × Nat × Nat)
  prevStrag : List Nat
  /-- R314: consecutive windows at or above the threshold (unit, model, HISTORY, tensor, run). -/
  drift : List (Nat × Nat × Bool × Bool × Nat)
  /-- R323–R326: the cap in force and its last application, ns; a release in progress; the code last sent to a unit where it differs; units
  that refused; units to resend to; CAP_FLOOR, CAP_TOP and CAP_STEP of the members read; windows of headroom; the last target and whether
  the job permits a raise. -/
  cap : Nat
  capAt : Option Nat
  releasing : Bool
  unitCap : List (Nat × Nat)
  refused : Nat
  resend : List Nat
  bounds : List (Nat × Nat × Nat × Nat)
  headRun : Nat
  target : Nat
  permits : Bool
  /-- R328: per unit, consecutive windows of throttle and the cause. -/
  throttle : List (Nat × Nat × Nat)
  /-- R329: actions waiting for a unit; entries waiting for a verdict: the earliest window end at which each may be listed. -/
  acts : List (Nat × VAct)
  pend : List (Nat × VEntry)
  /-- R320: the fabric port of a unit's last accepted record. -/
  ports : List (Nat × Nat)
  obs : List Obs
  /-- R348: the FAIL count of a unit's last report. -/
  tests : List (Nat × Nat)
  cmps : List DCmp
  rplNext : Nat
  rpl : Option Rpl
  rplWait : List (Nat × Nat × Nat)
  /-- R349: the cadence last ordered. -/
  every : Nat
  /-- R316: the verdict ring, newest first; R353: windows checked; R355: windows whose verdict is MISSING; R52: the latest window whose site
  and fleet aggregates were complete. -/
  ring : List VRec
  checked : List Nat
  missing : List Nat
  refWin : Nat
  /-- R251: the last window whose assembly instant has been served, plus 1. -/
  asm : Nat
  /-- R356: faults in the recovery interval, the time of the first; a fault waiting for an engine; the recovery in progress (kind 1
  re-placement, 2 move, 3 reset; the placement it makes). -/
  faults : Nat
  firstFault : Nat
  faultWaits : Bool
  recovery : Option (Nat × Option Placement)
  deriving DecidableEq, Repr

/-! ### The Cabinet (18_management_boot.md) -/

/-- A command to a unit (R138). -/
inductive UCmd
  | write (page ofs : Nat) (data : List Nat)
  | read (page ofs n : Nat)
  | arm (pages : List Nat) (appt : Nat)
  | cap (code appt : Nat)
  | keyload (kind epoch appt key : Nat)
  /-- R419. -/
  | bootstrap (epoch key : Nat)
  | digest (every first : Nat)
  | replay (step id shift epoch : Nat)
  | observe (end_ testS : Nat)
  deriving DecidableEq, Repr

/-- Whose command it is: a step of a journal entry; a verdict's action (unit, job); a READ of a page after the appointment (R47); READ `i` of round
`n` of the command with a sequence, a bootstrap sent for it (R482, R508). -/
inductive CmdFor
  | step (entry i : Nat)
  | action (job : Nat)
  | back (entry i : Nat)
  | round (seq n i : Nat)
  | boot (seq : Nat)
  /-- READ `i` of a REG_READ. -/
  | query (id i : Nat)
  deriving DecidableEq, Repr

/-- A command that awaits a RESPONSE (R137, R176): its sequence, epoch and key, its job; the rounds of READs and the bootstraps tried, the time
of the last attempt, the answers of the round in progress (READ, words). -/
structure CmdOut where
  unit : Nat
  seq : Nat
  epoch : Nat
  key : Nat
  job : Nat
  cmd : UCmd
  for_ : CmdFor
  rounds : Nat
  boots : Nat
  last : Nat
  answers : List (Nat × List Nat)
  deriving DecidableEq, Repr

/-- A step of a journal entry on a unit (R480, R482): 0 not sent, 1 sent, 2 confirmed, 3 refused, 4 UNREACHABLE; the syndrome of a refusal. -/
structure JStep where
  unit : Nat
  job : Nat
  cmd : UCmd
  st : Nat
  syn : Nat
  /-- R47: the pages read back after the appointment: 0 not asked, 1 asked, 2 applied, 3 not applied. -/
  back : Nat
  /-- A CANCEL of R47. -/
  undo : Bool
  deriving DecidableEq, Repr

/-- A journal entry (R480, R481): state 0 ACCEPTED, 1 STARTED, 2 DONE, 3 PARTIAL, 4 ABORTED. -/
structure JEntry where
  id : Nat
  op : Nat
  job : Nat
  req : Nat
  cert : Nat
  session : Nat
  st : Nat
  syn : Nat
  accepted : Nat
  started : Nat
  ended : Nat
  appt : Nat
  /-- R48: the minimum lead. -/
  lead : Nat
  /-- Pages of this Hub armed; other Hubs that take part; the pages' steps and the units'. -/
  pages : List Page
  hubs : List Nat
  pageSteps : Nat
  steps : List JStep
  /-- R47: the change stands; it has been cancelled. -/
  committed : Bool
  cancelled : Bool
  units : List Nat
  /-- The roster generation and the key epoch the entry installs; 0: none. -/
  gen : Nat
  epoch : Nat
  /-- The job the entry makes; what it reports (energies in nJ, sets of a search, words read). -/
  newJob : Option HJob
  result : List Nat
  deriving DecidableEq, Repr

/-- A management session (R424, R475): port (0 MA, 1 MB), whether it is the operator's, a tenant's jobs, the SHA-384 of the client certificate, the
time of its last message; R478: journal events, the Bureau severity threshold. In SAFE a session may be authenticated by the Hub alone (R469). -/
structure Session where
  id : Nat
  port : Nat
  operator : Bool
  anon : Bool
  jobs : List Nat
  cert : Nat
  last : Nat
  journal : Bool
  bureau : Option Nat
  deriving DecidableEq, Repr

/-- A correlation search in progress (R315). -/
structure Search where
  entry : Nat
  field : TField
  from_ : Nat
  to_ : Nat
  threshold : Nat
  deriving DecidableEq, Repr

/-- A REG_READ of a unit's registers under way (R477): its number, session and REQ_ID, the READs it takes, the answers (READ, syndrome, words). -/
structure Query where
  id : Nat
  session : Nat
  req : Nat
  parts : Nat
  got : List (Nat × Nat × List Nat)
  deriving DecidableEq, Repr

/-- The Cabinet beside its registers and its jobs. -/
structure Cabinet where
  sessions : List Session
  nextSession : Nat
  /-- Newest first; the count of the next journal ID. -/
  journal : List JEntry
  nextId : Nat
  cmds : List CmdOut
  /-- R137: the last sequence used for a unit. -/
  seqs : List (Nat × Nat)
  binds : List BindSet
  searches : List Search
  queries : List Query
  nextQuery : Nat
  /-- R465: board storage: the boot counter; the CABINET image copies A and B, the CONFIG copies; which copy booted. -/
  boots : Nat
  cabImg : List ImgCopy
  cfgImg : List (ImgCopy × CfgImage)
  bootCopy : Nat
  /-- R467: the CONFIG in force. -/
  config : Option CfgImage
  /-- R468: what a boot in phase 4 still has to do. -/
  boot : Option BootIn
  chainTx : Option Nat
  /-- R473: the time of the last heartbeat. -/
  hbAt : Option Nat
  /-- R426: tenant requests refused. -/
  denied : Nat
  /-- R424, R425: a TLS key has been generated; the operator's certificate in slot 1 (its hash). -/
  tlsKey : Bool
  slot1 : Option Nat
  /-- R302, R421: the export epoch last used and its next export sequence. -/
  exportSeq : Nat × Nat
  /-- R354: by tile: time of the last complete pass, chunks of the pass in progress passed, the time until which the tile is charged. -/
  selftest : List (Nat × Nat × Nat × Option Nat)
  /-- R415: per job, the appointment of its last key roll. -/
  rolls : List (Nat × Nat)
  /-- R427: per job, its energy (nJ) at the TAI 100 ms boundaries, newest first: job, boundary (ns), energy. -/
  energy : List (Nat × Nat × Nat)
  deriving DecidableEq, Repr

/-! ### Reach (14_reach_link.md) -/

/-- A frame in a send ring (R370–R373, R378): its SEQ, ring position and stored size; the time it entered the ring, of its first
transmission in the session and from which its timer runs; retransmissions; whether it counts as lost, is acknowledged out of order, is
re-offered; what it carries. -/
structure RTx where
  seq : Nat
  pos : Nat
  size : Nat
  born : Nat
  first : Option Nat
  timer : Nat
  tries : Nat
  lost : Bool
  sacked : Bool
  reoffer : Bool
  dest : Nat
  cls : Nat
  seg : RSeg
  deriving DecidableEq, Repr

/-- A frame in a receive ring (R375, R376): SEQ, stored size, SFD time in ns, destination, content. -/
structure RRx where
  seq : Nat
  size : Nat
  at_ : Nat
  dest : Nat
  seg : RSeg
  deriving DecidableEq, Repr

/-- One Reach port beside its registers. -/
structure RchPort where
  /-- R369: the last session number used since power-on; whether a session has been drawn since the last reset; the next SEQ; the peer's CUM. -/
  lastSession : Nat
  drawn : Bool
  next : Nat
  cum : Nat
  /-- R371: the latest ACK of the session: its CREDIT, its ECHO_SEQ, the stored bytes it covers beyond its CUM. -/
  ack : Option (Nat × Nat × Nat)
  /-- R372: ns; 0 where there is no estimate. -/
  srtt : Nat
  rttvar : Nat
  /-- R370: the send ring in SEQ order; producers waiting for room; where the next frame goes. -/
  ring : List RTx
  wait : List (Nat × Nat × RSeg)
  wptr : Nat
  /-- R381: the edge that began the pause, and the instant from which PSE_MAX_MS counts. -/
  pause : Option (Nat × Nat)
  /-- R371: the time LIMITED was set. -/
  limited : Option Nat
  /-- R367, R369: the session of the peer's latest HELLO, the last SEQ received in order. -/
  rxSession : Nat
  rxCum : Nat
  /-- R376: frames received in order and not yet handed on; frames held above a gap. -/
  rxQ : List RRx
  rxOoo : List RRx
  /-- R376: the frame whose arrival calls for an ACK (SEQ, SFD time), since when an accepted frame waits for one, whether it is due at once. -/
  echo : Option (Nat × Nat)
  ackWait : Option Nat
  ackNow : Bool
  /-- Times of the last valid HELLO received and of the last HELLO sent. -/
  helloRx : Nat
  helloTx : Option Nat
  /-- Inner frame sets in reassembly: the segments handed on so far. -/
  reasm : List (RInner × List Nat)
  /-- R386: rising edges still to be cross-checked; hot entry 5 had a delta in the last window updated; that window. -/
  rises : List Nat
  aps : Bool
  gsiWin : Option Nat
  deriving DecidableEq, Repr

/-- A peer port (R166): 0 down, 1 UP, 2 MISWIRED; times of the last hello received and sent. -/
structure PeerPort where
  st : Nat
  rx : Nat
  tx : Option Nat
  deriving DecidableEq, Repr

/-! ### Hub power (15_power.md) -/

/-- One cause of R397: its ceiling; whether it is in its lowering; the times of its last lowering and of its last raise, or since when it
is clear, ns. -/
structure HCause where
  ceil : Nat
  active : Bool
  low : Nat
  raised : Nat
  deriving DecidableEq, Repr

/-- The power controller beside its registers. -/
structure HPower where
  /-- R397: the last 1,000,000 samples, nJ, newest first. -/
  samples : List Nat
  /-- FAST_VR, FAST_EST, BOARD, AVG1, SUST, THERM. -/
  causes : List HCause
  /-- R398: the level broadcast and its application tick; the tick of the last lowering of a ceiling. -/
  bcast : Option (Nat × Nat)
  lowered : Option Nat
  /-- R403: therm_trip_n is asserted. -/
  trip : Bool
  /-- R467: VR_EN, and the regulators (PMBus address, die class) of the configuration image. -/
  vrEn : Nat
  pmb : List (Nat × Nat)
  pollAt : Option Nat
  calAt : Option Nat
  /-- R402, by die class: energies of the interval by the regulators and by the estimate, nJ; readings in the interval; consecutive
  comparisons without telemetry. -/
  regE : List Nat
  estE : List Nat
  seen : List Nat
  miss : List Nat
  deriving DecidableEq, Repr

/-- One Hub beside its registers. -/
structure Hub where
  lcs : Longcase
  /-- R69: trackers A, B, BOARD, REACH. -/
  trackers : List Tracker
  tt : ReachTT
  /-- R87 TQ.SWITCHED: Longcase time of the last change of selected source. -/
  switchedAt : Option Nat
  /-- R72: A and B disagree. -/
  disagree : Bool
  /-- R73: Longcase time of the last 1PPS edge. -/
  ppsAt : Option Nat
  /-- R70: PTP management messages discarded. -/
  ptpDiscards : Nat
  /-- Bureau store of XD0 (R433) and the intakes: entries with the die that posted them, oldest first (R439). -/
  burStore : List BurEntry
  intake : List (Nat × BurEntry)
  leapExpired : Bool
  /-- HBM (R282): 40-bit byte addresses; an address that is not listed reads 0. Poisoned 32-byte granules (R285), by
  granule number, ascending. -/
  hbm : List Host.Cell
  hbmPoison : List Nat
  /-- R285, R305: granules that hold a correctable or an uncorrectable error no access has found yet, ascending. -/
  hbmCorr : List Nat
  hbmUnc : List Nat
  /-- The ingest units XD0–XD7, the job windows in flight, the identities of accepted digest frames (R176: job, unit, epoch, sequence and
  the data accepted), the rosters the Cabinet has installed (R37, R196), the key store (R430). -/
  ing : List IngDie
  wins : List JobWin
  digSeen : List Sealed
  rosters : List Roster
  keys : List HKey
  /-- R455: channel records of each die since power-on, by die field. -/
  chanSeq : List Nat
  /-- The tiles (R155) by global index; a tile that is not listed is as after reset. -/
  tiles : List (Nat × Tile)
  /-- R254: the persistent retirement list. -/
  retired : List Nat
  /-- The tape managers of MD0–MD7, the streams and the summaries in progress by job. -/
  taps : List TapMd
  streams : List TStream
  summs : List (Nat × Summ)
  jobs : List HJob
  /-- R81: lane alignment of F0–F9, P0–P3, L0, L1 (ports 0–15), MA and MB. -/
  aligned : List Bool
  /-- L0 and L1; P0–P3. -/
  rch : List RchPort
  peers : List PeerPort
  /-- R467: SITE_ROUTE of the configuration image, by site. -/
  siteRoute : List (Option Nat)
  power : HPower
  cabinet : Cabinet
  /-- R499: frames discarded at a port under test (ports 0–15, MA, MB). R500: the checkers that are locked: die, selected lane, Hub tick at which
  each locked. R501: failed halves: die, module, half (0 lanes 0–31, 1 lanes 32–63). R81: the mode of each port in mission operation. -/
  testDiscards : List Nat
  locked : List (Nat × Nat × Nat)
  halfFails : List (Nat × Nat × Nat)
  portMode : List Nat
  deriving DecidableEq, Repr

/-- R445–R452: one trace unit beside its registers: bytes that may still be written since the trigger; the content of the open block of a
compressed stream. -/
structure Trc where
  left : Option Nat
  content : List Nat
  deriving DecidableEq, Repr

/-- What a management REPLY or EVENT carries (R477), and an answer of R425. -/
inductive MBody
  | empty
  | journalId (id : Nat)
  /-- HELLO: device ID, population (QH-40), role, hub index, boot count. -/
  | hello (device : Nat) (qh40 : Bool) (role hub boots : Nat)
  | words (w : List Nat)
  | entry (e : JEntry)
  | entries (l : List JEntry)
  | verdicts (l : List VRec)
  /-- One-second summaries: unit, second, the bytes of the summary. -/
  | summaries (l : List (Nat × Nat × List Nat))
  /-- The tenant's view of them (R426): unit, second, the sections it is served, the powers in W that stand for the energies and the power
  gauges. -/
  | powers (l : List (Nat × Nat × List Nat × List Nat))
  | power (w : Nat)
  /-- R442: the Bureau entries delivered, of 64 bytes each; how many are lost; the head. -/
  | bureau (l : List (List Nat)) (lost head : Nat)
  /-- SPDM 1.3 answers (R425): the version; the capabilities; the algorithms selected; the digests of slots 0 and 1 (of the identity chain, and of the
  operator's certificate); a certificate chain; a signed answer to a nonce. Digests and signatures stand for what they are made from (log entry
  3). -/
  | version
  | capabilities
  | algorithms
  | digests (slot1 : Option Nat)
  | certificate (slot : Nat) (cert : Nat)
  | challenge (slot nonce : Nat)
  /-- The measurements asked for, by their numbers, and what each is taken over: 1 the Cabinet image, 2 the configuration image, 4 the retirement
  list, 5 the loaded Weaja images in ascending MODEL_ID (3, the Hub steward image, is fixed). -/
  | measurements (which : List Nat) (cabinet : Option ImgCopy) (config : Option CfgImage) (retired : List Nat) (models : List Weaja)
  | csr
  | certificateSet
  | invalidRequest
  deriving DecidableEq, Repr

/-- What the block has put on its ports, oldest first: the frames and messages the environment takes. -/
inductive Out
  /-- A PTP message of the Hub as time transmitter, or a delay request (R70): port, domain, IEEE 1588 message type
  number, transmit time (ps), for an answer the receive time, site time state of the extension. -/
  | ptp (port domain type : Nat) (tx : Int) (rx : Option Int) (site : Nat)
  /-- A time-transfer exchange frame on a Reach port (R83): port, transmit time, and for an answer the receive time. -/
  | ttFrame (port : Nat) (tx : Int) (rx : Option Int)
  /-- An egress frame of the Tally, sent (R129). -/
  | egress (f : EgFrame)
  /-- A row of a COPY written to a tile of a peer Hub (R236): hub index, tile, SRAM offset, bytes, whether poisoned. -/
  | peerWrite (hub tile ofs : Nat) (bytes : List Nat) (poison : Bool)
  /-- An aggregate frame set sent to another Hub, named as in R191 (R192). -/
  | aggregate (to_ : Nat) (f : AggFrame)
  /-- A Reach DATA frame, ACK or HELLO (TX_SESSION, RX_SESSION) sent on port L0 or L1 (R364–R367). -/
  | reachData (port : Nat) (f : RData)
  | reachAck (port session : Nat) (a : RAck)
  | reachHello (port tx rx : Nat)
  /-- A segment of an inner frame sent on over peer or fabric ports to a Hub, for the Hub `dest` (R363). -/
  | forward (to_ dest : Nat) (seg : RSeg)
  /-- R400: a status read of a PMBus device. -/
  | pmbusStatus (addr : Nat)
  /-- A hello of a peer port (R166): port, board, hub index, port number named. -/
  | peerHello (port board hub : Nat)
  /-- R452: a write of the Tally-F's memory port. -/
  | mpWrite (addr : Nat) (bytes : List Nat)
  /-- R316, R319, R320: a verdict frame: fabric port, unit, job, epoch, window, key, plaintext. -/
  | verdict (port unit job epoch win key : Nat) (plain : List Nat)
  /-- R137, R138: a command frame: fabric port, what it carries. -/
  | command (port : Nat) (c : CmdOut)
  /-- R341: a digest partial, or the outcome of a comparison (job, state, round, outcome), to another Hub. -/
  | dpart (to_ : Nat) (f : DPart)
  | outcome (to_ job step round outcome : Nat)
  /-- R471: an ENUM frame with the Hub's index. R473: a heartbeat. -/
  | chainEnum (index : Nat)
  | heartbeat
  /-- R47: a change sent to the Cabinet of another serving Hub; its cancellation. R417: a job key wrapped to a Hub (job, epoch). -/
  | forwardChange (to_ entry : Nat)
  | cancelChange (to_ entry : Nat)
  | wrapKey (to_ job epoch : Nat)
  /-- R476: a REPLY (session, operation, REQ_ID, STATUS), an EVENT of the journal (session, entry, state) or of the Bureau. -/
  | reply (session op req status : Nat) (body : MBody)
  | journalEvent (session id st : Nat)
  | bureauEvent (session : Nat) (e : BurEntry)
  /-- R302: an export frame set: ports, die, sequence, epoch, the index entry's SEQ and the frame's bytes. -/
  | export_ (ports : List Nat) (md seq epoch tseq : Nat) (bytes : List Nat)
  /-- R356: a tile set moved to a peer Hub (job, hub index). -/
  | moveSet (job hub : Nat)
  /-- R500: one bit of the stream a lane generates is inverted (die, selection). -/
  | injectBit (die lane : Nat)
  deriving DecidableEq, Repr

/-- The machine. -/
structure State where
  cfg : Parts
  tally : Tally
  hub : Hub
  regs : Cells
  out : List Out
  /-- The trace units that are not as after reset. -/
  trace : List (Page × Trc)
  /-- MODEL FIELD: numbers the free values used so far (log entry 2). -/
  freeCtr : Nat
  /-- The commands waiting, first in, first out. -/
  pending : List Instr
  deriving DecidableEq, Repr

/-- The nominal increment of a tick (R57): 4 ns on a Tally, 2 ns on a Hub, in 2^-32 ns. -/
def nominal : Part → Nat
  | .tally => 4 * 2 ^ 32
  | .hub => 2 * 2 ^ 32

/-- A Longcase at power-on (R61, R67). -/
def Longcase.reset (p : Part) : Longcase :=
  { ns := 0, frac := 0, incr := nominal p, ticks := 0, servo := .unset, integ := 0, freq := 0, slew := false,
    good := 0, bad := 0, miss := 0 }

def Tracker.reset : Tracker :=
  { ofs := none, valid := false, last := 0, interval := 0, since := 0, annOut := false, site := none, syncRx := none, fwd := none,
    reqTx := none, respRx := none, peerRx := none, delay := 0,
    port := 16 }

def ReachTT.reset : ReachTT :=
  { started := none, t1 := none, rtt := none, runStart := none, runCount := 0, runFwd := 0, runRev := 0 }

def TSlot.reset : TSlot :=
  { win := 0, start := 0, build := false, base := [], shares := [], unattr := 0, total := 0, res := [0, 0, 0, 0, 0],
    gauges := [], markDrops := 0, recDrops := 0, epoch := 0, dst := [0, 0, 0, 0], verdWins := 0 }

def SlotKeys.reset : SlotKeys :=
  { cur := none, next := none, prev := none, prevK := 0, prevEnd := 0, lastVerd := none, action := none }

def CmdKeys.reset : CmdKeys := { cur := none, prev := none, next := none }

def Tally.reset : Tally :=
  { lcs := Longcase.reset .tally, slots := List.replicate 4 TSlot.reset, keys := List.replicate 4 SlotKeys.reset,
    cmd := CmdKeys.reset, identity := false, anchor := none, nrgWin := 0, splitBase := [], splitAt := none, marks := [],
    slowWin := 0, slow := none, evCycles := 0, freqAt := 0, samples := [], limCount := 0, clean := 0, capUpd := none,
    capLast := none, fclkReq := false, fclkAck := false, fclkAt := 0, tchOut := none, chainDead := false, recs := [],
    egress := [], sending := none, clsTok := List.replicate 8 0, ceilTok := 0, refillAt := 0,
    gatedRates := List.replicate 8 0, shpPend := false, gateEntry := 0, digRun := none, digRpl := none, digSeq := [],
    testMode := false, ann := none, pulseAt := none, burStore := [], burPend := [], leapExpired := false }

def IngDie.reset : IngDie := { gens := [], maps := [], reasm := [], held := [] }

def TQueue.reset : TQueue := { held := [], run := .waiting, next := 1, hist := [] }

def Tile.reset : Tile :=
  { sram := [], poison := [], queues := List.replicate 4 TQueue.reset, x := List.replicate 32 0, pc := 0, mtvec := 0, mepc := 0,
    mcause := 0, mstatus := 0, mie := 0, tevent := 0, twin := 0, sleep := none, depth := 1, wakeP := false, held := [],
    active := none, doneWins := [], wakeRun := 0, doneRun := 0 }

def TapMd.reset : TapMd :=
  { head := [1, 1], tail := [1, 1], wptr := [0, 0], work := [], scan := none, fails := [], low := [false, false], ready := true,
    patrol := 0 }

def RchPort.reset : RchPort :=
  { lastSession := 0, drawn := false, next := 1, cum := 0, ack := none, srtt := 0, rttvar := 0, ring := [], wait := [], wptr := 0,
    pause := none, limited := none, rxSession := 0, rxCum := 0, rxQ := [], rxOoo := [], echo := none, ackWait := none,
    ackNow := false, helloRx := 0, helloTx := none, reasm := [], rises := [], aps := false, gsiWin := none }

def PeerPort.reset : PeerPort := { st := 0, rx := 0, tx := none }

def HPower.reset : HPower :=
  { samples := [], causes := List.replicate 6 { ceil := 63, active := false, low := 0, raised := 0 }, bcast := none, lowered := none,
    trip := false, vrEn := 0, pmb := [], pollAt := none, calAt := none, regE := [0, 0, 0], estE := [0, 0, 0], seen := [0, 0, 0],
    miss := [0, 0, 0] }

def Trc.reset : Trc := { left := none, content := [] }

def Cabinet.reset : Cabinet :=
  { sessions := [], nextSession := 1, journal := [], nextId := 1, cmds := [], seqs := [], binds := [], searches := [], queries := [], nextQuery := 1, boots := 0,
    cabImg := [], cfgImg := [], bootCopy := 0, config := none, boot := none, chainTx := none, hbAt := none, denied := 0, tlsKey := false,
    slot1 := none, exportSeq := (0, 0), selftest := [], rolls := [], energy := [] }

/-- A job with nothing yet happened to it. -/
def HJob.new (job slot k tableMd : Nat) : HJob :=
  { job, slot, k, tableMd, vpol := [], dpol := [], kpol := [], image := none, recs := [], judged := [], prevStrag := [], drift := [],
    cap := 0xFFF, capAt := none, releasing := false, unitCap := [], refused := 0, resend := [], bounds := [], headRun := 0, target := 0,
    permits := true, throttle := [], acts := [], pend := [], ports := [], obs := [], tests := [], cmps := [], rplNext := 1, rpl := none,
    rplWait := [], every := 0, ring := [], checked := [], missing := [], refWin := 0, asm := 0, faults := 0, firstFault := 0, faultWaits := false,
    recovery := none }

def Hub.reset : Hub :=
  { lcs := Longcase.reset .hub, trackers := [Tracker.reset, Tracker.reset, Tracker.reset, Tracker.reset],
    tt := ReachTT.reset, switchedAt := none, disagree := false, ppsAt := none, ptpDiscards := 0, burStore := [],
    intake := [], leapExpired := false, hbm := [], hbmPoison := [], hbmCorr := [], hbmUnc := [], ing := List.replicate 8 IngDie.reset, wins := [], digSeen := [],
    rosters := [], keys := [], chanSeq := List.replicate 64 0, tiles := [], retired := [], taps := List.replicate 8 TapMd.reset, streams := [], summs := [], jobs := [],
    aligned := List.replicate 18 false, rch := [RchPort.reset, RchPort.reset], peers := List.replicate 4 PeerPort.reset,
    siteRoute := List.replicate 8 none, power := HPower.reset, cabinet := Cabinet.reset,
    testDiscards := List.replicate 18 0, locked := [], halfFails := [], portMode := List.replicate 16 0 }

/-- The machine right after power-on reset. DESIGN CHOICE (log entry 1): the model starts with a Tally-F and a QH-64 of hub index 0;
no statement depends on the choice. -/
def State.reset : State :=
  { cfg := ⟨false, false, 0⟩, tally := Tally.reset, hub := Hub.reset, regs := [], out := [], trace := [], freeCtr := 0,
    pending := [] }

/-- R503: what a Tally holds after tly_test_mode (undefined: free, log entry 2). -/
opaque freeTally : Nat → Tally

end Sys2Proof.Machine
end

