-- ==== Sys2Proof/Machine/Ops.lean ====
section
/-!
DEFINITION. Sys2Proof/Machine/Ops.lean: the named operations every command is built from: reading and writing a
register field, the time of a part, recording a syndrome (R21), raising an interrupt cause (R18, R436), posting a
Bureau entry (R434).
-/
namespace Sys2Proof.Machine
open Reg

/-! ### Register fields -/

/-- The stored value of a field, if one has been set since reset. -/
def lookCell : Cells → RegKey → Option Nat
  | [], _ => none
  | (k, v) :: t, k' => if k = k' then some v else lookCell t k'

/-- Set the stored value of a field. -/
def putCell : Cells → RegKey → Nat → Cells
  | [], k, v => [(k, v)]
  | (k', v') :: t, k, v => if k' = k then (k, v) :: t else (k', v') :: putCell t k v

/-- The value held under a key: the stored value, or the reset value. -/
def State.cell (s : State) (k : RegKey) : Nat := (lookCell s.regs k).getD (resetVal s.cfg k)

/-- Set the value held under a key. -/
def State.setCell (s : State) (k : RegKey) (v : Nat) : State := { s with regs := putCell s.regs k v }

/-- Read a register field of a page, at a bank index. -/
def State.rd (s : State) (pg : Page) (f : Fld) (i : Nat := 0) : Nat := s.cell (f.key pg i)

/-- Write a register field of a page, at a bank index; the value is taken modulo 2^width. -/
def State.wr (s : State) (pg : Page) (f : Fld) (v : Nat) (i : Nat := 0) : State :=
  s.setCell (f.key pg i) (v % 2 ^ f.w)

/-- Read a one-bit field as a truth value. -/
def State.flag (s : State) (pg : Page) (f : Fld) (i : Nat := 0) : Bool := s.rd pg f i == 1

/-- Add to a field that saturates at its largest value. -/
def State.bump (s : State) (pg : Page) (f : Fld) (i : Nat := 0) (d : Nat := 1) : State :=
  s.wr pg f (satAdd f.w (s.rd pg f i) d) i

/-- Add to a field that wraps modulo 2^width. -/
def State.incr (s : State) (pg : Page) (f : Fld) (i : Nat := 0) (d : Nat := 1) : State :=
  s.wr pg f (s.rd pg f i + d) i

/-! ### Pages -/

namespace Pg
def tly : Page := .tally 0x00
def tLcs : Page := .tally 0x01
def cnt : Page := .tally 0x02
def hot : Page := .tally 0x03
def stp : Page := .tally 0x04
def nrg : Page := .tally 0x05
def tPwr : Page := .tally 0x06
def cap : Page := .tally 0x07
def tStw : Page := .tally 0x08
def sealP : Page := .tally 0x09
def shp : Page := .tally 0x0A
def tCmp : Page := .tally 0x0B
def dgs : Page := .tally 0x0C
def tBur : Page := .tally 0x0D
def tTrc : Page := .tally 0x0E
def tFrz : Page := .tally 0x0F
def hLcs (d : Nat) : Page := .hub d 0x010
def xLcs : Page := .hub 56 0x010
def hStw (d : Nat) : Page := .hub d 0x011
def hPwr : Page := .hub 56 0x012
def hBur (d : Nat) : Page := .hub d 0x014
def hTrc (d : Nat) : Page := .hub d 0x015
def hFrz (d : Nat) : Page := .hub d 0x016
def cab (d : Nat) : Page := .hub d 0x018
def tst (d : Nat) : Page := .hub d 0x019
def ing (d : Nat) : Page := .hub d 0x020
def trs (d : Nat) : Page := .hub d 0x021
def mem (d : Nat) : Page := .hub d 0x030
def tap (d : Nat) : Page := .hub d 0x031
def hCmp (d : Nat) : Page := .hub d 0x032
/-- R256: the TIL page of the tile with global index t. -/
def til (t : Nat) : Page := .hub (t / 32) (0x040 + t % 32)
/-- R279: the HUT page of the tile with global index t. -/
def hut (t : Nat) : Page := .hub (t / 32) (0x060 + t % 32)
/-- R388: the RCH page of Reach port L0 or L1. -/
def rch (l : Nat) : Page := .hub (62 + l) 0x050
def gsi (l : Nat) : Page := .hub (62 + l) 0x051
def sec (d : Nat) : Page := .hub d 0x070
end Pg

/-- The LCS page that holds the Longcase of a part. -/
def lcsPage : Part → Page
  | .tally => Pg.tLcs
  | .hub => Pg.xLcs

/-- The BUR page of the die (or Tally) a page belongs to. -/
def burPage : Page → Page
  | .tally _ => Pg.tBur
  | .hub d _ => Pg.hBur d

/-! ### Time -/

/-- The Longcase of a part. -/
def State.lcs (s : State) : Part → Longcase
  | .tally => s.tally.lcs
  | .hub => s.hub.lcs

/-- Replace the Longcase of a part. -/
def State.setLcs (s : State) (p : Part) (l : Longcase) : State :=
  match p with
  | .tally => { s with tally := { s.tally with lcs := l } }
  | .hub => { s with hub := { s.hub with lcs := l } }

/-- Longcase time of a part, in nanoseconds since the PTP epoch. -/
def State.now (s : State) (p : Part) : Nat := (s.lcs p).ns

/-- R61: the Longcase of the part is UNSET. -/
def State.isUnset (s : State) (p : Part) : Bool := (s.lcs p).servo == .unset

/-- R87: TQ.STATE of a servo state. -/
def Servo.code : Servo → Nat
  | .unset => 0
  | .acquire => 1
  | .locked => 2
  | .holdover => 3

/-- R69: the trackers by source number (A 2, B 3, BOARD 4, REACH 5). -/
def State.tracker (s : State) (src : Nat) : Tracker := s.hub.trackers.getD (src - 2) Tracker.reset

/-- R86: the Hub's site time state: 0 UNKNOWN, 1 LOCKED, 2 HOLDOVER, 3 DEGRADED (log entry 12 says how the rows are
read where they overlap). -/
def hubSite (s : State) : Nat :=
  if s.hub.lcs.servo = .unset then 0
  else if s.rd Pg.xLcs LCS_ROLE_REF_SITE = 1 then
    (if s.hub.lcs.servo = .holdover then 2 else 1)
  else if s.rd Pg.xLcs LCS_ROLE_TX_B = 1 then
    if s.rd Pg.xLcs LCS_REACH_STAT_TRACKER = 2 then 2
    else if s.rd Pg.xLcs LCS_STATUS_SOURCE = 2 then 3
    else if s.rd Pg.xLcs LCS_REACH_STAT_PATH = 1 ∨ s.rd Pg.xLcs LCS_REACH_STAT_PATH = 2 then 1 else 3
  else
    match (s.tracker 3).site, (s.tracker 4).site with
    | none, none => 0
    | some v, none => if s.rd Pg.xLcs LCS_STATUS_SOURCE = 2 then 3 else v
    | none, some v => if s.rd Pg.xLcs LCS_STATUS_SOURCE = 2 then 3 else v
    | some v, some w =>
      if s.rd Pg.xLcs LCS_STATUS_SOURCE = 2 then 3 else if s.rd Pg.xLcs LCS_STATUS_SOURCE = 4 then w else v

/-- R87: TQ.SWITCHED of the Hub: 1 for 1 s after a change of selected source. -/
def hubSwitched (s : State) : Bool := s.hub.switchedAt.isSome

/-- R86, R79: the site time state of a part. -/
def siteState (s : State) : Part → Nat
  | .tally => s.rd Pg.tLcs LCS_SITE_QUAL
  | .hub => hubSite s

/-- R87: the time-quality byte. -/
def tq (s : State) (p : Part) : Nat :=
  (s.lcs p).servo.code * 64 + b2n (s.lcs p).slew * 32 +
  (match p with | .tally => 0 | .hub => b2n (hubSwitched s) * 16) + siteState s p * 4 +
  (match p with | .tally => s.rd Pg.tLcs LCS_TB_STAT_HOST | .hub => 0)

/-- R59: the time generation of a part. -/
def tgen (s : State) (p : Part) : Nat := s.rd (lcsPage p) LCS_GEN_GEN

/-! ### Bureau entries -/

/-- R434: the DIE byte of an entry posted by a page. -/
def entryDie (s : State) : Page → Nat
  | .tally _ => 0x80 + s.rd Pg.tly TLY_CHAIN_ADDR
  | .hub d _ => d

/-- An entry as posted (R434): time, time generation and TQ of the posting part; the calendar fields and SEQ are
filled when the store accepts it (R438). -/
def mkEntry (s : State) (pg : Page) (code sev : Nat) (fw host : Bool) (payload : List Nat) : BurEntry :=
  { seq := 0, sev, prov := false, fw, leap := false, host, die := entryDie s pg,
    blk := ((pageBlk s.cfg pg).map Blk.code).getD 0,
    inst := ((pageBlk s.cfg pg).map (fun b => blkId b pg / 2 ^ 8 % 2 ^ 8)).getD 0,
    code, sec := s.now pg.part / 1000000000, ns := s.now pg.part % 1000000000, tgen := tgen s pg.part,
    tq := tq s pg.part, utcOfs := 0, year := 0, month := 0, day := 0, hour := 0, minute := 0, second := 0, payload }

/-- R439: entries an intake holds awaiting forwarding. -/
def intakeCount (s : State) (d : Nat) : Nat := (s.hub.intake.filter (fun e => e.1 == d)).length

/-- Post an entry (R433, R439): on a Tally and on XD0 it goes to the store, on another die to the intake, where a full
intake drops and counts it. -/
def post (s : State) (pg : Page) (code sev : Nat) (fw host : Bool) (payload : List Nat) : State :=
  let e := mkEntry s pg code sev fw host payload
  let s := s.incr (burPage pg) BUR_AOC 2
  match pg with
  | .tally _ => { s with tally := { s.tally with burPend := s.tally.burPend ++ [e] } }
  | .hub d _ =>
    if d ≠ xd0 ∧ intakeCount s d ≥ 64 then
      (s.bump (Pg.hBur d) BUR_CNT_DROPPED sev).wr (Pg.hBur d) (BLK_IRQ_STAT Irq.BUR_DROP) 1
    else { s with hub := { s.hub with intake := s.hub.intake ++ [(d, e)] } }

/-- Payload of an EVENT entry (R435): job ID, unit number, window index, block detail. -/
structure EvInfo where
  job : Nat := 0
  unit : Nat := 0
  win : Nat := 0
  detail : Nat := 0
  deriving DecidableEq, Repr

def EvInfo.bytes (e : EvInfo) : List Nat :=
  leBytes 4 e.job ++ leBytes 4 e.unit ++ leBytes 8 e.win ++ leBytes 8 e.detail

/-- Raise an interrupt cause of a page (R18: whatever BLK_IRQ_EN holds) and post its EVENT entry (R436): at the
severity its chapter states, else at 3 while it is enabled; never for SYN or on a BUR page. -/
def raise (s : State) (pg : Page) (n : Nat) (e : EvInfo := {}) : State :=
  let s := s.wr pg (BLK_IRQ_STAT n) 1
  match pageBlk s.cfg pg with
  | none => s
  | some b =>
    if n = Irq.SYN ∨ b = .bur then s
    else match irqSev b n with
      | some sev => post s pg (0x2000 + n) sev false false e.bytes
      | none => if s.rd pg (BLK_IRQ_EN n) = 1 then post s pg (0x2000 + n) 3 false false e.bytes else s

/-! ### Syndromes -/

namespace Syn
/-! Syndrome codes of R21; 0 stands for an accepted access. -/
def NONE : Nat := 0x00
def SIZE : Nat := 0x01
def RANGE : Nat := 0x02
def STATE : Nat := 0x03
def AUTH : Nat := 0x04
def POISON : Nat := 0x05
def TIMEOUT : Nat := 0x06
def LATE : Nat := 0x07
def ABSENT : Nat := 0x08
def ROSTER : Nat := 0x09
end Syn

/-- BLK_SYNDROME_INFO as a word. -/
def synInfo (ag : Agent) (staged : Bool) (off detail : Nat) : Nat :=
  detail % 2 ^ 16 * 2 ^ 16 + b2n staged * 2 ^ 14 + ag.code * 2 ^ 12 + off % 2 ^ 12

/-- Record a syndrome on a page (R21): CODE and BLK_SYNDROME_INFO written, COUNT incremented (saturating), IRQ SYN
set, the die's SYNDROMES counter (R443) incremented, and a SYNDROME entry of severity 2 posted while
BLK_IRQ_EN.SYN is 1 (R436). -/
def syn (s : State) (pg : Page) (code : Nat) (ag : Agent := .block) (staged : Bool := false) (off : Nat := 0)
    (detail : Nat := 0) : State :=
  let s := s.wr pg BLK_SYNDROME_CODE code
  let s := s.bump pg BLK_SYNDROME_COUNT
  let s := s.wr pg BLK_SYNDROME_INFO_OFFSET off
  let s := s.wr pg BLK_SYNDROME_INFO_AGENT ag.code
  let s := s.wr pg BLK_SYNDROME_INFO_STAGED (b2n staged)
  let s := s.wr pg BLK_SYNDROME_INFO_DETAIL detail
  let s := s.wr pg (BLK_IRQ_STAT Irq.SYN) 1
  let s := s.incr (burPage pg) BUR_AOC 1
  if s.rd pg (BLK_IRQ_EN Irq.SYN) = 1 then
    post s pg (0x1000 + code) 2 false false
      (leBytes 4 (synInfo ag staged off detail) ++ leBytes 2 pg.num ++ List.replicate 18 0)
  else s

/-- Clear the syndrome of a page (R18 SYN_CLR, R20). -/
def clearSyn (s : State) (pg : Page) : State :=
  (((((s.wr pg BLK_SYNDROME_CODE 0).wr pg BLK_SYNDROME_COUNT 0).wr pg BLK_SYNDROME_INFO_OFFSET 0).wr pg
    BLK_SYNDROME_INFO_AGENT 0).wr pg BLK_SYNDROME_INFO_STAGED 0).wr pg BLK_SYNDROME_INFO_DETAIL 0

/-- The active Cabinet's CAB page, or the TLY page: where a refusal of R16 is recorded. -/
def absentPage (s : State) : Part → Page
  | .tally => Pg.tly
  | .hub => if s.rd (Pg.cab 57) CAB_STATE_ROLE = 1 ∧ s.rd (Pg.cab 56) CAB_STATE_ROLE ≠ 1 then Pg.cab 57 else Pg.cab 56

/-! ### Pages as a whole -/

/-- Forget every stored field of a page that satisfies `p`: it reads its reset value again. -/
def resetCells (s : State) (p : RegKey → Bool) : State := { s with regs := s.regs.filter (fun c => !p c.1) }

/-- R26, R454: the page is stopped by a global freeze. -/
def isFrozen (s : State) (pg : Page) : Bool := s.flag pg BLK_STAT_FROZEN

/-- The appointment time of a page in nanoseconds (R23). -/
def apptTime (s : State) (pg : Page) : Nat :=
  (s.rd pg BLK_APPT_TIME_SHI * 2 ^ 32 + s.rd pg BLK_APPT_TIME_SLO) * 1000000000 + s.rd pg BLK_APPT_TIME_NS

namespace Appt
/-! Appointment states (R23). -/
def IDLE : Nat := 0
def ARMED : Nat := 1
def APPLIED : Nat := 2
def REFUSED : Nat := 3
end Appt

/-- The page's appointment is ARMED. -/
def isArmed (s : State) (pg : Page) : Bool := s.rd pg BLK_APPT_CTRL_STATE == Appt.ARMED

/-- Move a page's appointment to REFUSED with a syndrome and APPT_REFUSED (R23, R507). -/
def apptRefuse (s : State) (pg : Page) (code : Nat) (ag : Agent := .block) : State :=
  raise (syn (s.wr pg BLK_APPT_CTRL_STATE Appt.REFUSED) pg code ag false 0x02C) pg Irq.APPT_REFUSED

/-- The pages of a part whose appointment is ARMED. -/
def armedPages (s : State) (p : Part) : List Page :=
  (s.regs.filter (fun c => c.1.off == 0x02C && c.1.lo == 4 && c.2 == Appt.ARMED && c.1.pg.part == p)).map (fun c => c.1.pg)

/-- Take the next free value (log entry 2). -/
def State.free (s : State) : State × Nat :=
  ({ s with freeCtr := s.freeCtr + 1 }, (Config.freeWord s.freeCtr).toNat)

/-- Send something to the environment. -/
def State.send (s : State) (o : Out) : State := { s with out := s.out ++ [o] }

end Sys2Proof.Machine
end

