-- ==== Sys2Proof/Machine/Window.lean ====
section
/-!
DEFINITION. Sys2Proof/Machine/Window.lean: the window grid (R41, R42) and the start of a window on a Tally's job slot
(R101–R103, R43).
-/
namespace Sys2Proof.Machine
open Reg

/-- R42: the index of the window of length code k that contains an instant. -/
def windowIndex (k ns : Nat) : Nat := ns / 125000 / 2 ^ k
/-- R42: window_start. -/
def windowStart (n k : Nat) : Nat := n * (125000 * 2 ^ k)
/-- R42: window_end. -/
def windowEnd (n k : Nat) : Nat := (n + 1) * (125000 * 2 ^ k)
/-- R42: an instant is a boundary of length k. -/
def isBoundary (k ns : Nat) : Bool := ns % (125000 * 2 ^ k) == 0

/-- The number of job slots of the Tally (R36). -/
def slotCount (c : Parts) : Nat := if c.lite then 1 else 4
/-- R2: counters of the Tally. -/
def counterCount (c : Parts) : Nat := if c.lite then 1024 else 4096
def laneCount (c : Parts) : Nat := if c.lite then 64 else 256
def hotCount (c : Parts) : Nat := if c.lite then 128 else 512
def gaugeCount (c : Parts) : Nat := if c.lite then 8 else 16
def partCount (c : Parts) : Nat := if c.lite then 4 else 16
def markCap (c : Parts) : Nat := if c.lite then 64 else 256

/-- The window length code of a slot (HOT_WIN.Ks), live or staged. -/
def winField : Nat → Fld
  | 0 => HOT_WIN_K0
  | 1 => HOT_WIN_K1
  | 2 => HOT_WIN_K2
  | _ => HOT_WIN_K3

/-- R101: slot s is live while HOT_JOBs is nonzero. -/
def slotJob (s : State) (i : Nat) : Nat := s.rd Pg.hot (HOT_JOB i)
def slotLive (s : State) (i : Nat) : Bool := i < slotCount s.cfg && slotJob s i != 0
def slotK (s : State) (i : Nat) : Nat := s.rd Pg.hot (winField i)
/-- The live slots, ascending. -/
def liveSlots (s : State) : List Nat := (List.range 4).filter (slotLive s)

def getSlot (s : State) (i : Nat) : TSlot := s.tally.slots.getD i TSlot.reset
def setSlot (s : State) (i : Nat) (t : TSlot) : State :=
  { s with tally := { s.tally with slots := s.tally.slots.set i t } }

/-- Every counter that is not 0, with its value (R103, R112). -/
def counterSnapshot (s : State) : List (Nat × Nat) :=
  (s.regs.filter (fun c => c.1.pg == Pg.cnt && c.1.off == 0x050)).map (fun c => (c.1.idx, c.2))

/-- Value of a counter in a snapshot. -/
def snapVal (l : List (Nat × Nat)) (c : Nat) : Nat := ((l.find? (fun x => x.1 == c)).map (·.2)).getD 0

/-- The residency counters of the PWR page, in the order of the record (R106). -/
def residency (s : State) : List Nat :=
  [s.rd Pg.tPwr PWR_RES_LIM, s.rd Pg.tPwr PWR_RES_CAP, s.rd Pg.tPwr PWR_RES_THERM, s.rd Pg.tPwr PWR_RES_HPWR,
   s.rd Pg.tPwr PWR_RES_LINK]

/-- The record destination SEAL_DST0–3. -/
def sealDst (s : State) : List Nat := (List.range 4).map (fun n => s.rd Pg.sealP (SEAL_DST n))

/-- Open the window of slot i that contains the present instant; a record of it may be built only when the instant is its
start (R101). -/
def openWindow (s : State) (i : Nat) (whole : Bool) : State :=
  let t := getSlot s i
  setSlot s i { t with
    win := windowIndex (slotK s i) (s.now .tally), start := s.now .tally, build := whole, base := counterSnapshot s,
    shares := [], unattr := 0, total := 0, res := residency s, gauges := [],
    epoch := s.rd Pg.sealP (SEAL_EPOCH i), dst := sealDst s }

/-- R101: at the step of R62 and when the unit number is locked, the window in progress of every live slot builds no
record, and what was gathered for it is discarded; an instant that is a boundary starts a whole window. -/
def restartSlots (s : State) : State :=
  (liveSlots s).foldl (fun s i => openWindow s i (isBoundary (slotK s i) (s.now .tally))) s

/-- R101, R104: at the step and at the locking of the unit number windows and the slow window start anew. -/
def restartTally (s : State) : State :=
  let s := restartSlots s
  { s with tally := { s.tally with slowWin := windowIndex (s.rd Pg.hot HOT_SLOW_SLOW_S) (s.now .tally) } }

end Sys2Proof.Machine
end

