-- ==== Sys2Proof/Machine/TallyCount.lean ====
section
/-!
DEFINITION. Sys2Proof/Machine/TallyCount.lean: 04_tally_counting.md, the counting side: event lanes and counters (R99,
R100), gauges (R107, R108), step marks (R109, R110), the energy split (R111, R112), the closing of a window (R102, R103,
R106), the slow batch (R104), fclk (R95), the chain (R98), the unit number (R35).
-/
namespace Sys2Proof.Machine
open Reg

/-! ### Counters -/

/-- What one event lane hands over in a tick (R99): the sum of its increments, and the ev_clk cycles in which its
increment was nonzero. -/
abbrev LaneTick := Nat × Nat × Nat

def laneSum (l : List LaneTick) (i : Nat) : Nat := ((l.find? (fun x => x.1 == i)).map (fun x => x.2.1)).getD 0
def laneCycles (l : List LaneTick) (i : Nat) : Nat := ((l.find? (fun x => x.1 == i)).map (fun x => x.2.2)).getD 0

/-- The counters whose live map entry has a MODE other than OFF (R100). -/
def mappedCounters (s : State) : List Nat :=
  (s.regs.filter (fun c => c.1.pg == Pg.cnt && c.1.off == 0x044 && c.1.lo == 30 && c.2 != 0)).map (fun c => c.1.idx)

/-- R100: what counter c adds in a tick. -/
def counterAdd (s : State) (l : List LaneTick) (c : Nat) : Nat :=
  let lane := s.rd Pg.cnt CNT_MAP_DATA0_LANE c
  if s.rd Pg.cnt CNT_MAP_DATA0_MODE c = 1 then laneSum l lane
  else if s.rd Pg.cnt CNT_MAP_DATA0_MODE c = 2 then laneCycles l lane else 0

/-- host_throttle (R113): the limiter is in THROTTLE; forced to 0 in TEST MODE (R503). -/
def hostThrottle (s : State) : Bool := !s.tally.testMode && s.rd Pg.tPwr PWR_STAT_STATE == 2

/-- cap_code (R116); forced to 0xFFF in TEST MODE (R503). -/
def capCode (s : State) : Nat := if s.tally.testMode then 0xFFF else s.rd Pg.cap CAP_CODE

/-- R126: the residency counters of one tick. -/
def countResidency (s : State) (cause : Nat) : State :=
  let s := if hostThrottle s then (s.incr Pg.tPwr PWR_RES_LIM).incr Pg.tBur BUR_AOC 20 else s
  let s := if capCode s ≠ 0xFFF then s.incr Pg.tPwr PWR_RES_CAP else s
  let s := if bit cause 0 then s.incr Pg.tPwr PWR_RES_THERM else s
  let s := if bit cause 1 then s.incr Pg.tPwr PWR_RES_HPWR else s
  if bit cause 2 then s.incr Pg.tPwr PWR_RES_LINK else s

/-- R99, R100, R126: one tb_clk tick of counting. -/
def execEventLaneCount (lanes : List (Nat × Nat × Nat)) (evCycles : Nat) (cause : BitVec 3) (s : State) :
    Host.Outcome State Fault Refusal :=
  let s := (mappedCounters s).foldl (fun s c => s.incr Pg.cnt CNT_VAL c (counterAdd s lanes c)) s
  let s := countResidency s cause.toNat
  let s := if s.tally.fclkAck then s.incr Pg.tBur BUR_AOC 16 else s
  .next { s with tally := { s.tally with evCycles := s.tally.evCycles + evCycles } }

/-- R122: a read of a capturing _LO register leaves the upper half in the _HI register. -/
def captureHi (s : State) (pg : Page) (f : Fld) (i : Nat) (hi : Fld) : State := s.wr pg hi (s.rd pg f i / 2 ^ 32)

/-- R122: the read of CNT_VAL_LO (or, with `gauge`, of CNT_GAUGE_RLO) captures the selected counter or gauge. -/
def execCntValRead (gauge : Bool) (s : State) : Host.Outcome State Fault Refusal :=
  if gauge then .next (s.wr Pg.cnt CNT_GAUGE_RHI (s.rd Pg.cnt ⟨0x068, 0, 64⟩ (s.rd Pg.cnt CNT_GAUGE_IDX) / 2 ^ 32))
  else .next (captureHi s Pg.cnt CNT_VAL (s.rd Pg.cnt CNT_VAL_IDX) CNT_VAL_HI)

/-! ### Gauges -/

/-- The held value of a gauge (R107), 64-bit two's complement. -/
def gaugeFld : Fld := ⟨0x068, 0, 64⟩
def gaugeVal (s : State) (g : Nat) : Int := toSigned 64 (s.rd Pg.cnt gaugeFld g)

/-- R108: a sample enters the window of a slot. -/
def gaugeWindow (t : TSlot) (g : Nat) (v : Int) : TSlot :=
  match t.gauges.find? (fun x => x.1 == g) with
  | some x => { t with gauges := t.gauges.map (fun y => if y.1 = g then (g, min x.2.1 v, max x.2.2 v) else y) }
  | none => { t with gauges := t.gauges ++ [(g, v, v)] }

/-- R107, R108: a gauge takes a sample. -/
def sampleGauge (s : State) (g : Nat) (v : Int) : State :=
  let s := s.wr Pg.cnt gaugeFld (ofSigned 64 v) g
  let mask := s.rd Pg.cnt CNT_GAUGE_CFG_JOBMASK g
  (liveSlots s).foldl (fun s i => if bit mask i then setSlot s i (gaugeWindow (getSlot s i) g v) else s) s

/-- Sample every gauge of a source. -/
def sampleSrc (s : State) (src : Nat) (v : Int) : State :=
  (List.range (gaugeCount s.cfg)).foldl
    (fun s g => if s.rd Pg.cnt CNT_GAUGE_CFG_SRC g = src then sampleGauge s g v else s) s

/-- R107: every 125 µs a FREQ gauge takes the ev_clk cycles of the preceding interval. -/
def execFreqSample (s : State) : Host.Outcome State Fault Refusal :=
  if s.now .tally ≥ s.tally.freqAt + 125000 then
    let v : Int := ((s.tally.evCycles * 2 ^ 24 / 125 : Nat) : Int)
    let s := sampleSrc s 5 v
    .next { s with tally := { s.tally with evCycles := 0, freqAt := s.now .tally / 125000 * 125000 } }
  else .next s

/-- R107, R122: a write of CNT_GAUGE_WLO commits CNT_GAUGE_WHI:WLO as a sample of the selected gauge, where that is a HOST
gauge; to any other gauge it is refused with STATE. -/
def gaugeHostWrite (s : State) (ag : Agent) (lo : Nat) : State :=
  let g := s.rd Pg.cnt CNT_GAUGE_IDX
  if s.rd Pg.cnt CNT_GAUGE_CFG_SRC g = 1 then
    sampleGauge (s.wr Pg.cnt CNT_GAUGE_WLO lo) g (toSigned 64 (s.rd Pg.cnt CNT_GAUGE_WHI * 2 ^ 32 + lo % 2 ^ 32))
  else syn s Pg.cnt Syn.STATE ag false 0x060

def execGaugeHostWrite (ag : Agent) (lo : Word) (s : State) : Host.Outcome State Fault Refusal :=
  .next (gaugeHostWrite s ag lo.toNat)

/-! ### Step marks -/

/-- R110: put a mark into the buffer, or drop and count it. -/
def bufferMark (s : State) (m : Mark) : State :=
  if s.tally.marks.length < markCap s.cfg then
    let s := { s with tally := { s.tally with marks := s.tally.marks ++ [m] } }
    s.wr Pg.stp STP_STAT_PENDING s.tally.marks.length
  else
    let t := getSlot s m.slot
    (setSlot s m.slot { t with markDrops := t.markDrops + 1 }).bump Pg.stp STP_STAT_DROPPED

/-- R109: an accepted mark; a STEP mark first increments the slot's step number. -/
def acceptMark (s : State) (kind slot id tag : Nat) : State :=
  let s := if kind = 0 then s.incr Pg.stp (STP_STEP slot) else s
  bufferMark s { kind, slot, id, tag, step := s.rd Pg.stp (STP_STEP slot), time := s.now .tally }

/-! ### The energy split (R112) -/

/-- R125: the slot that owns a partition. -/
def ownerOf (s : State) (p : Nat) : Option Nat :=
  let off := if p < 8 then 0x040 else 0x044
  if s.cfg.lite ∧ 4 ≤ p then none
  else if s.rd Pg.nrg ⟨off, 4 * (p % 8) + 3, 1⟩ = 1 then some (s.rd Pg.nrg ⟨off, 4 * (p % 8), 2⟩) else none

/-- The partitions a slot owns, ascending. -/
def ownedBy (s : State) (i : Nat) : List Nat := (List.range 16).filter (fun p => ownerOf s p == some i)

/-- R112: the activity a[pq] of each partition and queue (partition × 16 + queue), exact. -/
def activity (s : State) : List (Nat × Nat) :=
  (mappedCounters s).foldl (fun acc c =>
    let pq := s.rd Pg.cnt CNT_MAP_DATA0_PART c * 16 + s.rd Pg.cnt CNT_MAP_DATA0_QUEUE c
    let d := (s.rd Pg.cnt CNT_VAL c + 2 ^ 64 - snapVal s.tally.splitBase c) % 2 ^ 64
    let x := d * s.rd Pg.cnt CNT_MAP_DATA1 c
    if x = 0 then acc
    else if acc.any (fun y => y.1 == pq) then acc.map (fun y => if y.1 = pq then (pq, y.2 + x) else y)
    else acc ++ [(pq, x)]) []

/-- Sum of the second components. -/
def sumSnd (l : List (Nat × Nat)) : Nat := (l.map (·.2)).foldl (· + ·) 0

/-- Add a value to an entry of a list of sums. -/
def addTo (l : List (Nat × Nat)) (k v : Nat) : List (Nat × Nat) :=
  if l.any (fun y => y.1 == k) then l.map (fun y => if y.1 = k then (k, y.2 + v) else y) else l ++ [(k, v)]

/-- R112: the shares of an interval of energy e; none where an activity saturates 96 bits or none was counted. -/
def shares (e : Nat) (a : List (Nat × Nat)) : List (Nat × Nat) :=
  let t := sumSnd a
  if t = 0 ∨ t ≥ 2 ^ 96 then [] else a.map (fun x => (x.1, e * x.2 / t))

/-- R112: the end of a split interval. -/
def splitEnd (s : State) : State :=
  let e := s.tally.nrgWin
  let a := activity s
  let sh := shares e a
  let un := e - sumSnd sh
  let s := sh.foldl (fun s x => s.incr Pg.nrg NRG_ACC x.1 x.2) s
  let s := s.incr Pg.nrg NRG_UNATTR 0 un
  let s := s.incr Pg.nrg NRG_TOTAL 0 e
  let s := s.incr Pg.nrg NRG_STAT_SPLITS
  let s := s.wr Pg.nrg NRG_STAT_NOACT (b2n (sumSnd a == 0))
  let s := if sumSnd a ≥ 2 ^ 96 then s.wr Pg.nrg NRG_STAT_SAT 1 else s
  let s := (liveSlots s).foldl (fun s i =>
    let t := getSlot s i
    let mine := sh.filter (fun x => ownerOf s (x.1 / 16) == some i)
    setSlot s i { t with shares := mine.foldl (fun l x => addTo l x.1 x.2) t.shares, unattr := t.unattr + un,
                         total := t.total + e }) s
  { s with tally := { s.tally with nrgWin := 0, splitBase := counterSnapshot s, splitAt := some (s.now .tally) } }

/-- End the split interval unless it has already ended at this instant. -/
def splitOnce (s : State) : State := if s.tally.splitAt = some (s.now .tally) then s else splitEnd s

/-! ### The slow batch (R104) -/

/-- The counters of the batch from the cursor, wrapping at the last counter. -/
def slowCounters (s : State) : List Nat :=
  (List.range (s.rd Pg.hot HOT_SLOW_BATCH)).map (fun i => (s.rd Pg.hot HOT_SLOW_CUR + i) % counterCount s.cfg)

/-- The part of a slow batch a slot's record carries: the counters whose JOBMASK has the slot's bit. -/
def slowFor (b : List (Nat × Nat × Nat)) (i : Nat) : List (Nat × Nat) :=
  (b.filter (fun x => bit x.2.2 i)).map (fun x => (x.1, x.2.1))

/-- R101: the Tally may build records: unit number locked and Longcase past UNSET. -/
def mayBuild (s : State) : Bool := s.rd Pg.tly TLY_UNIT_LOCKED == 1 && !s.isUnset .tally

/-- R104: the work of a slow boundary at time t. -/
def slowSnapshot (s : State) (t : Nat) : State :=
  let b := (slowCounters s).map (fun c => (c, s.rd Pg.cnt CNT_VAL c, s.rd Pg.cnt CNT_MAP_DATA0_JOBMASK c))
  let recs := s.tally.recs.map (fun r => if r.stop = t ∧ r.snapshot = false then { r with slow := slowFor b r.slot } else r)
  let s := { s with tally := { s.tally with slow := some (t, b), recs := recs } }
  s.wr Pg.hot HOT_SLOW_CUR ((s.rd Pg.hot HOT_SLOW_CUR + s.rd Pg.hot HOT_SLOW_BATCH) % counterCount s.cfg)

/-- R104: a slow boundary; nothing is snapshot while the unit number is unlocked or the Longcase UNSET. -/
def execSlowBoundary (s : State) : Host.Outcome State Fault Refusal :=
  let k := s.rd Pg.hot HOT_SLOW_SLOW_S
  let w := windowIndex k (s.now .tally)
  if w > s.tally.slowWin then
    let s := if mayBuild s then slowSnapshot s (windowStart w k) else s
    .next { s with tally := { s.tally with slowWin := w } }
  else .next s

/-! ### The closing of a window -/

/-- R103: the exact deltas of the hot-list entries a slot's record carries, in list order. -/
def hotDeltas (s : State) (i : Nat) (base : List (Nat × Nat)) : List Nat :=
  let cs := (List.range (s.rd Pg.hot HOT_COUNT)).map (fun e => s.rd Pg.hot HOT_LIST_DATA e)
  (cs.filter (fun c => bit (s.rd Pg.cnt CNT_MAP_DATA0_JOBMASK c) i)).map (fun c =>
    (s.rd Pg.cnt CNT_VAL c + 2 ^ 64 - snapVal base c) % 2 ^ 64)

/-- R108: the gauges a slot's record carries: last, smallest, largest; a gauge without a sample carries its held value. -/
def gaugeTriples (s : State) (i : Nat) : List (Nat × Int × Int × Int) :=
  let gs := (List.range (gaugeCount s.cfg)).filter (fun g =>
    s.rd Pg.cnt CNT_GAUGE_CFG_SRC g != 0 && bit (s.rd Pg.cnt CNT_GAUGE_CFG_JOBMASK g) i)
  gs.map (fun g =>
    let v := gaugeVal s g
    match (getSlot s i).gauges.find? (fun x => x.1 == g) with
    | some x => (g, v, x.2.1, x.2.2)
    | none => (g, v, v, v))

/-- Differences of the residency counters, modulo 2^32 (R106). -/
def residencyDelta (now base : List Nat) : List Nat := (now.zip base).map (fun x => (x.1 + 2 ^ 32 - x.2) % 2 ^ 32)

/-- R106: what the record of slot i's window in progress draws on the blocks at time t. -/
def windowRecord (s : State) (i t : Nat) (snapshot : Bool) : WinRec :=
  let w := getSlot s i
  { slot := i, job := slotJob s i, k := slotK s i, win := w.win, start := windowStart w.win (slotK s i), stop := t,
    snapshot, hot := hotDeltas s i w.base,
    slow := match s.tally.slow with
      | some (u, b) => if u = t ∧ snapshot = false then slowFor b i else []
      | none => [],
    gauges := gaugeTriples s i, marks := s.tally.marks.filter (fun m => m.slot == i && decide (m.time < t)),
    markDrops := w.markDrops, owned := ownedBy s i, shares := w.shares, total := w.total, unattr := w.unattr,
    res := residencyDelta (residency s) w.res, tgen := tgen s .tally, tq := tq s .tally, epoch := w.epoch, dst := w.dst }

/-- Keys and inlet state of a slot. -/
def getKeys (s : State) (i : Nat) : SlotKeys := s.tally.keys.getD i SlotKeys.reset
def setKeys (s : State) (i : Nat) (k : SlotKeys) : State :=
  { s with tally := { s.tally with keys := s.tally.keys.set i k } }

/-- The key of slot i for an epoch (R135): current, previous or next. -/
def keyFor (s : State) (i epoch : Nat) : Option Key :=
  ([(getKeys s i).cur, (getKeys s i).prev, (getKeys s i).next].filterMap id).find? (fun k => k.epoch == epoch)

/-- R110: the slot's marks timed before t leave the buffer. -/
def takeMarks (s : State) (i t : Nat) : State :=
  let s := { s with tally := { s.tally with marks := s.tally.marks.filter (fun m => !(m.slot == i && decide (m.time < t))) } }
  s.wr Pg.stp STP_STAT_PENDING s.tally.marks.length

/-- R134, R136, R456: the record of slot i for the interval ending at t is handed on to sealing, or refused: RANGE for a window
index of 2^56 (a snapshot: 2^55) or above; STATE, KEY_MISSING and a count for the next LOSS section without its key. -/
def queueRecord (s : State) (i t : Nat) (snapshot : Bool) : State :=
  let r := windowRecord s i t snapshot
  if r.win ≥ (if snapshot then 2 ^ 55 else 2 ^ 56) then syn s Pg.sealP Syn.RANGE
  else match keyFor s i r.epoch with
    | none =>
      let w := getSlot s i
      raise (syn (setSlot s i { w with recDrops := w.recDrops + 1 }) Pg.sealP Syn.STATE) Pg.sealP Irq.SEAL_KEY_MISSING
        { job := r.job, unit := s.rd Pg.tly TLY_UNIT_UNIT, win := r.win }
    | some _ => { s with tally := { s.tally with recs := s.tally.recs ++ [r] } }

/-- R102 step 1 for slot i, whose window closes at t: the record is handed on, its marks leave the buffer, the counts of
closed windows advance. -/
def closeWindow (s : State) (i t : Nat) : State :=
  let s := s.incr Pg.hot HOT_STAT_WINDOWS
  let built := (getSlot s i).build && mayBuild s
  let kept := built && (keyFor s i (getSlot s i).epoch).isSome && decide ((getSlot s i).win < 2 ^ 56)
  let s := if built then queueRecord s i t false else s
  let w := getSlot s i
  let s := setSlot s i { w with verdWins := w.verdWins + 1, markDrops := if kept then 0 else w.markDrops }
  takeMarks s i t

/-- The live slots whose window in progress has ended. -/
def dueSlots (s : State) : List Nat :=
  (liveSlots s).filter (fun i => decide (windowIndex (slotK s i) (s.now .tally) > (getSlot s i).win))

/-- R102 step 1: the split interval ends and every due slot closes its window. -/
def closeWindows (s : State) (due : List Nat) : State :=
  due.foldl (fun s i => closeWindow s i (windowEnd (getSlot s i).win (slotK s i))) (splitOnce s)

/-- R102 step 3: every due slot that is still live opens its next window. -/
def openWindows (s : State) (due : List Nat) : State :=
  due.foldl (fun s i => if slotLive s i then openWindow s i true else s) s

/-! ### Unit number, chain, fclk -/

/-- R35, R118, R121: the host writes the unit number once; a number within its site (bits [20:0]; [23:21] are the site) at
131,072 or above is refused with RANGE. -/
def tlyUnitWrite (s : State) (ag : Agent) (unit : Nat) : State :=
  if ag ≠ .regPort then syn s Pg.tly Syn.AUTH ag false 0x040
  else if s.rd Pg.tly TLY_UNIT_LOCKED = 1 then syn s Pg.tly Syn.STATE ag false 0x040
  else if unit % 2 ^ 21 ≥ 131072 then syn s Pg.tly Syn.RANGE ag false 0x040
  else restartTally ((s.wr Pg.tly TLY_UNIT_UNIT unit).wr Pg.tly TLY_UNIT_LOCKED 1)

def execTlyUnitWrite (ag : Agent) (unit : BitVec 24) (s : State) : Host.Outcome State Fault Refusal :=
  .next (tlyUnitWrite s ag unit.toNat)

/-- R98: a Tally seeing tch_in_tok = 1. -/
def execChainAddress (addr : BitVec 5) (s : State) : Host.Outcome State Fault Refusal :=
  if s.rd Pg.tly TLY_CHAIN_ADDRESSED = 1 ∨ s.tally.chainDead = true then .next s
  else if addr.toNat ≤ 15 then
    let s := (s.wr Pg.tly TLY_CHAIN_ADDR addr.toNat).wr Pg.tly TLY_CHAIN_ADDRESSED 1
    .next { s with tally := { s.tally with tchOut := some (addr.toNat + 1) } }
  else .next { s with tally := { s.tally with chainDead := true } }

/-- R95, R361: fast-clock work is pending: a record to seal, a frame waiting or on the stream, a running or verifying steward
core, a digest or replay being read. -/
def fclkWork (s : State) : Bool :=
  !s.tally.recs.isEmpty || !s.tally.egress.isEmpty || s.tally.sending.isSome ||
  s.rd Pg.tStw STW_STAT_STATE == 1 || s.rd Pg.tStw STW_STAT_STATE == 2 ||
  s.rd Pg.dgs DGS_STAT_STATE == 1 || s.rd Pg.dgs DGS_STAT_STATE == 3 ||
  s.rd Pg.tTrc TRC_STAT_STATE == 2

/-- Raise fclk_req, noting when. -/
def raiseFclk (s : State) : State :=
  if s.tally.fclkReq then s
  else { s with tally := { s.tally with fclkReq := true, fclkAt := s.now .tally } }

/-- R95: a boundary of a live slot is at most LEAD × 100 ns ahead (or has just passed unserved). -/
def leadDue (s : State) : Bool :=
  (liveSlots s).any (fun i =>
    decide (windowEnd (getSlot s i).win (slotK s i) ≤ s.now .tally + s.rd Pg.tly TLY_FCLK_LEAD * 100))

/-- R95: fclk_req rises before a boundary of a live slot or while fast-clock work is pending. -/
def execFclkRequest (s : State) : Host.Outcome State Fault Refusal :=
  if leadDue s || fclkWork s then .next (raiseFclk s) else .next s

/-- R95: fclk_ack arrives; later than 2 µs after fclk_req rose it is still used, with TIMEOUT, LATE and FCLK_LATE. -/
def execFclkAck (s : State) : Host.Outcome State Fault Refusal :=
  if s.tally.fclkReq ∧ s.tally.fclkAck = false then
    let late := decide (s.now .tally > s.tally.fclkAt + 2000)
    let s := { s with tally := { s.tally with fclkAck := true } }
    if late then
      .next (raise ((syn s Pg.tly Syn.TIMEOUT).bump Pg.tly TLY_FCLK_LATE) Pg.tly Irq.TLY_FCLK_LATE)
    else .next s
  else .next s

/-- R95: fclk_req falls when no work remains; the class rates then live are noted for R146. -/
def lowerFclk (s : State) : State :=
  if fclkWork s || leadDue s then s
  else { s with tally := { s.tally with fclkReq := false, fclkAck := false,
                                        gatedRates := (List.range 8).map (fun c => s.rd Pg.shp SHP_CLS_RATE c) } }

end Sys2Proof.Machine
end

