-- ==== Sys2Proof/Machine/TallyPower.lean ====
section
/-!
DEFINITION. Sys2Proof/Machine/TallyPower.lean: 04_tally_counting.md, the host controls: power samples and the supply
limiter (R111, R113), the host locks (R114), the clock-cap port (R115, R116).
-/
namespace Sys2Proof.Machine
open Reg

/-! ### The limiter (R113) -/

namespace Lim
/-! PWR_STAT.STATE (R126). -/
def OFF : Nat := 0
def WATCH : Nat := 1
def THROTTLE : Nat := 2
end Lim

/-- R113: the limiter is enabled: EN = 1 and some limit is nonzero. -/
def limiterOn (s : State) : Bool :=
  s.rd Pg.tPwr BLK_CTRL_EN == 1 &&
  (s.rd Pg.tPwr PWR_LIM_INST != 0 || s.rd Pg.tPwr PWR_LIM_1MS != 0 || s.rd Pg.tPwr PWR_LIM_10MS != 0)

/-- R113: the effect of a write of EN or a limit on the state: OFF to WATCH when enabled (no sample counts yet), to OFF when not. -/
def limiterRefresh (s : State) : State :=
  if limiterOn s then
    if s.rd Pg.tPwr PWR_STAT_STATE = Lim.OFF then
      { s.wr Pg.tPwr PWR_STAT_STATE Lim.WATCH with tally := { s.tally with limCount := 0, clean := 0 } }
    else s
  else s.wr Pg.tPwr PWR_STAT_STATE Lim.OFF

/-- Sum of the first n entries. -/
def sumFirst (l : List Nat) (n : Nat) : Nat := (l.take n).foldl (· + ·) 0

/-- R113: the limits the newest sample violates: bit 0 instantaneous, bit 1 1 ms, bit 2 10 ms; samples not yet taken since the
limiter was enabled count as 0. -/
def violations (s : State) : Nat :=
  let n := s.tally.limCount
  let inst := s.rd Pg.tPwr PWR_LIM_INST
  let l1 := s.rd Pg.tPwr PWR_LIM_1MS
  let l10 := s.rd Pg.tPwr PWR_LIM_10MS
  b2n (inst != 0 && decide (sumFirst s.tally.samples 1 > inst * 1000000)) +
  2 * b2n (l1 != 0 && decide (sumFirst s.tally.samples (min n 1000) > l1 * 1000000000)) +
  4 * b2n (l10 != 0 && decide (sumFirst s.tally.samples (min n 10000) > l10 * 10000000000))

/-- R113: the limiter evaluates the newest sample. -/
def limiterEval (s : State) : State :=
  if s.rd Pg.tPwr PWR_STAT_STATE = Lim.OFF then s
  else
    let s := { s with tally := { s.tally with limCount := s.tally.limCount + 1 } }
    let v := violations s
    if s.rd Pg.tPwr PWR_STAT_STATE = Lim.WATCH then
      if v = 0 then s
      else
        let s := { s with tally := { s.tally with clean := 0 } }
        let s := (s.wr Pg.tPwr PWR_STAT_STATE Lim.THROTTLE).wr Pg.tPwr PWR_STAT_CAUSE v
        raise (s.bump Pg.tPwr PWR_STAT_TRIPS) Pg.tPwr Irq.PWR_THR_ON
    else if v = 0 then
      let s := { s with tally := { s.tally with clean := s.tally.clean + 1 } }
      if s.tally.clean ≥ s.rd Pg.tPwr PWR_HOLD then
        raise (s.wr Pg.tPwr PWR_STAT_STATE Lim.WATCH) Pg.tPwr Irq.PWR_THR_OFF
      else s
    else { s with tally := { s.tally with clean := 0 } }

/-- Milliwatts for a register that truncates and saturates (R126). -/
def satWord (x : Nat) : Nat := min x 0xFFFFFFFF

/-- R111, R107, R112, R113: a power sample feeds the gauges, the energy sum, the averages and the limiter. -/
def execPowerSample (codeV codeI : BitVec 16) (s : State) : Host.Outcome State Fault Refusal :=
  let v := codeV.toNat * s.rd Pg.tPwr PWR_V_LSB
  let i := codeI.toNat * s.rd Pg.tPwr PWR_I_LSB
  let p := v * i
  let s := sampleSrc s 2 ((v * 2 ^ 24 / 1000000 : Nat) : Int)
  let s := sampleSrc s 3 ((i * 2 ^ 24 / 1000 : Nat) : Int)
  let s := sampleSrc s 4 ((p * 2 ^ 24 / 1000000000 : Nat) : Int)
  let s := { s with tally := { s.tally with nrgWin := (s.tally.nrgWin + p) % 2 ^ 64,
                                            samples := (p :: s.tally.samples).take 10000 } }
  let s := s.wr Pg.tPwr PWR_NOW (satWord (p / 1000000))
  let s := s.wr Pg.tPwr PWR_AVG1 (satWord (sumFirst s.tally.samples 1000 / 1000 / 1000000))
  let s := s.wr Pg.tPwr PWR_AVG10 (satWord (sumFirst s.tally.samples 10000 / 10000 / 1000000))
  .next (limiterEval s)

/-! ### Host locks (R114) -/

/-- The lock field of a page with host-owned registers. -/
def lockFld (pg : Page) : Fld := if pg = Pg.tPwr then PWR_LOCK else if pg = Pg.cap then CAP_LOCK else SHP_LOCK

/-- R114, R127, R153: only the register port writes a host lock; a set lock cannot be cleared. -/
def lockWrite (s : State) (pg : Page) (ag : Agent) (v : Bool) : State :=
  let f := lockFld pg
  if ag ≠ .regPort then syn s pg Syn.AUTH ag false f.off
  else if s.rd pg f = 1 then (if v then s else syn s pg Syn.STATE ag false f.off)
  else s.wr pg f (b2n v)

def execLockWrite (pg : Page) (ag : Agent) (v : Bool) (s : State) : Host.Outcome State Fault Refusal :=
  if pg = Pg.tPwr ∨ pg = Pg.cap ∨ pg = Pg.shp then .next (lockWrite s pg ag v) else .next s

/-! ### The clock cap (R115, R116) -/

/-- R115: why a staged CAP_CODE is refused; 0 where it is accepted. -/
def capCodeCheck (s : State) (code : Nat) : Nat :=
  let floor := s.rd Pg.cap CAP_FLOOR
  let top := s.rd Pg.cap CAP_TOP
  let live := s.rd Pg.cap CAP_CODE
  let eff (c : Nat) : Nat := if c = 0xFFF then top else c
  if code < floor ∨ (code > top ∧ code ≠ 0xFFF) ∨ eff code > eff live + s.rd Pg.cap CAP_STEP then Syn.RANGE else 0

/-- R115, R24, R22, R138: a write of the staged CAP_CODE; through the inlet only the CAP action may change it (AUTH). -/
def capCodeWrite (s : State) (ag : Agent) (code : Nat) : State :=
  if ag = .cabinet then syn s Pg.cap Syn.AUTH ag true 0x040
  else if isArmed s Pg.cap then syn s Pg.cap Syn.STATE ag true 0x040
  else if capCodeCheck s code ≠ 0 then syn s Pg.cap Syn.RANGE ag true 0x040
  else s.wr Pg.cap CAP_CODE.staged code

def execCapCodeWrite (ag : Agent) (code : BitVec 12) (s : State) : Host.Outcome State Fault Refusal :=
  .next (capCodeWrite s ag code.toNat)

/-- R116: the application of the CAP page: cap_upd pulses. -/
def capApplied (s : State) : State :=
  { s with tally := { s.tally with capUpd := some (s.now .tally, false), capLast := some (s.now .tally) } }

/-- R116, R127: cap_ack; later than 100 µs after cap_upd it records TIMEOUT. -/
def execCapAck (s : State) : Host.Outcome State Fault Refusal :=
  match s.tally.capUpd with
  | some (t, timedOut) =>
    let lat := s.now .tally - t
    let s := { s with tally := { s.tally with capUpd := none } }
    let s := s.wr Pg.cap CAP_STAT_ACK_LAT (min 0xFFFF (lat / 4))
    if lat > 100000 ∧ timedOut = false then
      .next (raise ((syn s Pg.cap Syn.TIMEOUT).bump Pg.cap CAP_STAT_ACK_TO) Pg.cap Irq.CAP_ACK_TIMEOUT)
    else .next s
  | none => .next s

/-- R116: no cap_ack within 100 µs of cap_upd. -/
def execCapAckTimeout (s : State) : Host.Outcome State Fault Refusal :=
  match s.tally.capUpd with
  | some (t, timedOut) =>
    if s.now .tally > t + 100000 ∧ timedOut = false then
      let s := { s with tally := { s.tally with capUpd := some (t, true) } }
      .next (raise ((syn s Pg.cap Syn.TIMEOUT).bump Pg.cap CAP_STAT_ACK_TO) Pg.cap Irq.CAP_ACK_TIMEOUT)
    else .next s
  | none => .next s

end Sys2Proof.Machine
end

