-- ==== Sys2Proof/Machine/Steward.lean ====
section
/-!
DEFINITION. Sys2Proof/Machine/Steward.lean: the steward core of a Tally and of every Hub die (R117, R118, R128, R485), and the
check of its image (R410, R412).
-/
namespace Sys2Proof.Machine
open Reg

namespace Stw
/-! STW_STAT.STATE (R128). -/
def HALTED : Nat := 0
def VERIFYING : Nat := 1
def RUNNING : Nat := 2
def FAULT : Nat := 3
end Stw

/-- R485: on a Hub the Cabinet alone writes the control and load registers; on a Tally the host and the inlet do, the core
itself reaches the page as any other (R118). -/
def stwAuth (pg : Page) (ag : Agent) : Bool :=
  match pg with
  | .tally _ => true
  | .hub _ _ => ag == .cabinet

/-- R117: RAM bytes of a steward core. -/
def stwRam (c : Parts) (pg : Page) : Nat := if pg.isTally && c.lite then 49152 else 98304

/-- R117: STW_CTRL.START. -/
def stwStart (s : State) (pg : Page) (ag : Agent) : State :=
  if !stwAuth pg ag then syn s pg Syn.AUTH ag false 0x040
  else if isFrozen s pg then syn s pg Syn.STATE ag false 0x040
  else if s.rd pg STW_STAT_STATE = Stw.HALTED ∧ s.rd pg STW_IMG_LEN > 0 then s.wr pg STW_STAT_STATE Stw.VERIFYING
  else syn s pg Syn.STATE ag false 0x040

def execStewardStart (pg : Page) (ag : Agent) (s : State) : Host.Outcome State Fault Refusal :=
  if pageBlk s.cfg pg = some .stw then .next (stwStart s pg ag)
  else .next (syn s (absentPage s pg.part) Syn.ABSENT ag false 0x040)

/-- R117, R410, R412: the signature check ends. On a Tally the identity key is rebuilt at the first VERIFYING after a reset and a
verified image latches its ANCHOR. -/
def stwVerified (s : State) (pg : Page) (ok : Bool) (anchor : Nat) (rebuilt : Bool) : State :=
  let s := if pg.isTally then { s with tally := { s.tally with identity := s.tally.identity || rebuilt } } else s
  if ok then
    let s := s.wr pg STW_STAT_STATE Stw.RUNNING
    let s := s.wr pg STW_PC 0
    if pg.isTally then { s with tally := { s.tally with anchor := some anchor } } else s
  else syn (s.wr pg STW_STAT_STATE Stw.HALTED) pg Syn.AUTH

def execStewardVerifyDone (pg : Page) (ok : Bool) (anchor : Nat) (rebuilt : Bool) (s : State) :
    Host.Outcome State Fault Refusal :=
  if pageBlk s.cfg pg = some .stw ∧ s.rd pg STW_STAT_STATE = Stw.VERIFYING ∧ isFrozen s pg = false then
    .next (stwVerified s pg ok anchor rebuilt)
  else .next s

/-- R117: STW_CTRL.HALT moves RUNNING or FAULT to HALTED; in the other states it changes nothing. -/
def stwHalt (s : State) (pg : Page) (ag : Agent) : State :=
  if !stwAuth pg ag then syn s pg Syn.AUTH ag false 0x040
  else if isFrozen s pg then syn s pg Syn.STATE ag false 0x040
  else if s.rd pg STW_STAT_STATE = Stw.RUNNING ∨ s.rd pg STW_STAT_STATE = Stw.FAULT then
    s.wr pg STW_STAT_STATE Stw.HALTED
  else s

def execStewardHalt (pg : Page) (ag : Agent) (s : State) : Host.Outcome State Fault Refusal :=
  if pageBlk s.cfg pg = some .stw then .next (stwHalt s pg ag)
  else .next (syn s (absentPage s pg.part) Syn.ABSENT ag false 0x040)

/-- R117: an unhandled exception stops a running core. -/
def execStewardFault (pg : Page) (cause : BitVec 16) (s : State) : Host.Outcome State Fault Refusal :=
  if pageBlk s.cfg pg = some .stw ∧ s.rd pg STW_STAT_STATE = Stw.RUNNING ∧ isFrozen s pg = false then
    .next (raise ((s.wr pg STW_STAT_STATE Stw.FAULT).wr pg STW_STAT_CAUSE cause.toNat) pg Irq.STW_FAULT)
  else .next s

/-- R128: a write of STW_LOAD_DATA stores one word at STW_LOAD_ADDR and advances it by 4; the RAM is the register's bank, by
word. At the last word the address wraps to 0. -/
def stwLoad (s : State) (pg : Page) (ag : Agent) (w : Nat) : State :=
  if !stwAuth pg ag then syn s pg Syn.AUTH ag false 0x04C
  else if isFrozen s pg ∨ s.rd pg STW_STAT_STATE ≠ Stw.HALTED then syn s pg Syn.STATE ag false 0x04C
  else
    let a := s.rd pg STW_LOAD_ADDR
    (s.wr pg STW_LOAD_DATA w a).wr pg STW_LOAD_ADDR (if a + 1 < stwRam s.cfg pg / 4 then a + 1 else 0)

def execStewardLoadWord (pg : Page) (ag : Agent) (w : Word) (s : State) : Host.Outcome State Fault Refusal :=
  if pageBlk s.cfg pg = some .stw then .next (stwLoad s pg ag w.toNat)
  else .next (syn s (absentPage s pg.part) Syn.ABSENT ag false 0x04C)

end Sys2Proof.Machine
end

