-- ==== Sys2Proof/Machine/Egress.lean ====
section
/-!
DEFINITION. Sys2Proof/Machine/Egress.lean: 05_tally_egress.md, the sending side: the record's plaintext (R131–R133), sealing and
segments (R129, R130, R134), keys of old epochs (R135), the egress buffer (R147), the shaper (R142–R146), the gates
(R148–R150).
-/
namespace Sys2Proof.Machine
open Reg

/-! ### The record (R131, R132) -/

/-- A section header: TYPE, PACKED, SAT, COUNT. -/
def secHdr (type : Nat) (packed sat : Bool) (count : Nat) : List Nat :=
  beBytes 4 (type * 2 ^ 24 + b2n packed * 2 ^ 23 + b2n sat * 2 ^ 22 + count % 2 ^ 16)

/-- A bitmap of ⌈n/32⌉ words: bit i of word j stands for entry 32j + i. -/
def bitmap (l : List Bool) : List Nat :=
  (List.range (ceilDiv l.length 32)).flatMap (fun j =>
    beBytes 4 ((List.range 32).foldl (fun w i => w + b2n (l.getD (32 * j + i) false) * 2 ^ i) 0))

/-- R103: a delta as carried. -/
def carried (d : Nat) : Nat := min d 0xFFFFFFFF

/-- R131, R132: the HOT section. -/
def hotSection (pack : Bool) (ds : List Nat) : List Nat :=
  if ds.isEmpty then []
  else
    let sat := ds.map (fun d => decide (d > 0xFFFFFFFF))
    let anySat := sat.any id
    let satMap := if anySat then bitmap sat else []
    let cs := ds.map carried
    let plain := cs.flatMap (beBytes 4) ++ satMap
    let packed := bitmap (cs.map (fun c => c != 0)) ++ (cs.filter (fun c => c != 0)).flatMap (beBytes 4) ++ satMap
    if pack && decide (packed.length < plain.length) then secHdr 1 true anySat ds.length ++ packed
    else secHdr 1 false anySat ds.length ++ plain

def slowSection (l : List (Nat × Nat)) : List Nat :=
  if l.isEmpty then []
  else secHdr 2 false false l.length ++ l.flatMap (fun x => beBytes 4 x.1 ++ beBytes 8 x.2)

def gaugeSection (l : List (Nat × Int × Int × Int)) : List Nat :=
  if l.isEmpty then []
  else secHdr 3 false false l.length ++ l.flatMap (fun x =>
    beBytes 4 x.1 ++ beBytes 8 (ofSigned 64 x.2.1) ++ beBytes 8 (ofSigned 64 x.2.2.1) ++ beBytes 8 (ofSigned 64 x.2.2.2))

def markSection (start drops : Nat) (l : List Mark) : List Nat :=
  secHdr 4 false false l.length ++ beBytes 4 drops ++ l.flatMap (fun m =>
    beBytes 4 (m.kind * 2 ^ 30 + m.slot * 2 ^ 28 + m.id * 2 ^ 16 + m.tag) ++ beBytes 4 m.step ++
    beBytes 4 (m.time - start))

/-- R131: the ENERGY section; 16 queues per partition on F, 4 on L. -/
def energySection (lite : Bool) (r : WinRec) : List Nat :=
  secHdr 5 false false r.owned.length ++ beBytes 4 ((r.owned.map (fun p => 2 ^ p)).foldl (· + ·) 0) ++
  r.owned.flatMap (fun p => (List.range (if lite then 4 else 16)).flatMap (fun q =>
    beBytes 8 (snapVal r.shares (p * 16 + q)))) ++ beBytes 8 r.total ++ beBytes 8 r.unattr

def residencySection (l : List Nat) : List Nat := secHdr 6 false false 5 ++ l.flatMap (beBytes 4)

def lossSection (n : Nat) : List Nat := if n = 0 then [] else secHdr 7 false false 1 ++ beBytes 4 n

/-- R131: the plaintext of a record; `lost` records were dropped since the slot's previous record. -/
def recordPlain (lite pack : Bool) (r : WinRec) (lost : Nat) : List Nat :=
  hotSection pack r.hot ++ slowSection r.slow ++ gaugeSection r.gauges ++ markSection r.start r.markDrops r.marks ++
  energySection lite r ++ residencySection r.res ++ lossSection lost

/-! ### Frames (R129, R130, R134) -/

namespace Kind
/-! KIND of R130. -/
def RECORD : Nat := 0x01
def DIGEST : Nat := 0x02
def RESPONSE : Nat := 0x03
def VERDICT : Nat := 0x10
def VERDICT_FULL : Nat := 0x11
def COMMAND : Nat := 0x20
end Kind

/-- The template bytes of SEAL_HDR0–SEAL_HDR16 (R152: SEAL_HDRn [31:24] holds byte 4n). -/
def template (s : State) : List Nat :=
  (List.range 16).flatMap (fun n => beBytes 4 (s.rd Pg.sealP (SEAL_HDR n))) ++ beBytes 2 (s.rd Pg.sealP SEAL_HDR16)

/-- Replace bytes of a list from a position. -/
def patch (l : List Nat) (pos : Nat) (bs : List Nat) : List Nat := l.take pos ++ bs ++ l.drop (pos + bs.length)

/-- R129: the header of a frame: the template with PCP, IPv6 payload length, UDP length and, where one is set, the IPv6
destination filled in. -/
def frameHead (tmpl : List Nat) (cls len : Nat) (dst : List Nat) : List Nat :=
  let t := patch tmpl 14 [cls * 32 + (tmpl.getD 14 0) % 32]
  let t := patch t 22 (beBytes 2 (8 + 32 + len))
  let t := patch t 62 (beBytes 2 (8 + 32 + len))
  if dst.all (fun x => x == 0) then t else patch t 42 (dst.flatMap (beBytes 4))

/-- Lengths of the segments of n sealed bytes, cut at m. -/
def segLens (n m : Nat) : List Nat :=
  (List.range (ceilDiv n m)).map (fun i => min m (n - i * m))

/-- R130, R134: the frames of one sealed plaintext. -/
def mkFrames (s : State) (cls : Nat) (hdr : QrpHdr) (key : Nat) (plain : List Nat) (dst : List Nat) (slot : Option Nat) :
    List EgFrame :=
  let hdr := { hdr with sealedLen := plain.length + 16 }
  let lens := segLens (plain.length + 16) (s.rd Pg.sealP SEAL_CFG_SEG_MAX)
  let body : Sealed := { key, hdr, plain, intact := true }
  (lens.zipIdx).map (fun x =>
    { cls, head := frameHead (template s) cls x.1 dst, hdr, seg := x.2, segs := lens.length, len := x.1, body, slot,
      due := none })

/-- Bytes of a frame in the buffer: header, QRP header, segment, FCS (R129). -/
def EgFrame.bytes (f : EgFrame) : Nat := 66 + 32 + f.len + 4

def frameBytes (l : List EgFrame) : Nat := (l.map EgFrame.bytes).foldl (· + ·) 0

/-- R147: bytes of the egress buffer. -/
def bufCap (c : Parts) : Nat := if c.lite then 12288 else 49152

/-! ### The shaper's calendar (R142, R144) -/

/-- R142: the counted length of a frame. -/
def counted (s : State) (f : EgFrame) : Nat := f.bytes + s.rd Pg.shp SHP_OVH

/-- The present 250 ns slot of the Longcase (R143). -/
def slotNow (s : State) : Nat := s.now .tally / 250

/-- R144: the slots a frame must wait for its class tokens; none where its class has no rate. -/
def calendarWait (counted tokens rate : Nat) : Option Nat :=
  if rate = 0 then none else some (min 4095 ((counted * 1024 - tokens + rate - 1) / rate))

def clsTokens (s : State) (c : Nat) : Nat := s.tally.clsTok.getD c 0

/-- The frame is the first of its class in a list. -/
def isHead (l : List EgFrame) (i : Nat) : Bool :=
  match l[i]? with
  | some f => !((l.take i).any (fun g => g.cls == f.cls))
  | none => false

/-- R144: every head frame without enough tokens is placed in the calendar, and placed anew when its slot comes and the
tokens still fall short. -/
def placeHeads (s : State) : State :=
  let q := s.tally.egress
  let upd (x : EgFrame × Nat) : EgFrame :=
    let f := x.1
    if isHead q x.2 then
      let tok := clsTokens s f.cls
      if counted s f * 1024 ≤ tok then f
      else
        match f.due with
        | some d => if d > slotNow s then f
                    else { f with due := (calendarWait (counted s f) tok (s.rd Pg.shp SHP_CLS_RATE f.cls)).map (· + slotNow s) }
        | none => { f with due := (calendarWait (counted s f) tok (s.rd Pg.shp SHP_CLS_RATE f.cls)).map (· + slotNow s) }
    else f
  { s with tally := { s.tally with egress := q.zipIdx.map upd } }

/-- R147: frames enter the egress buffer whole, or are dropped whole and counted; `true` where they entered. -/
def enqueue (s : State) (fs : List EgFrame) : State × Bool :=
  if frameBytes s.tally.egress + frameBytes fs ≤ bufCap s.cfg then
    let s := { s with tally := { s.tally with egress := s.tally.egress ++ fs } }
    (placeHeads (s.wr Pg.shp SHP_BUF (frameBytes s.tally.egress)), true)
  else (raise (s.bump Pg.shp SHP_STAT_DROP) Pg.shp Irq.SHP_DROP, false)

/-! ### Sealing a record (R134, R103, R147) -/

/-- R130: the QRP header of a record. -/
def recordHdr (s : State) (r : WinRec) : QrpHdr :=
  { ver := 1, kind := Kind.RECORD, flags := b2n r.snapshot, job := r.job, unit := s.rd Pg.tly TLY_UNIT_UNIT, k := r.k,
    epoch := r.epoch, window := if r.snapshot then 2 ^ 55 + r.win else r.win, tgen := r.tgen, tq := r.tq, rev := 0,
    sealedLen := 0 }

/-- R55, R135: a slot the roster change has emptied discards its previous key once the last record of the old epoch is
sealed. -/
def dropEmptied (s : State) (i epoch : Nat) : State :=
  let k := getKeys s i
  if slotLive s i then s
  else match k.prev with
    | some p => if p.epoch = epoch ∧ !(s.tally.recs.any (fun r => r.slot == i && r.epoch == epoch)) then
        setKeys s i { k with prev := none } else s
    | none => s

/-- Seal one closed window's record and place its frames, or drop and count it; a key erased meanwhile counts as R136 lays
down. -/
def sealRecord (s : State) (r : WinRec) : State :=
  match keyFor s r.slot r.epoch with
  | none =>
    let w := getSlot s r.slot
    raise (syn (setSlot s r.slot { w with recDrops := w.recDrops + 1 }) Pg.sealP Syn.STATE) Pg.sealP Irq.SEAL_KEY_MISSING
      { job := r.job, unit := s.rd Pg.tly TLY_UNIT_UNIT, win := r.win }
  | some key =>
    let w := getSlot s r.slot
    let plain := recordPlain s.cfg.lite (s.rd Pg.sealP SEAL_CFG_PACK == 1) r w.recDrops
    let s := s.bump Pg.hot HOT_STAT_SAT 0 (r.hot.filter (fun d => decide (d > 0xFFFFFFFF))).length
    let s := (s.incr Pg.sealP SEAL_RECORDS).incr Pg.tBur BUR_AOC 17
    let x := enqueue s (mkFrames s (s.rd Pg.sealP SEAL_CFG_TC_REC) (recordHdr s r) key.val plain r.dst (some r.slot))
    let s := setSlot x.1 r.slot { w with recDrops := if x.2 then 0 else w.recDrops + 1 }
    dropEmptied s r.slot r.epoch

/-- R94, R95, R134: once fclk runs, every waiting record is built, packed, sealed and segmented. -/
def execRecordSeal (s : State) : Host.Outcome State Fault Refusal :=
  if s.tally.fclkAck then
    let rs := s.tally.recs
    .next (rs.foldl sealRecord { s with tally := { s.tally with recs := [] } })
  else .next s

/-! ### Keys (R135) -/

/-- R135: an appointment changed SEAL_EPOCHs: the current key becomes the previous one, of the windows that end at the
application; the installed key of the new epoch becomes current. -/
def epochChanged (s : State) (i new : Nat) : State :=
  let k := getKeys s i
  let cur := match k.next with
    | some n => if n.epoch = new then some n else none
    | none => none
  let next := match k.next with
    | some n => if n.epoch = new then none else some n
    | none => none
  setKeys s i { k with cur, next, prev := k.cur, prevK := slotK s i, prevEnd := s.now .tally }

/-- R135: four windows of the slot's length plus 1,100 µs after the closing boundary of the last window of the old epoch. -/
def prevKeyEnd (k : SlotKeys) : Nat := k.prevEnd + 4 * (125000 * 2 ^ k.prevK) + 1100000

def execPrevKeyDiscard (slot : Nat) (s : State) : Host.Outcome State Fault Refusal :=
  let k := getKeys s slot
  if slot < 4 ∧ k.prev.isSome ∧ s.now .tally ≥ prevKeyEnd k then .next (setKeys s slot { k with prev := none })
  else .next s

/-! ### The shaper (R143, R146) -/

/-- R143: the ceiling's refill per slot, 2^-10 byte. -/
def ceilRate (s : State) : Nat := s.rd Pg.shp SHP_PORT_RATE * s.rd Pg.shp SHP_CEIL * 32 / 10

/-- R143: the class tokens after n refills. -/
def refilled (s : State) (c n : Nat) : Nat :=
  min (clsTokens s c + n * s.rd Pg.shp SHP_CLS_RATE c) (s.rd Pg.shp SHP_CLS_BURST c * 1024)

/-- R146: the tokens of a class after an appointment: opened, restricted or unchanged. -/
def shpReset (old new burst tokens : Nat) : Nat :=
  if new > old then burst * 1024 else if new < old then 0 else min tokens (burst * 1024)

/-- R146: the reset of every class bucket against the rates `old`. -/
def shpResetAll (s : State) (old : List Nat) : State :=
  { s with tally := { s.tally with
      clsTok := (List.range 8).map (fun c =>
        shpReset (old.getD c 0) (s.rd Pg.shp SHP_CLS_RATE c) (s.rd Pg.shp SHP_CLS_BURST c) (clsTokens s c)),
      egress := s.tally.egress.map (fun f => { f with due := none }) } }

/-- R146: the effect of an application of the SHP page, the rates before it given: at once while fclk runs, else at the first
refill after fclk_ack. -/
def shpApplied (s : State) (old : List Nat) : State :=
  let s := { s with tally := { s.tally with gateEntry := 0 } }
  if s.tally.fclkAck then placeHeads (shpResetAll s old)
  else { s with tally := { s.tally with shpPend := true } }

/-- R143: a refill of n slots. -/
def refill (s : State) (n : Nat) : State :=
  { s with tally := { s.tally with
      clsTok := (List.range 8).map (fun c => refilled s c n),
      ceilTok := min (s.tally.ceilTok + n * ceilRate s) (s.rd Pg.shp SHP_CEIL_BURST * 1024), refillAt := slotNow s } }

/-- R143, R144, R146: at a 250 ns boundary the buckets are refilled for every slot elapsed; while fclk is gated the buckets are
not kept; after an appointment made meanwhile the reset of R146 takes the place of the credit, with FALLBACK. -/
def execShaperRefill (s : State) : Host.Outcome State Fault Refusal :=
  if s.tally.fclkAck = false ∨ slotNow s ≤ s.tally.refillAt then .next s
  else if s.tally.shpPend then
    let n := slotNow s - s.tally.refillAt
    let s := shpResetAll s s.tally.gatedRates
    let ceil := min (s.tally.ceilTok + n * ceilRate s) (s.rd Pg.shp SHP_CEIL_BURST * 1024)
    let s := { s with tally := { s.tally with shpPend := false, refillAt := slotNow s, ceilTok := ceil } }
    .next (placeHeads (raise (s.bump Pg.shp SHP_STAT_FALLBACK) Pg.shp Irq.SHP_FALLBACK))
  else .next (placeHeads (refill s (slotNow s - s.tally.refillAt)))

/-! ### Gates (R148, R149) -/

/-- The durations of the first n entries of the gate control list. -/
def gclDurs (s : State) (n : Nat) : List Nat := (List.range n).map (fun i => s.rd Pg.shp SHP_GCL_DATA_DUR i)

/-- The entry in force `pos` slots into a cycle; the last entry holds to the cycle's end. -/
def entryAt : List Nat → Nat → Nat → Nat
  | [], _, i => i - 1
  | d :: ds, pos, i => if pos < d then i else entryAt ds (pos - d) (i + 1)

/-- R148: slots of a gate cycle. -/
def cycleSlots (s : State) : Nat := 500 * 2 ^ s.rd Pg.shp SHP_GCL_CFG_CYC

/-- The entry in force at a 250 ns slot of the Longcase. -/
def gateEntryAt (s : State) (slot : Nat) : Nat :=
  entryAt (gclDurs s (s.rd Pg.shp SHP_GCL_CFG_LEN)) (slot % cycleSlots s) 0

/-- R148: the list moves to the entry its position in the cycle gives. -/
def execGateEntryAdvance (s : State) : Host.Outcome State Fault Refusal :=
  .next { s with tally := { s.tally with gateEntry := gateEntryAt s (slotNow s) } }

/-- R149: slots a frame needs on the wire. -/
def txSlots (s : State) (n : Nat) : Nat :=
  let r := s.rd Pg.shp SHP_PORT_RATE * 250
  (n * 8 + r - 1) / r

/-- R148, R149: the class gate is open now (the entry in force) and stays open for the frame's slots. -/
def gateOpen (s : State) (cls n : Nat) : Bool :=
  s.rd Pg.shp SHP_GCL_CFG_LEN == 0 ||
  (bit (s.rd Pg.shp SHP_GCL_DATA_GATES s.tally.gateEntry) cls &&
   (List.range (txSlots s n)).all (fun i =>
     i == 0 || bit (s.rd Pg.shp SHP_GCL_DATA_GATES (gateEntryAt s (slotNow s + i))) cls))

/-- R143, R144, R149: a head frame may start. -/
def mayStart (s : State) (f : EgFrame) : Bool :=
  let n := counted s f
  s.rd Pg.shp SHP_CLS_RATE f.cls != 0 && s.rd Pg.shp SHP_CLS_BURST f.cls != 0 &&
  decide (n * 1024 ≤ clsTokens s f.cls) && (match f.due with | some d => decide (d ≤ slotNow s) | none => true) &&
  s.rd Pg.shp SHP_CEIL != 0 && decide (n * 1024 ≤ s.tally.ceilTok) && gateOpen s f.cls n

/-- The position of the first frame of a class that may start. -/
def startable (s : State) (cls : Nat) : Option Nat :=
  match (s.tally.egress.zipIdx).find? (fun x => x.1.cls == cls) with
  | some x => if mayStart s x.1 then some x.2 else none
  | none => none

/-- R144: the head frame that starts: the highest class first. -/
def nextStart (s : State) : Option Nat := ([7, 6, 5, 4, 3, 2, 1, 0].filterMap (startable s)).head?

/-- R143, R144, R147: a frame starts on the egress stream and both buckets are debited. -/
def execFrameStart (s : State) : Host.Outcome State Fault Refusal :=
  if s.tally.sending.isSome ∨ s.tally.fclkAck = false then .next s
  else match nextStart s with
    | none => .next s
    | some i =>
      match s.tally.egress[i]? with
      | none => .next s
      | some f =>
        let d := counted s f * 1024
        let s := { s with tally := { s.tally with
          egress := s.tally.egress.eraseIdx i, sending := some f,
          clsTok := s.tally.clsTok.set f.cls (clsTokens s f.cls - d), ceilTok := s.tally.ceilTok - d } }
        .next (placeHeads (s.wr Pg.shp SHP_BUF (frameBytes s.tally.egress)))

/-- R95: the last beat is accepted; fclk_req falls when no work remains. -/
def execFrameSent (s : State) : Host.Outcome State Fault Refusal :=
  match s.tally.sending with
  | none => .next s
  | some f =>
    let s := { s with tally := { s.tally with sending := none } }
    .next (lowerFclk ((s.incr Pg.tBur BUR_AOC 18).send (.egress f)))

/-- R145: the ceiling bucket is clipped to a new burst. -/
def clipCeil (s : State) : State :=
  { s with tally := { s.tally with ceilTok := min s.tally.ceilTok (s.rd Pg.shp SHP_CEIL_BURST * 1024) } }

/-! ### Checks at the ARM (R136, R150) -/

/-- R136: an ARM of the SEAL page. -/
def sealArmCheck (s : State) : Nat :=
  if (List.range (slotCount s.cfg)).any (fun i =>
      s.rd Pg.sealP (SEAL_EPOCH i).staged != s.rd Pg.sealP (SEAL_EPOCH i) &&
      s.rd Pg.sealP (SEAL_EPOCH i).staged != 0 &&
      !((getKeys s i).next.any (fun k => k.epoch == s.rd Pg.sealP (SEAL_EPOCH i).staged))) then Syn.STATE
  else if (liveSlots s).any (fun i => !isBoundary (slotK s i) (apptTime s Pg.sealP)) then Syn.RANGE
  else 0

/-- R150: an ARM of the SHP page. -/
def shpArmCheck (s : State) : Nat :=
  let t := apptTime s Pg.shp
  let len' := s.rd Pg.shp SHP_GCL_CFG_LEN.staged
  let cyc' := s.rd Pg.shp SHP_GCL_CFG_CYC.staged
  let durs := (List.range len').map (fun i => s.rd Pg.shp SHP_GCL_DATA_DUR.staged i)
  if (s.rd Pg.shp SHP_GCL_CFG_LEN ≠ 0 ∧ isBoundary (s.rd Pg.shp SHP_GCL_CFG_CYC) t = false) ∨
     (len' ≠ 0 ∧ isBoundary cyc' t = false) ∨ durs.foldl (· + ·) 0 > 500 * 2 ^ cyc' ∨
     (List.range 8).any (fun c => s.rd Pg.shp SHP_CLS_BURST.staged c != 0 && decide (s.rd Pg.shp SHP_CLS_BURST.staged c ≤ 9276))
  then Syn.RANGE else 0

end Sys2Proof.Machine
end

