-- ==== Sys2Proof/Machine/Float.lean ====
section
/-!
DEFINITION. Sys2Proof/Machine/Float.lean: the number formats of the tile, exact values, rounding, conversion and the functions of
one lane (08_tile_arithmetic.md, R200–R217, R223, R224). Every result is an exact value rounded once (R206).
-/
namespace Sys2Proof.Machine

/-! ### Flags (R210) -/

def fINEXACT : Nat := 1
def fUNDERFLOW : Nat := 2
def fOVERFLOW : Nat := 4
def fSATURATION : Nat := 8
def fINVALID : Nat := 16

/-! ### Formats (R200–R204) -/

/-- A floating-point format (R202): mantissa and exponent bits, bias, whether it has infinities and NaNs, the magnitude of the largest finite
value, the canonical NaN (R204), and the shift of an element in its container (R201: FP20). -/
structure FFmt where
  m : Nat
  eb : Nat
  bias : Nat
  inf : Bool
  nan : Bool
  maxEnc : Nat
  cnan : Nat
  sh : Nat
  deriving DecidableEq, Repr

def FP32 : FFmt := ⟨23, 8, 127, true, true, 0x7F7FFFFF, 0x7FC00000, 0⟩
def FP20 : FFmt := ⟨11, 8, 127, true, true, 0x7F7FF, 0x7FC00, 12⟩
def BF16 : FFmt := ⟨7, 8, 127, true, true, 0x7F7F, 0x7FC0, 0⟩
def FP16 : FFmt := ⟨10, 5, 15, true, true, 0x7BFF, 0x7E00, 0⟩
def E4M3 : FFmt := ⟨3, 4, 7, false, true, 0x7E, 0x7F, 0⟩
def E5M2 : FFmt := ⟨2, 5, 15, true, true, 0x7B, 0x7E, 0⟩
def E3M2 : FFmt := ⟨2, 3, 3, false, false, 0x1F, 0, 0⟩
def E2M3 : FFmt := ⟨3, 2, 1, false, false, 0x1F, 0, 0⟩
def E2M1 : FFmt := ⟨1, 2, 1, false, false, 0x7, 0, 0⟩

/-- What a format code names (R200). -/
inductive Fmt
  | float (f : FFmt)
  | int (w : Nat)
  deriving DecidableEq, Repr

/-- R200: the format of a code; none where reserved. -/
def fmtOf : Nat → Option Fmt
  | 0 => some (.float FP32)
  | 1 => some (.float FP20)
  | 2 => some (.float BF16)
  | 3 => some (.float FP16)
  | 4 => some (.float E4M3)
  | 5 => some (.float E5M2)
  | 6 => some (.float E3M2)
  | 7 => some (.float E2M3)
  | 8 => some (.float E2M1)
  | 9 => some (.int 8)
  | 10 => some (.int 4)
  | 11 => some (.int 32)
  | _ => none

/-- R201: bits of one stored element of a format code. -/
def fmtBits : Nat → Nat
  | 0 => 32
  | 1 => 32
  | 2 => 16
  | 3 => 16
  | 4 => 8
  | 5 => 8
  | 6 => 6
  | 7 => 6
  | 8 => 4
  | 9 => 8
  | 10 => 4
  | _ => 32

/-- R215: the formats that may carry MX scales. -/
def mxFmt (c : Nat) : Bool := decide (4 ≤ c) && decide (c ≤ 8)

/-- R208: the targets of stochastic rounding. -/
def srFmt (c : Nat) : Bool := decide (4 ≤ c) && decide (c ≤ 10)

/-- R201, R215: a row of `n` elements of a format code, with or without MX scales, is accepted. -/
def rowOk (c : Nat) (mx : Bool) (n : Nat) : Bool :=
  (!mx || n % 32 == 0) &&
  (if c = 6 ∨ c = 7 then n % 4 == 0 else if c = 8 ∨ c = 10 then n % 2 == 0 else true)

/-- R217: emax of an MX format code. -/
def emaxOf : Nat → Int
  | 4 => 8
  | 5 => 15
  | 6 => 4
  | _ => 2

/-! ### Exact values -/

/-- An exact value: (−1)^neg × m × 2^e, an infinity or a NaN. -/
inductive FVal
  | nan
  | inf (neg : Bool)
  | num (neg : Bool) (m : Nat) (e : Int)
  deriving DecidableEq, Repr

/-- The value of an integer; its zero has no sign. -/
def FVal.ofInt (x : Int) : FVal := .num (decide (x < 0)) x.natAbs 0

def FVal.isZero : FVal → Bool
  | .num _ m _ => m == 0
  | _ => false

def FVal.isNan : FVal → Bool
  | .nan => true
  | _ => false

/-- The sign of a value that is not a NaN. -/
def FVal.neg? : FVal → Bool
  | .nan => false
  | .inf s => s
  | .num s _ _ => s

def FVal.negate : FVal → FVal
  | .nan => .nan
  | .inf s => .inf (!s)
  | .num s m e => .num (!s) m e

def FVal.abs : FVal → FVal
  | .nan => .nan
  | .inf _ => .inf false
  | .num _ m e => .num false m e

/-- Multiply by 2^k, exactly. -/
def FVal.scale (k : Int) : FVal → FVal
  | .num s m e => .num s m (e + k)
  | v => v

/-- R203: the value of an encoding. -/
def FFmt.decode (f : FFmt) (w : Nat) : FVal :=
  let x := w / 2 ^ f.sh
  let s := bit x (f.eb + f.m)
  let e := x / 2 ^ f.m % 2 ^ f.eb
  let mm := x % 2 ^ f.m
  if f.inf ∧ e = 2 ^ f.eb - 1 then (if mm = 0 then .inf s else .nan)
  else if f.nan ∧ !f.inf ∧ x % 2 ^ (f.eb + f.m) = 0x7F then .nan
  else if e = 0 then .num s mm (1 - f.bias - f.m)
  else .num s (2 ^ f.m + mm) ((e : Int) - f.bias - f.m)

/-- R203, R205: the value of an element of a format. -/
def Fmt.decode : Fmt → Nat → FVal
  | .float f, w => f.decode w
  | .int n, w => FVal.ofInt (toSigned n w)

/-! ### Rounding (R206–R208, R213, R214) -/

/-- Rounding of a quotient lo + rem/den (plus a part of the next bit where `sticky`): to nearest even, or by a draw (R208). -/
def roundUp (rnd : Option Nat) (lo rem den : Nat) (sticky : Bool) : Bool :=
  match rnd with
  | none => decide (2 * rem > den) || (decide (2 * rem = den) && (sticky || lo % 2 == 1))
  | some r => decide (rem * 65536 / den > r)

/-- m × 2^e in units of 2^q: quotient, remainder, divisor. -/
def splitAt (m : Nat) (e q : Int) : Nat × Nat × Nat :=
  if q ≤ e then (m * 2 ^ (e - q).toNat, 0, 1)
  else (m / 2 ^ (q - e).toNat, m % 2 ^ (q - e).toNat, 2 ^ (q - e).toNat)

/-- The exponent of the smallest normal. -/
def FFmt.emin (f : FFmt) : Int := 1 - f.bias

/-- R206–R208: the magnitude (m, plus a nonzero part below its last bit where `sticky`) × 2^e rounded to a float format: the encoding of the
magnitude, not yet limited, and the flags of rounding. -/
def FFmt.roundMag (f : FFmt) (rnd : Option Nat) (m : Nat) (e : Int) (sticky : Bool) : Nat × Nat :=
  if m = 0 then (0, if sticky then fINEXACT + fUNDERFLOW else 0)
  else
    let top : Int := Nat.log2 m + e
    let q := max top f.emin - f.m
    let (lo, rem, den) := splitAt m e q
    let sig := lo + b2n (roundUp rnd lo rem den sticky)
    let enc := (q - (f.emin - f.m)).toNat * 2 ^ f.m + sig
    let inexact := rem ≠ 0 ∨ sticky
    let tiny : Bool :=
      if top ≥ f.emin then false
      else match rnd with
        | some _ => decide (enc < 2 ^ f.m)
        | none =>
          let (lo, rem, den) := splitAt m e (top - f.m)
          decide (top < f.emin - 1) || decide (lo + b2n (roundUp none lo rem den sticky) < 2 ^ (f.m + 1))
    (enc, if inexact then fINEXACT + (if tiny then fUNDERFLOW else 0) else 0)

/-- A sign and a magnitude encoding as a stored element. -/
def FFmt.pack (f : FFmt) (neg : Bool) (enc : Nat) : Nat := (b2n neg * 2 ^ (f.eb + f.m) + enc) * 2 ^ f.sh

/-- The magnitude encoding of infinity. -/
def FFmt.infEnc (f : FFmt) : Nat := (2 ^ f.eb - 1) * 2 ^ f.m

/-- R206, R207, R213: a value converted to a float format: element and flags. -/
def FFmt.convert (f : FFmt) (rnd : Option Nat) (v : FVal) (sticky : Bool) : Nat × Nat :=
  match v with
  | .nan => if f.nan then (f.cnan * 2 ^ f.sh, 0) else (0, fINVALID)
  | .inf s => if f.inf then (f.pack s f.infEnc, 0) else (f.pack s f.maxEnc, fSATURATION)
  | .num s m e =>
    let (enc, fl) := f.roundMag rnd m e sticky
    if enc > f.maxEnc then
      (if f.inf then (f.pack s f.infEnc, fOVERFLOW + fINEXACT) else (f.pack s f.maxEnc, fSATURATION + fINEXACT))
    else (f.pack s enc, fl)

/-- R207, R213, R214: a value rounded to an integer of `w` bits and clamped: the integer and the flags. -/
def roundInt (w : Nat) (rnd : Option Nat) (v : FVal) (sticky : Bool) : Int × Nat :=
  let hi : Int := 2 ^ (w - 1) - 1
  let lo : Int := -2 ^ (w - 1)
  match v with
  | .nan => (0, fINVALID)
  | .inf s => (if s then lo else hi, fSATURATION)
  | .num s m e =>
    let (q, rem, den) := splitAt m e 0
    let a : Int := (q + b2n (roundUp rnd q rem den sticky) : Nat)
    let x := if s then -a else a
    if x > hi then (hi, fSATURATION + fINEXACT) else if x < lo then (lo, fSATURATION + fINEXACT)
    else (x, if rem ≠ 0 ∨ sticky then fINEXACT else 0)

/-- R212–R214: a value converted to a format: element and flags. -/
def Fmt.convert (f : Fmt) (rnd : Option Nat) (v : FVal) (sticky : Bool := false) : Nat × Nat :=
  match f with
  | .float f => f.convert rnd v sticky
  | .int w => let (x, fl) := roundInt w rnd v sticky; (ofSigned w x, fl)

/-! ### Stochastic draws (R209) -/

/-- One step of a generator. -/
def srStep (x : Nat) : Nat :=
  let x := x ^^^ (x * 2 ^ 13 % 2 ^ 32)
  let x := x ^^^ (x / 2 ^ 17)
  x ^^^ (x * 2 ^ 5 % 2 ^ 32)

def srIter : Nat → Nat → Nat
  | 0, x => x
  | n + 1, x => srIter n (srStep x)

/-- The start of a lane's generator. -/
def srInit (seed lane : Nat) : Nat :=
  let s := seed ^^^ (0x9E3779B9 * (lane + 1) % 2 ^ 32)
  if s = 0 then 0x6D2B79F5 else s

/-- The draw of element i. -/
def srDraw (seed i : Nat) : Nat := srIter (i / 64 + 1) (srInit seed (i % 64)) / 2 ^ 16

/-! ### Exact functions (R223, R224) -/

/-- A result before rounding: the value, a nonzero part below the last bit of m, the flags of R224. -/
structure Ex where
  v : FVal
  sticky : Bool
  fl : Nat
  deriving DecidableEq, Repr

def Ex.exact (v : FVal) : Ex := ⟨v, false, 0⟩
def Ex.invalid : Ex := ⟨.nan, false, fINVALID⟩

/-- A result rounded to a lane or output format. -/
def Ex.round (f : FFmt) (x : Ex) : Nat × Nat :=
  let (b, fl) := f.convert none x.v x.sticky
  (b, fl ||| x.fl)

/-- Signed significand at exponent `q` at or below e. -/
def sigAt (s : Bool) (m : Nat) (e q : Int) : Int :=
  let x : Int := (m * 2 ^ (e - q).toNat : Nat)
  if s then -x else x

/-- a + b, exactly: an exact zero is +0 unless both are −0. -/
def FVal.add (a b : FVal) : Ex :=
  match a, b with
  | .nan, _ => Ex.exact .nan
  | _, .nan => Ex.exact .nan
  | .inf s, .inf t => if s = t then Ex.exact (.inf s) else Ex.invalid
  | .inf s, _ => Ex.exact (.inf s)
  | _, .inf t => Ex.exact (.inf t)
  | .num s m e, .num t n f =>
    let q := min e f
    let x := sigAt s m e q + sigAt t n f q
    Ex.exact (if x = 0 then .num (s && t) 0 q else .num (decide (x < 0)) x.natAbs q)

/-- a × b, exactly. -/
def FVal.mul (a b : FVal) : Ex :=
  match a, b with
  | .nan, _ => Ex.exact .nan
  | _, .nan => Ex.exact .nan
  | .inf s, .inf t => Ex.exact (.inf (s != t))
  | .inf s, .num t n _ => if n = 0 then Ex.invalid else Ex.exact (.inf (s != t))
  | .num s m _, .inf t => if m = 0 then Ex.invalid else Ex.exact (.inf (s != t))
  | .num s m e, .num t n f => Ex.exact (.num (s != t) (m * n) (e + f))

/-- a × b + c: the flags of the product and of the sum; a NaN operand raises none. -/
def FVal.fma (a b c : FVal) : Ex :=
  if a.isNan || b.isNan || c.isNan then Ex.exact .nan
  else
    let p := a.mul b
    let r := p.v.add c
    ⟨r.v, false, p.fl ||| r.fl⟩

/-- a / b. -/
def FVal.div (a b : FVal) : Ex :=
  match a, b with
  | .nan, _ => Ex.exact .nan
  | _, .nan => Ex.exact .nan
  | .inf _, .inf _ => Ex.invalid
  | .inf s, .num t _ _ => Ex.exact (.inf (s != t))
  | .num s _ _, .inf t => Ex.exact (.num (s != t) 0 0)
  | .num s m e, .num t n f =>
    if n = 0 then (if m = 0 then Ex.invalid else ⟨.inf (s != t), false, fOVERFLOW⟩)
    else
      let k := Nat.log2 n + 64
      ⟨.num (s != t) (m * 2 ^ k / n) (e - f - k), decide (m * 2 ^ k % n ≠ 0), 0⟩

/-- 1 / a. -/
def FVal.rcp (a : FVal) : Ex := FVal.div (.num false 1 0) a

/-- The digits of a square root from bit k − 1 down. -/
def isqrtFrom (n : Nat) : Nat → Nat → Nat
  | 0, r => r
  | k + 1, r => if (r + 2 ^ k) * (r + 2 ^ k) ≤ n then isqrtFrom n k (r + 2 ^ k) else isqrtFrom n k r

/-- The integer square root. -/
def isqrt (n : Nat) : Nat := isqrtFrom n (Nat.log2 n / 2 + 1) 0

/-- √a. -/
def FVal.sqrt (a : FVal) : Ex :=
  match a with
  | .nan => Ex.exact .nan
  | .inf s => if s then Ex.invalid else Ex.exact (.inf false)
  | .num s m e =>
    if m = 0 then Ex.exact a
    else if s then Ex.invalid
    else
      let k : Nat := if e % 2 = 0 then 80 else 81
      let n := m * 2 ^ k
      ⟨.num false (isqrt n) ((e - k) / 2), decide (isqrt n * isqrt n ≠ n), 0⟩

/-- 1 / √a. -/
def FVal.rsqrt (a : FVal) : Ex :=
  match a with
  | .nan => Ex.exact .nan
  | .inf s => if s then Ex.invalid else Ex.exact (.num false 0 0)
  | .num s m e =>
    if m = 0 then ⟨.inf s, false, fOVERFLOW⟩
    else if s then Ex.invalid
    else
      let (m, e) := if e % 2 = 0 then (m, e) else (2 * m, e - 1)
      let k := Nat.log2 m + 64
      let r := isqrt (2 ^ (2 * k) / m)
      ⟨.num false r (-(k : Int) - e / 2), decide (r * r * m ≠ 2 ^ (2 * k)), 0⟩

/-- Bits of the fixed-point numbers EXP2 and LOG2 work with: fraction digits and working precision. -/
def expDigits : Nat := 160
def expPrec : Nat := 192
def logDigits : Nat := 200
def logPrec : Nat := 512

/-- The product of the 2^(2^-i) over the set fraction digits of f, most significant first; c is the last root taken. -/
def exp2Frac (f : Nat) : Nat → Nat → Nat → Nat
  | 0, _, y => y
  | n + 1, c, y =>
    let c := isqrt (c * 2 ^ expPrec)
    exp2Frac f n c (if bit f n then y * c / 2 ^ expPrec else y)

/-- 2^a (R223: the exact function value, rounded once; the working precision is far beyond what rounding to FP32 needs, log entry 14). -/
def FVal.exp2 (a : FVal) : Ex :=
  match a with
  | .nan => Ex.exact .nan
  | .inf s => if s then Ex.exact (.num false 0 0) else Ex.exact (.inf false)
  | .num s m e =>
    if m = 0 then Ex.exact (.num false 1 0)
    else if (Nat.log2 m : Int) + e ≥ 10 then ⟨.num false 1 (if s then -4096 else 4096), true, 0⟩
    else
      let x := sigAt s m (e + max 0 (-e)) 0
      let d : Int := (2 ^ (max 0 (-e)).toNat : Nat)
      let t := (x * (2 ^ expDigits : Nat)).fdiv d
      let n := t.fdiv (2 ^ expDigits : Nat)
      let f := (t - n * (2 ^ expDigits : Nat)).toNat
      if x.fmod d = 0 then Ex.exact (.num false 1 (x.fdiv d))
      else ⟨.num false (exp2Frac f expDigits (2 * 2 ^ expPrec) (2 ^ expPrec)) (n - expPrec), true, 0⟩

/-- Binary digits of log2 of y / 2^logPrec, y in [2^logPrec, 2^(logPrec+1)). -/
def log2Frac : Nat → Nat → Nat → Nat
  | 0, _, acc => acc
  | n + 1, y, acc =>
    let y := y * y / 2 ^ logPrec
    if y ≥ 2 ^ (logPrec + 1) then log2Frac n (y / 2) (2 * acc + 1) else log2Frac n y (2 * acc)

/-- log2 a (as `exp2`). -/
def FVal.log2 (a : FVal) : Ex :=
  match a with
  | .nan => Ex.exact .nan
  | .inf s => if s then Ex.invalid else Ex.exact (.inf false)
  | .num s m e =>
    if m = 0 then ⟨.inf true, false, fOVERFLOW⟩
    else if s then Ex.invalid
    else
      let k := Nat.log2 m
      let n : Int := k + e
      if m = 2 ^ k then Ex.exact (FVal.ofInt n)
      else
        let v := n * (2 ^ logDigits : Nat) + (log2Frac logDigits (m * 2 ^ logPrec / 2 ^ k) 0 : Nat)
        if v ≥ 0 then ⟨.num false v.toNat (-(logDigits : Int)), true, 0⟩
        else ⟨.num true (-v - 1).toNat (-(logDigits : Int)), true, 0⟩

/-- a < b for values that are not NaN; −0 and +0 are equal. -/
def FVal.lt (a b : FVal) : Bool :=
  match a, b with
  | .nan, _ => false
  | _, .nan => false
  | .inf s, .inf t => s && !t
  | .inf s, .num _ _ _ => s
  | .num _ _ _, .inf t => !t
  | .num s m e, .num t n f => decide (sigAt s m e (min e f) < sigAt t n f (min e f))

/-- a = b; false for a NaN. -/
def FVal.eqv (a b : FVal) : Bool := !a.isNan && !b.isNan && !a.lt b && !b.lt a

/-- R224: MIN and MAX of two values: −0 is below +0. -/
def FVal.minmax (mx : Bool) (a b : FVal) : FVal :=
  match a, b with
  | .nan, b => b
  | a, .nan => a
  | a, b =>
    let aLess := a.lt b || (a.eqv b && a.neg? && !b.neg?)
    if aLess != mx then a else b

/-! ### MX blocks (R216, R217) -/

/-- R216: an element under its block's scale byte. -/
def mxRead (c : Nat) (v : FVal) : FVal := if c = 0xFF then .nan else v.scale ((c : Int) - 127)

/-- floor(log2) of the magnitude of a finite nonzero value; none otherwise. -/
def FVal.top : FVal → Option Int
  | .num _ m e => if m = 0 then none else some (Nat.log2 m + e)
  | _ => none

/-- R217: the scale byte of a block. -/
def mxScale (fc : Nat) (block : List FVal) : Nat :=
  if block.any FVal.isNan then 0xFF
  else match (block.filterMap FVal.top) with
    | [] => 127
    | t :: ts => (clamp (-127) 127 (ts.foldl max t - emaxOf fc) + 127).toNat

/-- R217: an element of a block written under scale byte c. -/
def mxWrite (f : Fmt) (c : Nat) (rnd : Option Nat) (v : FVal) (sticky : Bool) : Nat × Nat :=
  if c = 0xFF then (0, 0) else f.convert rnd (v.scale (127 - (c : Int))) sticky

end Sys2Proof.Machine
end

