-- ==== Sys2Proof/Machine/Ports.lean ====
section
/-!
DEFINITION. Sys2Proof/Machine/Ports.lean: the ports of a Hub (R164) by number (F0–F9 0–9, P0–P3 10–13, L0–L1 14–15, MA 16, MB 17), a port out of
service for test (R499), the grid of dies and their UCIe modules (R156, R157, R501).
-/
namespace Sys2Proof.Machine
open Reg

/-- R164: the I/O die of a port. -/
def portDie (port : Nat) : Nat :=
  if port < 4 then 56 + port / 2 else if port < 10 then 54 + port else if port < 16 then 48 + port else 40 + port

/-- R501, R504: the bank index of a selection of TST_SEL. -/
def tstKey (kind index lane : Nat) : Nat := kind * 2 ^ 14 + index * 64 + lane

/-- R504: the selection that names a port: its kind and index on its die. -/
def portKey (port : Nat) : Nat :=
  if port ≥ 16 then tstKey 1 0 0 else tstKey 0 (if port < 4 then port % 2 else if port < 10 then 0 else 1) 0

/-- R499: the port is out of service. -/
def portTest (s : State) (port : Nat) : Bool := s.flag (Pg.tst (portDie port)) TST_MODE_TEST (portKey port)

/-- R499: a frame to or from a port out of service is discarded and counted. -/
def discardFrame (s : State) (port : Nat) : State :=
  { s with hub := { s.hub with testDiscards := s.hub.testDiscards.modify port (· + 1) } }

/-- R469: the Hub is in SAFE: no complex serves and one has failed. -/
def hubSafe (s : State) : Bool :=
  let role (d : Nat) : Nat := s.rd (Pg.cab d) CAB_STATE_ROLE
  (role 56 == 3 || role 57 == 3) && role 56 != 1 && role 57 != 1

/-- A frame leaves on a port; ports F, P and L are disabled in SAFE. -/
def sendOn (s : State) (port : Nat) (o : Out) : State :=
  if hubSafe s ∧ port < 16 then s else if portTest s port then discardFrame s port else s.send o

/-! ### The grid (R156, R157) -/

/-- Column and row of a compute die. -/
def cdPos (d : Nat) : Nat × Nat :=
  if d ≤ 7 then (d, 0) else if d ≤ 12 then (7, d - 7) else if d ≤ 19 then (19 - d, 5) else if d ≤ 23 then (0, 24 - d)
  else (1 + (d - 24) % 6, 1 + (d - 24) / 6)

/-- The compute die at a column and row. -/
def cdAt (x y : Nat) : Nat :=
  if y = 0 then x else if x = 7 then 7 + y else if y = 5 then 19 - x else if x = 0 then 24 - y else 24 + 6 * (y - 1) + (x - 1)

/-- The compute dies an edge die links to, in the order of R157. -/
def edgeLinks (d : Nat) : List Nat :=
  match d with
  | 48 => [0, 1] | 49 => [2, 3] | 50 => [4, 5] | 51 => [6, 7]
  | 52 => [19, 18] | 53 => [17, 16] | 54 => [15, 14] | 55 => [13, 12]
  | 56 => [0, 23] | 57 => [22] | 58 => [21] | 59 => [20, 19]
  | 60 => [7, 8] | 61 => [9] | 62 => [10] | 63 => [11, 12]
  | _ => []

/-- The edge die of a kind (memory-side or I/O) a compute die links to. -/
def edgeOf (cd : Nat) (io : Bool) : Option Nat :=
  ((List.range 8).map (· + (if io then 56 else 48))).find? (fun d => (edgeLinks d).contains cd)

/-- R157: the die across module m of a compute die (0 north, 1 east, 2 south, 3 west). -/
def cdNeighbour (c : Parts) (d m : Nat) : Option Nat :=
  let p := cdPos d
  let inner (n : Nat) : Option Nat := if n ≥ 24 ∧ c.qh40 then none else some n
  match m with
  | 0 => if p.2 = 0 then edgeOf d false else inner (cdAt p.1 (p.2 - 1))
  | 1 => if p.1 = 7 then edgeOf d true else inner (cdAt (p.1 + 1) p.2)
  | 2 => if p.2 = 5 then edgeOf d false else inner (cdAt p.1 (p.2 + 1))
  | 3 => if p.1 = 0 then edgeOf d true else inner (cdAt (p.1 - 1) p.2)
  | _ => none

/-- The die across a UCIe module; none where the die holds no such module. -/
def across (c : Parts) (d m : Nat) : Option Nat :=
  if ¬ diePresent c d then none else if isCD d then cdNeighbour c d m else (edgeLinks d)[m]?

/-- The two ends of the link at a module: (die, module) and the partner's. -/
def linkEnds (c : Parts) (d m : Nat) : List (Nat × Nat) :=
  match across c d m with
  | none => []
  | some e => (d, m) :: (((List.range 4).find? (fun n => across c e n == some d)).map (fun n => (e, n))).toList

/-- R501: TST_LINK.WIDTH of a module. -/
def linkWidth (s : State) (d m : Nat) : Nat := s.rd (Pg.tst d) TST_LINK_WIDTH (tstKey 2 m 0)

end Sys2Proof.Machine
end

