-- ==== Sys2Proof/Machine/Jobs.lean ====
section
/-!
DEFINITION. Sys2Proof/Machine/Jobs.lean: the jobs a Cabinet holds (R479), what waits for their next verdicts (R351), their partition
faults (R355, R356).
-/
namespace Sys2Proof.Machine
open Reg

def hjob (s : State) (job : Nat) : Option HJob := s.hub.jobs.find? (fun j => j.job == job)
def hjobAt (s : State) (slot : Nat) : Option HJob := s.hub.jobs.find? (fun j => j.slot == slot)

/-- Change the record of a job. -/
def modJob (s : State) (job : Nat) (f : HJob → HJob) : State :=
  { s with hub := { s.hub with jobs := s.hub.jobs.map (fun j => if j.job = job then f j else j) } }

/-- UNIT of a job-wide entry (R318). -/
def jobWide : Nat := 0x00FFFFFF

/-- An entry for the verdict of the first window that closes at or after an instant. -/
def addPend (s : State) (job after : Nat) (e : VEntry) : State := modJob s job (fun j => { j with pend := j.pend ++ [(after, e)] })

namespace HubFault
/-! Codes of HUB_FAULT (R351). -/
def LANE : Nat := 1
def POISON : Nat := 2
def CHECK : Nat := 3
def SELFTEST : Nat := 4
def REPLACED : Nat := 5
def MOVED : Nat := 6
def RESET : Nat := 7
end HubFault

/-- R351: a HUB_FAULT entry; `tile` is none, or the global index of a tile of this Hub. -/
def hubFault (s : State) (job code : Nat) (tile : Option Nat) (win : Nat) : State :=
  let hub := s.rd (Pg.cab 56) CAB_STATE_HUB_INDEX
  addPend s job 0 { type := 0x17, code, flags := 0, unit := jobWide, a := hub * 2 ^ 48 + tile.getD 0x7FF * 2 ^ 32, b := win }

/-- R356: a partition fault of a job: it waits for a recovery engine. -/
def partitionFault (s : State) (job : Nat) : State :=
  modJob s job (fun j =>
    { j with faults := j.faults + 1, firstFault := if j.faults = 0 then s.now .hub else j.firstFault, faultWaits := true })

/-- R355: poison costs a job the verdict of a window and its partition. -/
def jobPoison (s : State) (job win : Nat) (tile : Option Nat) : State :=
  partitionFault (hubFault (modJob s job (fun j => { j with missing := win :: j.missing })) job HubFault.POISON tile win) job

/-- R189: lanes that differ and stay so: HUB_FAULT LANE, and the job's partition. -/
def jobLane (s : State) (job win : Nat) : State := partitionFault (hubFault s job HubFault.LANE none win) job

/-- A partition fault of the job a tile serves. -/
def tileJobFault (s : State) (t : Nat) : State :=
  match s.flag (Pg.til t) TIL_JOB_VALID, hjobAt s (s.rd (Pg.til t) TIL_JOB_SLOT) with
  | true, some j => partitionFault s j.job
  | _, _ => s

/-- R355: a descriptor of a job's tile set completes POISON. -/
def tilePoison (s : State) (t win : Nat) : State :=
  match s.flag (Pg.til t) TIL_JOB_VALID, hjobAt s (s.rd (Pg.til t) TIL_JOB_SLOT) with
  | true, some j => jobPoison s j.job win (some t)
  | _, _ => s

/-- A FIRMWARE entry (R435, R436) posted by the Cabinet, on the page of the active complex. -/
def cabEntry (s : State) (detail sev : Nat) (e : EvInfo) : State :=
  post s (absentPage s .hub) (0x3000 + detail) sev true false e.bytes

end Sys2Proof.Machine
end

