-- ==== Sys2Proof/Machine/Memory.lean ====
section
/-!
DEFINITION. Sys2Proof/Machine/Memory.lean: the addressed memories (HBM, tile SRAM) as a list of (address, byte) in canonical
form: addresses strictly rising, no entry 0. An unlisted address reads 0 (log entry 6).
-/
namespace Sys2Proof.Machine
open Reg

/-- One byte of a memory; what an unlisted address reads as is 0. -/
def memRead : List Host.Cell → Nat → Byte
  | [], _ => 0
  | (a, b) :: t, x => if a = x then b else memRead t x

/-- Remove an address. -/
def memErase : List Host.Cell → Nat → List Host.Cell
  | [], _ => []
  | (a, b) :: t, x => if a = x then t else (a, b) :: memErase t x

/-- Insert a cell at its place. -/
def memInsert : List Host.Cell → Nat → Byte → List Host.Cell
  | [], x, v => [(x, v)]
  | (a, b) :: t, x, v => if x < a then (x, v) :: (a, b) :: t else if a = x then (x, v) :: t else (a, b) :: memInsert t x v

/-- Write one byte: writing 0 removes the entry. -/
def memWrite (m : List Host.Cell) (x : Nat) (v : Byte) : List Host.Cell :=
  if v = 0 then memErase m x else memInsert m x v

/-- The canonical form: every address is at or above `lo`, addresses strictly rise, no entry is 0. -/
def memWfFrom : Nat → List Host.Cell → Bool
  | _, [] => true
  | lo, (a, b) :: t => decide (lo ≤ a) && b != 0 && memWfFrom (a + 1) t

/-- The canonical form of a memory. -/
abbrev Memory.wf (m : List Host.Cell) : Bool := memWfFrom 0 m

/-- Read `n` bytes from an address, ascending. -/
def memReadN (m : List Host.Cell) (a : Nat) : Nat → List Nat
  | 0 => []
  | n + 1 => (memRead m a).toNat :: memReadN m (a + 1) n

/-- Write bytes from an address, ascending. -/
def memWriteN (m : List Host.Cell) (a : Nat) : List Nat → List Host.Cell
  | [] => m
  | b :: bs => memWriteN (memWrite m a (BitVec.ofNat 8 b)) (a + 1) bs

/-- Insert a number into an ascending list without repeats. -/
def setInsert (x : Nat) : List Nat → List Nat
  | [] => [x]
  | a :: t => if x < a then x :: a :: t else if x = a then a :: t else a :: setInsert x t

/-- R285: a write of whole granules clears their poison, a partial write leaves it. -/
def clearGranules (p : List Nat) (size a n : Nat) : List Nat :=
  p.filter (fun g => !(a ≤ g * size && (g + 1) * size ≤ a + n))

/-- Write bytes, each with its poison, to a memory whose poison is kept in granules of `g` bytes: a granule takes poison with a poisoned
byte and loses it when it is written whole and clean (R239, R285). -/
def writePoisoned (mem : List Host.Cell) (poison : List Nat) (g a : Nat) (bs : List (Nat × Bool)) : List Host.Cell × List Nat :=
  let bad := (bs.zipIdx.filter (fun x => x.1.2)).map (fun x => (a + x.2) / g)
  (memWriteN mem a (bs.map (·.1)), bad.foldl (fun p n => setInsert n p) (clearGranules poison g a bs.length))

/-- The bytes of a range with their poison. -/
def readPoisoned (mem : List Host.Cell) (poison : List Nat) (g a n : Nat) : List (Nat × Bool) :=
  (List.range n).map (fun i => ((memRead mem (a + i)).toNat, poison.contains ((a + i) / g)))

/-- R282: the memory-side die of a byte address. -/
def mdOf (c : Parts) (a : Nat) : Nat := 48 + a / mdSize c

/-- The granules a range touches. -/
def touches (a n g : Nat) : Bool := decide (g * 32 < a + n) && decide (a < g * 32 + 32)

/-- R305: the error MEM_INJ_CTRL arms goes into the granule of MEM_INJ_ADDR at its next write. -/
def inject (s : State) (a n : Nat) : State :=
  let pg := Pg.mem (mdOf s.cfg a)
  let kind := s.rd pg MEM_INJ_CTRL
  let g := (s.rd pg MEM_INJ_ADDR_HI * 2 ^ 32 + s.rd pg MEM_INJ_ADDR_LO) / 32
  if (kind = 1 ∨ kind = 2) ∧ touches a n g then
    let s := s.wr pg MEM_INJ_CTRL 0
    if kind = 1 then { s with hub := { s.hub with hbmCorr := setInsert g s.hub.hbmCorr } }
    else { s with hub := { s.hub with hbmUnc := setInsert g s.hub.hbmUnc } }
  else s

/-- R285: an access finds the granules of a range in error: a correctable one is corrected and counted, an uncorrectable one is poisoned. -/
def findErrors (s : State) (a n : Nat) : State :=
  let corr := s.hub.hbmCorr.filter (touches a n)
  let unc := s.hub.hbmUnc.filter (touches a n)
  let s := corr.foldl (fun s g =>
    let d := mdOf s.cfg (g * 32)
    (s.bump (Pg.mem d) MEM_ECC_CORR).incr (Pg.hBur d) BUR_AOC 9) s
  let s := unc.foldl (fun s g =>
    let d := mdOf s.cfg (g * 32)
    let s := { s with hub := { s.hub with hbmPoison := setInsert g s.hub.hbmPoison } }
    let s := ((s.bump (Pg.mem d) MEM_ECC_UNCORR).wr (Pg.mem d) MEM_ERR_ADDR (g * 32)).incr (Pg.hBur d) BUR_AOC 10
    raise s (Pg.mem d) Irq.MEM_UNCORR { detail := g * 32 }) s
  { s with hub := { s.hub with hbmCorr := s.hub.hbmCorr.filter (fun g => !touches a n g),
                               hbmUnc := s.hub.hbmUnc.filter (fun g => !touches a n g) } }

/-- Write bytes to HBM: a granule written in part is read first (its errors are found); one written whole loses them. -/
def hbmWriteP (s : State) (a : Nat) (bs : List (Nat × Bool)) : State :=
  let n := bs.length
  let whole (g : Nat) : Bool := decide (a ≤ g * 32) && decide (g * 32 + 32 ≤ a + n)
  let s := { s with hub := { s.hub with hbmCorr := s.hub.hbmCorr.filter (fun g => !whole g),
                                        hbmUnc := s.hub.hbmUnc.filter (fun g => !whole g) } }
  let s := findErrors s a n
  let r := writePoisoned s.hub.hbm s.hub.hbmPoison 32 a bs
  inject { s with hub := { s.hub with hbm := r.1, hbmPoison := r.2 } } a n

def hbmWrite (s : State) (a : Nat) (bs : List Nat) : State := hbmWriteP s a (bs.map (fun b => (b, false)))

/-- What a range of HBM holds. -/
def hbmRead (s : State) (a n : Nat) : List Nat := memReadN s.hub.hbm a n
def hbmReadP (s : State) (a n : Nat) : List (Nat × Bool) := readPoisoned s.hub.hbm s.hub.hbmPoison 32 a n

/-- R285: a granule of the range is poisoned. -/
def hbmPoisoned (s : State) (a n : Nat) : Bool := s.hub.hbmPoison.any (touches a n)

/-- Read a range of HBM: errors are found, then the bytes are as they are. -/
def hbmFetch (s : State) (a n : Nat) : State × List (Nat × Bool) :=
  let s := findErrors s a n
  (s, hbmReadP s a n)

/-- R282: the first byte beyond the HBM of the Hub. -/
def hbmEnd (c : Parts) : Nat := 8 * mdSize c

/-- R283: the regions of a memory-side die's range: offset and size of T0, T1, Reach, Chest, model and work. -/
inductive HbmRegion | t0 | t1 | reach | chest | work
  deriving DecidableEq, Repr

def HbmRegion.span (c : Parts) : HbmRegion → Nat × Nat
  | .t0 => (0, if c.qh40 then 0x800000000 else 0x1000000000)
  | .t1 => if c.qh40 then (0x800000000, 0x280000000) else (0x1000000000, 0x500000000)
  | .reach => (if c.qh40 then 0xA80000000 else 0x1500000000, 0x40000000)
  | .chest => if c.qh40 then (0xAC0000000, 0x80000000) else (0x1540000000, 0x100000000)
  | .work => if c.qh40 then (0xB40000000, 0xC0000000) else (0x1640000000, 0x1C0000000)

/-- A range of HBM lies inside one memory-side die's region of a kind. -/
def inRegion (c : Parts) (r : HbmRegion) (a n : Nat) : Bool :=
  let m := a / mdSize c
  let o := a % mdSize c
  decide (m < 8) && decide ((r.span c).1 ≤ o) && decide (o + n ≤ (r.span c).1 + (r.span c).2)

/-- A range lies inside the HBM. -/
def inHbm (c : Parts) (a n : Nat) : Bool := decide (a + n ≤ hbmEnd c)

end Sys2Proof.Machine
end

