-- ==== Sys2Proof/Machine/Tile.lean ====
section
/-!
DEFINITION. Sys2Proof/Machine/Tile.lean: one tile: its SRAM, its queues and the completion of descriptors, its power states
and wake schedule, its sequencer (06_hub_package.md R155, R162, R163; 09_tile_execution.md R228–R233, R237–R239, R249–R254, R257, R258).
-/
namespace Sys2Proof.Machine
open Reg

/-- R155: the tiles of the population. -/
def tileCount (c : Parts) : Nat := if c.qh40 then 768 else 1536

def getTile (s : State) (t : Nat) : Tile := ((s.hub.tiles.find? (fun x => x.1 == t)).map (·.2)).getD Tile.reset

/-- Replace a tile's record. -/
def putTile : List (Nat × Tile) → Nat → Tile → List (Nat × Tile)
  | [], t, x => [(t, x)]
  | (u, y) :: l, t, x => if u = t then (t, x) :: l else (u, y) :: putTile l t x

def setTile (s : State) (t : Nat) (x : Tile) : State := { s with hub := { s.hub with tiles := putTile s.hub.tiles t x } }

/-! ### SRAM (R239) -/

def sramSize : Nat := 0x400000

def Tile.write (x : Tile) (a : Nat) (bs : List (Nat × Bool)) : Tile :=
  let r := writePoisoned x.sram x.poison 8 a bs
  { x with sram := r.1, poison := r.2 }

def Tile.read (x : Tile) (a n : Nat) : List (Nat × Bool) := readPoisoned x.sram x.poison 8 a n

/-- A word of the range is poisoned. -/
def Tile.poisoned (x : Tile) (a n : Nat) : Bool := x.poison.any (fun w => decide (w * 8 < a + n) && decide (a < w * 8 + 8))

/-! ### Power states (R162) -/

namespace PS
/-! TIL_STAT.PSTATE (R257). -/
def ACTIVE : Nat := 0
def GATED : Nat := 1
def PARKED : Nat := 2
def ENTERING : Nat := 3
def WAKING : Nat := 4
def RETIRED : Nat := 5
end PS

namespace Seq
/-! TIL_STAT.SEQ (R228). -/
def HALTED : Nat := 0
def RUNNING : Nat := 1
def ASLEEP : Nat := 2
def FAULT : Nat := 3
end Seq

def pstate (s : State) (t : Nat) : Nat := s.rd (Pg.til t) TIL_STAT_PSTATE
def seqState (s : State) (t : Nat) : Nat := s.rd (Pg.til t) TIL_STAT_SEQ

/-- The tile is in the population and runs: ACTIVE and not frozen. -/
def tileRuns (s : State) (t : Nat) : Bool :=
  decide (t < tileCount s.cfg) && pstate s t == PS.ACTIVE && !isFrozen s (Pg.til t)

/-- The sequencer executes (R228). -/
def seqRuns (s : State) (t : Nat) : Bool := tileRuns s t && seqState s t == Seq.RUNNING

def getQ (x : Tile) (q : Nat) : TQueue := x.queues.getD q TQueue.reset
def setQ (x : Tile) (q : Nat) (v : TQueue) : Tile := { x with queues := x.queues.set q v }

/-- Replace a queue; TIL_QSTATn.HELD follows. -/
def putQ (s : State) (t q : Nat) (v : TQueue) : State :=
  (setTile s t (setQ (getTile s t) q v)).wr (Pg.til t) (TIL_QSTAT_HELD q) v.held.length

def queuesEmpty (x : Tile) : Bool := x.queues.all (fun q => q.held.isEmpty)

/-- R162: a sleep request is served once the queues are empty. -/
def serveSleep (s : State) (t : Nat) : State :=
  let x := getTile s t
  match x.sleep with
  | some d =>
    if pstate s t = PS.ACTIVE ∧ queuesEmpty x then
      setTile (s.wr (Pg.til t) TIL_STAT_PSTATE PS.ENTERING) t { x with sleep := none, depth := d }
    else s
  | none => s

/-! ### The wake schedule (R249, R250) -/

/-- The window length of the schedule, and its ACTIVE_OFS in ns. -/
def schedLen (s : State) (t : Nat) : Nat := 125000 * 2 ^ s.rd (Pg.til t) TIL_SCHED_K
def activeOfs (s : State) (t : Nat) : Nat := s.rd (Pg.til t) TIL_SCHED_ACTIVE_OFS * 1000
def schedOn (s : State) (t : Nat) : Bool := s.flag (Pg.til t) TIL_SCHED_EN && !s.isUnset .hub

/-- How long before the active instant a tile at a depth is woken. -/
def wakeLead (depth : Nat) : Nat := if depth = PS.PARKED then 25000 else 2000

/-- The time from now to the next instant that lies `lead` before an active instant. -/
def toNext (s : State) (t lead : Nat) : Nat :=
  let l := schedLen s t
  let p := (activeOfs s t + l - lead % l) % l
  let m := s.now .hub % l
  if m ≤ p then p - m else l - m + p

/-- R249: the wake instant of a tile at a depth has passed and its active instant has not. -/
def wakeDue (s : State) (t depth : Nat) : Bool :=
  schedOn s t && decide (toNext s t 0 ≤ wakeLead depth) && decide (0 < toNext s t 0)

/-- R162, R163: a wake reaches the tile. -/
def wakeTile (s : State) (t : Nat) : State :=
  let x := getTile s t
  let p := pstate s t
  if p = PS.GATED ∨ p = PS.PARKED then
    setTile ((s.wr (Pg.til t) TIL_STAT_PSTATE PS.WAKING).incr (Pg.hBur (t / 32)) BUR_AOC 6) t { x with depth := p }
  else if p = PS.ENTERING then setTile s t { x with wakeP := true }
  else s

/-- R250: the depth a request is served at; 0 where it is not served. -/
def servedDepth (s : State) (t d : Nat) : Nat :=
  let d := min d (s.rd (Pg.til t) TIL_SCHED_SLEEP)
  if d = 0 then 0
  else if !schedOn s t then d
  else
    let d := if d = 2 ∧ toNext s t 25000 < 28000 then 1 else d
    if d = 1 ∧ toNext s t 2000 < 3000 then 0 else d

/-- R162, R163, R250: a gate (1) or park (2) request reaches the tile. -/
def sleepTile (s : State) (t d : Nat) : State :=
  let p := pstate s t
  let d := servedDepth s t d
  let x := getTile s t
  if d = 0 ∨ p = PS.RETIRED then s
  else if p = PS.GATED then
    if d = 2 then setTile (s.wr (Pg.til t) TIL_STAT_PSTATE PS.ENTERING) t { x with depth := 2 } else s
  else if p = PS.PARKED then s
  else serveSleep (setTile s t { x with sleep := some d }) t

/-- The active instant of a window on a tile: twin, tevent.WAKE, and WAKE_LATE where the tile is not ACTIVE (R249, R251). `freeze`: the
instant lay inside a freeze and counts no lateness (R253). -/
def activeInstant (s : State) (t n : Nat) (freeze : Bool) : State :=
  let x := getTile s t
  let late := pstate s t != PS.ACTIVE && !freeze
  let s := setTile s t { x with twin := n % 2 ^ 32, tevent := Nat.lor x.tevent 1, active := some n,
                                wakeRun := if late then x.wakeRun + 1 else if freeze then x.wakeRun else 0 }
  if late then raise (syn (s.bump (Pg.til t) TIL_LATE_WAKE) (Pg.til t) Syn.LATE) (Pg.til t) Irq.TIL_WAKE_LATE { win := n }
  else s

/-- R163, R253: at release the requests a freeze held are served in arrival order. -/
def serveHeld (s : State) (t : Nat) : State :=
  let x := getTile s t
  x.held.foldl (fun s r => match r with
    | .wake => wakeTile s t
    | .sleep d => sleepTile s t d
    | .active n => activeInstant s t n true) (setTile s t { x with held := [] })

/-- Serve a request, or hold it while the page is frozen (R163). -/
def tileRequest (s : State) (t : Nat) (r : TReq) : State :=
  if isFrozen s (Pg.til t) then
    let x := getTile s t
    setTile s t { x with held := x.held ++ [r] }
  else match r with
    | .wake => wakeTile s t
    | .sleep d => sleepTile s t d
    | .active n => activeInstant s t n false

/-! ### Completion (R231, R237, R238) -/

/-- A status word (R229, R238). -/
def statusWord (code progress : Nat) : Nat := progress % 2 ^ 24 * 2 ^ 8 + code

/-- The head of a queue completes. -/
def completeHead (s : State) (t q code progress : Nat) : State :=
  let v := getQ (getTile s t) q
  match v.held with
  | [] => s
  | d :: rest =>
    let s := putQ s t q { v with held := rest, run := .waiting,
                                 hist := ((d.ticket, statusWord code progress) :: v.hist).take 32 }
    let s := s.wr (Pg.til t) (TIL_QSTAT_DONE q) d.ticket
    if code ≠ 0 then s.wr (Pg.til t) (TIL_QSTAT_LAST_ERR q) code else s

/-- The descriptors a FLUSH marked complete with STATE as they reach the head. -/
def dropFlushed (s : State) (t q : Nat) : List TDesc → State
  | [] => s
  | d :: rest => if d.flushed then dropFlushed (completeHead s t q Syn.STATE 0) t q rest else s

/-- Set the halt of a queue (R237): TIL_STAT.QHALT and QHALT. -/
def haltQueue (s : State) (t q code ticket : Nat) : State :=
  let s := syn s (Pg.til t) code .block false (0x064 + 4 * q) ticket
  raise (s.wr (Pg.til t) TIL_STAT_QHALT (putBit (s.rd (Pg.til t) TIL_STAT_QHALT) q true)) (Pg.til t) Irq.TIL_QHALT

def isHalted (s : State) (t q : Nat) : Bool := bit (s.rd (Pg.til t) TIL_STAT_QHALT) q

/-- R237: the FLUSH of a queue. -/
def flushQueue (s : State) (t q : Nat) : State :=
  let v := getQ (getTile s t) q
  let mark (l : List TDesc) := l.map (fun d => { d with flushed := true })
  let s' := match v.run, v.held with
    | _, [] => s
    | .refused code, d :: rest =>
      let s := putQ s t q { v with held := d :: mark rest }
      dropFlushed (completeHead s t q code 0) t q (mark rest)
    | .waiting, held => dropFlushed (putQ s t q { v with held := mark held }) t q (mark held)
    | _, d :: rest => putQ s t q { v with held := d :: mark rest }
  serveSleep (s'.wr (Pg.til t) TIL_STAT_QHALT (putBit (s'.rd (Pg.til t) TIL_STAT_QHALT) q false)) t

def flushAll (s : State) (t : Nat) : State := (List.range 4).foldl (fun s q => flushQueue s t q) s

/-- R231: a descriptor whose effect is made completes: its ticket is complete, its status kept; poison it consumed is raised; it halts
its queue where it was refused on its way (R238, R276). -/
def execDescriptorComplete (t : Nat) (q : BitVec 2) (s : State) : Host.Outcome State Fault Refusal :=
  let v := getQ (getTile s t) q.toNat
  match v.run, v.held with
  | .done code progress halts, d :: rest =>
    if tileRuns s t then
      let s := completeHead s t q.toNat code progress
      let s := if code = Syn.POISON then tilePoison (raise s (Pg.til t) Irq.POISON) t ((getTile s t).active.getD (getTile s t).twin) else s
      let s := if halts then haltQueue s t q.toNat code d.ticket else s
      .next (serveSleep (dropFlushed s t q.toNat rest) t)
    else .next s
  | _, _ => .next s

/-! ### Accesses of the TIL page -/

/-- R16, R254, R454: what refuses an access of a tile's page; 0 where it is allowed. -/
def tilAccess (s : State) (t : Nat) : Nat :=
  if t ≥ tileCount s.cfg then Syn.ABSENT else if isFrozen s (Pg.til t) then Syn.STATE else 0

/-- A write of the TIL page that is accepted does `f`; a refusal is recorded (R16, R21). -/
def tilWrite (s : State) (t off : Nat) (ag : Agent) (f : State → State) : State :=
  match tilAccess s t with
  | 0 => f s
  | 8 => syn s (absentPage s .hub) Syn.ABSENT ag false off
  | c => syn s (Pg.til t) c ag false off

/-- A request of TIL_CTRL, but that a freeze holds it (R163). -/
def tilRequest (s : State) (t : Nat) (ag : Agent) (r : TReq) : State :=
  if t ≥ tileCount s.cfg then syn s (absentPage s .hub) Syn.ABSENT ag false 0x040
  else if pstate s t = PS.RETIRED then (if r = .wake then syn s (Pg.til t) Syn.STATE ag false 0x040 else s)
  else tileRequest s t r

/-- R237: TIL_QCTRL.FLUSH. -/
def execQueueFlush (t : Nat) (ag : Agent) (mask : BitVec 4) (s : State) : Host.Outcome State Fault Refusal :=
  .next (tilWrite s t 0x060 ag (fun s => (setBits 4 mask.toNat).foldl (fun s q => flushQueue s t q) s))

/-- R162: TIL_CTRL.WAKE; refused with STATE on a retired tile. -/
def execWake (t : Nat) (ag : Agent) (s : State) : Host.Outcome State Fault Refusal := .next (tilRequest s t ag .wake)
/-- R162: TIL_CTRL.GATE. -/
def execGate (t : Nat) (ag : Agent) (s : State) : Host.Outcome State Fault Refusal := .next (tilRequest s t ag (.sleep 1))
/-- R162, R250: TIL_CTRL.PARK. -/
def execPark (t : Nat) (ag : Agent) (s : State) : Host.Outcome State Fault Refusal := .next (tilRequest s t ag (.sleep 2))

/-- R162, R163: the entry into a sleeping state ends (a change in progress completes during a freeze); a wake that waited for it, or whose
instant has passed (R249), is served. -/
def execTileSleepEntered (t : Nat) (s : State) : Host.Outcome State Fault Refusal :=
  let x := getTile s t
  if t < tileCount s.cfg ∧ pstate s t = PS.ENTERING ∧ queuesEmpty x = true then
    let s := s.wr (Pg.til t) TIL_STAT_PSTATE x.depth
    let s := if seqState s t = Seq.RUNNING then s.wr (Pg.til t) TIL_STAT_SEQ Seq.ASLEEP else s
    let s := setTile s t { x with wakeP := false }
    let s := if isFrozen s (Pg.til t) then s
             else if x.sleep = some 2 ∧ x.depth = 1 then sleepTile (setTile s t { getTile s t with sleep := none }) t 2 else s
    .next (if x.wakeP ∨ wakeDue s t x.depth = true then tileRequest s t .wake else s)
  else .next s

/-- R162, R163: a wake ends; a sleep request that waited for it is served. -/
def execTileWakeDone (t : Nat) (s : State) : Host.Outcome State Fault Refusal :=
  if t < tileCount s.cfg ∧ pstate s t = PS.WAKING then
    let s := s.wr (Pg.til t) TIL_STAT_PSTATE PS.ACTIVE
    let s := if seqState s t = Seq.ASLEEP then s.wr (Pg.til t) TIL_STAT_SEQ Seq.RUNNING else s
    .next (if isFrozen s (Pg.til t) then s else serveSleep s t)
  else .next s

/-! ### The sequencer (R228–R230) -/

/-- R228: TIL_CTRL.SEQ_START. -/
def seqStart (s : State) (t : Nat) (ag : Agent) : State :=
  if pstate s t = PS.RETIRED ∨ seqState s t ≠ Seq.HALTED then syn s (Pg.til t) Syn.STATE ag false 0x040
  else
    setTile (s.wr (Pg.til t) TIL_STAT_SEQ Seq.RUNNING) t { getTile s t with pc := s.rd (Pg.til t) TIL_SEQ_CFG * 4 }

def execSeqStart (t : Nat) (ag : Agent) (s : State) : Host.Outcome State Fault Refusal :=
  .next (tilWrite s t 0x040 ag (fun s => seqStart s t ag))

/-- R228: TIL_CTRL.SEQ_HALT. -/
def seqHalt (s : State) (t : Nat) : State :=
  if seqState s t = Seq.HALTED then s else flushAll (s.wr (Pg.til t) TIL_STAT_SEQ Seq.HALTED) t

def execSeqHalt (t : Nat) (ag : Agent) (s : State) : Host.Outcome State Fault Refusal :=
  .next (tilWrite s t 0x040 ag (fun s => seqHalt s t))

/-- R254: the tile is retired: the sequencer stops, the descriptors are discarded, the tile is power gated for good. -/
def retireTile (s : State) (t : Nat) : State :=
  let x := getTile s t
  let s := setTile s t { x with queues := x.queues.map (fun q => { q with held := [], run := .waiting }), sleep := none,
                                wakeP := false, held := [] }
  let s := (List.range 4).foldl (fun s q => s.wr (Pg.til t) (TIL_QSTAT_HELD q) 0) s
  ((s.wr (Pg.til t) TIL_STAT_SEQ Seq.HALTED).wr (Pg.til t) TIL_STAT_QHALT 0).wr (Pg.til t) TIL_STAT_PSTATE PS.RETIRED

/-- R254, R356: a tile is retired and listed for good; a job whose set it served has a partition fault. -/
def retireForGood (s : State) (t : Nat) : State :=
  let s := tileJobFault (retireTile s t) t
  { s with hub := { s.hub with retired := setInsert t s.hub.retired } }

/-- R254: TIL_CTRL.RETIRE, from the Cabinet only; the tile goes into the persistent retirement list. -/
def execTileRetire (t : Nat) (ag : Agent) (s : State) : Host.Outcome State Fault Refusal :=
  .next (tilWrite s t 0x040 ag (fun s =>
    if ag ≠ .cabinet then syn s (Pg.til t) Syn.AUTH ag false 0x040
    else retireForGood s t))

/-- R257: a write of TIL_MBOX_IN sets tevent.MBOX. -/
def execMboxInWrite (t : Nat) (ag : Agent) (v : Word) (s : State) : Host.Outcome State Fault Refusal :=
  .next (tilWrite s t 0x08C ag (fun s =>
    let x := getTile s t
    setTile (s.wr (Pg.til t) TIL_MBOX_IN v.toNat) t { x with tevent := Nat.lor x.tevent 16 }))

/-- R228: an exception: FAULT where mtvec is 0, else the trap of the RISC-V privileged architecture (log entry 15). -/
def seqTrap (s : State) (t cause : Nat) : State :=
  let x := getTile s t
  if x.mtvec = 0 then
    raise ((s.wr (Pg.til t) TIL_STAT_SEQ Seq.FAULT).wr (Pg.til t) TIL_SEQ_CAUSE cause) (Pg.til t) Irq.TIL_SEQ_FAULT
  else
    setTile s t { x with mepc := x.pc, mcause := cause, pc := x.mtvec / 4 * 4,
                         mstatus := putBit (putBit x.mstatus 7 (bit x.mstatus 3)) 3 false }

/-- R228: an exception of the core at an instruction, of a cause. -/
def execSequencerException (t : Nat) (cause : Word) (pc : Word) (mtvec : Word) (s : State) : Host.Outcome State Fault Refusal :=
  if seqRuns s t then
    .next (seqTrap (setTile s t { getTile s t with pc := pc.toNat, mtvec := mtvec.toNat }) t cause.toNat)
  else .next s

/-- The result of a custom instruction: rd (x0 stays 0), the next instruction. -/
def retireInstr (s : State) (t rd v : Nat) : State :=
  let x := getTile s t
  setTile s t { x with x := if rd = 0 then x.x else x.x.set rd v, pc := (x.pc + 4) % 2 ^ 32 }

/-- The descriptor at an SRAM address, as sixteen little-endian words. -/
def descAt (x : Tile) (a : Nat) : List Nat := (List.range 16).map (fun i => ofLe (memReadN x.sram (a + 4 * i) 4))

/-- R229, R228: what stops the copy of a descriptor: load address misaligned, load access fault (outside the SRAM, or poisoned). -/
def pushCause (x : Tile) (a : Nat) : Option Nat :=
  if a % 64 ≠ 0 then some 4 else if a + 64 > sramSize ∨ x.poisoned a 64 then some 5 else none

/-- R231: push a descriptor; the ticket in rd. -/
def pushDesc (s : State) (t rd a q : Nat) : State :=
  let x := getTile s t
  let v := getQ x q
  let s := putQ s t q { v with held := v.held ++ [{ ticket := v.next, words := descAt x a, flushed := false }],
                               next := (v.next + 1) % 2 ^ 16 }
  retireInstr s t rd v.next

/-- R229: DPUSH; it stalls while the queue is full. -/
def execDpush (t : Nat) (rd : BitVec 5) (rs1 : Word) (q : BitVec 2) (s : State) : Host.Outcome State Fault Refusal :=
  if !seqRuns s t then .next s
  else match pushCause (getTile s t) rs1.toNat with
    | some c => .next (seqTrap s t c)
    | none =>
      if (getQ (getTile s t) q.toNat).held.length < 16 then .next (pushDesc s t rd.toNat rs1.toNat q.toNat) else .next s

/-- R229: DTRY. -/
def execDtry (t : Nat) (rd : BitVec 5) (rs1 : Word) (q : BitVec 2) (s : State) : Host.Outcome State Fault Refusal :=
  if !seqRuns s t then .next s
  else match pushCause (getTile s t) rs1.toNat with
    | some c => .next (seqTrap s t c)
    | none =>
      if (getQ (getTile s t) q.toNat).held.length < 16 then .next (pushDesc s t rd.toNat rs1.toNat q.toNat)
      else .next (retireInstr s t rd.toNat 0xFFFFFFFF)

/-- R231: ticket k of a queue is complete. -/
def ticketDone (s : State) (t q k : Nat) : Bool := decide ((s.rd (Pg.til t) (TIL_QSTAT_DONE q) + 2 ^ 16 - k) % 2 ^ 16 < 2 ^ 15)

/-- R229: DWAIT; it stalls until the ticket is complete. -/
def execDwait (t : Nat) (rd : BitVec 5) (rs1 : Word) (q : BitVec 2) (s : State) : Host.Outcome State Fault Refusal :=
  let k := rs1.toNat % 2 ^ 16
  if seqRuns s t ∧ ticketDone s t q.toNat k then
    .next (retireInstr s t rd.toNat
      ((((getQ (getTile s t) q.toNat).hist.find? (fun h => h.1 == k)).map (·.2)).getD 0))
  else .next s

/-- R229: DPOLL. -/
def execDpoll (t : Nat) (rd : BitVec 5) (q : BitVec 2) (s : State) : Host.Outcome State Fault Refusal :=
  if seqRuns s t then
    .next (retireInstr s t rd.toNat
      (s.rd (Pg.til t) (TIL_QSTAT_DONE q.toNat) * 2 ^ 16 + (getQ (getTile s t) q.toNat).held.length))
  else .next s

/-- The flags of R210 by bit. -/
def flagFld : Nat → Fld
  | 0 => TIL_FLAGS_INEXACT
  | 1 => TIL_FLAGS_UNDERFLOW
  | 2 => TIL_FLAGS_OVERFLOW
  | 3 => TIL_FLAGS_SATURATION
  | _ => TIL_FLAGS_INVALID

/-- R210, R211: set sticky flags of a tile. -/
def setFlags (s : State) (t fl : Nat) : State := (setBits 5 fl).foldl (fun s n => s.wr (Pg.til t) (flagFld n) 1) s

/-- R230: a write of tflags clears the flags written 1. -/
def execTflagsClear (t : Nat) (v : Word) (s : State) : Host.Outcome State Fault Refusal :=
  if seqRuns s t then .next (retireInstr ((setBits 5 v.toNat).foldl (fun s n => s.wr (Pg.til t) (flagFld n) 0) s) t 0 0)
  else .next s

/-- R230, R162: a write of tsleep requests GATED or PARKED. -/
def execTsleep (t : Nat) (v : Word) (s : State) : Host.Outcome State Fault Refusal :=
  if seqRuns s t then
    let s := retireInstr s t 0 0
    .next (if v.toNat = 1 ∨ v.toNat = 2 then sleepTile s t v.toNat else s)
  else .next s

/-- R230: a write of tevent clears the events written 1. -/
def execTeventClear (t : Nat) (v : Word) (s : State) : Host.Outcome State Fault Refusal :=
  if seqRuns s t then
    let s := retireInstr s t 0 0
    let x := getTile s t
    .next (setTile s t { x with tevent := (setBits 5 v.toNat).foldl (fun e n => putBit e n false) x.tevent })
  else .next s

/-- R230, R251: a write of tdone reports a window done. -/
def execTdone (t : Nat) (v : Word) (s : State) : Host.Outcome State Fault Refusal :=
  if seqRuns s t then
    let s := retireInstr s t 0 0
    let x := getTile s t
    .next (setTile (s.wr (Pg.til t) TIL_WIN v.toNat) t { x with doneWins := (v.toNat :: x.doneWins).take 16 })
  else .next s

/-- R230: a write of tmbox_out sets TIL_MBOX_OUT and raises MBOX. -/
def execTmboxOut (t : Nat) (v : Word) (s : State) : Host.Outcome State Fault Refusal :=
  if seqRuns s t then .next (raise ((retireInstr s t 0 0).wr (Pg.til t) TIL_MBOX_OUT v.toNat) (Pg.til t) Irq.TIL_MBOX)
  else .next s

/-- R230: an event for every tile of a job slot's set. -/
def setEvent (s : State) (slot b : Nat) : State :=
  ((List.range (tileCount s.cfg)).filter (fun t =>
    s.flag (Pg.til t) TIL_JOB_VALID && s.rd (Pg.til t) TIL_JOB_SLOT == slot)).foldl (fun s t =>
    let x := getTile s t
    setTile s t { x with tevent := Nat.lor x.tevent b }) s

/-- The tiles of a job slot's tile set (R244). -/
def tileSet (s : State) (slot : Nat) : List Nat :=
  (List.range (tileCount s.cfg)).filter (fun t =>
    s.flag (Pg.til t) TIL_JOB_VALID && s.rd (Pg.til t) TIL_JOB_SLOT == slot && pstate s t != PS.RETIRED)

/-! ### The page across the common events (R258) -/

/-- R258: an appointment of the TIL page is applied; `old` the slot and validity before it. -/
def tilApplied (s : State) (t : Nat) (old : Nat × Bool) : State :=
  if old ≠ (s.rd (Pg.til t) TIL_JOB_SLOT, s.flag (Pg.til t) TIL_JOB_VALID) ∧ old.2 then flushAll s t else s

/-- R258, R254: the soft reset beside the registers: sequencer HALTED, queues emptied, tickets from 1, SRAM kept. The power state is not a
register's reset: it stays. -/
def softTil (s : State) (t p : Nat) : State :=
  let x := getTile s t
  (setTile s t { x with queues := List.replicate 4 TQueue.reset, tevent := 0, twin := 0, doneWins := [] }).wr (Pg.til t) TIL_STAT_PSTATE p

/-! ### The schedule's instants (R249, R251) -/

/-- R249, R163: the wake of the schedule. -/
def execScheduledWake (t : Nat) (s : State) : Host.Outcome State Fault Refusal :=
  let p := pstate s t
  let depth := if p = PS.ENTERING then (getTile s t).depth else p
  if t < tileCount s.cfg ∧ p ≠ PS.RETIRED ∧ (p = PS.GATED ∨ p = PS.PARKED ∨ p = PS.ENTERING) ∧ wakeDue s t depth then
    .next (tileRequest s t .wake)
  else .next s

/-- The last active instant at or before now, and the window it belongs to (the one closed at T). -/
def lastActive (s : State) (t : Nat) : Option Nat :=
  let n := (s.now .hub - activeOfs s t) / schedLen s t
  if s.now .hub < activeOfs s t ∨ n = 0 then none else some (n - 1)

/-- R252: three windows WAKE_LATE in a row: the Cabinet stages SLEEP = GATED for the whole set; with SLEEP = GATED already, the tile is
retired. -/
def wakeLateRule (s : State) (t : Nat) : State :=
  let x := getTile s t
  if x.wakeRun < 3 then s
  else
    let s := setTile s t { x with wakeRun := 0 }
    if s.rd (Pg.til t) TIL_SCHED_SLEEP = 1 then retireForGood s t
    else
      (tileSet s (s.rd (Pg.til t) TIL_JOB_SLOT)).foldl (fun s u =>
        if isArmed s (Pg.til u) then s else s.wr (Pg.til u) TIL_SCHED_SLEEP.staged 1) s

def execActiveInstant (t : Nat) (s : State) : Host.Outcome State Fault Refusal :=
  match lastActive s t with
  | some n =>
    if t < tileCount s.cfg ∧ schedOn s t ∧ pstate s t ≠ PS.RETIRED ∧ (getTile s t).active ≠ some n ∧
        TReq.active n ∉ (getTile s t).held then
      .next (if isFrozen s (Pg.til t) then tileRequest s t (.active n) else wakeLateRule (activeInstant s t n false) t)
    else .next s
  | none => .next s

end Sys2Proof.Machine
end

