-- ==== Sys2Proof/Machine/Freeze.lean ====
section
/-!
DEFINITION. Sys2Proof/Machine/Freeze.lean: the global freeze of one unit (R453–R456, R462, R463): a Tally, or one die of the Hub.
-/
namespace Sys2Proof.Machine
open Reg

namespace Frz
/-! FRZ_CTRL.ACTION (R462). -/
def NONE : Nat := 0
def FREEZE : Nat := 1
def RELEASE : Nat := 2
def TIMED : Nat := 3
end Frz

/-- A time as a 96-bit triple: seconds above 32 bits of nanoseconds. -/
def time96 (ns : Nat) : Nat := ns / 1000000000 * 2 ^ 32 + ns % 1000000000
def ofTime96 (t : Nat) : Nat := t / 2 ^ 32 * 1000000000 + t % 2 ^ 32

/-- The FRZ page of the unit a page belongs to. -/
def frzPage : Page → Page
  | .tally _ => Pg.tFrz
  | .hub d _ => Pg.hFrz d

/-- Every page of the unit a FRZ page belongs to. -/
def unitPages : Page → List Page
  | .tally _ => (List.range 16).map Page.tally
  | .hub d _ =>
    ([0x010, 0x011, 0x012, 0x014, 0x015, 0x016, 0x018, 0x019, 0x020, 0x021, 0x030, 0x031, 0x032, 0x050, 0x051, 0x070].map
      (Page.hub d)) ++ (List.range 64).map (fun i => Page.hub d (0x040 + i))

/-- R454: the pages that stop: BLK_CAP.FREEZE = 1 and FRZ_P = 1. -/
def freezingPages (s : State) (frz : Page) : List Page :=
  (unitPages frz).filter (fun pg =>
    match pageBlk s.cfg pg with
    | some b => blkFreeze b && s.flag pg BLK_CTRL_FRZ_P
    | none => false)

/-- R435: a FREEZE entry. -/
def freezeEntry (s : State) (frz : Page) (detail sev : Nat) : State :=
  let t := s.rd frz FRZ_T
  post s frz (0x4000 + detail) sev false false (leBytes 8 (t / 2 ^ 32) ++ leBytes 4 (t % 2 ^ 32) ++ List.replicate 12 0)

/-- R456: the forced snapshot of slot i at this instant. -/
def snapshotSlot (s : State) (i : Nat) : State :=
  let n := s.tally.recs.length
  let s' := queueRecord s i (s.now .tally) true
  let e := s.tally.nrgWin
  { s' with tally := { s'.tally with
      recs := s'.tally.recs.zipIdx.map (fun x =>
        if x.2 ≥ n then { x.1 with unattr := x.1.unattr + e, total := x.1.total + e } else x.1) } }

/-- R456: every live slot whose window in progress does not end now. -/
def snapshots (s : State) : State :=
  (liveSlots s).foldl (fun s i =>
    if (getSlot s i).build && mayBuild s && !isBoundary (slotK s i) (s.now .tally) then snapshotSlot s i else s) s

/-- R453, R454: the unit freezes at this instant. -/
def freezeUnit (s : State) (frz : Page) : State :=
  let s := s.wr frz FRZ_T (time96 (s.now frz.part))
  let s := (s.wr frz FRZ_STAT_FROZEN 1).bump frz FRZ_COUNT_FREEZES
  let s := ((s.wr frz FRZ_CHAN_USED 0).wr frz FRZ_CHAN_RECS 0).wr frz FRZ_STAT_CHAN_FULL 0
  let s := (freezingPages s frz).foldl (fun s pg => raise (s.wr pg BLK_STAT_FROZEN 1) pg Irq.FRZ) s
  let s := if frz.isTally then snapshots s else s
  freezeEntry s frz 1 5

/-- R163: a released tile serves the requests the freeze held. -/
def releaseTile (s : State) : Page → State
  | .tally _ => s
  | .hub d p => if isCD d && decide (0x040 ≤ p) && decide (p < 0x060) then serveHeld s (32 * d + (p - 0x040)) else s

/-- R26: at release an appointment that fell due during the freeze is refused with LATE. -/
def releasePage (s : State) (pg : Page) : State :=
  let s := releaseTile (s.wr pg BLK_STAT_FROZEN 0) pg
  if isArmed s pg && decide (apptTime s pg ≤ s.now pg.part) then apptRefuse s pg Syn.LATE else s

/-- R299: the time a scan has waited does not count the freeze. -/
def releaseScan (s : State) (frz : Page) : State :=
  match frz with
  | .tally _ => s
  | .hub d _ =>
    if isMD d then
      let dt := s.now .hub - ofTime96 (s.rd frz FRZ_T)
      { s with hub := { s.hub with taps := s.hub.taps.modify (d - 48) (fun t =>
        { t with scan := t.scan.map (fun (sc : Scan) => { sc with since := sc.since + dt }) }) } }
    else s

/-- R387: the timers and the pause of a Reach port count no frozen time. -/
def releaseReach (s : State) (frz : Page) : State :=
  match frz with
  | .tally _ => s
  | .hub d _ =>
    if d = 62 ∨ d = 63 then
      let dt := s.now .hub - ofTime96 (s.rd frz FRZ_T)
      { s with hub := { s.hub with rch := s.hub.rch.modify (d - 62) (fun r =>
        { r with ring := r.ring.map (fun (f : RTx) => { f with timer := f.timer + dt }),
                 pause := r.pause.map (fun (p : Nat × Nat) => (p.1, p.2 + dt)) }) } }
    else s

/-- R453: the unit runs again. -/
def releaseUnit (s : State) (frz : Page) (auto : Bool) (detail sev : Nat) : State :=
  let s := releaseReach (releaseScan (((unitPages frz).filter (isFrozen s)).foldl releasePage s) frz) frz
  let s := (s.wr frz FRZ_STAT_FROZEN 0).wr frz FRZ_STAT_AUTO (b2n auto)
  freezeEntry s frz detail sev

/-- R453: the release of a RELEASE appointment or of a TIMED freeze. -/
def release (s : State) (frz : Page) : State := raise (releaseUnit s frz false 2 5) frz Irq.FRZ_RELEASED

/-- R453: an applied FRZ_CTRL.ACTION. -/
def frzApplied (s : State) (frz : Page) : State :=
  let a := s.rd frz FRZ_CTRL
  if s.rd frz FRZ_STAT_FROZEN = 1 then (if a = Frz.RELEASE then release s frz else s)
  else if a = Frz.FREEZE ∨ a = Frz.TIMED then freezeUnit s frz else s

/-- R453: the checks of an ARM of the FRZ page. -/
def frzArmCheck (s : State) (frz : Page) : Nat :=
  let a := s.rd frz FRZ_CTRL.staged
  let frozen := s.rd frz FRZ_STAT_FROZEN = 1
  let dur := s.rd frz FRZ_DUR.staged
  if a = Frz.NONE then Syn.RANGE
  else if ((a = Frz.FREEZE ∨ a = Frz.TIMED) ∧ frozen) ∨ (a = Frz.RELEASE ∧ ¬ frozen) then Syn.STATE
  else if a = Frz.TIMED ∧ (dur = 0 ∨ dur > s.rd frz FRZ_LIMIT * 1000) then Syn.RANGE
  else 0

/-- R453: FRZ_DUR µs after the instant of a TIMED freeze. -/
def execTimedRelease (pg : Page) (s : State) : Host.Outcome State Fault Refusal :=
  if pageBlk s.cfg pg = some .frz ∧ s.rd pg FRZ_STAT_FROZEN = 1 ∧ s.rd pg FRZ_CTRL = Frz.TIMED ∧
      s.now pg.part ≥ ofTime96 (s.rd pg FRZ_T) + s.rd pg FRZ_DUR * 1000 then .next (release s pg)
  else .next s

/-- R453: FRZ_LIMIT ms after the freeze instant. -/
def execAutoRelease (pg : Page) (s : State) : Host.Outcome State Fault Refusal :=
  if pageBlk s.cfg pg = some .frz ∧ s.rd pg FRZ_STAT_FROZEN = 1 ∧
      s.now pg.part ≥ ofTime96 (s.rd pg FRZ_T) + s.rd pg FRZ_LIMIT * 1000000 then
    .next (raise ((releaseUnit s pg true 3 6).bump pg FRZ_COUNT_AUTO) pg Irq.FRZ_AUTO_REL)
  else .next s

/-! ### Channel state (R455) -/

/-- R455: a transfer held in place at the freeze is also copied into the die's channel area, where it fits. -/
def chanRecord (s : State) (d kind link sent src dst : Nat) (content : List Nat) : State :=
  let frz := Pg.hFrz d
  let seq := s.hub.chanSeq.getD d 0
  let rec_ := leBytes 2 kind ++ leBytes 2 link ++ leBytes 4 content.length ++ leBytes 8 sent ++ leBytes 4 src ++
    leBytes 4 dst ++ leBytes 8 seq ++ content
  let lines := ceilDiv rec_.length 64
  let used := s.rd frz FRZ_CHAN_USED
  let s := { s with hub := { s.hub with chanSeq := s.hub.chanSeq.set d (seq + 1) } }
  if (used + lines) * 64 > s.rd frz FRZ_CHAN_SIZE * 4096 then s.wr frz FRZ_STAT_CHAN_FULL 1
  else
    let base := s.rd frz FRZ_CHAN_BASE_HI * 2 ^ 32 + s.rd frz FRZ_CHAN_BASE_LO * 4096
    let s := hbmWrite s (base + used * 64) (rec_ ++ List.replicate (lines * 64 - rec_.length) 0)
    (s.wr frz FRZ_CHAN_USED (used + lines)).incr frz FRZ_CHAN_RECS

end Sys2Proof.Machine
end

