-- ==== Sys2Proof/Machine/Longcase.lean ====
section
/-!
DEFINITION. Sys2Proof/Machine/Longcase.lean: 03_longcase_time.md. The counter, the servo (R65, R66), the step (R62), the
sources of a Hub (R69–R74), the Tally time bus (R75–R77), port timestamps (R81), time between sites (R83–R86), and the
meanings of the chapter's commands.
-/
namespace Sys2Proof.Machine
open Reg

/-! ### The counter -/

/-- R57, R58: one tick of the timebase clock adds the live increment. -/
def Longcase.tick (l : Longcase) : Longcase :=
  { l with ns := l.ns + (l.frac + l.incr) / 2 ^ 32, frac := (l.frac + l.incr) % 2 ^ 32, ticks := l.ticks + 1 }

/-- Time with its fraction, in 2^-32 ns. -/
def Longcase.fine (l : Longcase) : Int := ((l.ns * 2 ^ 32 + l.frac : Nat) : Int)

/-- Time in picoseconds, truncated. -/
def Longcase.ps (l : Longcase) : Int := (((l.ns * 2 ^ 32 + l.frac) * 1000 / 2 ^ 32 : Nat) : Int)

/-! ### The servo -/

/-- What R65 computes from one measurement. -/
structure ServoOut where
  integ : Int
  freq : Int
  slew : Bool
  rate : Int
  deriving DecidableEq, Repr

/-- R65, from the integral, the measurement e_ps and the settings; the interval u_ms is uNum / uDen milliseconds. -/
def servoCalc (integ e : Int) (ki kp slewMax uNum uDen : Nat) : ServoOut :=
  let integ' := integ + e
  let f0 := (sra integ' ki * (uDen : Int)).tdiv (uNum : Int)
  let freq := clamp (-500000) 500000 f0
  let hold : Int := (500000 * (uNum : Int)).tdiv (uDen : Int) * ((2 ^ ki : Nat) : Int)
  let integ'' := if f0 ≥ 500000 then hold else if f0 ≤ -500000 then -hold else integ'
  let p0 := (sra e kp * (uDen : Int)).tdiv (uNum : Int)
  let pb : Int := (slewMax : Int) * 1000
  let p := clamp (-pb) pb p0
  { integ := integ'', freq, slew := decide (p0 ≥ pb) || decide (p0 ≤ -pb), rate := clamp (-500000) 500000 (-(freq + p)) }

/-- R65, last line: the increment at a rate in ppb. -/
def incrAt (p : Part) (rate : Int) : Nat :=
  (((nominal p : Nat) : Int) + (((nominal p : Nat) : Int) * rate).tdiv 1000000000).toNat

/-- Put a rate in force: the live increment and LCS_RATE. -/
def setRate (s : State) (p : Part) (rate : Int) : State :=
  (s.setLcs p { s.lcs p with incr := incrAt p rate }).wr (lcsPage p) LCS_RATE (ofSigned 32 rate)

/-- R66: enter HOLDOVER from ACQUIRE or LOCKED; the increment holds freq_ppb alone. -/
def enterHoldover (s : State) (p : Part) : State :=
  match (s.lcs p).servo with
  | .acquire | .locked =>
    let s := s.setLcs p { s.lcs p with servo := .holdover, slew := false, good := 0, bad := 0 }
    raise (setRate s p (clamp (-500000) 500000 (-(s.lcs p).freq))) (lcsPage p) Irq.LCS_HOLD_IN
  | _ => s

/-- R62: load a time, clear the servo's integral and the fraction, and move to ACQUIRE; the Tally's windows in progress
build no record (R101). -/
def stepTo (s : State) (p : Part) (ns : Nat) : State :=
  let l := s.lcs p
  let s := s.setLcs p { l with ns, frac := 0, integ := 0, freq := 0, slew := false, servo := .acquire, good := 0,
                               bad := 0, miss := 0, incr := nominal p }
  let s := s.wr (lcsPage p) LCS_STATUS_STEP_DONE 1
  let s := raise s (lcsPage p) Irq.LCS_STEPPED
  match p with
  | .tally => restartTally s
  | .hub => s

/-- R66: the state after a measurement of the selected source with error e (ps), the servo having run. -/
def servoStates (s : State) (p : Part) (e : Int) : State :=
  let l := s.lcs p
  let pg := lcsPage p
  let thr : Int := (s.rd pg LCS_SERVO_LOCK_THR : Int) * 1000
  match l.servo with
  | .unset => s
  | .holdover => raise (s.setLcs p { l with servo := .acquire, good := 0, bad := 0 }) pg Irq.LCS_HOLD_OUT
  | .acquire =>
    let good := if (e.natAbs : Int) ≤ thr then l.good + 1 else 0
    if good ≥ 1 ∧ good ≥ s.rd pg LCS_SERVO_LOCK_COUNT then
      raise (s.setLcs p { l with servo := .locked, good := 0, bad := 0 }) pg Irq.LCS_LOCKED
    else s.setLcs p { l with good }
  | .locked =>
    let bad := if (e.natAbs : Int) > 4 * thr then l.bad + 1 else 0
    if bad ≥ 4 then raise (s.setLcs p { l with servo := .acquire, good := 0, bad := 0 }) pg Irq.LCS_UNLOCKED
    else s.setLcs p { l with bad }

/-- R65, R66: a measurement of the selected source. UNSET with AUTO_STEP steps so that the offset becomes zero (R62);
UNSET without it only shows the offset; otherwise the servo runs. -/
def measure (s : State) (p : Part) (e : Int) (uNum uDen : Nat) : State :=
  let pg := lcsPage p
  let s := s.wr pg LCS_OFFSET (offsetWord (some e))
  let l := s.lcs p
  let s := s.setLcs p { l with miss := 0 }
  if l.servo = .unset then
    if s.rd pg LCS_CTRL_AUTO_STEP = 1 then stepTo s p ((l.ps - e) / 1000).toNat else s
  else
    let r := servoCalc l.integ e (s.rd pg LCS_SERVO_KI_SHIFT) (s.rd pg LCS_SERVO_KP_SHIFT) (s.rd pg LCS_SERVO_SLEW_MAX)
      uNum uDen
    let s := s.setLcs p { s.lcs p with integ := r.integ, freq := r.freq, slew := r.slew }
    servoStates (setRate s p r.rate) p e

/-! ### Sources of a Hub -/

/-- R71: the priority list. -/
def prioList (s : State) : List Nat :=
  [s.rd Pg.xLcs LCS_SRC_CFG_PRIO0, s.rd Pg.xLcs LCS_SRC_CFG_PRIO1, s.rd Pg.xLcs LCS_SRC_CFG_PRIO2,
   s.rd Pg.xLcs LCS_SRC_CFG_PRIO3]

/-- The first valid source of the list, 0 (NONE) where none is. -/
def firstValid (s : State) : Nat := ((prioList s).find? (fun p => 2 ≤ p && (s.tracker p).valid)).getD 0

/-- Replace a tracker, and show its validity and offset in LCS_SRC_STAT and LCS_SRC_OFS_*. -/
def setTracker (s : State) (src : Nat) (t : Tracker) : State :=
  let s := { s with hub := { s.hub with trackers := s.hub.trackers.set (src - 2) t } }
  let s := s.wr Pg.xLcs LCS_SRC_STAT_VALID (putBit (s.rd Pg.xLcs LCS_SRC_STAT_VALID) (src - 2) t.valid)
  s.wr Pg.xLcs ⟨0x080 + 4 * (src - 2), 0, 32⟩ (offsetWord t.ofs)

/-- R71: change the selected source. A change between two sources counts, raises SRC_SWITCH and starts TQ.SWITCHED; with no
valid source the state becomes HOLDOVER. -/
def selectSource (s : State) (src : Nat) : State :=
  let old := s.rd Pg.xLcs LCS_STATUS_SOURCE
  if src = old then s
  else
    let s := s.wr Pg.xLcs LCS_STATUS_SOURCE src
    if src = 0 then enterHoldover s .hub
    else if old = 0 then s
    else
      let s := s.bump Pg.xLcs LCS_SRC_STAT_SWITCHES
      let s := { s with hub := { s.hub with switchedAt := some s.hub.lcs.ns } }
      raise s Pg.xLcs Irq.LCS_SRC_SWITCH

/-- R69, R71: a tracker becomes invalid; if it was selected, the next valid source is taken. -/
def trackerInvalid (s : State) (src : Nat) : State :=
  let s := setTracker s src { s.tracker src with valid := false, ofs := none }
  if s.rd Pg.xLcs LCS_STATUS_SOURCE = src then selectSource s (firstValid s) else s

/-- R72: the comparison of A and B; an entry is written when the disagreement appears and when it clears (detail 1). -/
def checkDisagree (s : State) : State :=
  let lim := s.rd Pg.xLcs LCS_HOLD_DISAGREE_NS
  match (s.tracker 2).ofs, (s.tracker 3).ofs with
  | some a, some b =>
    if lim = 0 ∨ (s.tracker 2).valid = false ∨ (s.tracker 3).valid = false then s
    else
      let now := decide ((a - b).natAbs > lim * 1000)
      if now = s.hub.disagree then s
      else
        let s := { s with hub := { s.hub with disagree := now } }
        if now then raise s Pg.xLcs Irq.LCS_DISAGREE
        else post s Pg.xLcs (0x2000 + Irq.LCS_DISAGREE) 5 false false (EvInfo.bytes { detail := 1 })
  | _, _ => s

/-- R69–R72: a tracker takes a measurement; the selected source's measurement goes to the servo. -/
def trackerMeasure (s : State) (src : Nat) (e : Int) (uNum uDen : Nat) : State :=
  let t := s.tracker src
  let valid := !t.annOut
  let s := setTracker s src { t with
    ofs := some e, last := s.hub.lcs.ns, interval := uNum * 1000000 / uDen, valid,
    since := if t.valid then t.since else s.hub.lcs.ns }
  let s := checkDisagree s
  let s := if s.rd Pg.xLcs LCS_STATUS_SOURCE = 0 then selectSource s (firstValid s) else s
  if valid ∧ s.rd Pg.xLcs LCS_STATUS_SOURCE = src then measure s .hub e uNum uDen else s

/-! ### Port timestamps (R80, R81) -/

/-- R81: tx_lat and rx_lat by mode, ps. -/
def txLat : Nat → Int
  | 0 => 88000 | 1 => 88000 | 2 => 61000 | _ => 79000
def rxLat : Nat → Int
  | 0 => 161000 | 1 => 139000 | 2 => 117000 | _ => 130000

/-- Round picoseconds to the nearest nanosecond, ties to even. -/
def roundNs (ps : Int) : Int :=
  let q := ps.fdiv 1000
  let r := ps - q * 1000
  if r > 500 ∨ (r = 500 ∧ q % 2 = 1) then q + 1 else q

/-- Reference-plane time of a frame received now on a port, in ps (a whole number of ns): ports F0–F9 0–9, P0–P3 10–13,
L0–L1 14–15. -/
def rxStamp (s : State) (port pos : Nat) : Int :=
  let mode := s.rd Pg.xLcs (LCS_TSC_STAT_MODE port)
  let fec : Int := (((5440 - pos) * 2353 / 1000 : Nat) : Int)
  1000 * roundNs ((s.hub.lcs.ns : Int) * 1000 - rxLat mode - (s.rd Pg.xLcs (LCS_TSC_STAT_DESKEW port) : Int) - fec -
    toSigned 16 (s.rd Pg.xLcs (LCS_TSC_ADJ_RX_ADJ port)))

/-- Reference-plane time of a frame sent now on a port, in ps. -/
def txStamp (s : State) (port am : Nat) : Int :=
  let mode := s.rd Pg.xLcs (LCS_TSC_STAT_MODE port)
  1000 * roundNs ((s.hub.lcs.ns : Int) * 1000 + txLat mode + (am : Int) +
    toSigned 16 (s.rd Pg.xLcs (LCS_TSC_ADJ_TX_ADJ port)))

/-! ### PTP (R70) -/

/-- The source a PTP domain on a port belongs to: A or B on the fabric ports, BOARD on the peer ports; 0 for none. -/
def ptpSource (s : State) (port domain : Nat) : Nat :=
  if port < 10 then
    (if domain = s.rd Pg.xLcs LCS_SRC_CFG_DOM_A then 2 else if domain = s.rd Pg.xLcs LCS_SRC_CFG_DOM_B then 3 else 0)
  else if port < 14 then (if domain = s.rd Pg.xLcs LCS_ROLE_DOM_BOARD then 4 else 0) else 0

/-- After a Sync is complete the port sends its delay request (fabric port: Delay_Req; peer port: Pdelay_Req). -/
def sendDelayReq (s : State) (src port domain : Nat) : State :=
  let tx := txStamp s port 0
  let s := setTracker s src { s.tracker src with reqTx := some tx }
  sendOn s port (.ptp port domain (if port < 10 then 1 else 2) tx none 0)

/-- A complete Sync: the offset e = t2 − (t1 + correction + path delay). -/
def syncDone (s : State) (src port domain interval : Nat) (rx : Int) (origin : Nat) (corr : Int) : State :=
  let t := s.tracker src
  let fwd := rx - (origin : Int) * 1000 - corr
  let s := setTracker s src { t with syncRx := none, fwd := some fwd, port }
  sendDelayReq (trackerMeasure s src (fwd - t.delay) interval 1) src port domain

/-- R70: what a received PTP message does to the tracker of its source. -/
def ptpRx (s : State) (src port domain pos interval : Nat) : PtpBody → State
  | .sync false origin corr => syncDone s src port domain interval (rxStamp s port pos) origin corr
  | .sync true _ _ => setTracker s src { s.tracker src with syncRx := some (rxStamp s port pos) }
  | .followUp origin corr =>
    match (s.tracker src).syncRx with
    | some rx => syncDone s src port domain interval rx origin corr
    | none => s
  | .delayResp rx corr =>
    let t := s.tracker src
    match t.fwd, t.reqTx with
    | some f, some tx =>
      setTracker s src { t with reqTx := none, delay := (f + ((rx : Int) * 1000 - corr - tx)).tdiv 2 }
    | _, _ => s
  | .delayReq =>
    if s.isUnset .hub then s
    else sendOn s port (.ptp port domain 9 (txStamp s port 0) (some (rxStamp s port pos)) (hubSite s))
  | .pdelayReq =>
    let s' := sendOn s port (.ptp port domain 3 (txStamp s port 0) (some (rxStamp s port pos)) 0)
    sendOn s' port (.ptp port domain 10 (txStamp s port 0) none 0)
  | .pdelayResp rx =>
    setTracker s src { s.tracker src with respRx := some (rxStamp s port pos), peerRx := some ((rx : Int) * 1000) }
  | .pdelayRespFollowUp tx corr =>
    let t := s.tracker src
    match t.reqTx, t.respRx, t.peerRx with
    | some a, some d, some b =>
      setTracker s src { t with reqTx := none, respRx := none, peerRx := none,
                                delay := ((d - a) - ((tx : Int) * 1000 - b) - corr).tdiv 2 }
    | _, _, _ => s
  | .announce site =>
    let t := s.tracker src
    setTracker s src { t with annOut := false, site := match site with | some v => some v | none => t.site }
  | .signaling => s
  | .management => { s with hub := { s.hub with ptpDiscards := s.hub.ptpDiscards + 1 } }

/-! ### Time between sites (R83–R86) -/

/-- R84: the calibrated path a round trip (ps) identifies: 1 WORKING, 2 PROTECT, 3 UNCALIBRATED. -/
def reachPath (s : State) (rtt : Int) : Nat :=
  let tol : Int := (s.rd Pg.xLcs LCS_REACH_CFG_RTT_TOL : Int) * 1000
  let fits (ns : Nat) : Bool := ns != 0 && decide (((rtt - (ns : Int) * 1000).natAbs : Int) ≤ tol)
  if fits (s.rd Pg.xLcs LCS_RTT_W) then 1 else if fits (s.rd Pg.xLcs LCS_RTT_P) then 2 else 3

/-- R84: the asymmetry of a path, ps; 0 where it is uncalibrated. -/
def reachAsym (s : State) (path : Nat) : Int :=
  if path = 1 then toSigned 32 (s.rd Pg.xLcs LCS_ASYM_W)
  else if path = 2 then toSigned 32 (s.rd Pg.xLcs LCS_ASYM_P) else 0

/-- R84: the path in use becomes known. -/
def setPath (s : State) (path : Nat) : State :=
  let old := s.rd Pg.xLcs LCS_REACH_STAT_PATH
  let s := s.wr Pg.xLcs LCS_REACH_STAT_PATH path
  if path = 3 ∧ old ≠ 3 then raise s Pg.xLcs Irq.LCS_UNCALIBRATED else s

/-- R381, R382: the round-trip estimate of a Reach port is cleared. -/
def clearSrtt (s : State) (l : Nat) : State :=
  { s with hub := { s.hub with rch := s.hub.rch.modify l (fun r => { r with srtt := 0, rttvar := 0 }) } }.wr
    (Pg.rch l) RCH_STATE_PATHCLR 1

/-- R85: a path-change event on the selected Reach port. -/
def pathChange (s : State) : State :=
  let s := { s with hub := { s.hub with tt := { s.hub.tt with rtt := none, runStart := none, runCount := 0,
                                                              runFwd := 0, runRev := 0 } } }
  let s := (s.wr Pg.xLcs LCS_REACH_STAT_TRACKER 2).wr Pg.xLcs LCS_REACH_STAT_RUN_MS 0
  let s := raise s Pg.xLcs Irq.LCS_PATH_CHANGE
  let s := clearSrtt s (s.rd Pg.xLcs LCS_REACH_CFG_PORT)
  if s.rd Pg.xLcs LCS_STATUS_SOURCE = 5 then enterHoldover s .hub else s

/-- The exchange interval 2^-n s in milliseconds, as 1000 / 2^n. -/
def reachDen (s : State) : Nat := 2 ^ s.rd Pg.xLcs LCS_REACH_CFG_INTERVAL

/-- R86: an exchange while the tracker is frozen joins the run; the stable exchange identifies the path, computes e as the
mean over the run and unfreezes the tracker. -/
def frozenExchange (s : State) (rtt fwd rev : Int) : State :=
  let tt := s.hub.tt
  let now := s.hub.lcs.ns
  let start := tt.runStart.getD now
  let n := tt.runCount + 1
  let f := tt.runFwd + fwd
  let r := tt.runRev + rev
  let s := { s with hub := { s.hub with tt := { tt with t1 := none, rtt := some rtt, runStart := some start,
                                                        runCount := n, runFwd := f, runRev := r } } }
  let s := s.wr Pg.xLcs LCS_REACH_STAT_RUN_MS (min 0xFFFF ((now - start) / 1000000))
  if now - start ≥ s.rd Pg.xLcs LCS_HOLD_STABLE_MS * 1000000 then
    let path := reachPath s ((f + r).tdiv (n : Int))
    let e := (reachAsym s path * (n : Int) + r - f).tdiv (2 * (n : Int))
    let s := { s with hub := { s.hub with tt := { s.hub.tt with runStart := none, runCount := 0, runFwd := 0,
                                                                runRev := 0 } } }
    let s := setPath (s.wr Pg.xLcs LCS_REACH_STAT_TRACKER 1) path
    trackerMeasure s 5 e 1000 (reachDen s)
  else s

/-- R83–R86: a completed exchange; t1 and t4 local, t2 and t3 at the reference site, ps. -/
def ttDone (s : State) (t1 t2 t3 t4 : Int) : State :=
  let fwd := t2 - t1
  let rev := t4 - t3
  let rtt := fwd + rev
  let jump : Bool := match s.hub.tt.rtt with
    | some old => decide ((rtt - old).natAbs > s.rd Pg.xLcs LCS_REACH_CFG_RTT_JUMP * 8 * 1000)
    | none => false
  if jump then pathChange { s with hub := { s.hub with tt := { s.hub.tt with t1 := none } } }
  else if s.rd Pg.xLcs LCS_REACH_STAT_TRACKER = 2 then frozenExchange s rtt fwd rev
  else
    let s := { s with hub := { s.hub with tt := { s.hub.tt with t1 := none, rtt := some rtt } } }
    let path := reachPath s rtt
    let s := setPath (s.wr Pg.xLcs LCS_REACH_STAT_TRACKER 1) path
    trackerMeasure s 5 ((reachAsym s path + rev - fwd).tdiv 2) 1000 (reachDen s)

/-! ### The meanings -/

/-- R62: LCS_CTRL.STEP = 1. -/
def execLcsStep (p : Part) (ag : Agent) (s : State) : Host.Outcome State Fault Refusal :=
  let pg := lcsPage p
  if s.isUnset p ∧ s.rd pg LCS_CTRL_AUTO_STEP = 0 then
    .next (stepTo s p ((s.rd pg LCS_STEP_SHI * 2 ^ 32 + s.rd pg LCS_STEP_SLO) * 1000000000 + s.rd pg LCS_STEP_NS))
  else .next (syn s pg Syn.STATE ag false 0x06C)

/-- R92: LCS_CTRL.CLR_CNT = 1 clears the counts in LCS_TB_STAT and LCS_SRC_STAT. -/
def execClrCnt (p : Part) (_ag : Agent) (s : State) : Host.Outcome State Fault Refusal :=
  match p with
  | .tally => .next ((s.wr Pg.tLcs LCS_TB_STAT_MISSED 0).wr Pg.tLcs LCS_TB_STAT_BAD_ANN 0)
  | .hub => .next (s.wr Pg.xLcs LCS_SRC_STAT_SWITCHES 0)

/-- R92, R59: LCS_GEN is accepted only while UNSET and LOADED = 0. -/
def execLcsGenWrite (p : Part) (ag : Agent) (gen : BitVec 16) (s : State) : Host.Outcome State Fault Refusal :=
  let pg := lcsPage p
  if s.isUnset p ∧ s.rd pg LCS_GEN_LOADED = 0 then .next ((s.wr pg LCS_GEN_GEN gen.toNat).wr pg LCS_GEN_LOADED 1)
  else .next (syn s pg Syn.STATE ag false 0x054)

/-- R91: a read of LCS_NOW_NS captures nanoseconds, seconds and fraction in one tick. -/
def captureNow (s : State) (pg : Page) : State :=
  let l := s.lcs pg.part
  (((s.wr pg LCS_NOW_NS (l.ns % 1000000000)).wr pg LCS_NOW_SLO (l.ns / 1000000000)).wr pg LCS_NOW_SHI
    (l.ns / 1000000000 / 2 ^ 32)).wr pg LCS_NOW_FRAC l.frac

def execLcsNowRead (pg : Page) (s : State) : Host.Outcome State Fault Refusal :=
  if pageBlk s.cfg pg = some .lcs then .next (captureNow s pg)
  else .next (syn s (absentPage s pg.part) Syn.ABSENT .block false 0x040)

/-- R76: an announcement is taken; it counts only if it has three consecutive beats, a nanoseconds beat that is a multiple of
1,000,000 and at most 999,000,000, and starts at least 8 tb_clk cycles after the preceding pulse (the command stands at
the last beat, two cycles after the first). -/
def execTbAnnouncement (sec : BitVec 64) (ns : Word) (beats : Nat) (consecutive : Bool) (s : State) :
    Host.Outcome State Fault Refusal :=
  let now := s.now .tally
  let late : Bool := match s.tally.pulseAt with
    | some t => decide (now - t ≥ (8 + 2) * 4)
    | none => true
  let ok := beats == 3 && consecutive && ns.toNat % 1000000 == 0 && decide (ns.toNat ≤ 999000000) && late
  .next { s with tally := { s.tally with ann := some ⟨sec.toNat * 1000000000 + ns.toNat, ok, now⟩ } }

/-- R77: the error of a pulse against its announcement, ps: captured − announced − TB_COMP, truncated once. -/
def pulseError (s : State) (announced : Nat) : Int :=
  ((s.tally.lcs.fine - (announced : Int) * ((2 ^ 32 : Nat) : Int) -
    toSigned 32 (s.rd Pg.tLcs LCS_TB_COMP) * ((2 ^ 24 : Nat) : Int)) * 1000).tdiv ((2 ^ 32 : Nat) : Int)

/-- R77: a pulse without a valid announcement: BAD_ANN, and one expected measurement missing. -/
def badAnn (s : State) : State :=
  let s := s.bump Pg.tLcs LCS_TB_STAT_BAD_ANN
  s.setLcs .tally { s.tally.lcs with miss := s.tally.lcs.miss + 1 }

/-- R77: a rising edge of tb_pulse. -/
def execTbPulse (status : BitVec 2) (s : State) : Host.Outcome State Fault Refusal :=
  let now := s.now .tally
  let a := s.tally.ann
  let s := s.wr Pg.tLcs LCS_TB_STAT_HOST status.toNat
  let s := { s with tally := { s.tally with ann := none, pulseAt := some now } }
  match a with
  | some a =>
    if a.ok ∧ now - a.at_ ≥ 10000 then
      .next (measure (s.wr Pg.tLcs LCS_STATUS_SOURCE 1) .tally (pulseError s a.time) 1 1)
    else .next (badAnn s)
  | none => .next (badAnn s)

/-- R77: no pulse within 1 ms + 2 µs of the previous one. -/
def execPulseMiss (s : State) : Host.Outcome State Fault Refusal :=
  match s.tally.pulseAt with
  | some t =>
    if s.now .tally - t > 1002000 then
      let s := s.bump Pg.tLcs LCS_TB_STAT_MISSED
      let s := s.setLcs .tally { s.tally.lcs with miss := s.tally.lcs.miss + 1 }
      .next (raise { s with tally := { s.tally with pulseAt := some (t + 1000000) } } Pg.tLcs Irq.LCS_PULSE_MISS)
    else .next s
  | none => .next s

/-- R66: a Hub source has missed more than MISS_LIMIT expected measurements. -/
def missedOut (s : State) (src : Nat) : Bool :=
  let t := s.tracker src
  !t.valid || decide (s.hub.lcs.ns ≥ t.last + (s.rd Pg.xLcs LCS_SERVO_MISS_LIMIT + 1) * t.interval)

/-- R66: more than MISS_LIMIT consecutive expected measurements missing from every usable source. -/
def execMeasurementMissLimit (p : Part) (s : State) : Host.Outcome State Fault Refusal :=
  match p with
  | .tally =>
    if s.tally.lcs.miss > s.rd Pg.tLcs LCS_SERVO_MISS_LIMIT then .next (enterHoldover s .tally) else .next s
  | .hub =>
    if (prioList s).all (fun src => src < 2 || missedOut s src) then .next (enterHoldover s .hub) else .next s

/-- R79: 16 closed windows of a live slot since the last accepted verdict return the site time state to UNKNOWN. -/
def execSiteQualExpiry (s : State) : Host.Outcome State Fault Refusal :=
  if (liveSlots s).any (fun i => 16 ≤ (getSlot s i).verdWins) then .next (s.wr Pg.tLcs LCS_SITE_QUAL 0) else .next s

/-- R60: a follower that differs from XD0 by one tick (2 ns) or more is reloaded, records STATE and raises FOLLOWER. -/
def execFollowerCheck (die : Nat) (diff : Int) (s : State) : Host.Outcome State Fault Refusal :=
  if diePresent s.cfg die ∧ die ≠ xd0 ∧ diff.natAbs ≥ 2 then
    .next (raise (syn s (Pg.hLcs die) Syn.STATE) (Pg.hLcs die) Irq.LCS_FOLLOWER)
  else .next s

/-- R70, R61: a PTP message received on a fabric or peer port. -/
def execPtpMessageRx (port domain pos interval : Nat) (body : PtpBody) (s : State) : Host.Outcome State Fault Refusal :=
  if ptpSource s port domain = 0 ∨ hubSafe s then .next s
  else if portTest s port then .next (discardFrame s port)
  else .next (ptpRx s (ptpSource s port domain) port domain pos interval body)

/-- R70, R61, R86: as time transmitter, on BOARD (hub index 0, peer ports) or on B (the time-transfer Hub, fabric ports), the
Hub sends a two-step Sync, its Follow_Up and an Announce with the site time state; nothing while UNSET. -/
def execPtpMessageTx (port : Nat) (s : State) : Host.Outcome State Fault Refusal :=
  let dom := if port < 10 then s.rd Pg.xLcs LCS_SRC_CFG_DOM_B else s.rd Pg.xLcs LCS_ROLE_DOM_BOARD
  let role := if port < 10 then s.rd Pg.xLcs LCS_ROLE_TX_B = 1 else port < 14 ∧ s.rd Pg.xLcs LCS_ROLE_BOARD_LEAD = 1
  if s.isUnset .hub = false ∧ role then
    let tx := txStamp s port 0
    .next (sendOn (sendOn (sendOn s port (.ptp port dom 0 tx none 0)) port (.ptp port dom 8 tx none 0)) port
      (.ptp port dom 11 tx none (hubSite s)))
  else .next s

/-- R69: the announce receipt timeout of a domain expires. -/
def execAnnounceTimeout (domain : Nat) (s : State) : Host.Outcome State Fault Refusal :=
  let src := if domain = s.rd Pg.xLcs LCS_SRC_CFG_DOM_A then 2 else if domain = s.rd Pg.xLcs LCS_SRC_CFG_DOM_B then 3
    else if domain = s.rd Pg.xLcs LCS_ROLE_DOM_BOARD then 4 else 0
  if src = 0 then .next s
  else .next (trackerInvalid (setTracker s src { s.tracker src with annOut := true }) src)

/-- R71: the sources of the list above the selected one. -/
def higherSources (s : State) : List Nat :=
  (prioList s).takeWhile (fun p => p != s.rd Pg.xLcs LCS_STATUS_SOURCE)

/-- R71: a source higher in the list that has been valid for STABLE_MS is selected. -/
def execSourceStable (s : State) : Host.Outcome State Fault Refusal :=
  match (higherSources s).find? (fun p => 2 ≤ p && (s.tracker p).valid &&
      decide (s.hub.lcs.ns ≥ (s.tracker p).since + s.rd Pg.xLcs LCS_HOLD_STABLE_MS * 1000000)) with
  | some p => .next (selectSource s p)
  | none => .next s

/-- R87: one second after a change of selected source TQ.SWITCHED returns to 0. -/
def execSwitchedExpiry (s : State) : Host.Outcome State Fault Refusal :=
  match s.hub.switchedAt with
  | some t =>
    if s.hub.lcs.ns ≥ t + 1000000000 then .next { s with hub := { s.hub with switchedAt := none } } else .next s
  | none => .next s

/-- R73: the offset of a 1PPS edge from the nearest whole second, ps. -/
def ppsOffset (l : Longcase) : Int :=
  let x : Int := l.ps - ((l.ns / 1000000000 : Nat) : Int) * 1000000000000
  if x > 500000000000 then x - 1000000000000 else x

/-- R73: a rising edge of the 1PPS input. -/
def execPpsEdge (s : State) : Host.Outcome State Fault Refusal :=
  let s := s.wr Pg.xLcs LCS_PPS_OFS (offsetWord (some (ppsOffset s.hub.lcs)))
  .next { s with hub := { s.hub with ppsAt := some s.hub.lcs.ns } }

/-- R83: the time-transfer Hub starts an exchange every 2^-n s. -/
def execTtExchangeTx (am : Nat) (s : State) : Host.Outcome State Fault Refusal :=
  let due : Bool := match s.hub.tt.started with
    | some t => decide (s.hub.lcs.ns ≥ t + 1000000000 / reachDen s)
    | none => true
  if s.rd Pg.xLcs LCS_ROLE_TX_B = 1 ∧ due then
    let port := 14 + s.rd Pg.xLcs LCS_REACH_CFG_PORT
    let tx := txStamp s port am
    let s := { s with hub := { s.hub with tt := { s.hub.tt with started := some s.hub.lcs.ns, t1 := some tx } } }
    .next (sendOn s port (.ttFrame port tx none))
  else .next s

/-- R83–R86: the answer of the reference site completes the exchange. -/
def execTtExchangeDone (t2 t3 pos : Nat) (s : State) : Host.Outcome State Fault Refusal :=
  match s.hub.tt.t1 with
  | some t1 =>
    .next (ttDone s t1 ((t2 : Int) * 1000) ((t3 : Int) * 1000)
      (rxStamp s (14 + s.rd Pg.xLcs LCS_REACH_CFG_PORT) pos))
  | none => .next s

/-- R83: the reference site's Hub answers an exchange frame with its own timestamped frame. -/
def execTtExchangeRx (port pos am : Nat) (s : State) : Host.Outcome State Fault Refusal :=
  if s.rd Pg.xLcs LCS_ROLE_REF_SITE = 1 ∧ port < 2 then
    .next (sendOn s (14 + port) (.ttFrame (14 + port) (txStamp s (14 + port) am) (some (rxStamp s (14 + port) pos))))
  else .next s

/-- R69: a source that delivers no measurement for MISS_LIMIT intervals (one, where MISS_LIMIT is 0) has an invalid
tracker. A frozen REACH tracker waits for its stable run instead (R86; log entry 13). -/
def execTrackerMissLimit (src : Nat) (s : State) : Host.Outcome State Fault Refusal :=
  let t := s.tracker src
  if 2 ≤ src ∧ src ≤ 5 ∧ t.valid = true ∧ ¬ (src = 5 ∧ s.rd Pg.xLcs LCS_REACH_STAT_TRACKER = 2) ∧
      s.hub.lcs.ns > t.last + max 1 (s.rd Pg.xLcs LCS_SERVO_MISS_LIMIT) * t.interval then
    .next (trackerInvalid s src)
  else .next s

end Sys2Proof.Machine
end

