-- ==== Sys2Proof/Machine/Trestle.lean ====
section
/-!
DEFINITION. Sys2Proof/Machine/Trestle.lean: the exact reduction (R182–R187): what a field takes from a record, how a value is added
and two states are merged, the histogram buckets and the median; and the reading of a record's sections (R131, R174 check 14).
-/
namespace Sys2Proof.Machine

/-! ### Reading a record -/

/-- The sections of a record. -/
structure RecView where
  /-- (delta, saturated) per hot-list entry carried. -/
  hot : List (Nat × Bool)
  slow : List (Nat × Nat)
  /-- (gauge, last, smallest, largest). -/
  gauges : List (Nat × Int × Int × Int)
  /-- (kind, mark ID, step, nanoseconds from window start, tag). -/
  marks : List (Nat × Nat × Nat × Nat × Nat)
  drops : Nat
  /-- (partition × 16 + queue, fJ). -/
  energy : List (Nat × Nat)
  total : Nat
  unattr : Nat
  res : List Nat
  loss : Nat
  deriving DecidableEq, Repr

def RecView.empty : RecView :=
  { hot := [], slow := [], gauges := [], marks := [], drops := 0, energy := [], total := 0, unattr := 0, res := [], loss := 0 }

/-- The n-byte big-endian value at an offset. -/
def beAt (l : List Nat) (off n : Nat) : Nat := ofBe ((l.drop off).take n)

/-- Bit i of a bitmap of big-endian words at an offset. -/
def bitAt (l : List Nat) (off i : Nat) : Bool := bit (beAt l (off + 4 * (i / 32)) 4) (i % 32)

/-- The bits of a bitmap beyond its n entries are 0. -/
def bitmapClean (l : List Nat) (off n : Nat) : Bool :=
  (List.range (32 * ceilDiv n 32 - n)).all (fun i => !bitAt l off (n + i))

/-- The deltas of a packed HOT section: those present taken in order, the others 0. -/
def unpackHot (l : List Nat) (off : Nat) : List Bool → Nat → List Nat
  | [], _ => []
  | true :: ps, i => beAt l (off + 4 * i) 4 :: unpackHot l off ps (i + 1)
  | false :: ps, i => 0 :: unpackHot l off ps i

/-- A section's content (the bytes after its header): the view with it added, and the length of the content; none where it is
not well formed. -/
abbrev SecRead := Option (RecView × Nat)

/-- R131, R132: the HOT section. -/
def readHot (v : RecView) (l : List Nat) (packed sat : Bool) (n : Nat) : SecRead :=
  let w := 4 * ceilDiv n 32
  let present := (List.range n).map (bitAt l 0)
  let body := if packed then w + 4 * (present.filter id).length else 4 * n
  let len := body + (if sat then w else 0)
  let deltas := if packed then unpackHot l w present 0 else (List.range n).map (fun i => beAt l (4 * i) 4)
  let sats := (List.range n).map (fun i => sat && bitAt l body i)
  if l.length < len ∨ (packed && !bitmapClean l 0 n) ∨ (sat && !bitmapClean l body n) then none
  else some ({ v with hot := deltas.zip sats }, len)

def readSlow (v : RecView) (l : List Nat) (n : Nat) : SecRead :=
  if l.length < 12 * n then none
  else some ({ v with slow := (List.range n).map (fun i => (beAt l (12 * i) 4, beAt l (12 * i + 4) 8)) }, 12 * n)

def readGauge (v : RecView) (l : List Nat) (n : Nat) : SecRead :=
  let g (i o : Nat) : Int := toSigned 64 (beAt l (28 * i + o) 8)
  if l.length < 28 * n then none
  else some ({ v with gauges := (List.range n).map (fun i => (beAt l (28 * i) 4, g i 4, g i 12, g i 20)) }, 28 * n)

def readMark (v : RecView) (l : List Nat) (n : Nat) : SecRead :=
  let m (i : Nat) : Nat × Nat × Nat × Nat × Nat :=
    let w := beAt l (4 + 12 * i) 4
    (bits w 31 30, bits w 27 16, beAt l (8 + 12 * i) 4, beAt l (12 + 12 * i) 4, bits w 15 0)
  if l.length < 4 + 12 * n then none
  else some ({ v with drops := beAt l 0 4, marks := (List.range n).map m }, 4 + 12 * n)

/-- The ENERGY section with q queues for each partition. -/
def readEnergyQ (v : RecView) (l : List Nat) (n q : Nat) : RecView × Nat :=
  let owned := setBits 16 (beAt l 0 4)
  let e := (owned.zipIdx).flatMap (fun x => (List.range q).map (fun j => (x.1 * 16 + j, beAt l (4 + 8 * (x.2 * q + j)) 8)))
  let o := 4 + 8 * n * q
  ({ v with energy := e, total := beAt l o 8, unattr := beAt l (o + 8) 8 }, o + 16)

/-- R131: the ENERGY section; 16 queues or 4 follow from what is left for RESIDENCY (24 bytes) and LOSS (8 more). -/
def readEnergy (v : RecView) (l : List Nat) (n : Nat) : SecRead :=
  let fits (q : Nat) : Bool := l.length == 4 + 8 * n * q + 16 + 24 || l.length == 4 + 8 * n * q + 16 + 32
  if popcount 16 (beAt l 0 4) ≠ n ∨ beAt l 0 4 ≥ 2 ^ 16 then none
  else if fits 16 then some (readEnergyQ v l n 16)
  else if fits 4 then some (readEnergyQ v l n 4) else none

def readRes (v : RecView) (l : List Nat) (n : Nat) : SecRead :=
  if n ≠ 5 ∨ l.length < 20 then none else some ({ v with res := (List.range 5).map (fun i => beAt l (4 * i) 4) }, 20)

def readLoss (v : RecView) (l : List Nat) (n : Nat) : SecRead :=
  if n ≠ 1 ∨ l.length < 4 then none else some ({ v with loss := beAt l 0 4 }, 4)

/-- The content of a section of a TYPE. -/
def readSection (v : RecView) (type : Nat) (packed sat : Bool) (n : Nat) (l : List Nat) : SecRead :=
  match type with
  | 1 => readHot v l packed sat n
  | 2 => readSlow v l n
  | 3 => readGauge v l n
  | 4 => readMark v l n
  | 5 => readEnergy v l n
  | 6 => readRes v l n
  | 7 => readLoss v l n
  | _ => none

/-- Read the section of a TYPE, if it stands first: MARK, ENERGY and RESIDENCY must. -/
def readIf (type : Nat) (x : Option (RecView × List Nat)) : Option (RecView × List Nat) :=
  match x with
  | none => none
  | some (v, l) =>
    let h := beAt l 0 4
    if l.length ≥ 4 ∧ bits h 31 24 = type then
      if bits h 21 16 ≠ 0 then none
      else match readSection v type (bit h 23) (bit h 22) (bits h 15 0) (l.drop 4) with
        | some (v, n) => some (v, l.drop (4 + n))
        | none => none
    else if type = 4 ∨ type = 5 ∨ type = 6 then none else some (v, l)

/-- R174 check 14: the sections of a record's plaintext; none where it is not well formed under R131. -/
def readRecord (plain : List Nat) : Option RecView :=
  match readIf 7 (readIf 6 (readIf 5 (readIf 4 (readIf 3 (readIf 2 (readIf 1 (some (RecView.empty, plain)))))))) with
  | some (v, []) => some v
  | _ => none

/-! ### Fields (R182, R183) -/

/-- R182: the largest and smallest value of a source's width and sign. -/
def srcMax (src : Nat) : Int :=
  if src = 3 ∨ src = 4 ∨ src = 5 then 2 ^ 63 - 1 else if src = 2 ∨ src = 6 ∨ src = 7 ∨ src = 8 then 2 ^ 64 - 1 else 2 ^ 32 - 1
def srcMin (src : Nat) : Int := if src = 3 ∨ src = 4 ∨ src = 5 then -(2 ^ 63) else 0

/-- R184: the empty state. -/
def FState.empty (src : Nat) : FState :=
  { sum := 0, count := 0, sat := 0, min := srcMax src, minU := 0x00FFFFFF, max := srcMin src, maxU := 0x00FFFFFF, under := 0,
    above := 0, hist := [] }

/-- R183: the value a record carries for a field, with the saturation mark of a hot delta; none where it carries none. -/
def fieldValue (f : TField) (r : RecView) : Option (Int × Bool) :=
  let nat (x : Nat) : Option (Int × Bool) := some ((x : Int), false)
  match f.src with
  | 1 => (r.hot[f.index]?).map (fun x => ((x.1 : Int), x.2))
  | 2 => (r.slow.find? (fun x => x.1 == f.index)).map (fun x => ((x.2 : Int), false))
  | 3 => (r.gauges.find? (fun x => x.1 == f.index)).map (fun x => (x.2.1, false))
  | 4 => (r.gauges.find? (fun x => x.1 == f.index)).map (fun x => (x.2.2.1, false))
  | 5 => (r.gauges.find? (fun x => x.1 == f.index)).map (fun x => (x.2.2.2, false))
  | 6 => (r.energy.find? (fun x => x.1 == f.index)).map (fun x => ((x.2 : Int), false))
  | 7 => nat r.total
  | 8 => nat r.unattr
  | 9 => (r.res[f.index]?).map (fun x => ((x : Int), false))
  | 10 => (r.marks.find? (fun m => m.1 == f.mkind && m.2.1 == f.index)).map (fun m => ((m.2.2.2.1 : Int), false))
  | 11 => nat r.loss
  | _ => none

/-! ### Adding and merging (R185, R186) -/

/-- Floor of the base-2 logarithm. -/
def floorLog2 (x : Nat) : Nat := Nat.log2 x

/-- R186: the bucket of a value, and whether it lies under or over the histogram's range. -/
def bucket (shift : Nat) (bias v : Int) : Nat × Bool × Bool :=
  let x := sra (v - bias * ((2 ^ shift : Nat) : Int)) shift
  if x < 0 then (0, true, false)
  else if x ≥ 262144 then (127, false, true)
  else if x < 8 then (x.toNat, false, false)
  else
    let n := x.toNat
    let e := floorLog2 n
    (8 * (e - 2) + n / 2 ^ (e - 3) % 8, false, false)

/-- Saturation at 0xFFFF_FFFF (R184). -/
def sat32 (x : Nat) : Nat := min x 0xFFFFFFFF

/-- Add to one count of a sparse ascending list. -/
def histAdd : List (Nat × Nat) → Nat → Nat → List (Nat × Nat)
  | [], k, n => [(k, sat32 n)]
  | (k', n') :: t, k, n =>
    if k < k' then (k, sat32 n) :: (k', n') :: t else if k = k' then (k', sat32 (n' + n)) :: t else (k', n') :: histAdd t k n

/-- The smaller of two values with their units; a tie goes to the smaller unit. -/
def takeMin (a : Int) (ua : Nat) (b : Int) (ub : Nat) : Bool := decide (b < a) || (a == b && decide (ub < ua))
def takeMax (a : Int) (ua : Nat) (b : Int) (ub : Nat) : Bool := decide (b > a) || (a == b && decide (ub < ua))

/-- R185: add_value of unit u in peer group g. -/
def addValue (f : TField) (pg : Nat) (st : FState) (v : Int) (sat : Bool) (u g : Nat) : FState :=
  let st := { st with count := sat32 (st.count + 1), sat := sat32 (st.sat + b2n sat),
                      sum := if f.sum then st.sum + v else st.sum }
  let st := if f.ext && takeMin st.min st.minU v u then { st with min := v, minU := u } else st
  let st := if f.ext && takeMax st.max st.maxU v u then { st with max := v, maxU := u } else st
  if f.hist && decide (g < pg) then
    let b := bucket f.shift f.bias v
    { st with hist := histAdd st.hist (g * 128 + b.1) 1, under := sat32 (st.under + b2n b.2.1),
              above := sat32 (st.above + b2n b.2.2) }
  else st

/-- R183: a record enters a field's state. -/
def addRecord (pg : Nat) (r : RecView) (u g : Nat) (x : TField × FState) : FState :=
  match fieldValue x.1 r with
  | some (v, sat) => addValue x.1 pg x.2 v sat u g
  | none => x.2

/-- R185: merge of two states of one field. -/
def mergeField (f h : FState) : FState :=
  { sum := f.sum + h.sum, count := sat32 (f.count + h.count), sat := sat32 (f.sat + h.sat),
    min := if takeMin f.min f.minU h.min h.minU then h.min else f.min,
    minU := if takeMin f.min f.minU h.min h.minU then h.minU else f.minU,
    max := if takeMax f.max f.maxU h.max h.maxU then h.max else f.max,
    maxU := if takeMax f.max f.maxU h.max h.maxU then h.maxU else f.maxU,
    under := sat32 (f.under + h.under), above := sat32 (f.above + h.above),
    hist := h.hist.foldl (fun l x => histAdd l x.1 x.2) f.hist }

/-- The empty states of a field table. -/
def emptyStates (fs : List TField) : List FState := fs.map (fun f => FState.empty f.src)

/-- Merge field by field. -/
def mergeStates (a b : List FState) : List FState := (a.zip b).map (fun x => mergeField x.1 x.2)

/-! ### The median (R187) -/

/-- The count of a bucket of a peer group. -/
def histGet (l : List (Nat × Nat)) (k : Nat) : Nat := ((l.find? (fun x => x.1 == k)).map (·.2)).getD 0

def bucketLower (b : Nat) : Nat := if b < 8 then b else (8 + b % 8) * 2 ^ (b / 8 - 1)
def bucketWidth (b : Nat) : Nat := if b < 8 then 1 else 2 ^ (b / 8 - 1)

/-- R187, from bucket b with `cum` counted below it. -/
def medianFrom (h : Nat → Nat) (r : Nat) : Nat → Nat → Nat → Option Nat
  | 0, _, _ => none
  | fuel + 1, b, cum =>
    if cum + h b ≥ r then some (bucketLower b + bucketWidth b * (2 * (r - cum) - 1) / (2 * h b))
    else medianFrom h r fuel (b + 1) (cum + h b)

/-- R187: the median of peer group g; none where nothing is counted. -/
def median (f : TField) (st : FState) (g : Nat) : Option Int :=
  let h (b : Nat) : Nat := histGet st.hist (g * 128 + b)
  let n := ((List.range 128).map h).foldl (· + ·) 0
  if n = 0 then none
  else (medianFrom h ((n + 1) / 2) 128 0 0).map (fun m => ((m : Int) + f.bias) * ((2 ^ f.shift : Nat) : Int))

end Sys2Proof.Machine
end

