-- ==== Sys2Proof/Machine/Ingest.lean ====
section
/-!
DEFINITION. Sys2Proof/Machine/Ingest.lean: what the Hub takes in (R170–R181, R195, R457): frames on the fabric ports, reassembly,
the acceptance checks, the entry of a record into its window.
-/
namespace Sys2Proof.Machine
open Reg

/-! ### Ingest dies and settings -/

def getIng (s : State) (d : Nat) : IngDie := s.hub.ing.getD (d - 56) IngDie.reset
def setIng (s : State) (d : Nat) (x : IngDie) : State := { s with hub := { s.hub with ing := s.hub.ing.set (d - 56) x } }

/-- The live ING_MAP of a die, by UNIT[2:0]. -/
def liveMap (s : State) (d : Nat) : List Nat :=
  [ING_MAP_DIE0, ING_MAP_DIE1, ING_MAP_DIE2, ING_MAP_DIE3, ING_MAP_DIE4, ING_MAP_DIE5, ING_MAP_DIE6, ING_MAP_DIE7].map
    (fun f => s.rd (Pg.ing d) f)

/-- R171: the ingest die of a unit for a frame whose SFD stands at `t`: the map live REASM_US before it. -/
def ingestDie (s : State) (d unit t : Nat) : Nat :=
  let at_ := t - s.rd (Pg.ing d) ING_CFG_REASM_US * 1000
  let map := match (getIng s d).maps.find? (fun m => decide (m.1 ≤ at_)) with
    | some m => m.2
    | none => match (getIng s d).maps.getLast? with
      | some _ => List.range 8
      | none => liveMap s d
  56 + map.getD (unit % 8) 0

/-- The field table of a job slot on a die's TRS page. -/
def fieldTable (s : State) (d slot : Nat) : List TField :=
  (List.range (s.rd (Pg.trs d) TRS_FLD_COUNT slot)).map (fun i =>
    let k := slot * 2048 + i
    let r (f : Fld) : Nat := s.rd (Pg.trs d) f k
    { src := r TRS_FLD_DATA0_SRC, sum := r TRS_FLD_DATA0_SUM == 1, ext := r TRS_FLD_DATA0_EXT == 1,
      hist := r TRS_FLD_DATA0_HIST == 1, mkind := r TRS_FLD_DATA0_MKIND, index := r TRS_FLD_DATA0_INDEX,
      shift := r TRS_FLD_DATA1_SHIFT, bias := toSigned 26 (r TRS_FLD_DATA1_BIAS) })

/-- The live settings of a job slot on a die. -/
def liveGen (s : State) (d slot : Nat) : JobGen :=
  let r (f : Fld) : Nat := s.rd (Pg.ing d) f slot
  { from_ := s.now .hub, slot, job := r ING_JOB_ID, k := r ING_JOB_CFG_K, late := r ING_JOB_CFG_LATE_WIN,
    home := r ING_JOB_CFG_HOME, pg := r ING_JOB_CFG_PG, sealO := r ING_JOB_DL_SEAL_OFS, verdO := r ING_JOB_DL_VERD_OFS,
    hold := r ING_JOB_HOLD, gen := r ING_JOB_GEN, epoch := r ING_JOB_EPOCH, fields := fieldTable s d slot }

/-- The job slots a die's page names live, ascending. -/
def liveJobSlots (s : State) (d : Nat) : List Nat :=
  (List.range 256).filter (fun i => s.rd (Pg.ing d) ING_JOB_ID i != 0)

/-- The newest generation of a slot. -/
def headGen (x : IngDie) (slot : Nat) : Option JobGen := x.gens.find? (fun g => g.slot == slot)

/-- R173: the settings of a slot have changed live: a new generation governs windows that start now or later. -/
def noteGen (s : State) (d slot : Nat) : State :=
  let x := getIng s d
  let g := liveGen s d slot
  match headGen x slot with
  | some h =>
    if { h with from_ := g.from_ } = g then s
    else if h.from_ = g.from_ then setIng s d { x with gens := g :: x.gens.filter (fun y => y != h) }
    else setIng s d { x with gens := g :: x.gens }
  | none => if g.job = 0 then s else setIng s d { x with gens := g :: x.gens }

/-- R171, R173: after a change of live settings on the ING or TRS page of a die. -/
def noteSettings (s : State) (d : Nat) : State :=
  let s := (List.range 256).foldl (fun s i => noteGen s d i) s
  let x := getIng s d
  if (x.maps.head?).map (·.2) = some (liveMap s d) then s
  else setIng s d { x with maps := ((s.now .hub, liveMap s d) :: x.maps).take 8 }

/-- R173: the settings of a job slot that govern a window of the given start; none where the slot took up its job later. -/
def genAt (s : State) (d slot job start : Nat) : Option JobGen :=
  match (getIng s d).gens.find? (fun g => g.slot == slot && decide (g.from_ ≤ start)) with
  | some g => if g.job = job then some g else none
  | none => none

/-- The live slot of a job on a die (R174 check 5). -/
def slotOf (s : State) (d job : Nat) : Option Nat := (liveJobSlots s d).find? (fun i => s.rd (Pg.ing d) ING_JOB_ID i == job)

/-- R178: the seal deadline and the late horizon of window n, ns. -/
def sealDeadline (g : JobGen) (n : Nat) : Nat := windowEnd n g.k + g.sealO * 1000
def lateHorizon (g : JobGen) (n : Nat) : Nat := sealDeadline g n + g.late * (125000 * 2 ^ g.k)

/-- The roster of a job at a generation. -/
def rosterOf (s : State) (job gen : Nat) : Option Roster := s.hub.rosters.find? (fun r => r.job == job && r.gen == gen)

/-- R191: this Hub as a sender: site, board, hub index. -/
def selfId (s : State) : Nat :=
  s.rd (Pg.cab 56) CAB_BOARD_SITE * 2 ^ 21 + s.rd (Pg.cab 56) CAB_BOARD_BOARD_ID * 32 + s.rd (Pg.cab 56) CAB_STATE_HUB_INDEX

/-- The member entry of a unit in a roster generation. -/
def memberOf (s : State) (job gen unit : Nat) : Option Member :=
  (rosterOf s job gen).bind (fun r => r.members.find? (fun m => m.unit == unit))

/-- R417: the job key of an epoch, in any state in which it is held. -/
def jobKey (s : State) (job epoch : Nat) : Option HKey :=
  s.hub.keys.find? (fun k => k.kind == 1 && k.job == job && k.epoch == epoch)

/-! ### Counters and refusals -/

namespace Cnt
/-! ING_CNT_SEL (R197). -/
def ONTIME : Nat := 0
def LATE : Nat := 1
def DUP : Nat := 2
def CONFLICT : Nat := 3
def NOT_QRP : Nat := 4
def HDR : Nat := 5
def SEGMENT : Nat := 6
def REASM : Nat := 7
def BUSY : Nat := 8
def NOJOB : Nat := 9
def FUTURE : Nat := 10
def STALE : Nat := 11
def KMISMATCH : Nat := 12
def ROSTER : Nat := 13
def AUTH : Nat := 14
def POISON : Nat := 15
def DIGEST : Nat := 16
def RESPONSE : Nat := 17
def AGG : Nat := 18
end Cnt

def count (s : State) (d c : Nat) (n : Nat := 1) : State := s.incr (Pg.ing d) ING_CNT c n

/-- R174: a refusal at a check of die d. -/
def ingRefuse (s : State) (d check code cnt : Nat) : State := count (syn s (Pg.ing d) code .block false 0 check) d cnt

/-- R177: bytes of a die's ingest buffer in use. -/
def bufUsed (x : IngDie) : Nat := (x.reasm.map (fun r => (r.parts.map (fun p => p.2.1)).foldl (· + ·) 0)).foldl (· + ·) 0

def noteBuf (s : State) (d : Nat) : State := s.wr (Pg.ing d) ING_BUF (ceilDiv (bufUsed (getIng s d)) 1024)

/-- R177: a frame that finds a buffer full. -/
def ingBusy (s : State) (d : Nat) : State := raise (count (syn s (Pg.ing d) Syn.SIZE) d Cnt.BUSY) (Pg.ing d) Irq.ING_BUSY

/-! ### Reassembly (R174) -/

/-- The header fields by which segments are grouped. -/
def sameSet (a b : QrpHdr) : Bool :=
  a.kind == b.kind && a.job == b.job && a.unit == b.unit && a.window == b.window && a.epoch == b.epoch && a.rev == b.rev &&
  a.sealedLen == b.sealedLen

def Reasm.holds (r : Reasm) (i : Nat) : Bool := r.parts.any (fun p => p.1 == i)
def Reasm.complete (r : Reasm) : Bool := (List.range r.segs).all r.holds

/-- Check 4: every segment but the last of one length, the lengths summing to SEALED_LEN. -/
def Reasm.lengthsOk (r : Reasm) : Bool :=
  let len (i : Nat) : Nat := ((r.parts.find? (fun p => p.1 == i)).map (fun p => p.2.1)).getD 0
  (List.range (r.segs - 1)).all (fun i => len i == len 0) &&
  ((List.range r.segs).map len).foldl (· + ·) 0 == r.hdr.sealedLen

/-- The sealed data of a set, where every segment is of the same. -/
def Reasm.data (r : Reasm) : Option Sealed :=
  match r.parts with
  | [] => none
  | p :: ps => if ps.all (fun q => q.2.2 == p.2.2) then some p.2.2 else none

/-- R174: a segment enters the ingest buffer of its die. -/
def putSegment (s : State) (d port t : Nat) (f : QFrame) : State :=
  let x := getIng s d
  let lim := s.rd (Pg.ing d) ING_CFG_REASM_US * 1000
  match x.reasm.find? (fun r => sameSet r.hdr f.hdr && r.segs == f.segs) with
  | some r =>
    if r.holds f.seg then count s d Cnt.DUP
    else if t > r.tFirst + lim then
      noteBuf (ingRefuse (setIng s d { x with reasm := x.reasm.erase r }) d 4 Syn.TIMEOUT Cnt.REASM) d
    else if bufUsed x + f.len > 4194304 then ingBusy s d
    else
      let r' := { r with parts := r.parts ++ [(f.seg, f.len, f.body)], tLast := max r.tLast t, tFirst := min r.tFirst t, port }
      noteBuf (setIng s d { x with reasm := x.reasm.map (fun y => if y = r then r' else y) }) d
  | none =>
    if bufUsed x + f.len > 4194304 then ingBusy s d
    else
      let r : Reasm := { hdr := f.hdr, segs := f.segs, parts := [(f.seg, f.len, f.body)], tFirst := t, tLast := t, port }
      noteBuf (setIng s d { x with reasm := x.reasm ++ [r] }) d

/-- R170, R174 checks 1 to 3, on the die that receives the frame with SFD time t. -/
def frameIn (s : State) (d port t : Nat) (f : QFrame) : State :=
  let udp := s.rd (Pg.ing d) ING_CFG_UDP_PORT
  if f.fcs = false then count s d Cnt.NOT_QRP
  else if f.udp ≠ udp then (if udp < f.udp ∧ f.udp ≤ udp + 3 then s else count s d Cnt.NOT_QRP)
  else if f.hdr.ver ≠ 1 ∨ ¬ (f.hdr.kind = 1 ∨ f.hdr.kind = 2 ∨ f.hdr.kind = 3) then ingRefuse s d 2 Syn.RANGE Cnt.HDR
  else if f.seg ≥ f.segs ∨ f.hdr.sealedLen > 13916 then ingRefuse s d 3 Syn.SIZE Cnt.SEGMENT
  else putSegment s (ingestDie s d f.hdr.unit t) port t f

/-- Bytes of a fabric frame. -/
def frameLen (f : QFrame) : Nat := 66 + 32 + f.len + 4

/-- Bytes the model does not compute (ciphertext and framing of a held transfer): free values. -/
def freeBytes (s : State) (n : Nat) : State × List Nat :=
  ({ s with freeCtr := s.freeCtr + n }, (List.range n).map (fun i => (Config.freeWord (s.freeCtr + i)).toNat % 256))

/-- R195, R455: a frame received while the page is frozen waits in the port's buffer and is recorded as channel state. -/
def holdFrame (s : State) (d port t : Nat) (f : QFrame) : State :=
  let x := getIng s d
  let used := ((x.held.filter (fun h => h.1 == port)).map (fun h => frameLen h.2.2)).foldl (· + ·) 0
  if used + frameLen f > 2097152 then ingBusy s d
  else
    let c := freeBytes (setIng s d { x with held := x.held ++ [(port, t, f)] }) (frameLen f)
    chanRecord c.1 d 3 port t (d * 2 ^ 24 + 0x7FF) (d * 2 ^ 24 + 0x7FF) c.2

/-- R195: at release the held frames are taken in arrival order. -/
def drainHeld (s : State) (d : Nat) : State :=
  if isFrozen s (Pg.ing d) then s
  else
    let x := getIng s d
    x.held.foldl (fun s h => frameIn s d h.1 h.2.1 h.2.2) (setIng s d { x with held := [] })

def drainAll (s : State) : State := ((List.range 8).map (· + 56)).foldl drainHeld s

/-- R170, R443: a frame received on a fabric port; `pos` is the SFD's place in its codeword. -/
def execQrpFrameRx (port pos : Nat) (f : QFrame) (s : State) : Host.Outcome State Fault Refusal :=
  if port ≥ 10 ∨ hubSafe s then .next s
  else if portTest s port then .next (discardFrame s port)
  else
    let d := portDie port
    let t := (rxStamp s port pos / 1000).toNat
    let s := s.incr (Pg.hBur d) BUR_AOC 12
    let s := if f.fcs then s else s.incr (Pg.hBur d) BUR_AOC 13
    if isFrozen s (Pg.ing d) then .next (holdFrame s d port t f) else .next (frameIn (drainHeld s d) d port t f)

/-- R174 check 4: the sets of a die whose segments are not all present within REASM_US are discarded whole. -/
def execReasmTimeout (d : Nat) (s : State) : Host.Outcome State Fault Refusal :=
  if ¬ isXD d ∨ isFrozen s (Pg.ing d) then .next s
  else
    let s := drainHeld s d
    let x := getIng s d
    let lim := s.rd (Pg.ing d) ING_CFG_REASM_US * 1000
    let out (r : Reasm) : Bool := !r.complete && decide (s.now .hub > r.tFirst + lim)
    let n := (x.reasm.filter out).length
    let s := setIng s d { x with reasm := x.reasm.filter (fun r => !out r) }
    .next (noteBuf ((List.range n).foldl (fun s _ => ingRefuse s d 4 Syn.TIMEOUT Cnt.REASM) s) d)

/-! ### Windows -/

/-- The window of a job in flight. -/
def findWin (s : State) (slot job n : Nat) : Option JobWin :=
  s.hub.wins.find? (fun w => w.slot == slot && w.job == job && w.win == n)

def emptyPartial (g : JobGen) : Partial := { fields := emptyStates g.fields, records := 0, late := 0 }

/-- The settings of a window on a die: those of R173, where they exist there. -/
def winGen (s : State) (d slot job n k : Nat) : JobGen :=
  (genAt s d slot job (windowStart n k)).getD (liveGen s d slot)

/-- The window, new where nothing of it has been seen. -/
def theWin (s : State) (g : JobGen) (n : Nat) : JobWin :=
  (findWin s g.slot g.job n).getD
    { slot := g.slot, job := g.job, win := n,
      parts := (List.range 8).map (fun i => emptyPartial (winGen s (56 + i) g.slot g.job n g.k)),
      table := [], snap := none, sealed := false, closed := false, mergeLate := false, expired := false, flags := 0, contribs := [], issued := [], taped := false,
      released := false }

/-- Store a window. -/
def putWin (s : State) (w : JobWin) : State :=
  let same (v : JobWin) : Bool := v.slot == w.slot && v.job == w.job && v.win == w.win
  if s.hub.wins.any same then { s with hub := { s.hub with wins := s.hub.wins.map (fun v => if same v then w else v) } }
  else { s with hub := { s.hub with wins := s.hub.wins ++ [w] } }

/-- R185: the peer group a unit counts in. -/
def peerGroup (s : State) (g : JobGen) (unit : Nat) : Nat :=
  match memberOf s g.job g.gen unit with
  | some m => if m.pgroup < g.pg then m.pgroup else 0
  | none => 0

/-- R185: a record enters a partial. -/
def addToPartial (s : State) (g : JobGen) (p : Partial) (v : RecView) (unit : Nat) (late : Bool) : Partial :=
  { fields := (g.fields.zip p.fields).map (addRecord g.pg v unit (peerGroup s g unit)), records := p.records + 1,
    late := p.late + b2n late }

/-! ### Acceptance (R174–R176, R457) -/

/-- WINDOW [54:0] of a snapshot record (R457), the window index otherwise. -/
def recWin (h : QrpHdr) : Nat := if h.flags % 2 = 1 then h.window % 2 ^ 55 else h.window

/-- What the checks 4 to 11 of R174 find for a complete RECORD set on die d. -/
inductive RecRes
  | refuse (check code cnt : Nat)
  | pass (g : JobGen) (body : Sealed)

def checkRecord (s : State) (d : Nat) (r : Reasm) : RecRes :=
  let h := r.hdr
  let n := recWin h
  let snap := h.flags % 2 = 1
  if r.lengthsOk = false then .refuse 4 Syn.SIZE Cnt.REASM
  else match slotOf s d h.job with
    | none => .refuse 5 Syn.ROSTER Cnt.NOJOB
    | some slot => match genAt s d slot h.job (windowStart n h.k) with
      | none => .refuse 5 Syn.ROSTER Cnt.NOJOB
      | some g =>
        if (if snap then windowStart n h.k else windowEnd n h.k) > r.tFirst + 100 then .refuse 6 Syn.RANGE Cnt.FUTURE
        else if r.tLast > lateHorizon g n then .refuse 7 Syn.LATE Cnt.STALE
        else if h.k ≠ g.k then .refuse 8 Syn.RANGE Cnt.KMISMATCH
        else if ¬ (memberOf s h.job g.gen h.unit).any (fun m => m.hub == selfId s) then .refuse 9 Syn.ROSTER Cnt.ROSTER
        else if h.epoch ≠ g.epoch then .refuse 10 Syn.AUTH Cnt.AUTH
        else match jobKey s h.job h.epoch with
          | none => .refuse 10 Syn.AUTH Cnt.AUTH
          | some key => match r.data with
            | none => .refuse 11 Syn.AUTH Cnt.AUTH
            | some body =>
              if body.intact = false ∨ body.key ≠ key.val ∨ body.hdr ≠ h ∨ body.plain.length + 16 ≠ h.sealedLen then
                .refuse 11 Syn.AUTH Cnt.AUTH
              else .pass g body

/-- R175: the record already accepted with this identity. -/
def seenRecord (w : JobWin) (h : QrpHdr) : Option TabRec :=
  w.table.find? (fun t => t.body.hdr.unit == h.unit && t.body.hdr.window == h.window)

/-- R309, R313, R320, R322: what a job's verdicts take from an accepted record; records older than any judgement needs are dropped. -/
def noteRecord (s : State) (g : JobGen) (r : Reasm) (v : RecView) : State :=
  let start := windowStart r.hdr.window g.k
  let info : RecInfo :=
    { unit := r.hdr.unit, win := r.hdr.window, at_ := r.tLast, locked := r.hdr.tq / 64 == 2, drops := v.drops,
      marks := v.marks.map (fun m => (m.1, m.2.2.1, m.2.1, start + m.2.2.2.1)), res := v.res,
      gauges := v.gauges.map (fun x => (x.1, x.2.2.1)) }
  modJob s g.job (fun j =>
    { j with recs := info :: j.recs.filter (fun x => decide (r.tLast ≤ x.at_ + 4 * (125000 * 2 ^ g.k) + 100000000)),
             ports := (r.hdr.unit, r.port) :: j.ports.filter (fun p => p.1 != r.hdr.unit) })

/-- R179–R181, R457: an accepted record: into the window table; reduced on its die unless it is a snapshot. -/
def acceptRecord (s : State) (d : Nat) (g : JobGen) (r : Reasm) (body : Sealed) (v : RecView) : State :=
  let n := recWin r.hdr
  let snap := r.hdr.flags % 2 == 1
  let late := decide (r.tLast > sealDeadline g n)
  let w := theWin s g n
  let w := { w with table := w.table ++ [{ body, late, snapshot := snap, tLast := r.tLast, die := d }] }
  if snap then putWin s w
  else
    let p := addToPartial s g (w.parts.getD (d - 56) (emptyPartial g)) v r.hdr.unit late
    let s := putWin s (if g.fields.isEmpty then w else { w with parts := w.parts.set (d - 56) p })
    let s := s.incr (Pg.trs d) TRS_BYTES 0 body.plain.length
    count (noteRecord s g r v) d (if late then Cnt.LATE else Cnt.ONTIME)

/-- R174: checks 12 to 14 and the acceptance. -/
def finishRecord (s : State) (d : Nat) (r : Reasm) (g : JobGen) (body : Sealed) (poison : Bool) : State :=
  match seenRecord (theWin s g (recWin r.hdr)) r.hdr with
  | some t =>
    if t.body = body then count s d Cnt.DUP
    else raise (ingRefuse s d 12 Syn.STATE Cnt.CONFLICT) (Pg.ing d) Irq.ING_CONFLICT
      { job := g.job, unit := r.hdr.unit, win := r.hdr.window, detail := t.body.hdr.tgen + r.hdr.tgen * 2 ^ 16 }
  | none =>
    if poison then raise (ingRefuse s d 13 Syn.POISON Cnt.POISON) (Pg.ing d) Irq.POISON
    else match readRecord body.plain with
      | none => ingRefuse s d 14 Syn.RANGE Cnt.HDR
      | some v => acceptRecord s d g r body v

/-- The first complete set of a KIND on a die. -/
def firstSet (s : State) (d kind : Nat) : Option Reasm :=
  (getIng s d).reasm.find? (fun r => r.hdr.kind == kind && r.complete)

/-- The set leaves the ingest buffer. -/
def takeSet (s : State) (d : Nat) (r : Reasm) : State :=
  let x := getIng s d
  noteBuf (setIng s d { x with reasm := x.reasm.erase r }) d

/-- R174: the next reassembled record of a die; `poison` says whether its plaintext reads poisoned in the ingest buffer. -/
def execRecordRx (d : Nat) (poison : Bool) (s : State) : Host.Outcome State Fault Refusal :=
  if ¬ isXD d ∨ isFrozen s (Pg.ing d) then .next s
  else
    let s := drainHeld s d
    match firstSet s d 1 with
    | none => .next s
    | some r =>
      match checkRecord s d r with
      | .refuse check code cnt => .next (ingRefuse (takeSet s d r) d check code cnt)
      | .pass g body => .next (finishRecord (takeSet s d r) d r g body poison)

end Sys2Proof.Machine
end

