-- ==== Sys2Proof/Machine/Reach.lean ====
section
/-!
DEFINITION. Sys2Proof/Machine/Reach.lean: the Reach ports (R362–R382, R387): sessions and link states, the send ring, the sender's
estimates and retransmissions, the receiver's checks and acknowledgements, the pause around a protection switch.
-/
namespace Sys2Proof.Machine
open Reg

def getRch (s : State) (l : Nat) : RchPort := s.hub.rch.getD l RchPort.reset
def setRch (s : State) (l : Nat) (r : RchPort) : State := { s with hub := { s.hub with rch := s.hub.rch.set l r } }

namespace Rch
/-! RCH_STATE.STATE (R368). -/
def DISABLED : Nat := 0
def DOWN : Nat := 1
def CONNECT : Nat := 2
def UP : Nat := 3
def MISWIRED : Nat := 4
end Rch

def rchState (s : State) (l : Nat) : Nat := s.rd (Pg.rch l) RCH_STATE_STATE

namespace RCnt
/-! RCH_CNT_SEL (R390). -/
def TX_FRAMES : Nat := 0
def TX_BYTES : Nat := 1
def RETX_FRAMES : Nat := 2
def RTO_EXPIRIES : Nat := 3
def RX_FRAMES : Nat := 4
def RX_DUP_SEQ : Nat := 5
def RX_NOROOM : Nat := 6
def RX_OLD_SESSION : Nat := 7
def RX_BAD : Nat := 8
def FWD : Nat := 9
def ABANDONED : Nat := 10
def SESSIONS : Nat := 11
def PAUSES : Nat := 12
def LIMITED_US : Nat := 13
def TT_FRAMES : Nat := 14
end RCnt

def rchCount (s : State) (l c : Nat) (n : Nat := 1) : State := s.incr (Pg.rch l) RCH_CNT c n

/-- R365: bytes of a Reach frame with a payload, and its stored size. -/
def rchBytes (len : Nat) : Nat := 14 + 40 + 8 + 24 + len + 4
def rchStored (len : Nat) : Nat := ceilDiv (rchBytes len) 64 * 64

/-- R370: bytes of a ring and of one of its eight parts. -/
def ringBytes : Nat := 2147483648
def partBytes : Nat := 268435456

/-! ### Link state and sessions (R368, R369) -/

/-- Move the port to a state; entering or leaving UP raises its cause. -/
def setLink (s : State) (l st : Nat) : State :=
  let old := rchState s l
  let s := s.wr (Pg.rch l) RCH_STATE_STATE st
  let s := if old = Rch.UP ∧ st ≠ Rch.UP then raise s (Pg.rch l) Irq.RCH_DOWN else s
  if old ≠ Rch.UP ∧ st = Rch.UP then raise s (Pg.rch l) Irq.RCH_UP else s

def skipZero (x : Nat) : Nat := if x % 2 ^ 32 = 0 then 1 else x % 2 ^ 32

/-- A session begins: SEQ starts at 1, and nothing of the earlier session's acknowledgements stands. -/
def beginSession (s : State) (l n : Nat) : State :=
  let r := getRch s l
  let s := setRch s l { r with lastSession := n, drawn := true, next := 1, cum := 0, ack := none }
  rchCount (s.wr (Pg.rch l) RCH_SESSION n) l RCnt.SESSIONS

/-- R369: the first session after power-on or a soft reset. -/
def drawSession (s : State) (l : Nat) : State :=
  let r := getRch s l
  if r.drawn then s
  else
    let n := skipZero (max (s.now .hub / 1000000000 % 2 ^ 32) (r.lastSession + 1))
    let s := setRch s l { r with lastSession := n, drawn := true }
    rchCount (s.wr (Pg.rch l) RCH_SESSION n) l RCnt.SESSIONS

/-- R378: RETX_MAX_MS in ns. -/
def retxMax (s : State) (l : Nat) : Nat := s.rd (Pg.rch l) RCH_RETX_RETX_MAX_MS * 1000000

/-- Put frames into an emptied send ring in order, under new sequence numbers from `n`. -/
def renumber (n : Nat) : List RTx → List RTx
  | [] => []
  | f :: fs => { f with seq := n, first := none, tries := 0, lost := false, sacked := false, reoffer := true } :: renumber (n + 1) fs

/-- R378: a session reset: young unacknowledged frames are re-offered, older ones released. -/
def sessionReset (s : State) (l : Nat) : State :=
  let r := getRch s l
  let s := raise s (Pg.rch l) Irq.RCH_SESSION_RESET
  let open_ := r.ring.filter (fun f => !f.sacked)
  let young := open_.filter (fun f => decide (s.now .hub < f.born + retxMax s l))
  let s := rchCount s l RCnt.ABANDONED (open_.length - young.length)
  let s := beginSession s l (skipZero (r.lastSession + 1))
  setRch s l { getRch s l with ring := renumber 1 young, next := 1 + young.length }

/-! ### The send ring (R370) -/

/-- Where a frame of stored size n goes: it never straddles two parts. -/
def ringPlace (w n : Nat) : Nat := if w % partBytes + n > partBytes then (w / partBytes + 1) * partBytes else w

/-- R369: the session takes no new frames. -/
def sessionFull (r : RchPort) : Bool := decide (r.next ≥ 2 ^ 48 - 2 ^ 20)

/-- A frame (destination, class, content) enters the ring if it has room. -/
def enterRing (now : Nat) (r : RchPort) (x : Nat × Nat × RSeg) : Option RchPort :=
  let n := rchStored x.2.2.bytes
  let p := ringPlace r.wptr n
  let oldest := (r.ring.head?.map (fun (f : RTx) => f.pos)).getD p
  if sessionFull r ∨ p + n > oldest + ringBytes then none
  else some { r with next := r.next + 1, wptr := p + n, ring := r.ring ++
    [{ seq := r.next, pos := p, size := n, born := now, first := none, timer := now, tries := 0, lost := false, sacked := false,
       reoffer := false, dest := x.1, cls := x.2.1, seg := x.2.2 }] }

/-- Producers that wait put their frames in, oldest first. -/
def feedRing (now : Nat) (r : RchPort) : Nat → RchPort
  | 0 => r
  | fuel + 1 =>
    match r.wait with
    | [] => r
    | x :: xs =>
      match enterRing now r x with
      | some r' => feedRing now { r' with wait := xs } fuel
      | none => r

def feed (s : State) (l : Nat) : State :=
  let r := getRch s l
  setRch s l (feedRing (s.now .hub) r r.wait.length)

/-- R363: the Reach port of this Hub that reaches a site. -/
def portTo (s : State) (site : Nat) : Option Nat :=
  [0, 1].find? (fun l => bit (s.rd (Pg.rch l) RCH_SITES) site)

/-- R363: an inner frame of some segments leaves for a Hub of another site: on a Reach port that reaches it, or to the Hub of the site route. -/
def reachSend (s : State) (dest cls : Nat) (inner : RInner) (lens : List Nat) : State :=
  let segs := lens.zipIdx.map (fun x => ({ inner, seg := x.2, segs := lens.length, bytes := x.1 } : RSeg))
  match portTo s (dest / 2 ^ 21) with
  | some l =>
    let r := getRch s l
    feed (setRch s l { r with wait := r.wait ++ segs.map (fun g => (dest, cls, g)) }) l
  | none =>
    match s.hub.siteRoute.getD (dest / 2 ^ 21) none with
    | some to_ => segs.foldl (fun s g => s.send (.forward to_ dest g)) s
    | none => s

/-- Lengths of the segments of a frame set: an inner header of `hdr` bytes before at most 8,920 sealed bytes (R191, R365). -/
def rsegLens (hdr sealed : Nat) : List Nat :=
  (List.range (max 1 (ceilDiv sealed 8920))).map (fun i => hdr + min 8920 (sealed - i * 8920))

/-! ### Sending (R371–R373) -/

/-- R372: the retransmission time, ns. -/
def rto (s : State) (l : Nat) : Nat :=
  let r := getRch s l
  let least := s.rd (Pg.rch l) RCH_RTO_RTO_MIN_US * 1000
  if r.srtt = 0 then max least (s.rd (Pg.rch l) RCH_RTO_RTO_INIT_MS * 1000000)
  else max least (r.srtt + max (4 * r.rttvar) 100000)

/-- R373: a frame's timer. -/
def frameTimer (s : State) (l : Nat) (f : RTx) : Nat := rto s l * 2 ^ min f.tries 4

/-- R372: a round-trip sample. -/
def rttSample (r : RchPort) (x : Nat) : RchPort :=
  if r.srtt = 0 ∨ x > 2 * r.srtt ∨ 2 * x < r.srtt then { r with srtt := x, rttvar := x / 2 }
  else { r with rttvar := (3 * r.rttvar + (max r.srtt x - min r.srtt x)) / 4, srtt := (7 * r.srtt + x) / 8 }

def sumSizes (l : List RTx) : Nat := (l.map (·.size)).foldl (· + ·) 0

/-- R371: the window admits a new frame. Before the session's first ACK the receiver's credit is not known and does not bind. -/
def windowOpen (s : State) (l : Nat) (f : RTx) : Bool :=
  let r := getRch s l
  let upTo := sumSizes (r.ring.filter (fun g => decide (r.cum < g.seq) && decide (g.seq ≤ f.seq)))
  let win := s.rd (Pg.rch l) RCH_WIN * 2 ^ 20
  match r.ack with
  | none => decide (upTo ≤ win)
  | some (credit, echo, beyond) =>
    let after := sumSizes (r.ring.filter (fun g => decide (echo < g.seq) && (g.first.isSome || g.seq == f.seq)))
    decide (upTo ≤ min win (credit + beyond)) && decide (after ≤ credit)

/-- The port may start a DATA frame (R368, R381, R387). -/
def maySend (s : State) (l : Nat) : Bool :=
  rchState s l == Rch.UP && (getRch s l).pause.isNone && !isFrozen s (Pg.rch l)

/-- The next lost frame, and the next new one. -/
def nextLost (r : RchPort) : Option RTx := r.ring.find? (fun f => f.lost && !f.sacked)
def nextNew (r : RchPort) : Option RTx := r.ring.find? (fun f => f.first.isNone && !f.sacked)

/-- R371: LIMITED while a frame waits for window alone; LIMITED_US counts the time. -/
def noteLimited (s : State) (l : Nat) : State :=
  let r := getRch s l
  let waits := maySend s l && (nextLost r).isNone && (match nextNew r with
    | some f => !windowOpen s l f
    | none => false)
  match r.limited with
  | none =>
    if waits then raise ((setRch s l { r with limited := some (s.now .hub) }).wr (Pg.rch l) RCH_STATE_LIMITED 1) (Pg.rch l) Irq.RCH_LIMITED
    else s
  | some t =>
    if waits then s
    else rchCount ((setRch s l { r with limited := none }).wr (Pg.rch l) RCH_STATE_LIMITED 0) l RCnt.LIMITED_US ((s.now .hub - t) / 1000)

/-- The DATA frame as it goes on the line. -/
def rdata (s : State) (l : Nat) (f : RTx) (retx : Bool) : RData :=
  { ver := 1, type := 1, flags := b2n retx + 2 * b2n f.reoffer, cls := f.cls, session := s.rd (Pg.rch l) RCH_SESSION, seq := f.seq,
    lenOk := true, dest := f.dest, seg := f.seg }

def putTx (r : RchPort) (f : RTx) : RchPort := { r with ring := r.ring.map (fun g => if g.seq == f.seq then f else g) }

/-- Retransmit a frame. -/
def sendAgain (s : State) (l : Nat) (f : RTx) : State :=
  let s := setRch s l (putTx (getRch s l) { f with lost := false, tries := f.tries + 1, timer := s.now .hub })
  (rchCount s l RCnt.RETX_FRAMES).send (.reachData l (rdata s l f true))

/-- Send a frame for the first time in its session. -/
def sendNew (s : State) (l : Nat) (f : RTx) : State :=
  let s := setRch s l (putTx (getRch s l) { f with first := some (s.now .hub), timer := s.now .hub })
  let s := rchCount (rchCount s l RCnt.TX_FRAMES) l RCnt.TX_BYTES (rchBytes f.seg.bytes)
  s.send (.reachData l (rdata s l f false))

/-- R371, R373: the next DATA frame of a port: lost frames first, then new ones as the window admits. -/
def execDataTx (l : Nat) (s : State) : Host.Outcome State Fault Refusal :=
  if l ≥ 2 then .next s
  else
    let s := noteLimited (feed s l) l
    let r := getRch s l
    if maySend s l = false then .next s
    else match nextLost r, nextNew r with
      | some f, _ => .next (noteLimited (sendAgain s l f) l)
      | none, some f => .next (if windowOpen s l f then noteLimited (sendNew s l f) l else s)
      | none, none => .next s

/-- R373: the timer of the frame of a SEQ expires. -/
def execRtoExpiry (l seq : Nat) (s : State) : Host.Outcome State Fault Refusal :=
  match (getRch s l).ring.find? (fun f => f.seq == seq) with
  | some f =>
    if l ≥ 2 ∨ f.first.isNone ∨ f.sacked ∨ f.lost ∨ isFrozen s (Pg.rch l) ∨ rchState s l ≠ Rch.UP ∨
        s.now .hub < f.timer + frameTimer s l f then .next s
    else
      let s := rchCount s l RCnt.RTO_EXPIRIES
      if maySend s l then .next (sendAgain s l f) else .next (setRch s l (putTx (getRch s l) { f with lost := true }))
  | none => .next s

/-! ### Acknowledgements (R366, R371–R373) -/

/-- The SEQs an ACK shows received. -/
def ackCovers (a : RAck) (q : Nat) : Bool :=
  decide (q ≤ a.cum) || a.blocks.any (fun b => decide (b.1 ≤ q) && decide (q < b.1 + 256) && bit b.2 (q - b.1))

/-- R369: every frame of a full session is acknowledged: a new one begins without a reset. -/
def rollSession (s : State) (l : Nat) : State :=
  let r := getRch s l
  if sessionFull r ∧ r.ring.isEmpty then beginSession s l (skipZero (r.lastSession + 1)) else s

/-- R373: frames lost on the evidence of an ACK. -/
def evidence (s : State) (l : Nat) : State :=
  let r := getRch s l
  let top := ((r.ring.filter (fun f => f.sacked)).map (·.seq)).foldl max r.cum
  let reorder := s.rd (Pg.rch l) RCH_CFG_REORDER
  setRch s l { r with ring := r.ring.map (fun f =>
    if f.first.isSome && !f.sacked && !f.lost && decide (f.seq + reorder ≤ top) && (f.tries == 0 || decide (s.now .hub ≥ f.timer + rto s l)) then
      { f with lost := true } else f) }

/-- A received ACK of known form. -/
def ackIn (s : State) (l : Nat) (a : RAck) : State :=
  let r := getRch s l
  if a.cum < r.cum then s
  else
    let r := match r.ring.find? (fun f => f.seq == a.echo) with
      | some f => match f.first with
        | some t => if f.tries = 0 then rttSample r (s.now .hub - t - a.hold) else r
        | none => r
      | none => r
    let sampled := r != getRch s l
    let beyond := sumSizes (r.ring.filter (fun f => decide (f.seq > a.cum) && ackCovers a f.seq))
    let r := { r with cum := min a.cum (r.next - 1), ack := some (a.credit, a.echo, beyond),
                      ring := (r.ring.filter (fun f => decide (f.seq > a.cum))).map (fun f => if ackCovers a f.seq then { f with sacked := true, lost := false } else f) }
    let s := setRch s l r
    let s := if sampled then s.wr (Pg.rch l) RCH_STATE_PATHCLR 0 else s
    let s := if isFrozen s (Pg.rch l) then s else evidence s l
    noteLimited (feed (rollSession s l) l) l

/-- R362, R364, R366: an ACK frame; `ok` says its Reach header is that of R364. -/
def execAck (l : Nat) (ok : Bool) (a : RAck) (s : State) : Host.Outcome State Fault Refusal :=
  if l ≥ 2 ∨ rchState s l = Rch.DISABLED then .next s
  else if ok = false ∨ a.blocks.length > 8 then .next (rchCount s l RCnt.RX_BAD)
  else if rchState s l ≠ Rch.UP then .next s
  else .next (ackIn s l a)

/-! ### Receiving (R375, R376) -/

/-- Free bytes of the receive ring, and the credit (R375). -/
def rxUsed (r : RchPort) : Nat := ((r.rxQ ++ r.rxOoo).map (·.size)).foldl (· + ·) 0
def rxReserve : Nat := 81792
def rxCredit (r : RchPort) : Nat := ringBytes - rxUsed r - rxReserve

/-- Frames that follow the last one received in order join it. -/
def closeGap (r : RchPort) : Nat → RchPort
  | 0 => r
  | fuel + 1 =>
    match r.rxOoo.find? (fun f => f.seq == r.rxCum + 1) with
    | some f => closeGap { r with rxCum := r.rxCum + 1, rxQ := r.rxQ ++ [f], rxOoo := r.rxOoo.filter (fun g => g.seq != f.seq) } fuel
    | none => r

/-- Insert a frame in SEQ order. -/
def insertRx (f : RRx) : List RRx → List RRx
  | [] => [f]
  | g :: gs => if f.seq < g.seq then f :: g :: gs else g :: insertRx f gs

/-- R375: an accepted DATA frame is stored and its acknowledgement falls due; one received while frozen is recorded as channel state. -/
def storeData (s : State) (l t : Nat) (f : RData) : State :=
  let r := getRch s l
  let x : RRx := { seq := f.seq, size := rchStored f.seg.bytes, at_ := t, dest := f.dest, seg := f.seg }
  let gap := decide (f.seq ≠ r.rxCum + 1)
  let r := if gap then { r with rxOoo := insertRx x r.rxOoo }
    else closeGap { r with rxCum := r.rxCum + 1, rxQ := r.rxQ ++ [x] } r.rxOoo.length
  let r := { r with echo := some (f.seq, t), ackWait := some (r.ackWait.getD t), ackNow := r.ackNow || gap }
  let s := rchCount (setRch s l r) l RCnt.RX_FRAMES
  if isFrozen s (Pg.rch l) then
    let c := freeBytes s (rchBytes f.seg.bytes)
    let d := 62 + l
    chanRecord c.1 d 4 (14 + l) t (d * 2 ^ 24 + 0x7FF) (d * 2 ^ 24 + 0x7FF) c.2
  else s

/-- R362, R364, R375: a frame on a Reach port that is no ACK, HELLO or time-transfer message; `pos` is the SFD's place in its codeword. -/
def execData (l pos : Nat) (f : RData) (s : State) : Host.Outcome State Fault Refusal :=
  if l ≥ 2 ∨ rchState s l = Rch.DISABLED then .next s
  else
    let r := getRch s l
    let t := (rxStamp s (14 + l) pos / 1000).toNat
    let n := rchStored f.seg.bytes
    if f.ver ≠ 1 ∨ f.type ≠ 1 ∨ f.lenOk = false ∨ ¬ (f.cls = 1 ∨ f.cls = 2) then .next (rchCount s l RCnt.RX_BAD)
    else if r.rxSession = 0 ∨ f.session ≠ r.rxSession then .next (rchCount s l RCnt.RX_OLD_SESSION)
    else if f.seq ≤ r.rxCum ∨ r.rxOoo.any (fun g => g.seq == f.seq) then
      .next (rchCount (setRch s l { r with echo := some (f.seq, t), ackNow := true }) l RCnt.RX_DUP_SEQ)
    else if f.seq > r.rxCum + 2 ^ 24 then .next (rchCount s l RCnt.RX_BAD)
    else if f.seq ≠ r.rxCum + 1 ∧ rxUsed r + n + rxReserve > ringBytes then .next (rchCount s l RCnt.RX_NOROOM)
    else .next (storeData s l t f)

/-- The bitmap of the 256 SEQs from a base. -/
def ackBitmap (l : List RRx) (base : Nat) : Nat :=
  (l.filter (fun f => decide (base ≤ f.seq) && decide (f.seq < base + 256))).foldl (fun w f => w + 2 ^ (f.seq - base)) 0

/-- R366: at most eight blocks, from the lowest SEQ held above the gap on. -/
def ackBlocks (l : List RRx) : Nat → List (Nat × Nat)
  | 0 => []
  | fuel + 1 =>
    match l with
    | [] => []
    | f :: fs => (f.seq, ackBitmap (f :: fs) f.seq) :: ackBlocks ((f :: fs).filter (fun g => decide (g.seq ≥ f.seq + 256))) fuel

/-- R376: the ACK a port sends. -/
def ackOut (s : State) (l : Nat) : RAck :=
  let r := getRch s l
  let e := r.echo.getD (0, s.now .hub)
  { cum := r.rxCum, credit := rxCredit r, echo := e.1, hold := s.now .hub - e.2, blocks := ackBlocks r.rxOoo 8 }

/-- R376: an ACK is sent within ACK_US of an accepted frame that none covers, at once where one is called for; also while the port is frozen. -/
def execAckTx (l : Nat) (s : State) : Host.Outcome State Fault Refusal :=
  let r := getRch s l
  if l ≥ 2 ∨ rchState s l ≠ Rch.UP ∨ (r.ackWait.isNone ∧ r.ackNow = false) then .next s
  else
    let a := ackOut s l
    .next ((setRch s l { r with ackWait := none, ackNow := false }).send (.reachAck l (s.rd (Pg.rch l) RCH_SESSION) a))

/-! ### Hellos (R367, R368) -/

/-- R367: a HELLO every 1 ms while aligned and enabled. -/
def execReachHelloTx (l : Nat) (s : State) : Host.Outcome State Fault Refusal :=
  let r := getRch s l
  let due := match r.helloTx with
    | some t => decide (s.now .hub ≥ t + 1000000)
    | none => true
  if l ≥ 2 ∨ rchState s l = Rch.DISABLED ∨ s.hub.aligned.getD (14 + l) false = false ∨ due = false then .next s
  else .next ((setRch s l { r with helloTx := some (s.now .hub) }).send (.reachHello l (s.rd (Pg.rch l) RCH_SESSION) r.rxSession))

/-- R369: the peer's session as its HELLO names it. -/
def peerSession (s : State) (l tx : Nat) : State :=
  let r := getRch s l
  if tx = r.rxSession then s else setRch s l { r with rxSession := tx, rxCum := 0, rxOoo := [] }

/-- R368: a HELLO of the configured peer. -/
def helloOk (s : State) (l tx rx : Nat) : State :=
  let st := rchState s l
  let s := setRch s l { getRch s l with helloRx := s.now .hub }
  let own := s.rd (Pg.rch l) RCH_SESSION
  if st = Rch.DOWN then
    (if s.hub.aligned.getD (14 + l) false ∧ ¬ s.isUnset .hub then peerSession (drawSession (setLink s l Rch.CONNECT) l) l tx else s)
  else if st = Rch.MISWIRED then peerSession (drawSession (setLink s l Rch.CONNECT) l) l tx
  else if st = Rch.CONNECT then
    (let s := peerSession s l tx
     if rx = own then setLink s l Rch.UP else s)
  else if rx ≠ own then sessionReset (setLink (peerSession s l tx) l Rch.CONNECT) l
  else peerSession s l tx

/-- R366, R368: a received HELLO: `ok` says its header is that of R364; SENDER and PORT of the header, TX_SESSION and RX_SESSION. -/
def execReachHello (l : Nat) (ok : Bool) (sender port tx rx : Nat) (s : State) : Host.Outcome State Fault Refusal :=
  if l ≥ 2 ∨ rchState s l = Rch.DISABLED then .next s
  else if ok = false then .next (rchCount s l RCnt.RX_BAD)
  else if sender = s.rd (Pg.rch l) RCH_PEER_HUB ∧ port = s.rd (Pg.rch l) RCH_PEER_PORT then .next (helloOk s l tx rx)
  else if rchState s l = Rch.MISWIRED then .next (setRch s l { getRch s l with helloRx := s.now .hub })
  else
    let s := setRch s l { getRch s l with helloRx := s.now .hub }
    .next (raise (setLink s l Rch.MISWIRED) (Pg.rch l) Irq.RCH_MISWIRED)

/-- R368: alignment lost, or no HELLO for HELLO_LOSS_MS. -/
def execHelloLoss (l : Nat) (s : State) : Host.Outcome State Fault Refusal :=
  let st := rchState s l
  let lost := decide (s.now .hub ≥ (getRch s l).helloRx + s.rd (Pg.rch l) RCH_RETX_HELLO_LOSS_MS * 1000000) ||
    !s.hub.aligned.getD (14 + l) false
  if l < 2 ∧ (st = Rch.CONNECT ∨ st = Rch.UP ∨ st = Rch.MISWIRED) ∧ lost = true then .next (setLink s l Rch.DOWN) else .next s

/-! ### Resets (R378, R387) -/

/-- R378: a frame unacknowledged RETX_MAX_MS after its first transmission in the session. -/
def execSessionReset (l : Nat) (s : State) : Host.Outcome State Fault Refusal :=
  let old (f : RTx) : Bool := !f.sacked && (match f.first with
    | some t => decide (s.now .hub ≥ t + retxMax s l)
    | none => false)
  if l < 2 ∧ (getRch s l).ring.any old = true then .next (feed (sessionReset s l) l) else .next s

/-- R378: frames still unacknowledged at the age of 2 × RETX_MAX_MS are released. -/
def execFrameAbandon (l : Nat) (s : State) : Host.Outcome State Fault Refusal :=
  let r := getRch s l
  let old (f : RTx) : Bool := !f.sacked && decide (s.now .hub ≥ f.born + 2 * retxMax s l)
  if l ≥ 2 then .next s
  else .next (feed (rchCount (setRch s l { r with ring := r.ring.filter (fun f => !old f) }) l RCnt.ABANDONED (r.ring.filter old).length) l)

/-- R387: both rings are discarded, a new session will be drawn; the state is DOWN, or DISABLED at EN = 0. -/
def softRch (s : State) (l st : Nat) : State :=
  let r := getRch s l
  let n := (r.ring.filter (fun f => !f.sacked)).length
  let s := setRch s l { RchPort.reset with lastSession := r.lastSession, rises := r.rises, aps := r.aps, gsiWin := r.gsiWin }
  rchCount (setLink s l st) l RCnt.ABANDONED n

/-- R379: the checks of an ARM of a RCH page. -/
def rchArmCheck (s : State) (l : Nat) : Nat :=
  let pg := Pg.rch l
  let retx := s.rd pg RCH_RETX_RETX_MAX_MS.staged
  if retx < 100 ∨ retx > 60000 ∨ retx < 4 * s.rd pg RCH_RTO_PSE_MAX_MS.staged then Syn.RANGE else 0

/-- R387: an applied RCH page: a new peer resets the session. -/
def rchApplied (s : State) (l : Nat) (oldHub oldPort : Nat) : State :=
  if s.rd (Pg.rch l) RCH_PEER_HUB = oldHub ∧ s.rd (Pg.rch l) RCH_PEER_PORT = oldPort then noteLimited s l
  else sessionReset s l

/-! ### The pause (R381) -/

/-- A filtered rising edge pauses the sender of its port. -/
def pauseReach (s : State) (l t : Nat) : State :=
  if rchState s l = Rch.DISABLED then s
  else
    let r := getRch s l
    match r.pause with
    | some p => setRch s l { r with pause := some (p.1, t) }
    | none =>
      let s := (setRch s l { r with pause := some (t, t) }).wr (Pg.rch l) RCH_STATE_PAUSED 1
      rchCount (raise s (Pg.rch l) Irq.RCH_PAUSE) l RCnt.PAUSES

/-- The pause ends: frames last sent after the edge less srtt are lost; the estimate is cleared. -/
def endPause (s : State) (l : Nat) : State :=
  let r := getRch s l
  match r.pause with
  | none => s
  | some (edge, _) =>
    let lost (f : RTx) : Bool := f.first.isSome && !f.sacked && decide (f.timer + r.srtt > edge)
    let s := setRch s l { r with pause := none, ring := r.ring.map (fun f => if lost f then { f with lost := true } else f) }
    noteLimited (clearSrtt (s.wr (Pg.rch l) RCH_STATE_PAUSED 0) l) l

end Sys2Proof.Machine
end

