-- ==== Sys2Proof/Machine/Reduce.lean ====
section
/-!
DEFINITION. Sys2Proof/Machine/Reduce.lean: the sealing of a window and its revisions (R178–R181, R189, R190), the merge on the home die,
and the aggregates above the Hub (R191–R194).
-/
namespace Sys2Proof.Machine
open Reg

/-- R173: the settings that govern window n of a job slot (as XD0's page holds them; every ingest die holds the same). -/
def genOfWin (s : State) (slot n : Nat) : Option JobGen :=
  (getIng s 56).gens.find? (fun g => g.slot == slot && g.job != 0 && decide (g.from_ ≤ windowStart n g.k))

def homeDie (g : JobGen) : Nat := 56 + g.home

/-- R189: a lane mismatch on a die. -/
def laneMismatch (s : State) (d : Nat) (w : JobWin) : State :=
  let s := (s.bump (Pg.trs d) TRS_LANE_MISMATCH).wr (Pg.trs d) TRS_LANE_SLOT w.slot
  raise s (Pg.trs d) Irq.TRS_LANE_MISMATCH { job := w.job, win := w.win }

/-- R190: a field state reads poisoned on a die. -/
def statePoison (s : State) (d : Nat) (w : JobWin) : State :=
  jobPoison (raise (syn s (Pg.trs d) Syn.POISON) (Pg.trs d) Irq.POISON { job := w.job, win := w.win }) w.job w.win none

/-- R172, R179, R180, R189, R190: a snapshot: every die's partial leaves for the home die but where the lanes differ. -/
def snapshotWin (s : State) (w : JobWin) (rev : Nat) (mism poison : List Nat) : State :=
  let w := { w with snap := some { rev, parts := w.parts, failed := mism.filter (fun i => decide (i < 8)) }, mergeLate := false,
                    flags := if poison.isEmpty then w.flags else Nat.lor w.flags 1 }
  let s := (mism.filter (fun i => decide (i < 8))).foldl (fun s i => laneMismatch s (56 + i) w) s
  let s := (poison.filter (fun i => decide (i < 8))).foldl (fun s i => statePoison s (56 + i) w) s
  putWin s w

/-- R179: an on-time record of the window is still to be reduced. -/
def onTimeWaiting (s : State) (g : JobGen) (n : Nat) : Bool :=
  ((List.range 8).map (· + 56)).any (fun d => (getIng s d).reasm.any (fun r =>
    r.hdr.kind == 1 && r.complete && r.hdr.job == g.job && recWin r.hdr == n && decide (r.tLast ≤ sealDeadline g n)))

/-- R179: the seal deadline. -/
def execSealDeadline (slot n : Nat) (mism poison : List Nat) (s : State) : Host.Outcome State Fault Refusal :=
  let s := drainAll s
  match genOfWin s slot n with
  | none => .next s
  | some g =>
    let w := theWin s g n
    if isFrozen s (Pg.trs (homeDie g)) ∨ s.now .hub < sealDeadline g n ∨ w.sealed = true ∨ onTimeWaiting s g n = true then .next s
    else
      let s := snapshotWin s { w with sealed := true } 0 mism poison
      .next (((List.range 8).map (· + 56)).foldl (fun s d => s.incr (Pg.ing d) ING_JOB_STAT_SEALED slot) s)

/-- R180: the late horizon. -/
def execLateHorizon (slot n : Nat) (mism poison : List Nat) (s : State) : Host.Outcome State Fault Refusal :=
  let s := drainAll s
  match genOfWin s slot n with
  | none => .next s
  | some g =>
    let w := theWin s g n
    if isFrozen s (Pg.trs (homeDie g)) ∨ s.now .hub < lateHorizon g n ∨ w.sealed = false ∨ w.closed = true then .next s
    else
      let w := { w with closed := true }
      if w.parts.any (fun p => decide (p.late > 0)) then .next (snapshotWin s w 1 mism poison) else .next (putWin s w)

/-- R199: a partial has not reached the home die by the seal deadline + 40 µs. -/
def execMergeLate (slot n : Nat) (s : State) : Host.Outcome State Fault Refusal :=
  match genOfWin s slot n with
  | none => .next s
  | some g =>
    let w := theWin s g n
    match w.snap with
    | some p =>
      if p.failed ≠ [] ∧ w.mergeLate = false ∧ s.now .hub ≥ sealDeadline g n + 40000 then
        .next (raise (putWin s { w with mergeLate := true }) (Pg.trs (homeDie g)) Irq.TRS_MERGE_LATE { job := w.job, win := n })
      else .next s
    | none => .next s

/-- R189 step 2: a die's share of the window, reduced again from the window table; revision 0 holds the on-time records only. -/
def reReduce (s : State) (g : JobGen) (w : JobWin) (rev i : Nat) : Partial :=
  let g' := winGen s (56 + i) g.slot g.job w.win g.k
  (w.table.filter (fun t => t.die == 56 + i && !t.snapshot && (rev == 1 || !t.late))).foldl (fun p t =>
    match readRecord t.body.plain with
    | some v => addToPartial s g' p v t.body.hdr.unit t.late
    | none => p) (emptyPartial g')

/-- R189 steps 3 and 4: the re-reduction agrees and takes the failed partials' place, or the revision is withheld. -/
def execReReductionDone (slot n : Nat) (agree : Bool) (s : State) : Host.Outcome State Fault Refusal :=
  match genOfWin s slot n with
  | none => .next s
  | some g =>
    let w := theWin s g n
    match w.snap with
    | some p =>
      if p.failed = [] then .next s
      else if agree then
        let parts := p.failed.foldl (fun l i => l.set i (reReduce s g w p.rev i)) p.parts
        .next (putWin s { w with snap := some { p with parts, failed := [] } })
      else .next (jobLane (putWin s { w with snap := some { p with failed := [] }, flags := Nat.lor w.flags 2 }) w.job n)
    | none => .next s

/-! ### Merging (R185, R192, R193) -/

/-- The empty aggregate of a job's field table. -/
def emptyAgg (g : JobGen) : Agg :=
  { expected := 0, records := 0, late := 0, missing := 0, flags := 0, pg := g.pg, fields := emptyStates g.fields }

def addAgg (a b : Agg) : Agg :=
  { a with records := a.records + b.records, late := a.late + b.late, fields := mergeStates a.fields b.fields }

/-- R172: the home die's merge of the eight partials. -/
def mergeParts (g : JobGen) (ps : List Partial) : Agg :=
  ps.foldl (fun a p => { a with records := a.records + p.records, late := a.late + p.late,
                                fields := mergeStates a.fields p.fields }) (emptyAgg g)

/-- The roster of a window. -/
def winMembers (s : State) (g : JobGen) : List Member := ((rosterOf s g.job g.gen).map (·.members)).getD []

/-- Board and site of a sender (R191). -/
def boardOf (c : Nat) : Nat := c / 32
def siteOf (c : Nat) : Nat := c / 2 ^ 21

/-- The Hubs that serve units of the job, each once. -/
def servingHubs (s : State) (g : JobGen) : List Nat := ((winMembers s g).map (·.hub)).eraseDups

/-- R192: the Hub of lowest index of a board among those that serve. -/
def lowestOn (hs : List Nat) (board : Nat) : Nat :=
  ((hs.filter (fun h => boardOf h == board)).foldl (fun m h => min m h) (board * 32 + 31))

/-- The lead Hub of a site (R37). -/
def leadOf (s : State) (g : JobGen) (site : Nat) : Option Nat :=
  ((rosterOf s g.job g.gen).bind (fun r => r.leads.find? (fun l => l.1 == site))).map (·.2)

/-- R192: the contributors a level (2 GROUP, 3 SITE, 4 FLEET) merges. -/
def expectedAt (s : State) (g : JobGen) (level : Nat) : List Nat :=
  let hs := servingHubs s g
  let me := selfId s
  match level with
  | 2 => hs.filter (fun h => boardOf h == boardOf me)
  | 3 => (((hs.filter (fun h => siteOf h == siteOf me)).map boardOf).eraseDups).map (lowestOn hs)
  | 4 => ((hs.map siteOf).eraseDups).filterMap (leadOf s g)
  | _ => []

/-- Roster members in the scope of a level's aggregate (R191 EXPECTED). -/
def scopeCount (s : State) (g : JobGen) (level : Nat) : Nat :=
  let me := selfId s
  ((winMembers s g).filter (fun m => match level with
    | 1 => m.hub == me
    | 2 => boardOf m.hub == boardOf me
    | 3 => siteOf m.hub == siteOf me
    | _ => true)).length

/-- The contribution held from a sender at a level. -/
def contribOf (w : JobWin) (level c : Nat) : Option Contrib := w.contribs.find? (fun x => x.level == level && x.contrib == c)

/-- R189, R190: a Hub's own contribution withheld stays missing. -/
def withheld (x : Contrib) : Bool := x.level == 1 && x.agg.flags != 0

/-- R193: the merge of a level from the latest revision of every contributor. -/
def mergeLevel (s : State) (g : JobGen) (w : JobWin) (level : Nat) : Agg :=
  let cs := expectedAt s g level
  let got := cs.filterMap (contribOf w (level - 1))
  let good := got.filter (fun x => !withheld x)
  let a := good.foldl (fun a x => addAgg a x.agg) (emptyAgg g)
  { a with expected := scopeCount s g level, missing := cs.length - good.length,
           flags := got.foldl (fun f x => Nat.lor f x.agg.flags) 0 }

/-- Store a contribution in place of the sender's earlier one. -/
def putContrib (w : JobWin) (c : Contrib) : JobWin :=
  { w with contribs := c :: w.contribs.filter (fun x => !(x.level == c.level && x.contrib == c.contrib)) }

def issuedRev (w : JobWin) (level : Nat) : Option Nat := (w.issued.find? (fun x => x.1 == level)).map (·.2)
def setIssued (w : JobWin) (level rev : Nat) : JobWin :=
  { w with issued := (level, rev) :: w.issued.filter (fun x => x.1 != level) }

/-- R191: an aggregate of this Hub as a frame set. -/
def aggFrame (s : State) (g : JobGen) (w : JobWin) (level rev : Nat) (a : Agg) : AggFrame :=
  { ver := 1, level, job := g.job, contrib := selfId s, k := g.k, epoch := g.epoch, window := w.win, tgen := tgen s .hub,
    tq := tq s .hub, rev, key := ((jobKey s g.job g.epoch).map (·.val)).getD 0, intact := true, agg := a }

/-- R192: where a level's aggregate goes. -/
def destinations (s : State) (g : JobGen) (level : Nat) : List Nat :=
  let me := selfId s
  let hs := servingHubs s g
  let to_ := match level with
    | 1 => hs.filter (fun h => boardOf h == boardOf me)
    | 2 => if lowestOn hs (boardOf me) = me then (leadOf s g (siteOf me)).toList else []
    | 3 => expectedAt s g 4 ++ hs.filter (fun h => siteOf h == siteOf me)
    | _ => hs.filter (fun h => siteOf h == siteOf me)
  (to_.filter (fun h => h != me)).eraseDups

/-- R192: this Hub's own aggregate of a level is a contribution to the next (a group's comes from its lowest Hub). -/
def contributes (s : State) (g : JobGen) (level : Nat) : Bool :=
  level != 2 || lowestOn (servingHubs s g) (boardOf (selfId s)) == selfId s

/-- R184, R191: bytes of the sealed data of an aggregate of a field table. -/
def aggSealed (g : JobGen) : Nat := 56 * g.fields.length + 512 * g.pg * (g.fields.filter (fun f => f.hist)).length + 16

/-- R191, R192, R363: an aggregate leaves for a Hub: of this site over peer or fabric ports, of another over Reach. -/
def sendAgg (s : State) (g : JobGen) (f : AggFrame) (h : Nat) : State :=
  if siteOf h = siteOf (selfId s) then s.send (.aggregate h f) else reachSend s h 1 (.agg f) (rsegLens 52 (aggSealed g))

/-- R245: stage B of the job's image waits for the group aggregate. -/
def waitsGroup (s : State) (job : Nat) : Bool :=
  match hjob s job with
  | some j => (j.image.map (fun i => i.img.flags % 2)).getD 0 == 1
  | none => false

/-- R230: the events of the job's tile set at an aggregate handed over: SEAL, AGG, REV1. -/
def aggEvents (s : State) (g : JobGen) (level rev : Nat) : Nat :=
  (if level = 1 ∧ rev = 0 then 2 else 0) + (if level = 1 ∧ rev = 1 then 8 else 0) +
  (if rev = 0 ∧ level = (if waitsGroup s g.job then 2 else 1) then 4 else 0)

/-- Issue a level's aggregate with a revision: held, handed to the tile set, and sent. -/
def issueAgg (s : State) (g : JobGen) (w : JobWin) (level rev : Nat) (a : Agg) : State :=
  let w := setIssued (if contributes s g level then putContrib w { level, contrib := selfId s, rev, agg := a } else w) level rev
  let s := putWin s w
  let e := aggEvents s g level rev
  let s := if e = 0 then s else setEvent s g.slot e
  (destinations s g level).foldl (fun s h => sendAgg s g (aggFrame s g w level rev a) h) s

/-- R193: a level above the Hub that has been issued is merged and issued again with REV + 1, and so up the levels. -/
def reissueFrom (s : State) (g : JobGen) (n : Nat) : List Nat → State
  | [] => s
  | level :: rest =>
    let w := theWin s g n
    match issuedRev w level with
    | some r => if r < 255 then reissueFrom (issueAgg s g w level (r + 1) (mergeLevel s g w level)) g n rest else s
    | none => s

/-- The levels above a contribution's. -/
def levelsAbove (level : Nat) : List Nat := [2, 3, 4].filter (fun l => decide (l > level))

/-- R172, R189: the home die merges the eight partials in two lanes and issues the Hub aggregate. -/
def execHubAggregateIssue (slot n : Nat) (mism : Bool) (s : State) : Host.Outcome State Fault Refusal :=
  match genOfWin s slot n with
  | none => .next s
  | some g =>
    let w := theWin s g n
    match w.snap with
    | some p =>
      if p.failed ≠ [] ∨ isFrozen s (Pg.trs (homeDie g)) then .next s
      else if g.fields.isEmpty then .next (putWin s { w with snap := none })
      else if mism then
        .next (laneMismatch (putWin s { w with snap := some { p with failed := [g.home] } }) (homeDie g) w)
      else
        let m := if w.flags = 0 then mergeParts g p.parts else emptyAgg g
        let a := { m with expected := scopeCount s g 1, flags := w.flags }
        let s := issueAgg s g { w with snap := none } 1 p.rev a
        .next (reissueFrom s g n (levelsAbove 1))
    | none => .next s

/-- R192, R193: a level above the Hub is issued at its instant (`ofs` ns after the seal deadline) with REV 0. On a mismatch of the
lanes the merge is not issued (R189). -/
def issueLevel (s : State) (slot n level ofs : Nat) (mism : Bool) : State :=
  match genOfWin s slot n with
  | none => s
  | some g =>
    let w := theWin s g n
    if s.now .hub < sealDeadline g n + ofs ∨ g.fields.isEmpty ∨ (issuedRev w level).isSome ∨ isFrozen s (Pg.trs (homeDie g)) then s
    else if mism then laneMismatch s (homeDie g) w
    else issueAgg s g w level 0 (mergeLevel s g w level)

def execGroupAggregateIssue (slot n : Nat) (mism : Bool) (s : State) : Host.Outcome State Fault Refusal :=
  .next (issueLevel s slot n 2 60000 mism)

/-- This Hub is the lead Hub of its site for the job. -/
def isLead (s : State) (slot n : Nat) : Bool :=
  match genOfWin s slot n with
  | some g => leadOf s g (siteOf (selfId s)) == some (selfId s)
  | none => false

def execSiteAggregateIssue (slot n : Nat) (mism : Bool) (s : State) : Host.Outcome State Fault Refusal :=
  if isLead s slot n then .next (issueLevel s slot n 3 340000 mism) else .next s

/-- R54, R192: the command stands at the seal deadline + 340 µs + D. -/
def execFleetAggregateIssue (slot n : Nat) (mism : Bool) (s : State) : Host.Outcome State Fault Refusal :=
  if isLead s slot n then .next (issueLevel s slot n 4 340000 mism) else .next s

/-! ### Contributions from other Hubs (R191, R193, R194) -/

/-- The settings of the window an aggregate frame names: its job's slot on the die that takes it. -/
def aggGen (s : State) (d : Nat) (f : AggFrame) : Option JobGen :=
  (slotOf s d f.job).bind (fun slot => genAt s d slot f.job (windowStart f.window f.k))

/-- The end of the taking of contributions (R193). -/
def holdEnd (g : JobGen) (n : Nat) : Nat := lateHorizon g n + g.hold * 1000000

/-- R191, R193, R194: the checks of an aggregate frame set: a refusal's (code, counter); code 0 counts without a syndrome. -/
def aggCheck (s : State) (d : Nat) (f : AggFrame) : Option (Nat × Nat) :=
  if f.ver ≠ 1 ∨ f.level = 0 ∨ f.level > 4 then some (Syn.RANGE, Cnt.HDR)
  else match aggGen s d f with
    | none => some (Syn.ROSTER, Cnt.NOJOB)
    | some g =>
      if f.epoch ≠ g.epoch ∨ ¬ (jobKey s f.job f.epoch).any (fun k => k.val == f.key) ∨ f.intact = false then
        some (Syn.AUTH, Cnt.AUTH)
      else if f.k ≠ g.k ∨ f.agg.pg ≠ g.pg ∨ f.agg.fields.length ≠ g.fields.length then some (Syn.RANGE, Cnt.KMISMATCH)
      else if s.now .hub > holdEnd g f.window then some (0, Cnt.STALE)
      else
        let w := theWin s g f.window
        match contribOf w f.level f.contrib with
        | some c => if f.rev ≤ c.rev then some (0, Cnt.DUP)
                    else if issuedRev w (f.level + 1) = some 255 then some (0, Cnt.STALE) else none
        | none => if issuedRev w (f.level + 1) = some 255 then some (0, Cnt.STALE) else none

/-- R192: a Hub that holds none of the job's tile set forwards what it receives to the Hubs that do. -/
def forwardAgg (s : State) (f : AggFrame) : State :=
  let own := s.rd (Pg.cab 56) CAB_STATE_HUB_INDEX
  match (hjob s f.job).bind (fun j => j.image) with
  | none => s
  | some i =>
    let hs := (i.place.places.map (·.hub)).eraseDups
    if hs.contains own then s else hs.foldl (fun s h => s.send (.aggregate (boardOf (selfId s) * 32 + h) f)) s

/-- R193, R194: an aggregate frame set from another Hub. -/
def aggregateIn (s : State) (d : Nat) (f : AggFrame) : State :=
  match aggCheck s d f, aggGen s d f with
  | some (code, cnt), _ => if code = 0 then count s d cnt else count (syn s (Pg.ing d) code) d cnt
  | none, some g =>
    let w := putContrib (theWin s g f.window) { level := f.level, contrib := f.contrib, rev := f.rev, agg := f.agg }
    forwardAgg (reissueFrom (count (putWin s w) d Cnt.AGG) g f.window (levelsAbove f.level)) f
  | none, none => s

def execAggregateRx (d : Nat) (f : AggFrame) (s : State) : Host.Outcome State Fault Refusal :=
  if ¬ isXD d ∨ isFrozen s (Pg.ing d) then .next s else .next (aggregateIn s d f)

/-- R193: after the late horizon + HOLD no contribution of the window is taken. -/
def execAggregateHoldExpiry (slot n : Nat) (s : State) : Host.Outcome State Fault Refusal :=
  match genOfWin s slot n with
  | none => .next s
  | some g => if s.now .hub > holdEnd g n then .next (putWin s { theWin s g n with expired := true }) else .next s

end Sys2Proof.Machine
end

