-- ==== Sys2Proof/Machine/IngPages.lean ====
section
/-!
DEFINITION. Sys2Proof/Machine/IngPages.lean: what the ING and TRS pages check and compute (R50, R173, R188, R195, R196, R199): the
checks of an ARM, the free states, the settings in flight, the soft resets.
-/
namespace Sys2Proof.Machine
open Reg

/-- A field of a page, live or staged. -/
def pick (staged : Bool) (f : Fld) : Fld := if staged then f.staged else f

/-- The field table of a job slot, live or staged. -/
def tableOf (s : State) (d slot : Nat) (st : Bool) : List TField :=
  (List.range (s.rd (Pg.trs d) (pick st TRS_FLD_COUNT) slot)).map (fun i =>
    let r (f : Fld) : Nat := s.rd (Pg.trs d) (pick st f) (slot * 2048 + i)
    { src := r TRS_FLD_DATA0_SRC, sum := r TRS_FLD_DATA0_SUM == 1, ext := r TRS_FLD_DATA0_EXT == 1,
      hist := r TRS_FLD_DATA0_HIST == 1, mkind := r TRS_FLD_DATA0_MKIND, index := r TRS_FLD_DATA0_INDEX,
      shift := r TRS_FLD_DATA1_SHIFT, bias := toSigned 26 (r TRS_FLD_DATA1_BIAS) })

/-- The settings of a job slot, the ING page's and the TRS page's each live or staged. -/
def settingsOf (s : State) (d slot : Nat) (ist tst : Bool) : JobGen :=
  let r (f : Fld) : Nat := s.rd (Pg.ing d) (pick ist f) slot
  { from_ := 0, slot, job := r ING_JOB_ID, k := r ING_JOB_CFG_K, late := r ING_JOB_CFG_LATE_WIN, home := r ING_JOB_CFG_HOME,
    pg := r ING_JOB_CFG_PG, sealO := r ING_JOB_DL_SEAL_OFS, verdO := r ING_JOB_DL_VERD_OFS, hold := r ING_JOB_HOLD,
    gen := r ING_JOB_GEN, epoch := r ING_JOB_EPOCH, fields := tableOf s d slot tst }

/-- R50: the offsets lie in their ranges. -/
def offsetsOk (g : JobGen) : Bool :=
  let l := 125000 * 2 ^ g.k
  decide (20 ≤ g.sealO) && decide (g.sealO ≤ 1000) && decide (g.sealO * 1000 + 20000 < l) &&
  decide (g.sealO + 80 ≤ g.verdO) && decide (g.verdO ≤ g.sealO + 10000) && decide (g.verdO * 1000 < 4 * l + g.sealO * 1000)

/-- R173: the older generations of a slot with windows before their late horizon at an instant: each with the start of the next. -/
def inFlight (now : Nat) : Option Nat → List JobGen → List JobGen
  | _, [] => []
  | nextFrom, g :: older =>
    let live := g.job != 0 && (match nextFrom with
      | none => true
      | some t => decide (now < lateHorizon g ((t - 1) / (125000 * 2 ^ g.k))))
    (if live then [g] else []) ++ inFlight now (some g.from_) older

/-- The generations of a slot in flight now. -/
def gensInFlight (s : State) (d slot : Nat) : List JobGen :=
  inFlight (s.now .hub) none ((getIng s d).gens.filter (fun g => g.slot == slot))

/-- R188: states (F) and histograms (H) a settings generation takes on die d. -/
def statesFor (d : Nat) (g : JobGen) : Nat :=
  let f := (g.fields.filter (fun x => x.src != 0)).length
  if g.job = 0 then 0 else (g.late + 1) * f + (if d = homeDie g then 2 * f else 0)
def histsFor (d : Nat) (g : JobGen) : Nat :=
  let h := (g.fields.filter (fun x => x.src != 0 && x.hist)).length * g.pg
  if g.job = 0 then 0 else (g.late + 1) * h + (if d = homeDie g then 2 * h else 0)

/-- R188: what every job of a die takes, older generations in flight counted separately. -/
def usage (s : State) (d : Nat) (ist tst : Bool) (need : Nat → JobGen → Nat) : Nat :=
  ((List.range 256).map (fun i =>
    let g := settingsOf s d i ist tst
    need d g + (((gensInFlight s d i).filter (fun h => !({ h with from_ := 0 } == settingsOf s d i false false))).map (need d)).foldl (· + ·) 0)).foldl
      (· + ·) 0

/-- The page is ARMED for the same appointment as another. -/
def armedTogether (s : State) (pg other : Page) : Bool := isArmed s other && apptTime s other == apptTime s pg

/-- R173, R188: the check of both pages: boundaries of every changed slot, the fifth generation, the capacities. -/
def settingsCheck (s : State) (d : Nat) (pg : Page) (ist tst : Bool) : Nat :=
  let t := apptTime s pg
  let changed := (List.range 256).filter (fun i => settingsOf s d i ist tst != settingsOf s d i false false)
  if changed.any (fun i =>
      let a := settingsOf s d i false false
      let b := settingsOf s d i ist tst
      (a.job != 0 && !isBoundary a.k t) || (b.job != 0 && !isBoundary b.k t)) then Syn.RANGE
  else if changed.any (fun i => decide ((gensInFlight s d i).length ≥ 4)) then Syn.SIZE
  else if usage s d ist tst statesFor > 131072 ∨ usage s d ist tst histsFor > 8192 then Syn.SIZE
  else 0

/-- R50, R173, R188, R196: the checks of an ARM of a die's ING page. -/
def ingArmCheck (s : State) (d : Nat) : Nat :=
  let tst := armedTogether s (Pg.ing d) (Pg.trs d)
  let changed := (List.range 256).filter (fun i => settingsOf s d i true false != settingsOf s d i false false)
  let news := (changed.map (fun i => settingsOf s d i true false)).filter (fun g => g.job != 0)
  let c := settingsCheck s d (Pg.ing d) true tst
  if c ≠ 0 then c
  else if news.any (fun g => !offsetsOk g) then Syn.RANGE
  else if news.any (fun g => (rosterOf s g.job g.gen).isNone || (jobKey s g.job g.epoch).isNone) then Syn.STATE
  else 0

/-- R173, R188, R199: the checks of an ARM of a die's TRS page. -/
def trsArmCheck (s : State) (d : Nat) : Nat :=
  let ist := armedTogether s (Pg.trs d) (Pg.ing d)
  if (List.range 256).any (fun i => decide (((tableOf s d i true).filter (fun f => f.hist)).length > 256)) then Syn.SIZE
  else settingsCheck s d (Pg.trs d) ist true

/-- R199: what the live tables leave free. -/
def trsFree (s : State) (d : Nat) : Nat := 131072 - usage s d false false statesFor
def trsFreeHist (s : State) (d : Nat) : Nat := 8192 - usage s d false false histsFor

/-- R196 ING_JOB_STAT.WINDOWS: windows of the selected slot between boundary and late horizon. -/
def windowsInFlight (s : State) (d slot : Nat) : Nat :=
  let g := liveGen s d slot
  if g.job = 0 then 0
  else
    let n := windowIndex g.k (s.now .hub)
    ((List.range 24).filter (fun i => decide (i < n) && decide (s.now .hub < lateHorizon g (n - 1 - i)))).length

/-- R195: the soft reset of an ING page: every window, identity and reassembly of the die is discarded. -/
def softIng (s : State) (d : Nat) : State :=
  let clear (w : JobWin) : JobWin :=
    { w with table := w.table.filter (fun t => t.die != d),
             parts := w.parts.set (d - 56) (((genOfWin s w.slot w.win).map emptyPartial).getD ⟨[], 0, 0⟩) }
  setIng { s with hub := { s.hub with wins := s.hub.wins.map clear } } d IngDie.reset

/-- R195: the soft reset of a TRS page clears every field state of the die; windows in flight are withheld as under R189. -/
def softTrs (s : State) (d : Nat) : State :=
  { s with hub := { s.hub with wins := s.hub.wins.map (fun w =>
      if w.closed then w
      else { w with flags := Nat.lor w.flags 2,
                    parts := w.parts.set (d - 56) { fields := [], records := 0, late := 0 } }) } }

end Sys2Proof.Machine
end

