-- ==== Sys2Proof/Machine/Security.lean ====
section
/-!
DEFINITION. Sys2Proof/Machine/Security.lean: the key stores of the Hub's security engines (R417, R420, R421, R430–R432). The eight engines
hold identical stores: the model holds one.
-/
namespace Sys2Proof.Machine
open Reg

namespace KSt
/-! SEC_KS_INFO.STATE. -/
def NEXT : Nat := 1
def CURRENT : Nat := 2
def PREVIOUS : Nat := 3
end KSt

def setHKeys (s : State) (l : List HKey) : State := { s with hub := { s.hub with keys := l } }
def keyAt (s : State) (slot : Nat) : Option HKey := s.hub.keys.find? (fun k => k.slot == slot)

/-- The lowest free key slot from `lo`, of `n`. -/
def freeKeySlot (s : State) (lo n : Nat) : Option Nat := ((List.range n).map (· + lo)).find? (fun i => (keyAt s i).isNone)

/-- R431: the address of the record. -/
def secAddr (s : State) (d : Nat) : Nat := s.rd (Pg.sec d) SEC_LOAD_HI * 2 ^ 32 + s.rd (Pg.sec d) SEC_LOAD_LO

/-- The job slot that holds a job, live or staged, on an ingest die. -/
def slotNamed (s : State) (job : Nat) : Option Nat :=
  (List.range 256).find? (fun i => [56, 57, 58, 59, 60, 61, 62, 63].any (fun d =>
    s.rd (Pg.ing d) ING_JOB_ID i == job || s.rd (Pg.ing d) ING_JOB_ID.staged i == job))

/-- The outcome of an operation of SEC_LOAD_CTRL; a refusal is a syndrome of the page. -/
def secResult (s : State) (d code slot : Nat) (ag : Agent) : State :=
  let s := (s.wr (Pg.sec d) SEC_LOAD_STAT_CODE code).wr (Pg.sec d) SEC_LOAD_STAT_SLOT slot
  if code = 0 then s else syn s (Pg.sec d) code ag false SEC_LOAD_CTRL_OP.off

/-- A key enters the store as NEXT. -/
def addKey (s : State) (slot kind jslot job epoch val : Nat) : State :=
  setHKeys s (s.hub.keys ++ [{ slot, kind, jslot, job, epoch, val, state := KSt.NEXT, appt := none, until_ := 0 }])

/-- R417, R431: where a key of a kind, job and epoch goes, or the syndrome it is refused with. -/
def keyPlace (s : State) (kind job epoch : Nat) : Except Nat (Nat × Nat) :=
  let held := s.hub.keys.filter (fun k => k.kind == kind && (kind != 1 || k.job == job))
  let old := held.any (fun k => decide (epoch ≤ k.epoch))
  if kind = 1 then
    match slotNamed s job with
    | none => .error Syn.ROSTER
    | some js => match freeKeySlot s (js * 8) 8 with
      | none => .error Syn.SIZE
      | some i => if old then .error Syn.STATE else .ok (i, js)
  else
    match freeKeySlot s 2048 16 with
    | none => .error Syn.SIZE
    | some i => if old then .error Syn.STATE else .ok (i, 0)

/-- R431: INSTALL of a record's bytes. -/
def installRecord (s : State) (d : Nat) (ag : Agent) (r : List Nat) : State :=
  let kind := r.headD 0
  let job := ofBe ((r.drop 4).take 4)
  let epoch := ofBe ((r.drop 8).take 4)
  if s.rd (Pg.sec d) SEC_STAT_ID ≠ 1 then secResult s d Syn.AUTH 0 ag
  else if kind = 0 ∨ kind > 3 then secResult s d Syn.RANGE 0 ag
  else match Config.unwrap r with
    | none =>
      raise (secResult (s.bump (Pg.sec d) SEC_CNT_UNWRAP_FAIL) d Syn.AUTH 0 ag) (Pg.sec d) Irq.SEC_UNWRAP_FAIL { job, detail := epoch }
    | some v => match keyPlace s kind job epoch with
      | .error c => secResult s d c 0 ag
      | .ok (i, js) => secResult (addKey s i kind js (if kind = 1 then job else 0) epoch v.toNat) d 0 i ag

/-- R431: ERASE. -/
def eraseKey (s : State) (d : Nat) (ag : Agent) (slot : Nat) : State :=
  if slot > 2063 then syn s (Pg.sec d) Syn.RANGE ag false SEC_LOAD_CTRL_OP.off
  else secResult (setHKeys s (s.hub.keys.filter (fun k => k.slot != slot))) d 0 slot ag

/-- R431: a write of SEC_LOAD_CTRL. -/
def secLoadWrite (s : State) (d : Nat) (ag : Agent) (v : Nat) : State :=
  if ag ≠ .cabinet then syn s (Pg.sec d) Syn.AUTH ag false SEC_LOAD_CTRL_OP.off
  else match bits v 31 28 with
    | 1 =>
      let f := hbmFetch s (secAddr s d) 152
      installRecord f.1 d ag (f.2.map (·.1))
    | 2 => eraseKey s d ag (bits v 11 0)
    | _ => syn s (Pg.sec d) Syn.RANGE ag false SEC_LOAD_CTRL_OP.off

def execInstall (d : Nat) (ag : Agent) (s : State) : Host.Outcome State Fault Refusal :=
  if ¬ isXD d then .next (syn s (absentPage s .hub) Syn.ABSENT ag) else .next (secLoadWrite s d ag (1 * 2 ^ 28))

def execErase (d : Nat) (ag : Agent) (slot : BitVec 12) (s : State) : Host.Outcome State Fault Refusal :=
  if ¬ isXD d then .next (syn s (absentPage s .hub) Syn.ABSENT ag) else .next (secLoadWrite s d ag (2 * 2 ^ 28 + slot.toNat))

/-- R431, R432: every key but the identity is erased. -/
def zeroize (s : State) (d : Nat) : State := raise (setHKeys s []) (Pg.sec d) Irq.SEC_ZEROIZED

/-- R431: a write of SEC_ZEROIZE. -/
def zeroizeWrite (s : State) (d : Nat) (ag : Agent) (v : Nat) : State :=
  if ag ≠ .cabinet then syn s (Pg.sec d) Syn.AUTH ag false SEC_ZEROIZE.off
  else if v = 0x5A45524F then zeroize s d else syn s (Pg.sec d) Syn.RANGE ag false SEC_ZEROIZE.off

def execZeroize (d : Nat) (ag : Agent) (v : Word) (s : State) : Host.Outcome State Fault Refusal :=
  if ¬ isXD d then .next (syn s (absentPage s .hub) Syn.ABSENT ag) else .next (zeroizeWrite s d ag v.toNat)

/-- R417, R420: a PREVIOUS key whose overlap is over is discarded. -/
def execKeyDiscard (slot : Nat) (s : State) : Host.Outcome State Fault Refusal :=
  match keyAt s slot with
  | some k => if k.state = KSt.PREVIOUS ∧ s.now .hub ≥ k.until_ then .next (setHKeys s (s.hub.keys.filter (fun x => x.slot != slot))) else .next s
  | none => .next s

/-- R417: a job's epoch takes effect: its NEXT key becomes CURRENT, the CURRENT one PREVIOUS for `overlap` ns. -/
def promoteJobKey (s : State) (job epoch overlap : Nat) : State :=
  setHKeys s (s.hub.keys.map (fun k =>
    if k.kind == 1 && k.job == job then
      (if k.epoch = epoch then { k with state := KSt.CURRENT, until_ := 0 }
       else if k.state = KSt.CURRENT then { k with state := KSt.PREVIOUS, until_ := s.now .hub + overlap } else k)
    else k))

/-- R420, R421: command and export keys whose appointment has come. -/
def promoteSiteKeys (s : State) : State :=
  let due (k : HKey) : Bool := k.kind != 1 && k.state == KSt.NEXT && (match k.appt with
    | some t => decide (t ≤ s.now .hub)
    | none => false)
  (s.hub.keys.filter due).foldl (fun s n =>
    setHKeys s ((s.hub.keys.map (fun k =>
      if k.slot == n.slot then { k with state := KSt.CURRENT, appt := none }
      else if k.kind == n.kind && k.state == KSt.CURRENT then { k with state := KSt.PREVIOUS, until_ := n.appt.getD 0 + 10000000000 }
      else k)).filter (fun k => !(k.kind == 3 && n.kind == 3 && k.state == KSt.PREVIOUS)))) s

/-- The CURRENT key of a kind (2 COMMAND, 3 EXPORT). -/
def siteKey (s : State) (kind : Nat) : Option HKey := s.hub.keys.find? (fun k => k.kind == kind && k.state == KSt.CURRENT)

/-- R431: what the SEC page shows of the selected key slot: SEC_KS_INFO, SEC_KS_EPOCH and the 96-bit SEC_KS_END. -/
def ksInfo (k : Option HKey) : Nat :=
  match k with
  | some k => k.state * 2 ^ 30 + k.kind * 2 ^ 24 + (if k.kind = 1 then k.jslot else 0)
  | none => 0
def ksEpoch (k : Option HKey) : Nat := (k.map (·.epoch)).getD 0
def ksEnd (k : Option HKey) : Nat :=
  match k with
  | some k => if k.state = KSt.PREVIOUS then time96 k.until_ else 0
  | none => 0

end Sys2Proof.Machine
end

