-- ==== Sys2Proof/Machine/Commands.lean ====
section
/-!
DEFINITION. Sys2Proof/Machine/Commands.lean: the Cabinet's commands to units (R137, R138, R320) and the policies of a job (R308, R335, R416).
-/
namespace Sys2Proof.Machine
open Reg

/-- The policy that governs from an instant (R308): the newest generation appointed at or before it. -/
def polAt {α : Type} (l : List (Nat × α)) (t : Nat) : Option α := (l.find? (fun p => decide (p.1 ≤ t))).map (·.2)

/-- R320: the fabric port of frames to a unit. -/
def unitPort (j : Option HJob) (unit : Nat) : Nat :=
  match j.bind (fun j => j.ports.find? (fun p => p.1 == unit)) with
  | some p => p.2
  | none => unit % 10

def setCabinet (s : State) (c : Cabinet) : State := { s with hub := { s.hub with cabinet := c } }

/-- R137: a command may be issued: the Longcase is not UNSET and a command key is CURRENT. -/
def canCommand (s : State) : Bool := !s.isUnset .hub && (siteKey s 2).isSome

/-- R137: the sequence of the next command to a unit. -/
def nextSeq (s : State) (unit : Nat) : Nat :=
  max (s.now .hub / 64) (((s.hub.cabinet.seqs.find? (fun x => x.1 == unit)).map (fun x => x.2 + 1)).getD 0)

/-- A command leaves for a unit under a key, and awaits its RESPONSE. -/
def sendUnder (s : State) (epoch key unit job : Nat) (cmd : UCmd) (for_ : CmdFor) : State :=
  let seq := nextSeq s unit
  let c : CmdOut := { unit, seq, epoch, key, job, cmd, for_, rounds := 0, boots := 0, last := s.now .hub, answers := [] }
  let cab := s.hub.cabinet
  let s := setCabinet s { cab with cmds := cab.cmds ++ [c], seqs := (unit, seq) :: cab.seqs.filter (fun x => x.1 != unit) }
  let port := unitPort (hjob s job) unit
  sendOn s port (.command port c)

/-- R137, R138: a command to a unit, sealed under the current command key. -/
def sendCmd (s : State) (unit job : Nat) (cmd : UCmd) (for_ : CmdFor) : State :=
  match siteKey s 2 with
  | some k => if s.isUnset .hub then s else sendUnder s k.epoch k.val unit job cmd for_
  | none => s

/-- The first boundary of length k at or after an instant. -/
def boundaryAt (k t : Nat) : Nat := ceilDiv t (125000 * 2 ^ k) * (125000 * 2 ^ k)

/-- A job's roster members of window n that this Hub serves. -/
def servedMembers (s : State) (g : JobGen) : List Member := (winMembers s g).filter (fun m => m.hub == selfId s)

/-- The settings of a job's windows that start now. -/
def jobNow (s : State) (j : HJob) : Option JobGen := genAt s 56 j.slot j.job (s.now .hub)

end Sys2Proof.Machine
end

