-- ==== Sys2Proof/Machine/Gsi.lean ====
section
/-!
DEFINITION. Sys2Proof/Machine/Gsi.lean: the gateway status pages (R380, R381, R383–R386, R391).
-/
namespace Sys2Proof.Machine
open Reg

/-- R391: the GSI page of L0 or L1. -/
def gsiPg (l : Nat) : Page := Pg.gsi l

/-- R380: the time of a filtered edge: the filter's delay is taken off. -/
def edgeTime (s : State) (l : Nat) : Nat := s.now .hub - s.rd (gsiPg l) GSI_CFG * 10

/-- R380, R381, R85: a filtered rising edge of pse_a (l = 0) or pse_b (l = 1). -/
def execPseRise (l : Nat) (s : State) : Host.Outcome State Fault Refusal :=
  if l ≥ 2 ∨ s.rd (gsiPg l) GSI_PSE_LEVEL = 1 then .next s
  else
    let t := edgeTime s l
    let s := ((s.wr (gsiPg l) GSI_PSE_LEVEL 1).bump (gsiPg l) GSI_PSE_RISES).wr (gsiPg l) GSI_PSE_T (time96 t)
    let s := setRch s l { getRch s l with rises := (getRch s l).rises ++ [t] }
    let s := raise s (gsiPg l) Irq.GSI_PSE_RISE
    let s := if s.rd Pg.xLcs LCS_ROLE_TX_B = 1 ∧ s.rd Pg.xLcs LCS_REACH_CFG_PORT = l then pathChange s else s
    .next (pauseReach s l t)

/-- R381: a filtered falling edge ends the pause. -/
def execPseFall (l : Nat) (s : State) : Host.Outcome State Fault Refusal :=
  if l ≥ 2 ∨ s.rd (gsiPg l) GSI_PSE_LEVEL = 0 then .next s
  else
    let len := (edgeTime s l - ofTime96 (s.rd (gsiPg l) GSI_PSE_T)) / 1000
    let s := (s.wr (gsiPg l) GSI_PSE_LEVEL 0).wr (gsiPg l) GSI_PSE_LEN (min len 0xFFFFFFFF)
    .next (endPause (raise s (gsiPg l) Irq.GSI_PSE_FALL) l)

/-- R381: PSE_MAX_MS after the rising edge. -/
def execPauseTimeout (l : Nat) (s : State) : Host.Outcome State Fault Refusal :=
  match (getRch s l).pause with
  | some (_, t) =>
    if l ≥ 2 ∨ isFrozen s (Pg.rch l) ∨ s.now .hub < t + s.rd (Pg.rch l) RCH_RTO_PSE_MAX_MS * 1000000 then .next s
    else .next (raise (endPause s l) (gsiPg l) Irq.GSI_PSE_STUCK)
  | none => .next s

/-! ### Lines (R385, R386) -/

/-- Hot entry i of a record: nothing is added where it carries none. -/
def hotOf (v : RecView) (i : Nat) : Nat := ((v.hot[i]?).map (·.1)).getD 0

/-- A gauge of a record (last, largest); none where it carries none. -/
def gaugeOf (v : RecView) (i : Nat) : Option (Int × Int) := (v.gauges.find? (fun g => g.1 == i)).map (fun g => (g.2.1, g.2.2.2))

/-- The value a gauge shows, shifted right by 24; a free value where the record does not carry the gauge (R384 asks for it). -/
def gaugeState (s : State) (x : Option Int) (top : Nat) : State × Nat :=
  match x with
  | some v => (s, min top (sra v 24).toNat)
  | none => (s.free.1, s.free.2 % (top + 1))

/-- R385: a line is updated from its unit's record. -/
def lineRecord (s : State) (l i : Nat) (v : RecView) : State :=
  let pg := gsiPg l
  let old := s.rd pg GSI_LINE_STAT_FRAME i
  let f := gaugeState s ((gaugeOf v 0).map (·.2)) 2
  let p := gaugeState f.1 ((gaugeOf v 1).map (·.1)) 1
  let t := gaugeState p.1 ((gaugeOf v 2).map (·.1)) 1
  let s := ((t.1.wr pg GSI_LINE_STAT_FRAME f.2 i).wr pg GSI_LINE_STAT_ACTIVE_PATH p.2 i).wr pg GSI_LINE_STAT_TSI_PAGE t.2 i
  let s := s.bump pg GSI_LINE_SPAR i (hotOf v 0)
  let s := s.bump pg GSI_LINE_PPAR i (hotOf v 1)
  let s := s.bump pg GSI_LINE_FEE i (hotOf v 2)
  let s := s.bump pg GSI_LINE_FRM_OOF i (hotOf v 3)
  let s := s.bump pg GSI_LINE_FRM_LOF i (hotOf v 4)
  let s := s.bump pg GSI_LINE_SW_APS i (hotOf v 5)
  let s := s.bump pg GSI_LINE_SW_TSI i (hotOf v 6)
  let s := if f.2 = 2 ∧ old ≠ 2 then raise s pg Irq.GSI_LOF { detail := i } else s
  if hotOf v 5 ≠ 0 then raise s pg Irq.GSI_APS { detail := i } else s

/-- R385: a line whose unit has no record in revision 0. -/
def lineMissing (s : State) (l i : Nat) : State :=
  (s.wr (gsiPg l) GSI_LINE_STAT_FRAME 3 i).bump (gsiPg l) GSI_LINE_STAT_MISSING i

/-- R386: a disagreement of the fast and the slow path. -/
def pseMismatch (s : State) (l : Nat) (f : Fld) (n : Nat) : State :=
  (List.range n).foldl (fun s _ => raise (s.bump (gsiPg l) f) (gsiPg l) Irq.GSI_PSE_MISMATCH) s

/-- R386: the cross-check of the CARRIER line at window n. -/
def crossCheck (s : State) (l n k : Nat) (aps : Bool) : State :=
  let r := getRch s l
  let from_ := windowStart n k - 1000000
  let seen := r.rises.any (fun t => decide (from_ ≤ t) && decide (t ≤ windowEnd n k))
  let s := if aps && !seen then pseMismatch s l GSI_MISMATCH_APS_NO_PSE 1 else s
  let bad := r.rises.filter (fun t => decide (windowIndex k t + 1 = n) && !r.aps && !aps)
  let s := pseMismatch s l GSI_MISMATCH_PSE_NO_APS bad.length
  setRch s l { getRch s l with aps := aps, rises := r.rises.filter (fun t => decide (windowIndex k t ≥ n) || decide (windowEnd n k ≤ t + 1000000)) }

/-- R385: the lines of a GSI page are updated from revision 0 of window n of the gateway job. -/
def execGsiUpdate (l slot n : Nat) (s : State) : Host.Outcome State Fault Refusal :=
  let pg := gsiPg l
  match genOfWin s slot n with
  | none => .next s
  | some g =>
    let w := theWin s g n
    let done : Bool := match (getRch s l).gsiWin with
      | some m => decide (n ≤ m)
      | none => false
    if l ≥ 2 ∨ s.rd pg GSI_JOB = 0 ∨ g.job ≠ s.rd pg GSI_JOB ∨ w.sealed = false ∨ done = true then .next s
    else
      let lines := (List.range 8).filter (fun i => s.rd pg GSI_LINE_CFG_ROLE i != 0)
      let recOf (i : Nat) : Option RecView :=
        (w.table.find? (fun t => t.body.hdr.unit == s.rd pg GSI_LINE_CFG_UNIT i && !t.late && !t.snapshot)).bind
          (fun t => readRecord t.body.plain)
      let upd (s : State) (i : Nat) : State := match recOf i with
        | some v => lineRecord s l i v
        | none => lineMissing s l i
      let s' := lines.foldl upd s
      let s' := setRch s' l { getRch s' l with gsiWin := some n }
      match lines.find? (fun i => s.rd pg GSI_LINE_CFG_ROLE i == 1) with
      | some i => .next (crossCheck s' l n g.k (((recOf i).map (fun v => hotOf v 5)).getD 0 != 0))
      | none => .next s'

/-- R391: the checks of an ARM of a GSI page. -/
def gsiArmCheck (s : State) (l : Nat) : Nat :=
  let pg := gsiPg l
  let job := s.rd pg GSI_JOB.staged
  let lines := (List.range 8).filter (fun i => s.rd pg GSI_LINE_CFG_ROLE.staged i != 0)
  let members := ((s.hub.rosters.filter (fun r => r.job == job)).flatMap (fun r => r.members)).map (·.unit)
  if job ≠ 0 ∧ ¬ (s.hub.jobs.any (fun j => j.job == job)) then Syn.ROSTER
  else if (lines.filter (fun i => s.rd pg GSI_LINE_CFG_ROLE.staged i == 1)).length > 1 then Syn.RANGE
  else if lines.any (fun i => !members.contains (s.rd pg GSI_LINE_CFG_UNIT.staged i)) then Syn.ROSTER
  else 0

/-- R387: totals of a line restart. -/
def clearLine (s : State) (l i : Nat) : State :=
  let pg := gsiPg l
  [GSI_LINE_SPAR, GSI_LINE_PPAR, GSI_LINE_FEE, GSI_LINE_SW_APS, GSI_LINE_SW_TSI, GSI_LINE_FRM_OOF, GSI_LINE_FRM_LOF,
    GSI_LINE_STAT_MISSING].foldl (fun s f => s.wr pg f 0 i) s

/-- R387: an applied GSI page; `old` the units of the lines before. -/
def gsiApplied (s : State) (l : Nat) (old : List Nat) : State :=
  (List.range 8).foldl (fun s i => if s.rd (gsiPg l) GSI_LINE_CFG_UNIT i = old.getD i 0 then s else clearLine s l i) s

/-- R387: a GSI soft reset also forgets the edges kept for the cross-check. -/
def softGsi (s : State) (l : Nat) : State := setRch s l { getRch s l with rises := [], aps := false, gsiWin := none }

end Sys2Proof.Machine
end

