-- ==== Sys2Proof/Machine/HubPower.lean ====
section
/-!
DEFINITION. Sys2Proof/Machine/HubPower.lean: the power controller of the Hub (R392–R408): ceilings, the level in force, thermal control,
regulator telemetry and calibration, energy attribution.
-/
namespace Sys2Proof.Machine
open Reg

/-- R395: the frequency of a level, MHz. -/
def levelMhz (l : Nat) : Nat := 400 + l * 1400 / 63

namespace Cause
/-! PWR_STATUS.CAUSE (R408). -/
def REQUESTED : Nat := 0
def FAST_VR : Nat := 1
def FAST_EST : Nat := 2
def BOARD : Nat := 3
def AVG1 : Nat := 4
def SUST : Nat := 5
def THERM : Nat := 6
end Cause

def HCause.reset : HCause := { ceil := 63, active := false, low := 0, raised := 0 }
def getCause (s : State) (c : Nat) : HCause := s.hub.power.causes.getD (c - 1) HCause.reset
def setPower (s : State) (p : HPower) : State := { s with hub := { s.hub with power := p } }
def setCause (s : State) (c : Nat) (x : HCause) : State :=
  setPower s { s.hub.power with causes := s.hub.power.causes.set (c - 1) x }

/-- R396: the level the causes call for, and the lowest code of a cause that sets it. -/
def targetLevel (s : State) : Nat := s.hub.power.causes.foldl (fun m c => min m c.ceil) (s.rd Pg.hPwr HPWR_LEVEL)
def targetCause (s : State) : Nat :=
  let t := targetLevel s
  if s.rd Pg.hPwr HPWR_LEVEL = t then Cause.REQUESTED
  else (([1, 2, 3, 4, 5, 6].find? (fun c => (getCause s c).ceil == t))).getD Cause.REQUESTED

/-- The level in force becomes what is given (R396, R408). -/
def setLevel (s : State) (l : Nat) : State :=
  ((s.wr Pg.hPwr HPWR_STATUS_LEVEL l).wr Pg.hPwr HPWR_STATUS_MHZ (levelMhz l)).wr Pg.hPwr HPWR_STATUS_CAUSE (targetCause s)

/-- R398: a changed level is broadcast with an application tick 2 µs ahead. -/
def decideLevel (s : State) : State :=
  let t := targetLevel s
  if t = s.rd Pg.hPwr HPWR_STATUS_LEVEL then
    (setPower s { s.hub.power with bcast := none }).wr Pg.hPwr HPWR_STATUS_CAUSE (targetCause s)
  else match s.hub.power.bcast with
    | some (l, _) => if l = t then s else setPower s { s.hub.power with bcast := some (t, s.now .hub + 2000) }
    | none => setPower s { s.hub.power with bcast := some (t, s.now .hub + 2000) }

/-- R398: the application tick. -/
def execLevelApply (s : State) : Host.Outcome State Fault Refusal :=
  match s.hub.power.bcast with
  | some (l, t) => if s.now .hub ≥ t then .next (setLevel (setPower s { s.hub.power with bcast := none }) l) else .next s
  | none => .next s

/-! ### Ceilings (R397) -/

/-- The event count and the interrupt of a cause. -/
def causeEvent (c : Nat) : Fld × Nat :=
  if c ≤ 3 then (HPWR_EVENTS_FAST, Irq.HPWR_FAST)
  else if c = 4 then (HPWR_EVENTS_AVG1, Irq.HPWR_AVG1)
  else if c = 5 then (HPWR_EVENTS_SUST, Irq.HPWR_SUST) else (HPWR_EVENTS_THERM, Irq.HPWR_THERM)

/-- A cause's ceiling falls to a level; an entry into the lowering is counted, raised and posted. -/
def lowerTo (s : State) (c l : Nat) : State :=
  let x := getCause s c
  let s := if x.active then s else raise (s.bump Pg.hPwr (causeEvent c).1) Pg.hPwr (causeEvent c).2 { detail := c }
  let s := setCause s c { x with ceil := min x.ceil l, active := true, low := s.now .hub }
  decideLevel (setPower s { s.hub.power with lowered := some (s.now .hub) })

/-- The lowering of a cause is over: its raising counts from now. -/
def causeClear (s : State) (c : Nat) : State :=
  let x := getCause s c
  if x.active then setCause s c { x with active := false, raised := s.now .hub } else s

/-- A FAST cause ends: the 100 µs without a FAST cause count for all three. -/
def fastClear (s : State) (c : Nat) : State :=
  if (getCause s c).active then
    let s := causeClear s c
    [1, 2, 3].foldl (fun s i => setCause s i { getCause s i with low := s.now .hub }) s
  else s

/-- The energies of the last millisecond and second, nJ. -/
def sumSamples (l : List Nat) : Nat := l.foldl (· + ·) 0
def sum1ms (s : State) : Nat := sumSamples (s.hub.power.samples.take 1000)
def sum1s (s : State) : Nat := sumSamples s.hub.power.samples

/-- R392: the sustained limit in force, W. -/
def sustLimit (s : State) : Nat :=
  let op := s.rd Pg.hPwr HPWR_OP_CAP
  let l := s.rd Pg.hPwr HPWR_LIM_SUST
  if op ≠ 0 ∧ op < l then op else l

/-- R397: an average is clear: 100 × average ≤ 97 × limit. -/
def avgClear (s : State) (c : Nat) : Bool :=
  if c = Cause.AVG1 then decide (100 * sum1ms s ≤ 97 * (s.rd Pg.hPwr HPWR_LIM_1MS * 1000000))
  else decide (100 * sum1s s ≤ 97 * (sustLimit s * 1000000000))

/-- R403: every die reads at most TJ_THR − 5 °C. -/
def allCool (s : State) : Bool :=
  (List.range 64).all (fun d => decide (s.rd Pg.hPwr HPWR_DIE_STAT_TJ d + 5 ≤ s.rd Pg.hPwr HPWR_TJ_TJ_THR))

/-- R397, R403: a cause's ceiling may rise now: it is clear, its interval is over, and no ceiling fell in this tick (R398). -/
def mayRaise (s : State) (c : Nat) : Bool :=
  let x := getCause s c
  let now := s.now .hub
  let quiet := s.hub.power.lowered != some now
  let fastOn := (getCause s 1).active || (getCause s 2).active || (getCause s 3).active
  quiet && decide (x.ceil < 63) && (
    if c ≤ 3 then !fastOn && decide (now ≥ x.low + 100000) && decide (now ≥ x.raised + 10000)
    else if c = Cause.AVG1 then avgClear s c && decide (now ≥ x.raised + 1000000)
    else if c = Cause.SUST then avgClear s c && decide (now ≥ x.raised + 100000000)
    else !s.hub.power.trip && allCool s && decide (now ≥ x.raised + 10000000))

def raiseCeiling (s : State) (c : Nat) : State :=
  let x := getCause s c
  decideLevel (setCause s c { x with ceil := x.ceil + 1, raised := s.now .hub })

/-- R397: the raising interval of a cause (1 FAST_VR … 6 THERM). -/
def execCeilingRaise (c : Nat) (s : State) : Host.Outcome State Fault Refusal :=
  if 1 ≤ c ∧ c ≤ 6 ∧ mayRaise s c = true then .next (raiseCeiling s c) else .next s

/-! ### Inputs (R397, R400) -/

/-- An enabled vr_alert_n is low. -/
def vrOn (s : State) : Bool := Nat.land (s.rd Pg.hPwr HPWR_VR_ALERT) s.hub.power.vrEn != 0

/-- R397: vr_alert_n[k] goes low. -/
def execVrAlert (k : Nat) (s : State) : Host.Outcome State Fault Refusal :=
  if k ≥ 8 then .next s
  else
    let s := s.wr Pg.hPwr HPWR_VR_ALERT (putBit (s.rd Pg.hPwr HPWR_VR_ALERT) k true)
    .next (if bit s.hub.power.vrEn k then lowerTo s Cause.FAST_VR (s.rd Pg.hPwr HPWR_THR_LEVEL) else s)

/-- R397: vr_alert_n[k] returns high. -/
def execVrAlertDeassert (k : Nat) (s : State) : Host.Outcome State Fault Refusal :=
  if k ≥ 8 then .next s
  else
    let s := s.wr Pg.hPwr HPWR_VR_ALERT (putBit (s.rd Pg.hPwr HPWR_VR_ALERT) k false)
    .next (if vrOn s then s else fastClear s Cause.FAST_VR)

/-- R397: brd_thr_n[k] goes low. -/
def execBoardThrottle (k : Nat) (s : State) : Host.Outcome State Fault Refusal :=
  if k ≥ 2 then .next s
  else
    let s := s.wr Pg.hPwr HPWR_VR_BRD (putBit (s.rd Pg.hPwr HPWR_VR_BRD) k true)
    .next (lowerTo s Cause.BOARD (s.rd Pg.hPwr HPWR_THR_LEVEL))

/-- R397: brd_thr_n[k] returns high. -/
def execBoardThrottleDeassert (k : Nat) (s : State) : Host.Outcome State Fault Refusal :=
  if k ≥ 2 then .next s
  else
    let s := s.wr Pg.hPwr HPWR_VR_BRD (putBit (s.rd Pg.hPwr HPWR_VR_BRD) k false)
    .next (if s.rd Pg.hPwr HPWR_VR_BRD = 0 then fastClear s Cause.BOARD else s)

/-! ### Samples and energy (R397, R404) -/

/-- R401: the class of a die: 0 compute, 1 memory-side, 2 I/O. -/
def dieClass (d : Nat) : Nat := if isCD d then 0 else if isMD d then 1 else 2

/-- R404: the calibrated energy of a component of a die, nJ. -/
def scaled (s : State) (die raw : Nat) : Nat := raw * s.rd Pg.hPwr HPWR_CAL_GAIN (dieClass die) / 2 ^ 16

/-- R404: one component's energy goes to its counter and to TOTAL. `tile` is the tile it comes from with its queue (4: TILE); none for what is shared. -/
def attribute_ (s : State) (die : Nat) (tile : Option (Nat × Nat)) (raw : Nat) : State :=
  let e := scaled s die raw
  let s := s.incr Pg.hPwr HPWR_EN_TOTAL 0 e
  match tile with
  | some (t, q) =>
    if s.rd (Pg.til t) TIL_JOB_VALID = 1 ∧ ¬ s.hub.retired.contains t then
      s.incr Pg.hPwr HPWR_EN_JOB (s.rd (Pg.til t) TIL_JOB_SLOT * 8 + q) e
    else s.incr Pg.hPwr HPWR_EN_UNATTR 0 e
  | none => s.incr Pg.hPwr HPWR_EN_SHARED 0 e

/-- R397: a limit on an average: the ceiling falls by one level at the violation and again after each interval while violated. -/
def avgLimit (s : State) (c : Nat) (violated : Bool) (interval : Nat) : State :=
  let x := getCause s c
  if violated then
    (if x.active && decide (s.now .hub < x.low + interval) then s else lowerTo s c (x.ceil - 1))
  else causeClear s c

/-- R405: a job slot's energy so far, nJ: the four queues and TILE. -/
def slotEnergy (s : State) (slot : Nat) : Nat := ((List.range 5).map (fun q => s.rd Pg.hPwr HPWR_EN_JOB (slot * 8 + q))).foldl (· + ·) 0

/-- R427: at the first sample at or after a TAI 100 ms boundary the Cabinet notes each job's energy. -/
def logEnergy (s : State) : State :=
  let b := s.now .hub / 100000000 * 100000000
  let c := s.hub.cabinet
  let new := (s.hub.jobs.filter (fun j => !c.energy.any (fun x => x.1 == j.job && x.2.1 == b))).map (fun j => (j.job, b, slotEnergy s j.slot))
  { s with hub := { s.hub with cabinet := { c with energy := new ++ c.energy } } }

/-- R397: 1 µs sample: the raw energies of the components, each with its die and, for a tile's, the tile and queue. -/
def execPowerEstimateSample (raw : List (Nat × Option (Nat × Nat) × Nat)) (s : State) : Host.Outcome State Fault Refusal :=
  let dieSum (d : Nat) : Nat := ((raw.filter (fun x => x.1 == d)).map (fun x => scaled s d x.2.2)).foldl (· + ·) 0
  let dies := (raw.map (·.1)).eraseDups
  let total := (dies.map dieSum).foldl (· + ·) 0
  let est (c : Nat) : Nat := ((dies.filter (fun d => dieClass d == c)).map dieSum).foldl (· + ·) 0
  let s := dies.foldl (fun s d => s.wr Pg.hPwr HPWR_DIE_STAT_MW (min (dieSum d) 0xFFFFFF) d) (logEnergy s)
  let s := raw.foldl (fun s x => attribute_ s x.1 x.2.1 x.2.2) s
  let p := s.hub.power
  let s := setPower s { p with samples := (total :: p.samples).take 1000000,
                               estE := p.estE.zipIdx.map (fun x => x.1 + est x.2) }
  let s := s.wr Pg.hPwr HPWR_NOW (min total 0xFFFFFFFF)
  let s := s.wr Pg.hPwr HPWR_AVG1 (min (sum1ms s / 1000) 0xFFFFFFFF)
  let s := s.wr Pg.hPwr HPWR_AVG1S (min (sum1s s / 1000000) 0xFFFFFFFF)
  let s := if total > s.rd Pg.hPwr HPWR_LIM_FAST * 1000 then lowerTo s Cause.FAST_EST (s.rd Pg.hPwr HPWR_THR_LEVEL)
    else fastClear s Cause.FAST_EST
  let s := avgLimit s Cause.AVG1 (decide (sum1ms s > s.rd Pg.hPwr HPWR_LIM_1MS * 1000000)) 100000
  .next (avgLimit s Cause.SUST (decide (sum1s s > sustLimit s * 1000000000)) 10000000)

/-! ### Thermal control (R403) -/

/-- R403: a die's junction reading, °C. -/
def execThermalReading (die temp : Nat) (s : State) : Host.Outcome State Fault Refusal :=
  if ¬ diePresent s.cfg die then .next s
  else
    let s := s.wr Pg.hPwr HPWR_DIE_STAT_TJ (min temp 255) die
    let hot := (List.range 64).any (fun d => decide (s.rd Pg.hPwr HPWR_DIE_STAT_TJ d ≥ s.rd Pg.hPwr HPWR_TJ_TJ_THR))
    let x := getCause s Cause.THERM
    let s := if hot then
        (if x.active && decide (s.now .hub < x.low + 1000000) then s else lowerTo s Cause.THERM (x.ceil - 4))
      else if mayRaise s Cause.THERM then raiseCeiling (causeClear s Cause.THERM) Cause.THERM else causeClear s Cause.THERM
    if temp ≥ s.rd Pg.hPwr HPWR_TJ_TJ_CRIT ∧ s.hub.power.trip = false then
      let s := post s Pg.hPwr 0x3000 7 true false (leBytes 4 die ++ leBytes 4 temp ++ List.replicate 16 0)
      let s := setPower s { s.hub.power with trip := true }
      let x := getCause s Cause.THERM
      .next (decideLevel (setCause s Cause.THERM { x with ceil := 0, active := true, low := s.now .hub }))
    else .next s

/-! ### Regulators (R400–R402) -/

/-- R401: every 10 ms; one reading (mV, mA) for each listed device, none where the transaction failed twice. -/
def execPmbusPoll (readings : List (Option (Nat × Nat))) (s : State) : Host.Outcome State Fault Refusal :=
  let p := s.hub.power
  let due := match p.pollAt with
    | some t => decide (s.now .hub ≥ t + 10000000)
    | none => true
  if due = false then .next s
  else
    let pairs := p.pmb.zip readings
    let fails := (pairs.filter (fun x => x.2.isNone)).length
    let energy (c : Nat) : Nat := (pairs.map (fun x => match x.2 with
      | some (mv, ma) => if x.1.2 = c then mv * ma * 10 else 0
      | none => 0)).foldl (· + ·) 0
    let got (c : Nat) : Nat := (pairs.filter (fun x => x.2.isSome && x.1.2 == c)).length
    let s := setPower s { p with pollAt := some (s.now .hub), regE := p.regE.zipIdx.map (fun x => x.1 + energy x.2),
                                 seen := p.seen.zipIdx.map (fun x => x.1 + got x.2) }
    .next (s.bump Pg.hPwr HPWR_VR_PMB_ERR 0 fails)

/-- R400: pmb_alert_n is answered by a status read of each device. -/
def execPmbusAlert (s : State) : Host.Outcome State Fault Refusal :=
  .next (s.hub.power.pmb.foldl (fun s d => s.send (.pmbusStatus d.1)) s)

/-- R402: the move of a class's GAIN toward the regulators, and the last difference in 0.1 %. -/
def gainStep (gain reg est : Nat) : Nat × Int :=
  let d : Int := (reg : Int) - (est : Int)
  let resid := if est = 0 then (if reg = 0 then 0 else 63) else clamp (-64) 63 ((d * 1000).tdiv (est : Int))
  if d.natAbs * 100 ≤ est then (gain, resid)
  else
    let lim : Int := (gain / 64 : Nat)
    let move := if est = 0 then lim else clamp (-lim) lim (((gain : Int) * d).tdiv (est : Int))
    ((clamp 32768 131072 ((gain : Int) + move)).toNat, resid)

/-- R402: one class's comparison. -/
def calibrateClass (s : State) (c : Nat) : State :=
  let p := s.hub.power
  if p.seen.getD c 0 = 0 then
    let n := p.miss.getD c 0 + 1
    let s := setPower s { p with miss := p.miss.set c n }
    if n = 3 then raise (s.wr Pg.hPwr HPWR_CAL_STALE 1 c) Pg.hPwr Irq.HPWR_CAL_STALE { detail := c } else s
  else
    let r := gainStep (s.rd Pg.hPwr HPWR_CAL_GAIN c) (p.regE.getD c 0) (p.estE.getD c 0)
    let s := setPower s { p with miss := p.miss.set c 0 }
    ((s.wr Pg.hPwr HPWR_CAL_GAIN r.1 c).wr Pg.hPwr HPWR_CAL_RESID (ofSigned 7 r.2) c).wr Pg.hPwr HPWR_CAL_STALE 0 c

/-- R402: every 100 ms. -/
def execCalibration (s : State) : Host.Outcome State Fault Refusal :=
  let due := match s.hub.power.calAt with
    | some t => decide (s.now .hub ≥ t + 100000000)
    | none => true
  if due = false then .next s
  else
    let s := [0, 1, 2].foldl calibrateClass s
    .next (setPower s { s.hub.power with calAt := some (s.now .hub), regE := [0, 0, 0], estE := [0, 0, 0], seen := [0, 0, 0] })

/-! ### Register writes (R393, R394, R406) -/

/-- R393: the order of the limits, and their rated values. -/
def limitsOk (s : State) (fast avg1 sust : Nat) : Bool :=
  decide (fast ≤ resetVal s.cfg (HPWR_LIM_FAST.key Pg.hPwr 0)) && decide (avg1 ≤ resetVal s.cfg (HPWR_LIM_1MS.key Pg.hPwr 0)) &&
  decide (sust ≤ resetVal s.cfg (HPWR_LIM_SUST.key Pg.hPwr 0)) && decide (fast ≥ avg1) && decide (avg1 ≥ sust)

/-- R393: what a write of a limit, PWR_THR_LEVEL or PWR_LOCK is refused with; 0 for none. -/
def hpwrCheck (s : State) (off v : Nat) : Nat :=
  let l (f : Fld) : Nat := if f.off = off then v % 2 ^ 13 else s.rd Pg.hPwr f
  if s.rd Pg.hPwr HPWR_LOCK = 1 ∧ 0x048 ≤ off ∧ off ≤ 0x058 then Syn.STATE
  else if 0x048 ≤ off ∧ off ≤ 0x050 ∧ limitsOk s (l HPWR_LIM_FAST) (l HPWR_LIM_1MS) (l HPWR_LIM_SUST) = false then Syn.RANGE
  else 0

/-- R393: a write of PWR_LOCK. -/
def execHubPwrLockWrite (ag : Agent) (v : Bool) (s : State) : Host.Outcome State Fault Refusal :=
  if ag ≠ .cabinet then .next (syn s Pg.hPwr Syn.AUTH ag false HPWR_LOCK.off)
  else
    let c := hpwrCheck s HPWR_LOCK.off (b2n v)
    .next (if c ≠ 0 then syn s Pg.hPwr c ag false HPWR_LOCK.off else s.wr Pg.hPwr HPWR_LOCK (b2n v))

/-- R405: a slot's five counters restart when it becomes live with a new job. -/
def clearSlotEnergy (s : State) (slot : Nat) : State :=
  (List.range 5).foldl (fun s q => s.wr Pg.hPwr HPWR_EN_JOB 0 (slot * 8 + q)) s

/-- R406: a soft reset of the page before LOCK also returns the controller's ceilings to 63. -/
def softHpwr (s : State) : State :=
  decideLevel (setPower s { HPower.reset with trip := s.hub.power.trip, vrEn := s.hub.power.vrEn, pmb := s.hub.power.pmb })

end Sys2Proof.Machine
end

