-- ==== Sys2Proof/Machine/Inlet.lean ====
section
/-!
DEFINITION. Sys2Proof/Machine/Inlet.lean: the command inlet of a Tally (R137–R141): acceptance of a frame, responses, verdicts,
keys (R418–R420).
-/
namespace Sys2Proof.Machine
open Reg

/-- R420: a command key delivered for an appointment that has passed is current; the key it replaced is previous for 10 s. -/
def cmdPromote (s : State) : State :=
  match s.tally.cmd.next with
  | some (k, t) =>
    if t ≤ s.now .tally then
      { s with tally := { s.tally with cmd :=
        { cur := some k, prev := s.tally.cmd.cur.map (fun c => (c, t + 10000000000)), next := none } } }
    else s
  | none => s

/-- R137: the command key an epoch names: the current one, or the previous one within its overlap. -/
def cmdKeyFor (s : State) (epoch : Nat) : Option Key :=
  match s.tally.cmd.cur, s.tally.cmd.prev with
  | some c, some (p, t) => if c.epoch = epoch then some c else if p.epoch = epoch ∧ s.now .tally < t then some p else none
  | some c, none => if c.epoch = epoch then some c else none
  | none, _ => none

/-- The live slot that holds a job. -/
def slotOfJob (s : State) (job : Nat) : Option Nat := (liveSlots s).find? (fun i => slotJob s i == job)

/-- R137: the current or previous key of a slot for an epoch. -/
def verdKeyFor (s : State) (i epoch : Nat) : Option Key :=
  ([(getKeys s i).cur, (getKeys s i).prev].filterMap id).find? (fun k => k.epoch == epoch)

/-- R137: the (window, revision) pair is above the last accepted one. -/
def verdNewer (last : Option (Nat × Nat)) (w r : Nat) : Bool :=
  match last with
  | none => true
  | some (w', r') => decide (w > w') || (w == w' && decide (r > r'))

/-- What the inlet's checks find. -/
inductive InletRes
  /-- Discarded silently: the frame is for another unit. -/
  | miss
  /-- Discarded with a syndrome; `replayed` where the sequence is not above the last. -/
  | refuse (code : Nat) (replayed : Bool)
  | accept (key : Key)
  deriving DecidableEq, Repr

/-- R137: the checks common to every frame, in order, before any key is looked up; none where they pass. -/
def inletHead (s : State) (f : InFrame) (kind : Nat) : Option InletRes :=
  if f.hdr.ver ≠ 1 ∨ f.hdr.kind ≠ kind then some (.refuse Syn.RANGE false)
  else if f.seg ≠ 0 ∨ f.hdr.sealedLen > 2048 ∨ f.bytes ≠ f.hdr.sealedLen then some (.refuse Syn.SIZE false)
  else if s.rd Pg.tly TLY_UNIT_LOCKED = 0 ∨ f.hdr.unit ≠ s.rd Pg.tly TLY_UNIT_UNIT then some .miss
  else none

/-- R137: the checks of a COMMAND. -/
def inletCommand (s : State) (f : InFrame) : InletRes :=
  match inletHead s f Kind.COMMAND with
  | some r => r
  | none =>
    match cmdKeyFor s f.hdr.epoch with
    | none => .refuse Syn.AUTH false
    | some k =>
      if f.key ≠ k.val ∨ f.intact = false then .refuse Syn.AUTH false
      else if f.hdr.window ≤ s.rd Pg.sealP SEAL_CMD_SEQ then .refuse Syn.AUTH true
      else .accept k

/-- R137: the checks of a VERDICT for the slot that holds its job. -/
def inletVerdict (s : State) (f : InFrame) : InletRes :=
  match inletHead s f Kind.VERDICT with
  | some r => r
  | none =>
    match slotOfJob s f.hdr.job with
    | none => .refuse Syn.ROSTER false
    | some i =>
      match verdKeyFor s i f.hdr.epoch with
      | none => .refuse Syn.AUTH false
      | some k =>
        if f.key ≠ k.val ∨ f.intact = false then .refuse Syn.AUTH false
        else if verdNewer (getKeys s i).lastVerd f.hdr.window f.hdr.rev then .accept k
        else .refuse Syn.STATE false

/-- R137: what a discarded frame leaves behind. -/
def inletRefused (s : State) : InletRes → State
  | .miss => s.bump Pg.sealP SEAL_INLET_STAT_UNIT_MISS
  | .refuse code replayed =>
    let s := syn s Pg.sealP code .cabinet
    let s := if code = Syn.AUTH then s.bump Pg.sealP SEAL_INLET_STAT_AUTH else s
    if replayed then s.bump Pg.sealP SEAL_INLET_STAT_REPLAYED else s
  | .accept _ => s

/-- R137, R420: an accepted command: its sequence becomes the last accepted one, and the first under the current key ends the
previous key's overlap. -/
def inletAccepted (s : State) (f : InFrame) : State :=
  let s := s.wr Pg.sealP SEAL_CMD_SEQ f.hdr.window
  if s.tally.cmd.cur.any (fun k => k.epoch == f.hdr.epoch) then
    { s with tally := { s.tally with cmd := { s.tally.cmd with prev := none } } }
  else s

/-- R140: the RESPONSE to a command: OP, first refusal's code, completed count, data; sealed under the given key. -/
def respond (s : State) (f : InFrame) (key : Key) (op code count : Nat) (data : List Nat) : State :=
  let hdr : QrpHdr :=
    { ver := 1, kind := Kind.RESPONSE, flags := 0, job := f.hdr.job, unit := s.rd Pg.tly TLY_UNIT_UNIT, k := 0,
      epoch := key.epoch, window := f.hdr.window, tgen := tgen s .tally, tq := tq s .tally, rev := 0, sealedLen := 0 }
  let s := if code = 0 then s else raise s Pg.sealP Irq.SEAL_CMD_REFUSED
  (enqueue s (mkFrames s (s.rd Pg.sealP SEAL_CFG_TC_RSP) hdr key.val
    (beBytes 4 (op * 2 ^ 24 + code * 2 ^ 16 + count) ++ data) (sealDst s) none)).1

/-- R138, R139, R140, R443: run an authenticated command: `act` gives the state, the first refusal's code (0 for none), the
completed count and the response data. -/
def runCommand (s : State) (f : InFrame) (op : Nat) (act : State → State × Nat × Nat × List Nat) : State :=
  let s := (cmdPromote s).incr Pg.tBur BUR_AOC 19
  match inletCommand s f with
  | .accept key =>
    let r := act (inletAccepted s f)
    respond r.1 f key op r.2.1 r.2.2.1 r.2.2.2
  | r => inletRefused s r

/-- A refusal inside a command, recorded on a page. -/
def cmdRefuse (s : State) (pg : Page) (code : Nat) : State × Nat × Nat × List Nat := (syn s pg code .cabinet, code, 0, [])

/-- R139: run an action for the slot that holds its job: one per window of the slot. -/
def runAction (s : State) (f : InFrame) (act : Nat → State → State × Nat × Nat × List Nat) : State × Nat × Nat × List Nat :=
  match slotOfJob s f.hdr.job with
  | none => cmdRefuse (s.bump Pg.sealP SEAL_ACT_STAT_ROSTER) Pg.sealP Syn.ROSTER
  | some i =>
    let k := getKeys s i
    if k.action = some (getSlot s i).win then cmdRefuse (s.bump Pg.sealP SEAL_ACT_STAT_RATE) Pg.sealP Syn.STATE
    else act i (setKeys s i { k with action := some (getSlot s i).win })

/-! ### Keys (R418–R420) -/

/-- The slot whose live or staged HOT_JOB is the job (R418). -/
def slotForKey (s : State) (job : Nat) : Option Nat :=
  (List.range (slotCount s.cfg)).find? (fun i =>
    job != 0 && (s.rd Pg.hot (HOT_JOB i) == job || s.rd Pg.hot (HOT_JOB i).staged == job))

/-- R418, R420, R410: install a wrapped key; `ok` says whether the unwrap succeeds. -/
def keyload (s : State) (job kind epoch appt : Nat) (ok : Bool) (key : Nat) : State × Nat × Nat × List Nat :=
  if (kind ≠ 1 ∧ kind ≠ 2) ∨ epoch = 0 then cmdRefuse s Pg.sealP Syn.RANGE
  else if s.tally.identity = false ∨ ok = false then cmdRefuse s Pg.sealP Syn.AUTH
  else if kind = 2 then
    (cmdPromote { s with tally := { s.tally with cmd := { s.tally.cmd with next := some (⟨epoch, key⟩, appt) } } }, 0, 1, [])
  else match slotForKey s job with
    | none => cmdRefuse s Pg.sealP Syn.ROSTER
    | some i =>
      let k := getKeys s i
      if k.cur.any (fun c => decide (epoch ≤ c.epoch)) then cmdRefuse s Pg.sealP Syn.STATE
      else (setKeys s i { k with next := some ⟨epoch, key⟩ }, 0, 1, [])

/-- An appointment in nanoseconds from its 96-bit form: seconds [95:32], nanoseconds [31:0]. -/
def appt96 (a : BitVec 96) : Nat := a.toNat / 2 ^ 32 * 1000000000 + a.toNat % 2 ^ 32

def execKeyload (f : InFrame) (kind : Byte) (epoch : Word) (appt : BitVec 96) (ok : Bool) (key : Nat) (s : State) :
    Host.Outcome State Fault Refusal :=
  .next (runCommand s f 0x05 (fun s => keyload s f.hdr.job kind.toNat epoch.toNat (appt96 appt) ok key))

/-- R419: the checks of a bootstrap, in place of the key and tag checks. -/
def bootstrapCheck (s : State) (f : InFrame) (anchor : Nat) (sigOk ok : Bool) (kind epoch : Nat) : InletRes :=
  match inletHead s f Kind.COMMAND with
  | some r => r
  | none =>
    if f.hdr.epoch ≠ 0 ∨ s.tally.cmd.cur.isSome then .refuse Syn.AUTH false
    else if s.tally.anchor ≠ some anchor ∨ sigOk = false ∨ s.tally.identity = false ∨ ok = false then
      .refuse Syn.AUTH false
    else if f.hdr.window ≤ s.rd Pg.sealP SEAL_CMD_SEQ then .refuse Syn.AUTH true
    else if kind ≠ 2 ∨ epoch = 0 then .refuse Syn.RANGE false
    else .accept ⟨epoch, 0⟩

/-- R419: an accepted bootstrap installs the command key as CURRENT at once; its RESPONSE is sealed under it. -/
def execBootstrap (f : InFrame) (kind : Byte) (epoch : Word) (anchor : Nat) (sigOk ok : Bool) (key : Nat) (s : State) :
    Host.Outcome State Fault Refusal :=
  let s := s.incr Pg.tBur BUR_AOC 19
  match bootstrapCheck s f anchor sigOk ok kind.toNat epoch.toNat with
  | .accept _ =>
    let k : Key := ⟨epoch.toNat, key⟩
    let s := s.wr Pg.sealP SEAL_CMD_SEQ f.hdr.window
    .next (respond { s with tally := { s.tally with cmd := { cur := some k, prev := none, next := none } } } f k 0x05 0 1 [])
  | r => .next (inletRefused s r)

/-- R420: ten seconds after its successor's appointment the previous command key ends. -/
def execCmdKeyOverlapEnd (s : State) : Host.Outcome State Fault Refusal :=
  let s := cmdPromote s
  match s.tally.cmd.prev with
  | some (_, t) =>
    if s.now .tally ≥ t then .next { s with tally := { s.tally with cmd := { s.tally.cmd with prev := none } } }
    else .next s
  | none => .next s

/-! ### Verdicts (R141, R79, R135) -/

/-- The verdict buffer: 512 words, byte 4i of the plaintext in [31:24] of word i. -/
def verdictBuffer (s : State) (plain : List Nat) : State :=
  (List.range 512).foldl (fun s i =>
    s.wr Pg.sealP SEAL_VBUF_DATA (ofBe ((List.range 4).map (fun j => plain.getD (4 * i + j) 0))) i) s

/-- R135: the verdict of the last window of the old epoch ends the previous key. -/
def verdictKeys (k : SlotKeys) (f : InFrame) : SlotKeys :=
  let k := { k with lastVerd := some (f.hdr.window, f.hdr.rev) }
  match k.prev with
  | some p => if p.epoch = f.hdr.epoch ∧ windowEnd f.hdr.window k.prevK = k.prevEnd then { k with prev := none } else k
  | none => k

/-- R141: an accepted verdict of slot i. -/
def verdictAccepted (s : State) (f : InFrame) (i : Nat) (plain : List Nat) : State :=
  let s := s.wr Pg.tLcs LCS_SITE_QUAL (plain.getD 0 0 % 4)
  let s := { s with tally := { s.tally with slots := s.tally.slots.map (fun t => { t with verdWins := 0 }) } }
  let s := setKeys s i (verdictKeys (getKeys s i) f)
  let s := s.wr Pg.sealP SEAL_VERD_W f.hdr.window
  let s := ((s.wr Pg.sealP SEAL_VERD_INFO_SLOT i).wr Pg.sealP SEAL_VERD_INFO_REV f.hdr.rev).wr Pg.sealP SEAL_VERD_INFO_LEN
    plain.length
  raise (verdictBuffer s plain) Pg.sealP Irq.SEAL_VERDICT

def execVerdictAccept (f : InFrame) (plain : List Byte) (s : State) : Host.Outcome State Fault Refusal :=
  let s := s.incr Pg.tBur BUR_AOC 19
  match inletVerdict s f with
  | .accept _ =>
    match slotOfJob s f.hdr.job with
    | some i => .next (verdictAccepted s f i (plain.map (·.toNat)))
    | none => .next s
  | r => .next (inletRefused s r)

end Sys2Proof.Machine
end

