-- ==== Sys2Proof/Machine/Digest.lean ====
section
/-!
DEFINITION. Sys2Proof/Machine/Digest.lean: the digest engine of a Tally (R330–R339, R345, R349, R359–R361), the step mark that
opens a digest (R109, R336) and the actions DIGEST, REPLAY and OBSERVE.
-/
namespace Sys2Proof.Machine
open Reg

/-! ### The digest (R330–R334) -/

/-- R330: p = 2^61 − 1. -/
def dgsP : Nat := 2 ^ 61 - 1

/-- R330: X_i, the AES-256 encryption under the job key of the block "DGSK", eleven zeros, i. -/
def dgsX (key i : Nat) : Nat := (Config.aes256 key (ofBe ([0x44, 0x47, 0x53, 0x4B] ++ List.replicate 11 0 ++ [i]))).toNat

/-- R330: (k1, k2) of lane A (0) or B (1). -/
def dgsKeys (key lane : Nat) : Nat × Nat := (dgsX key lane / 2 ^ 64, dgsX key lane % 2 ^ 64 % dgsP)

/-- R331: the term of one element. -/
def dgsTerm (k : Nat × Nat) (u v : Nat) : Nat :=
  let a := Nat.xor k.1 u % dgsP
  (if a = 0 then 1 else a) * ((v + k.2) % dgsP) % dgsP

/-- R331: one lane over (element identity, stored bits) pairs. -/
def dgsLane (k : Nat × Nat) (es : List (Nat × Nat)) : Nat := es.foldl (fun d x => (d + dgsTerm k x.1 x.2) % dgsP) 0

/-- A byte of the host's memory as the reads returned it. -/
def hostByte (mem : List (Nat × Byte)) (a : Nat) : Nat :=
  ((mem.find? (fun x => x.1 == a % 2 ^ 64)).map (fun x => x.2.toNat)).getD 0

/-- R333, R201: the stored bits of element i of an extent, `ofs` being added to its local address. -/
def elemBits (mem : List (Nat × Byte)) (e : Extent) (ofs i : Nat) : Nat :=
  let a := e.addr + ofs
  if e.bits = 4 then hostByte mem (a + i / 2) / 16 ^ (i % 2) % 16
  else if e.bits = 6 then
    bits (ofLe ((List.range 3).map (fun j => hostByte mem (a + 3 * (i / 4) + j)))) (6 * (i % 4) + 5) (6 * (i % 4))
  else
    let at_ := if e.stride = 0 then a + i * (e.bits / 8) else a + i * e.stride
    ofLe ((List.range (e.bits / 8)).map (fun j => hostByte mem (at_ + j)))

/-- R331: identity and stored bits of every element of the extents. -/
def elements (mem : List (Nat × Byte)) (es : List Extent) (ofs : Nat) : List (Nat × Nat) :=
  es.flatMap (fun e => (List.range e.len).map (fun i => (e.tensor * 2 ^ 48 + (e.base + i), elemBits mem e ofs i)))

/-- R334: the bin of an element identity under a shift: (tensor, index >> b) as tensor × 2^48 + bin. -/
def binOf (b u : Nat) : Nat := u / 2 ^ 48 * 2 ^ 48 + u % 2 ^ 48 / 2 ^ b

/-- R334: the distinct bins of elements, ascending. -/
def binsOf (b : Nat) (es : List (Nat × Nat)) : List Nat := es.foldl (fun l x => setInsert (binOf b x.1) l) []

/-- R334: bins a replay report carries at most. -/
def binLimit (c : Parts) : Nat := if c.lite then 256 else 512

/-! ### The engine's registers -/

namespace Dgs
/-! DGS_STAT.STATE (R360) and the STATUS codes of R339. -/
def IDLE : Nat := 0
def RUNNING : Nat := 1
def RPL_WAIT : Nat := 2
def REPLAYING : Nat := 3
def OK : Nat := 0
def LATE : Nat := 1
def POISON : Nat := 2
def BUSY : Nat := 3
def DECLINED : Nat := 4
def SIZE : Nat := 5
end Dgs

def dgsState (s : State) : Nat := s.rd Pg.dgs DGS_STAT_STATE
def setDgs (s : State) (v : Nat) : State := s.wr Pg.dgs DGS_STAT_STATE v

/-- The live extents of a slot. -/
def liveExtents (s : State) (slot : Nat) : List Extent :=
  (List.range (s.rd Pg.dgs DGS_EXT_COUNT slot)).map (fun e =>
    let i := slot * 64 + e
    { tensor := s.rd Pg.dgs DGS_EXT_ATTR_TENSOR i, bits := s.rd Pg.dgs DGS_EXT_ATTR_ELEM_BITS i,
      base := s.rd Pg.dgs DGS_EXT_BASE_HI i * 2 ^ 32 + s.rd Pg.dgs DGS_EXT_BASE_LO i,
      len := s.rd Pg.dgs DGS_EXT_LEN i,
      addr := s.rd Pg.dgs DGS_EXT_ADDR_HI i * 2 ^ 32 + s.rd Pg.dgs DGS_EXT_ADDR_LO i,
      stride := s.rd Pg.dgs DGS_EXT_STRIDE i })

/-- R349: the unit is under observation. -/
def observed (s : State) : Bool :=
  s.rd Pg.dgs DGS_OBS_END != 0 && decide (s.now .tally / 1000000000 < s.rd Pg.dgs DGS_OBS_END)

/-! ### Reports (R339) -/

/-- The digest sequence the next report of a slot under an epoch carries. -/
def nextDigSeq (s : State) (slot epoch : Nat) : Nat :=
  ((s.tally.digSeq.find? (fun x => x.1 == slot && x.2.1 == epoch)).map (·.2.2)).getD 0

def bumpDigSeq (s : State) (slot epoch : Nat) : State :=
  { s with tally := { s.tally with
      digSeq := (slot, epoch, nextDigSeq s slot epoch + 1) ::
        s.tally.digSeq.filter (fun x => !(x.1 == slot && x.2.1 == epoch)) } }

/-- A report's content: the slot, the epoch it is sealed under, and the fields of R339. -/
structure Report where
  slot : Nat
  epoch : Nat
  step : Nat
  status : Nat
  exts : List Extent
  a : Nat
  b : Nat
  elements : Nat
  mark : Nat
  rpl : Option (Nat × Nat)
  bins : List (Nat × Nat × Nat)
  deriving DecidableEq, Repr

/-- R339: the plaintext of a report. -/
def reportPlain (r : Report) (obs : Bool) (test : Nat) : List Nat :=
  beBytes 4 r.step ++ [r.status, b2n r.rpl.isSome + 2 * b2n obs] ++ beBytes 2 r.exts.length ++ beBytes 8 r.a ++
  beBytes 8 r.b ++ beBytes 8 r.elements ++ beBytes 8 (r.mark / 1000000000) ++ beBytes 4 (r.mark % 1000000000) ++
  beBytes 2 ((r.rpl.map (·.1)).getD 0) ++ [(r.rpl.map (·.2)).getD 0, 0] ++ beBytes 2 r.bins.length ++ [0, 0] ++
  beBytes 4 test ++
  r.exts.flatMap (fun e => beBytes 2 e.tensor ++ beBytes 6 e.base ++ beBytes 4 e.len ++ [e.bits, 0, 0, 0]) ++
  r.bins.flatMap (fun x => beBytes 2 (x.1 / 2 ^ 48) ++ beBytes 6 (x.1 % 2 ^ 48) ++ beBytes 8 x.2.1 ++ beBytes 8 x.2.2)

/-- R339: a report is sealed and offered to the shaper, or, its key discarded, not sent and counted. -/
def sendReport (s : State) (r : Report) : State :=
  match keyFor s r.slot r.epoch with
  | none => s.bump Pg.dgs DGS_CNT_ABANDONED
  | some key =>
    let hdr : QrpHdr :=
      { ver := 1, kind := Kind.DIGEST, flags := 0, job := slotJob s r.slot, unit := s.rd Pg.tly TLY_UNIT_UNIT,
        k := slotK s r.slot, epoch := r.epoch, window := nextDigSeq s r.slot r.epoch, tgen := tgen s .tally,
        tq := tq s .tally, rev := 0, sealedLen := 0 }
    let test := s.rd Pg.dgs DGS_TEST_PASS * 2 ^ 16 + s.rd Pg.dgs DGS_TEST_FAIL
    let x := enqueue s (mkFrames s (s.rd Pg.sealP SEAL_CFG_TC_DGS) hdr key.val (reportPlain r (observed s) test) (sealDst s) none)
    let s := bumpDigSeq x.1 r.slot r.epoch
    let s := (s.wr Pg.dgs DGS_STAT_LAST_STATUS r.status).wr Pg.dgs DGS_LAST r.step
    let s := if r.status = Dgs.POISON then s.bump Pg.dgs DGS_CNT_POISON else s
    raise s Pg.dgs Irq.DGS_DONE { job := slotJob s r.slot, unit := s.rd Pg.tly TLY_UNIT_UNIT }

/-- A report with no digest value: LATE, BUSY, DECLINED and POISON. -/
def bareReport (slot epoch step status : Nat) (exts : List Extent) (n mark : Nat) (rpl : Option (Nat × Nat)) : Report :=
  { slot, epoch, step, status, exts, a := 0, b := 0, elements := n, mark, rpl, bins := [] }

/-! ### Opening a digest (R336, R338) -/

/-- R336: a STEP mark of the slot with this step number opens a digest. -/
def meetsCadence (s : State) (slot step : Nat) : Bool :=
  let every := s.rd Pg.dgs DGS_CAD_EVERY slot
  let first := s.rd Pg.dgs DGS_CAD_FIRST slot
  every != 0 && decide (first ≤ step) && (step - first) % every == 0

/-- Start digesting a state (R330, R338). -/
def startDigest (s : State) (slot step : Nat) : State :=
  let epoch := s.rd Pg.sealP (SEAL_EPOCH slot)
  let key := ((keyFor s slot epoch).map (·.val)).getD 0
  let r : DigRun := { slot, step, mark := s.now .tally, exts := liveExtents s slot, epoch, key }
  raiseFclk (setDgs { s with tally := { s.tally with digRun := some r } } Dgs.RUNNING)

/-- R338: the BUSY report of a state that is not digested. -/
def busyReport (s : State) (slot step : Nat) : State :=
  sendReport s (bareReport slot (s.rd Pg.sealP (SEAL_EPOCH slot)) step Dgs.BUSY (liveExtents s slot) 0 (s.now .tally) none)

/-- R338: a held replay enters RPL_WAIT with REPLAY raised; without one the engine is IDLE. -/
def afterRun (s : State) : State :=
  let s := { s with tally := { s.tally with digRun := none } }
  match s.tally.digRpl with
  | some r => raise (setDgs s Dgs.RPL_WAIT) Pg.dgs Irq.DGS_REPLAY { job := slotJob s r.slot, unit := s.rd Pg.tly TLY_UNIT_UNIT }
  | none => setDgs s Dgs.IDLE

/-- R338: what a STEP mark does to the engine. How many elements an abandoned digest had read is not stated: a free value. -/
def digestMark (s : State) (slot step : Nat) : State :=
  let meets := meetsCadence s slot step
  if dgsState s = Dgs.IDLE then (if meets then startDigest s slot step else s)
  else if dgsState s = Dgs.RUNNING then
    match s.tally.digRun with
    | none => s
    | some r =>
      if r.slot = slot then
        let held := s.tally.digRpl.isSome
        let x := s.free
        let s := sendReport x.1 (bareReport slot r.epoch r.step Dgs.LATE r.exts x.2 r.mark none)
        let s := afterRun s
        if held then (if meets then busyReport s slot step else s)
        else if meets then startDigest s slot step else s
      else if meets then busyReport s slot step else s
  else if meets then busyReport s slot step else s

/-- R109, R110, R336: a write of STP_MARK. -/
def stepMark (s : State) (ag : Agent) (kind slot id tag : Nat) : State :=
  if ag ≠ .regPort then syn s Pg.stp Syn.AUTH ag false 0x040
  else if kind = 3 then syn s Pg.stp Syn.RANGE ag false 0x040
  else if slotLive s slot = false ∨ mayBuild s = false then syn s Pg.stp Syn.STATE ag false 0x040
  else
    let s := acceptMark s kind slot id tag
    if kind = 0 then digestMark s slot (s.rd Pg.stp (STP_STEP slot)) else s

def execStepMark (ag : Agent) (kind slot : BitVec 2) (id : BitVec 12) (tag : BitVec 16) (s : State) :
    Host.Outcome State Fault Refusal :=
  .next (stepMark s ag kind.toNat slot.toNat id.toNat tag.toNat)

/-! ### Completion -/

/-- The lane pair of a list of elements under a job key. -/
def lanePair (key : Nat) (es : List (Nat × Nat)) : Nat × Nat := (dgsLane (dgsKeys key 0) es, dgsLane (dgsKeys key 1) es)

/-- R338: the digest of a state ends. -/
def runComplete (s : State) (r : DigRun) (err : Bool) (mem : List (Nat × Byte)) : State :=
  if err then
    let x := s.free
    afterRun (sendReport x.1 (bareReport r.slot r.epoch r.step Dgs.POISON r.exts x.2 r.mark none))
  else
    let es := elements mem r.exts 0
    let d := lanePair r.key es
    afterRun (sendReport s
      { slot := r.slot, epoch := r.epoch, step := r.step, status := Dgs.OK, exts := r.exts, a := d.1, b := d.2,
        elements := es.length, mark := r.mark, rpl := none, bins := [] })

/-- The end of a replay: the engine is IDLE again. -/
def afterReplay (s : State) : State := setDgs { s with tally := { s.tally with digRpl := none } } Dgs.IDLE

/-- R334, R338, R346: the digest of a replayed state ends; the replayed copy lies at LOCAL_ADDR + DGS_RPL_OFS. -/
def replayComplete (s : State) (r : DigRpl) (err : Bool) (mem : List (Nat × Byte)) : State :=
  let exts := liveExtents s r.slot
  let epoch := s.rd Pg.sealP (SEAL_EPOCH r.slot)
  if err then
    let x := s.free
    afterReplay (sendReport x.1 (bareReport r.slot epoch r.step Dgs.POISON exts x.2 r.ready (some (r.id, r.shift))))
  else
    let es := elements mem exts (s.rd Pg.dgs DGS_RPL_OFS_HI * 2 ^ 32 + s.rd Pg.dgs DGS_RPL_OFS_LO)
    let d := lanePair r.key es
    let bs := binsOf r.shift es
    let above := decide (bs.length > binLimit s.cfg)
    let bins := if above then [] else bs.map (fun b => (b, lanePair r.key (es.filter (fun x => binOf r.shift x.1 == b))))
    afterReplay (sendReport s
      { slot := r.slot, epoch, step := r.step, status := if above then Dgs.SIZE else Dgs.OK, exts, a := d.1, b := d.2,
        elements := es.length, mark := r.ready, rpl := some (r.id, r.shift), bins })

def execDigestComplete (err : Bool) (mem : List (Nat × Byte)) (s : State) : Host.Outcome State Fault Refusal :=
  if dgsState s = Dgs.RUNNING then
    match s.tally.digRun with
    | some r => .next (runComplete s r err mem)
    | none => .next s
  else if dgsState s = Dgs.REPLAYING then
    match s.tally.digRpl with
    | some r => .next (replayComplete s r err mem)
    | none => .next s
  else .next s

/-- R338, R360: RPL_READY in RPL_WAIT. -/
def rplReady (s : State) (ag : Agent) : State :=
  if ag ≠ .regPort then syn s Pg.dgs Syn.AUTH ag false 0x088
  else match s.tally.digRpl with
    | some r =>
      if dgsState s = Dgs.RPL_WAIT then
        raiseFclk (setDgs { s with tally := { s.tally with digRpl := some { r with ready := s.now .tally } } } Dgs.REPLAYING)
      else syn s Pg.dgs Syn.STATE ag false 0x088
    | none => syn s Pg.dgs Syn.STATE ag false 0x088

def execRplReady (ag : Agent) (s : State) : Host.Outcome State Fault Refusal := .next (rplReady s ag)

/-- R338, R339, R360: RPL_DECLINE in RPL_WAIT. -/
def rplDecline (s : State) (ag : Agent) : State :=
  if ag ≠ .regPort then syn s Pg.dgs Syn.AUTH ag false 0x088
  else match s.tally.digRpl with
    | some r =>
      if dgsState s = Dgs.RPL_WAIT then
        afterReplay (sendReport s (bareReport r.slot (s.rd Pg.sealP (SEAL_EPOCH r.slot)) r.step Dgs.DECLINED
          (liveExtents s r.slot) 0 (s.now .tally) (some (r.id, r.shift))))
      else syn s Pg.dgs Syn.STATE ag false 0x088
    | none => syn s Pg.dgs Syn.STATE ag false 0x088

def execRplDecline (ag : Agent) (s : State) : Host.Outcome State Fault Refusal := .next (rplDecline s ag)

/-! ### Actions -/

/-- R336: the DIGEST action. -/
def execDigest (f : InFrame) (every : BitVec 16) (first : Word) (s : State) : Host.Outcome State Fault Refusal :=
  .next (runCommand s f 0x06 (fun s => runAction s f (fun i s =>
    ((s.wr Pg.dgs DGS_CAD_EVERY every.toNat i).wr Pg.dgs DGS_CAD_FIRST first.toNat i, 0, 1, []))))

/-- R338, R345: the REPLAY action for slot i. -/
def replayAction (s : State) (i step id shift epoch : Nat) : State × Nat × Nat × List Nat :=
  if dgsState s = Dgs.RPL_WAIT ∨ dgsState s = Dgs.REPLAYING then cmdRefuse s Pg.dgs Syn.STATE
  else match verdKeyFor s i epoch with
    | none =>
      (sendReport s (bareReport i (s.rd Pg.sealP (SEAL_EPOCH i)) step Dgs.DECLINED (liveExtents s i) 0 (s.now .tally)
        (some (id, shift))), 0, 1, [])
    | some k =>
      let s := ((s.wr Pg.dgs DGS_RPL step).wr Pg.dgs DGS_RPL_INFO_RPL_ID id).wr Pg.dgs DGS_RPL_INFO_SHIFT shift
      let s := { s with tally := { s.tally with digRpl := some { slot := i, step, id, shift, key := k.val, ready := 0 } } }
      if dgsState s = Dgs.IDLE then
        (raise (setDgs s Dgs.RPL_WAIT) Pg.dgs Irq.DGS_REPLAY
          { job := slotJob s i, unit := s.rd Pg.tly TLY_UNIT_UNIT }, 0, 1, [])
      else (s, 0, 1, [])

def execReplay (f : InFrame) (step : Word) (id : BitVec 16) (shift : BitVec 6) (epoch : Word) (s : State) :
    Host.Outcome State Fault Refusal :=
  .next (runCommand s f 0x07 (fun s => runAction s f (fun i s => replayAction s i step.toNat id.toNat shift.toNat epoch.toNat)))

/-- R349: the OBSERVE action. -/
def execObserve (f : InFrame) (endSec : BitVec 64) (_endNs : Word) (testS : BitVec 16) (s : State) :
    Host.Outcome State Fault Refusal :=
  .next (runCommand s f 0x08 (fun s => runAction s f (fun i s =>
    let s := ((s.wr Pg.dgs DGS_OBS_END endSec.toNat).wr Pg.dgs DGS_OBS_CFG testS.toNat)
    (raise s Pg.dgs Irq.DGS_OBSERVE { job := slotJob s i, unit := s.rd Pg.tly TLY_UNIT_UNIT }, 0, 1, []))))

/-! ### The ARM check (R333, R361) -/

/-- Every extent named by the staged counts, with its staged fields: ATTR bits, base, length, stride. -/
def dgsArmCheck (s : State) : Nat :=
  let st (f : Fld) (i : Nat) : Nat := s.rd Pg.dgs f.staged i
  let exts := (List.range (slotCount s.cfg)).flatMap (fun sl =>
    (List.range (st DGS_EXT_COUNT sl)).map (fun e => sl * 64 + e))
  if exts.any (fun i => decide (st DGS_EXT_BASE_HI i * 2 ^ 32 + st DGS_EXT_BASE_LO i + st DGS_EXT_LEN i > 2 ^ 48)) then Syn.SIZE
  else if exts.any (fun i => st DGS_EXT_STRIDE i != 0 && decide (st DGS_EXT_ATTR_ELEM_BITS i < 8)) then Syn.RANGE
  else if (liveSlots s).any (fun i => !isBoundary (slotK s i) (apptTime s Pg.dgs)) then Syn.RANGE
  else 0

end Sys2Proof.Machine
end

