-- ==== Sys2Proof/Machine/TallyReset.lean ====
section
/-!
DEFINITION. Sys2Proof/Machine/TallyReset.lean: the resets of a Tally (R97), the Longcase reset of both parts (R67) and what a soft
reset does to each Tally page (R20 and the chapters' event tables).
-/
namespace Sys2Proof.Machine
open Reg

/-- R20: every register of a page returns to its reset value, staged copies included, the appointment to IDLE, the syndrome
cleared; `keep` names the fields that stay. -/
def resetPage (s : State) (pg : Page) (keep : RegKey → Bool) : State := resetCells s (fun k => k.pg == pg && !keep k)

/-- Nothing of the page stays. -/
def keepNone (_ : RegKey) : Bool := false

/-- The fields at one of these offsets. -/
def keepOff (offs : List Nat) (k : RegKey) : Bool := offs.contains k.off

/-! ### Longcase reset -/

/-- R67: every other page of the unit whose appointment is ARMED is refused with STATE. -/
def refuseArmed (s : State) (p : Part) : State :=
  ((armedPages s p).filter (fun pg => pg != lcsPage p)).foldl (fun s pg => apptRefuse s pg Syn.STATE) s

/-- Times kept against the Longcase start anew with it. -/
def restartTimers (s : State) : State :=
  { s with tally := { s.tally with refillAt := 0, freqAt := 0, slowWin := 0, fclkAt := 0, splitAt := none } }

/-- R67, R59: the Longcase returns to UNSET, the time generation rises by 1; on a Hub the trackers start anew. -/
def longcaseReset (s : State) (p : Part) : State :=
  let s := refuseArmed s p
  let gen := tgen s p
  let ticks := (s.lcs p).ticks
  let s := resetPage s (lcsPage p) (fun k => k.off == 0x054)
  let s := (s.setLcs p { Longcase.reset p with ticks }).wr (lcsPage p) LCS_GEN_GEN (gen + 1)
  match p with
  | .tally => restartTimers { s with tally := { s.tally with ann := none, pulseAt := none } }
  | .hub => { s with hub := { s.hub with trackers := Hub.reset.trackers, tt := ReachTT.reset, switchedAt := none, disagree := false,
                                         ppsAt := none } }

/-- R67, R17: the write of SRST on the LCS page; a steward core may not reset XD0's page. -/
def execLongcaseReset (p : Part) (_ag : Agent) (s : State) : Host.Outcome State Fault Refusal := .next (longcaseReset s p)

/-! ### Resets of the whole Tally -/

/-- Forget every stored field of the Tally's pages that is not kept. -/
def resetTallyCells (s : State) (keep : RegKey → Bool) : State := resetCells s (fun k => k.pg.isTally && !keep k)

/-- R97: tly_por_n. -/
def execTallyPor (s : State) : Host.Outcome State Fault Refusal :=
  .next (resetTallyCells { s with tally := Tally.reset } keepNone)

/-- R97: what tly_hrst_n keeps: the LCS page, HEAD and the always-on counters of the BUR page. -/
def hrstKeeps (k : RegKey) : Bool := k.pg == Pg.tLcs || (k.pg == Pg.tBur && (k.off == 0x040 || k.off == 0x0E0))

/-- R97, R503: tly_hrst_n; TEST MODE is left only at tly_por_n. -/
def execTallyHrst (s : State) : Host.Outcome State Fault Refusal :=
  let t := s.tally
  .next (resetTallyCells
    { s with tally := { Tally.reset with lcs := t.lcs, ann := t.ann, pulseAt := t.pulseAt, testMode := t.testMode,
                                         freqAt := t.lcs.ns / 125000 * 125000, refillAt := t.lcs.ns / 250 } } hrstKeeps)

/-! ### Soft reset of a page -/

/-- The records, digest reports and responses with frames in the buffer, each once. -/
def bufferedItems (s : State) : List (QrpHdr × Option Nat) :=
  (s.tally.egress.map (fun f => (f.hdr, f.slot))).eraseDups

/-- R151: the soft reset of the SHP page. -/
def softShp (s : State) : State :=
  let items := bufferedItems s
  let s := resetPage s Pg.shp (keepOff [0x040, 0x044, 0x048, 0x04C])
  let s := { s with tally := { s.tally with egress := [], clsTok := List.replicate 8 0, ceilTok := 0, shpPend := false, gateEntry := 0 } }
  let s := items.foldl (fun s x =>
    match x.2 with
    | some i => let w := getSlot s i
                setSlot s i { w with recDrops := w.recDrops + 1 }
    | none => s) s
  if items.isEmpty then s else raise (s.bump Pg.shp SHP_STAT_DROP 0 items.length) Pg.shp Irq.SHP_DROP

/-- R151: the soft reset of the SEAL page erases every key. -/
def softSeal (s : State) : State :=
  let s := resetPage s Pg.sealP keepNone
  { s with tally := { s.tally with keys := List.replicate 4 SlotKeys.reset, cmd := CmdKeys.reset } }

/-- R361: the soft reset of the DGS page abandons a digest or replay without a report. -/
def softDgs (s : State) : State :=
  { resetPage s Pg.dgs keepNone with tally := { s.tally with digRun := none, digRpl := none } }

/-- R463: the soft reset of a BUR page: the store, the lookups and BUR_CNT are cleared, HEAD and the always-on counters kept. -/
def softBur (s : State) (pg : Page) : State :=
  let s := resetPage s pg (keepOff [0x040, 0x0E0])
  match pg with
  | .tally _ => { s with tally := { s.tally with burStore := [], leapExpired := false } }
  | .hub d _ => if d = xd0 then { s with hub := { s.hub with burStore := [], leapExpired := false } } else s

/-- R463, R453: the soft reset of a FRZ page releases a frozen unit at once. -/
def softFrz (s : State) (pg : Page) : State :=
  let s := if s.rd pg FRZ_STAT_FROZEN = 1 then releaseUnit s pg false 3 6 else s
  resetPage s pg keepNone

/-- R124: the soft reset of the STP page empties the mark buffer. -/
def softStp (s : State) : State := { resetPage s Pg.stp keepNone with tally := { s.tally with marks := [] } }

/-- R125: the soft reset of the NRG page starts the energy sums anew. -/
def softNrg (s : State) : State :=
  { resetPage s Pg.nrg keepNone with tally := { s.tally with nrgWin := 0, splitBase := counterSnapshot s } }

/-- R126: the soft reset of the PWR page turns the limiter off and forgets the samples. -/
def softPwr (s : State) : State :=
  { resetPage s Pg.tPwr keepNone with tally := { s.tally with samples := [], limCount := 0, clean := 0 } }

/-- R127: the soft reset of the CAP page; an acknowledgement outstanding is no longer awaited. -/
def softCap (s : State) : State := { resetPage s Pg.cap keepNone with tally := { s.tally with capUpd := none } }

/-- The soft reset of a Tally page, its refusals already made (TRC and CMP pages have no further effect here). -/
def tallySoftReset (s : State) (b : Blk) (pg : Page) : State :=
  match b with
  | .lcs => longcaseReset s .tally
  | .tly => resetPage s pg (keepOff [0x040, 0x044])
  | .cnt => resetPage s pg (fun k => k.off == 0x050 || (k.off == 0x068 && k.lo == 0))
  | .stp => softStp s
  | .nrg => softNrg s
  | .pwrT => softPwr s
  | .cap => softCap s
  | .stw => resetPage s pg (keepOff [0x04C])
  | .seal => softSeal s
  | .shp => softShp s
  | .dgs => softDgs s
  | .bur => softBur s pg
  | .frz => softFrz s pg
  | _ => resetPage s pg keepNone

end Sys2Proof.Machine
end

