-- ==== Sys2Proof/Machine/Appt.lean ====
section
/-!
DEFINITION. Sys2Proof/Machine/Appt.lean: appointments (R23–R26, R507): the checks of an ARM, arming, cancelling and applying a page, and
what a Tally does at a window boundary (R102).
-/
namespace Sys2Proof.Machine
open Reg

/-! ### Checks of an ARM (R507) -/

/-- The instant is a boundary of every live slot's length. -/
def onEveryBoundary (s : State) (t : Nat) : Bool := (liveSlots s).all (fun i => isBoundary (slotK s i) t)

/-- Slots live after the HOT page's staged copies are applied. -/
def stagedLive (s : State) : List Nat := (List.range (slotCount s.cfg)).filter (fun i => s.rd Pg.hot (HOT_JOB i).staged != 0)

/-- R105: the HOT page. -/
def hotArmCheck (s : State) : Nat :=
  let t := apptTime s Pg.hot
  let ks := (liveSlots s).map (slotK s) ++ (stagedLive s).map (fun i => s.rd Pg.hot (winField i).staged)
  if ks.any (fun k => decide (s.rd Pg.hot HOT_SLOW_SLOW_S.staged < k) || !isBoundary k t) then Syn.RANGE else 0

/-- R115: the CAP page within 10 ms of its last application. -/
def capArmCheck (s : State) : Nat :=
  match s.tally.capLast with
  | some t => if apptTime s Pg.cap < t + 10000000 then Syn.RANGE else 0
  | none => 0

/-- R379: a RETX_MAX_MS that would break the key overlap of a live job. -/
def overlapBroken (s : State) (retx : Nat) : Bool :=
  s.hub.jobs.any (fun j => match polAt j.kpol (s.now .hub) with
    | some p => decide (p.overlap < 2 * retx)
    | none => decide (5000 < 2 * retx))

/-- R379: the RCH page. -/
def rchArm (s : State) (l : Nat) : Nat :=
  if rchArmCheck s l ≠ 0 then rchArmCheck s l
  else if overlapBroken s (s.rd (Pg.rch l) RCH_RETX_RETX_MAX_MS.staged) then Syn.RANGE else 0

/-- R257: ACTIVE_OFS lies below the window length. -/
def tilArmCheck (s : State) (pg : Page) : Nat :=
  if s.rd pg TIL_SCHED_ACTIVE_OFS.staged * 1000 ≥ 125000 * 2 ^ s.rd pg TIL_SCHED_K.staged then Syn.RANGE else 0

/-- A list is strictly ascending. -/
def strictlyUp : List Nat → Bool
  | a :: b :: t => decide (a < b) && strictlyUp (b :: t)
  | _ => true

/-- Consecutive values differ by 1. -/
def stepsOfOne : List Int → Bool
  | a :: b :: t => (b == a + 1 || b == a - 1) && stepsOfOne (b :: t)
  | _ => true

/-- R437: the BUR page's leap table. -/
def burArmCheck (s : State) (pg : Page) : Nat :=
  let n := s.rd pg BUR_LEAP_CNT.staged
  let starts := (List.range n).map (fun i => s.rd pg BUR_LEAP_START_HI.staged i * 2 ^ 32 + s.rd pg BUR_LEAP_START_LO.staged i)
  let ofs := (List.range n).map (fun i => toSigned 8 (s.rd pg BUR_LEAP_OFS.staged i))
  let exp := s.rd pg BUR_LEAP_EXP_HI.staged * 2 ^ 32 + s.rd pg BUR_LEAP_EXP_LO.staged
  if !strictlyUp starts || !stepsOfOne ofs || (n != 0 && decide (exp < starts.getLastD 0)) then Syn.RANGE else 0

/-- R507: the arming checks of a page beside R61 and R23. -/
def armCheck (s : State) (pg : Page) (b : Blk) : Nat :=
  match b with
  | .hot => hotArmCheck s
  | .cnt => if onEveryBoundary s (apptTime s pg) then 0 else Syn.RANGE
  | .nrg => if onEveryBoundary s (apptTime s pg) then 0 else Syn.RANGE
  | .cap => capArmCheck s
  | .seal => sealArmCheck s
  | .shp => shpArmCheck s
  | .dgs => dgsArmCheck s
  | .frz => frzArmCheck s pg
  | .ing => ingArmCheck s pg.die
  | .trs => trsArmCheck s pg.die
  | .rch => rchArm s (pg.die - 62)
  | .gsi => gsiArmCheck s (pg.die - 62)
  | .til => tilArmCheck s pg
  | .bur => burArmCheck s pg
  | _ => 0

/-! ### Agents -/

/-- R138, R406, R485: who may not touch the appointment of a page: the inlet on a Tally's CAP page, a steward core on the Hub's PWR and SEC pages. -/
def apptAuth (b : Blk) (ag : Agent) : Bool :=
  !((b == .cap && ag == .cabinet) || ((b == .pwrH || b == .sec) && ag == .steward))

/-- A write of BLK_APPT_CTRL refused as an access: the syndrome, the state left (R507). -/
def apptAccess (s : State) (pg : Page) (b : Blk) (ag : Agent) : Nat :=
  if !apptAuth b ag then Syn.AUTH else if isFrozen s pg then Syn.STATE else 0

/-! ### ARM and CANCEL (R23) -/

/-- R23, R61, R507: an ARM that is no refused access. -/
def armChecked (s : State) (pg : Page) (b : Blk) (ag : Agent) : State :=
  if isArmed s pg then syn s pg Syn.STATE ag false 0x02C
  else if s.isUnset pg.part then apptRefuse s pg Syn.STATE ag
  else if apptTime s pg ≤ s.now pg.part then apptRefuse s pg Syn.LATE ag
  else if armCheck s pg b ≠ 0 then apptRefuse s pg (armCheck s pg b) ag
  else s.wr pg BLK_APPT_CTRL_STATE Appt.ARMED

/-- R23: CANCEL. -/
def cancelChecked (s : State) (pg : Page) (ag : Agent) : State :=
  if isArmed s pg then s.wr pg BLK_APPT_CTRL_STATE Appt.IDLE else syn s pg Syn.STATE ag false 0x02C

/-- R23: a write of BLK_APPT_CTRL. -/
def apptCtrlWrite (s : State) (pg : Page) (b : Blk) (ag : Agent) (v : Nat) : State :=
  if apptAccess s pg b ag ≠ 0 then syn s pg (apptAccess s pg b ag) ag false 0x02C
  else if bit v 0 && bit v 1 then syn s pg Syn.RANGE ag false 0x02C
  else if bit v 0 then armChecked s pg b ag
  else if bit v 1 then cancelChecked s pg ag
  else s

/-- R16: an access to a page or a register that is not there. STAGED shows that the offset is among those that hold the staged copies (R18; log
entry 134). -/
def absent (s : State) (pg : Page) (ag : Agent) (off : Nat) : State :=
  syn s (absentPage s pg.part) Syn.ABSENT ag (decide (0x840 ≤ off)) off

def execApptArm (pg : Page) (ag : Agent) (s : State) : Host.Outcome State Fault Refusal :=
  match pageBlk s.cfg pg with
  | some b => .next (apptCtrlWrite s pg b ag 1)
  | none => .next (absent s pg ag 0x02C)

def execApptCancel (pg : Page) (ag : Agent) (s : State) : Host.Outcome State Fault Refusal :=
  match pageBlk s.cfg pg with
  | some b => .next (apptCtrlWrite s pg b ag 2)
  | none => .next (absent s pg ag 0x02C)

/-! ### Application (R23, R25, R26) -/

/-- The offset is that of an RWA register of the block. -/
def isRwa (b : Blk) (off : Nat) : Bool := (blkRegs b).any (fun r => r.ty == .rwa && r.off == off)

/-- R23: every staged copy of the page becomes the live value. -/
def copyStaged (s : State) (pg : Page) (b : Blk) : State :=
  let staged := s.regs.filter (fun c => c.1.pg == pg && decide (0x800 ≤ c.1.off) && isRwa b (c.1.off - 0x800))
  { s with regs := s.regs.filter (fun c => !(c.1.pg == pg && isRwa b c.1.off)) ++
                   staged.map (fun c => ({ c.1 with off := c.1.off - 0x800 }, c.2)) }

/-- R103, R104: a slot whose job or length the HOT page changed starts its window; the slow window starts anew where its length changed. -/
def hotApplied (s : State) (old : List (Nat × Nat)) (oldSlow : Nat) : State :=
  let s := (List.range (slotCount s.cfg)).foldl (fun s i =>
    if (slotJob s i, slotK s i) ≠ old.getD i (0, 0) ∧ slotLive s i then openWindow s i (isBoundary (slotK s i) (s.now .tally)) else s) s
  if s.rd Pg.hot HOT_SLOW_SLOW_S = oldSlow then s
  else { s with tally := { s.tally with slowWin := windowIndex (s.rd Pg.hot HOT_SLOW_SLOW_S) (s.now .tally) } }

/-- R416: OVERLAP_MS of a job, ns. -/
def overlapOf (s : State) (job : Nat) : Nat :=
  (((hjob s job).bind (fun j => polAt j.kpol (s.now .hub))).map (fun (p : KPolicy) => p.overlap)).getD 5000 * 1000000

/-- R479: the deletion of a job applies: the job is gone, its last key is kept for OVERLAP_MS. -/
def endJob (s : State) (job : Nat) : State :=
  let until_ := s.now .hub + overlapOf s job
  let s := setHKeys s (s.hub.keys.map (fun k => if k.kind = 1 ∧ k.job = job then { k with state := KSt.PREVIOUS, until_ } else k))
  { s with hub := { s.hub with jobs := s.hub.jobs.filter (fun j => j.job != job) } }

/-- A JOB_DELETE of the job is under way (R479). -/
def deleting (s : State) (job : Nat) : Bool :=
  s.hub.cabinet.journal.any (fun e => e.op == 0x23 && e.job == job && e.st == 1 && !e.cancelled)

/-- R417, R405, R479: what applied job settings do beyond the ingest die: a new epoch's key becomes CURRENT, a new job's energy counters start
at 0, a deleted job ends. -/
def jobApplied (s : State) (old : List (Nat × Nat)) : State :=
  (List.range 256).foldl (fun s i =>
    let job := s.rd (Pg.ing 56) ING_JOB_ID i
    let epoch := s.rd (Pg.ing 56) ING_JOB_EPOCH i
    let o := old.getD i (0, 0)
    let s := if o.1 ≠ 0 ∧ o.1 ≠ job ∧ deleting s o.1 then endJob s o.1 else s
    if job = 0 ∨ o = (job, epoch) then s
    else
      let s := promoteJobKey s job epoch (overlapOf s job)
      if o.1 = job then s else clearSlotEnergy s i) s

/-- What the application of a page does beyond its registers, against the state before it. -/
def appliedHook (old s : State) (pg : Page) (b : Blk) : State :=
  match b with
  | .hot => hotApplied s ((List.range 4).map (fun i => (slotJob old i, slotK old i))) (old.rd Pg.hot HOT_SLOW_SLOW_S)
  | .seal => (List.range (slotCount s.cfg)).foldl (fun s i =>
      if s.rd Pg.sealP (SEAL_EPOCH i) = old.rd Pg.sealP (SEAL_EPOCH i) then s
      else epochChanged s i (s.rd Pg.sealP (SEAL_EPOCH i))) s
  | .cap => capApplied s
  | .shp => shpApplied s ((List.range 8).map (fun c => old.rd Pg.shp SHP_CLS_RATE c))
  | .bur => match pg with
    | .tally _ => { s with tally := { s.tally with leapExpired := false } }
    | .hub _ _ => { s with hub := { s.hub with leapExpired := false } }
  | .frz => frzApplied s pg
  | .ing =>
    let s := noteSettings s pg.die
    if pg.die = xd0 then
      jobApplied s ((List.range 256).map (fun i => (old.rd (Pg.ing 56) ING_JOB_ID i, old.rd (Pg.ing 56) ING_JOB_EPOCH i)))
    else s
  | .trs => noteSettings s pg.die
  | .til => tilApplied s (32 * pg.die + (pg.num - 0x040)) (old.rd pg TIL_JOB_SLOT, old.flag pg TIL_JOB_VALID)
  | .rch => rchApplied s (pg.die - 62) (old.rd pg RCH_PEER_HUB) (old.rd pg RCH_PEER_PORT)
  | .gsi => gsiApplied s (pg.die - 62) ((List.range 8).map (fun i => old.rd pg GSI_LINE_CFG_UNIT i))
  | .pwrH => decideLevel s
  | _ => s

/-- The page's appointment has come (R23), and no freeze holds it (R26). -/
def apptDue (s : State) (pg : Page) : Bool := isArmed s pg && decide (apptTime s pg ≤ s.now pg.part) && !isFrozen s pg

/-- R23: a page's appointment is applied; on the CNT, HOT and NRG pages the split interval ends first (R112, R119). -/
def applyPage (s : State) (pg : Page) : State :=
  match pageBlk s.cfg pg with
  | none => s
  | some b =>
    if !apptDue s pg then s
    else
      let s := if b = .cnt ∨ b = .hot ∨ b = .nrg then splitOnce s else s
      let s' := copyStaged s pg b
      let s' := (s'.wr pg BLK_APPT_CTRL_STATE Appt.APPLIED).incr pg BLK_APPT_CTRL_APPLIED_CNT
      appliedHook s (raise s' pg Irq.APPT_APPLIED) pg b

/-- R26: every other due page of the unit a FRZ page belongs to, before the freeze. -/
def dueOfUnit (s : State) (frz : Page) : List Page := (unitPages frz).filter (fun pg => pg != frz && apptDue s pg)

/-- R102: the work of a Tally's tick, in its order: windows close, due appointments are applied (the FRZ page's last), windows open. -/
def tallyInstant (s : State) : State :=
  let due := dueSlots s
  let s := if due.isEmpty then s else closeWindows s due
  let s := ((List.range 16).map Page.tally).foldl applyPage s
  openWindows s due

/-- R26, R102: a due appointment; on a FRZ page the other due pages of the unit come first. -/
def applyDue (s : State) (pg : Page) : State :=
  match pg with
  | .tally _ => tallyInstant s
  | .hub _ _ =>
    if pageBlk s.cfg pg = some .frz then applyPage ((dueOfUnit s pg).foldl applyPage s) pg else applyPage s pg

/-- R23: the first tick at or after the appointment time. -/
def execApptApply (pg : Page) (s : State) : Host.Outcome State Fault Refusal :=
  if apptDue s pg then .next (applyDue s pg) else .next s

/-- R102: a boundary of a live slot. -/
def execWindowBoundary (s : State) : Host.Outcome State Fault Refusal :=
  if (dueSlots s).isEmpty then .next s else .next (tallyInstant s)

end Sys2Proof.Machine
end

