-- ==== Sys2Proof/Machine/ElecTest.lean ====
section
/-!
DEFINITION. Sys2Proof/Machine/ElecTest.lean: the TST page (R497–R501, R504–R506): ports out of service, half-width modules, generators and
checkers; lane alignment (R81); TEST MODE of a Tally (R503).
-/
namespace Sys2Proof.Machine
open Reg

/-- The selection of a TST page: kind (0 PORT, 1 MGMT, 2 UCIE), index, lane. -/
def tstSel (s : State) (d : Nat) : Nat × Nat × Nat :=
  (s.rd (Pg.tst d) TST_SEL_KIND, s.rd (Pg.tst d) TST_SEL_INDEX, s.rd (Pg.tst d) TST_SEL_LANE)

/-- R504, R505: the die holds the selection. -/
def tstHolds (c : Parts) (d : Nat) (sel : Nat × Nat × Nat) : Bool :=
  match sel.1 with
  | 0 => isXD d && decide (sel.2.1 < 2) && decide (sel.2.2 < 4)
  | 1 => (d == 56 || d == 57) && sel.2.1 == 0 && sel.2.2 == 0
  | 2 => (across c d sel.2.1).isSome && decide (sel.2.2 < 64)
  | _ => false

/-- The bank indices of the selected lane and of its port or module. -/
def laneKey (sel : Nat × Nat × Nat) : Nat := tstKey sel.1 sel.2.1 sel.2.2
def unitKey (sel : Nat × Nat × Nat) : Nat := tstKey sel.1 sel.2.1 0

/-- The port number a selection of kind PORT or MGMT names. -/
def selPort (d : Nat) (sel : Nat × Nat × Nat) : Nat :=
  if sel.1 = 1 then d - 40
  else if d < 58 then (d - 56) * 2 + sel.2.1
  else if sel.2.1 = 0 then d - 54 else d - 48

/-- R497: a pattern is listed for a kind of lane. -/
def patternOk (kind p : Nat) : Bool := decide (p ≤ 6) || p == 10 || (kind == 0 && decide (p ≤ 9))

/-- R501: the lane lies in the half under test (HALF 1: lanes 0–31, 2: lanes 32–63). -/
def laneInHalf (half lane : Nat) : Bool := (half == 1 && decide (lane < 32)) || (half == 2 && decide (lane ≥ 32))

def halfFailed (s : State) (d m h : Nat) : Bool := s.hub.halfFails.contains (d, m, h)

/-- R501: the width a module runs in: on the half not under test, on the half that has not failed. -/
def widthFor (s : State) (d m half : Nat) : Nat :=
  let low := !halfFailed s d m 0 && half != 1
  let high := !halfFailed s d m 1 && half != 2
  if low && high then 0 else if low then 1 else if high then 2 else 3

/-- R501: a module and its partner run in a width; a change retrains them. -/
def setWidth (s : State) (d m w : Nat) : State :=
  if linkWidth s d m = w then s
  else (linkEnds s.cfg d m).foldl (fun s e =>
    let k := tstKey 2 e.2 0
    ((s.wr (Pg.tst e.1) TST_LINK_WIDTH w k).bump (Pg.tst e.1) TST_LINK_RETRAINS k).wr (Pg.tst e.1) TST_LINK_UP (b2n (w != 3)) k) s

/-! ### TST_MODE (R498, R499, R501) -/

/-- R71: the selection of the source follows. -/
def portTrackersOut (s : State) (port : Nat) : State :=
  [2, 3, 4].foldl (fun s src => if (s.tracker src).port = port ∧ (s.tracker src).valid = true then trackerInvalid s src else s) s

/-- R81, R498: the operating mode of a port under a loopback. -/
def portModeNow (s : State) (port loop : Nat) : Nat :=
  if loop = 1 then 2 else if loop = 2 then 3 else s.hub.portMode.getD port 0

/-- What a write of TST_MODE is refused with. -/
def tstModeRefusal (s : State) (d : Nat) (ag : Agent) (v : Nat) : Nat :=
  let sel := tstSel s d
  let test := bit v 31
  let half := bits v 9 8
  let loop := bits v 1 0
  if ag ≠ .cabinet then Syn.AUTH
  else if ¬ tstHolds s.cfg d sel then Syn.ABSENT
  else if half = 3 ∨ (sel.1 = 2 ∧ (test = true ∨ loop = 2)) ∨ (sel.1 ≠ 2 ∧ half ≠ 0) then Syn.RANGE
  else if loop ≠ 0 ∧ ((sel.1 ≠ 2 ∧ test = false) ∨ (sel.1 = 2 ∧ half = 0)) then Syn.STATE
  else if sel.1 = 2 ∧ half ≠ 0 ∧ halfFailed s d sel.2.1 (half - 1) then Syn.STATE
  else if sel.1 = 0 ∧ test = true ∧ selPort d sel ≥ 14 ∧ rchState s (selPort d sel - 14) ≠ Rch.DISABLED then Syn.STATE
  else 0

/-- R498, R499, R501: TST_MODE of the selected port or module. -/
def tstModeWrite (s : State) (d : Nat) (ag : Agent) (v : Nat) : State :=
  let sel := tstSel s d
  let c := tstModeRefusal s d ag v
  if c ≠ 0 then syn s (Pg.tst d) c ag false TST_MODE_LOOP.off
  else
    let k := unitKey sel
    let s := ((s.wr (Pg.tst d) TST_MODE_LOOP (bits v 1 0) k).wr (Pg.tst d) TST_MODE_HALF (bits v 9 8) k).wr (Pg.tst d) TST_MODE_TEST
      (bits v 31 31) k
    if sel.1 = 2 then setWidth s d sel.2.1 (widthFor s d sel.2.1 (bits v 9 8))
    else
      let port := selPort d sel
      let s := if port < 16 then s.wr Pg.xLcs (LCS_TSC_STAT_MODE port) (portModeNow s port (bits v 1 0)) else s
      if bit v 31 then portTrackersOut s port else s

def execTstModeWrite (d : Nat) (ag : Agent) (v : Word) (s : State) : Host.Outcome State Fault Refusal :=
  if pageBlk s.cfg (Pg.tst d) = some .tst then .next (tstModeWrite s d ag v.toNat) else .next (syn s (absentPage s .hub) Syn.ABSENT ag)

/-! ### Generators and checkers (R497, R499, R500) -/

/-- A write of TST_GEN or TST_CHK is refused: from another agent, of a selection the die does not hold, with a pattern that is not listed, or
a generator pattern outside a test. -/
def patternRefusal (s : State) (d : Nat) (ag : Agent) (gen : Bool) (p : Nat) : Nat :=
  let sel := tstSel s d
  let k := unitKey sel
  if ag ≠ .cabinet then Syn.AUTH
  else if ¬ tstHolds s.cfg d sel then Syn.ABSENT
  else if ¬ patternOk sel.1 p then Syn.RANGE
  else if gen ∧ p ≠ 0 ∧ ((sel.1 ≠ 2 ∧ s.rd (Pg.tst d) TST_MODE_TEST k = 0) ∨
      (sel.1 = 2 ∧ laneInHalf (s.rd (Pg.tst d) TST_MODE_HALF k) sel.2.2 = false)) then Syn.STATE
  else 0

/-- R500: INJECT inverts one bit of the generated stream. -/
def tstInject (s : State) (d : Nat) : State :=
  let k := laneKey (tstSel s d)
  if s.rd (Pg.tst d) TST_GEN_PATTERN k = 0 then s else s.send (.injectBit d k)

/-- Bits a lane carries in a Hub tick of 2 ns, doubled (R495: 106.25 Gb/s; R158: 32 GT/s; MA and MB are stated nowhere). -/
def laneRate (k : Nat) : Option Nat := if k < 2 ^ 14 then some 425 else if k < 2 ^ 15 then none else some 128

/-- R500: the bits a locked checker has counted since it locked, or since they were last folded into TST_BITS. -/
def bitsSince (s : State) (k t : Nat) : State × Nat :=
  match laneRate k with
  | some r => (s, (s.hub.lcs.ticks - t) * r / 2)
  | none => s.free

/-- The time a checker is counted from. -/
def lockedAt (s : State) (d k : Nat) : Option Nat := (s.hub.locked.find? (fun x => x.1 == d && x.2.1 == k)).map (·.2.2)

def setLockedAt (s : State) (d k : Nat) (t : Option Nat) : State :=
  let rest := s.hub.locked.filter (fun x => !(x.1 == d && x.2.1 == k))
  { s with hub := { s.hub with locked := match t with
    | some t => (d, k, t) :: rest
    | none => rest } }

/-- The bits counted so far enter TST_BITS. -/
def foldBits (s : State) (d k : Nat) : State :=
  match lockedAt s d k with
  | none => s
  | some t =>
    let x := bitsSince s k t
    setLockedAt (x.1.incr (Pg.tst d) TST_BITS k x.2) d k (some s.hub.lcs.ticks)

/-- R500: the checker stops counting. -/
def unlockChecker (s : State) (d k : Nat) : State := (setLockedAt (foldBits s d k) d k none).wr (Pg.tst d) TST_CHK_LOCKED 0 k

/-- R500: CLEAR. -/
def tstClear (s : State) (d : Nat) : State :=
  let k := laneKey (tstSel s d)
  ((foldBits s d k).wr (Pg.tst d) TST_BITS 0 k).wr (Pg.tst d) TST_ERR 0 k

/-- R500, R505: a write of TST_GEN. -/
def tstGenWrite (s : State) (d : Nat) (ag : Agent) (v : Nat) : State :=
  let c := patternRefusal s d ag true (bits v 3 0)
  if c ≠ 0 then syn s (Pg.tst d) c ag false TST_GEN_PATTERN.off
  else
    let k := laneKey (tstSel s d)
    let s := (s.wr (Pg.tst d) TST_GEN_PATTERN (bits v 3 0) k).wr (Pg.tst d) TST_GEN_INVERT (bits v 8 8) k
    if bit v 16 then tstInject s d else s

/-- R500, R505: a write of TST_CHK: a change of pattern or INVERT clears LOCKED. -/
def tstChkWrite (s : State) (d : Nat) (ag : Agent) (v : Nat) : State :=
  let c := patternRefusal s d ag false (bits v 3 0)
  if c ≠ 0 then syn s (Pg.tst d) c ag false TST_CHK_PATTERN.off
  else
    let k := laneKey (tstSel s d)
    let same := s.rd (Pg.tst d) TST_CHK_PATTERN k == bits v 3 0 && s.rd (Pg.tst d) TST_CHK_INVERT k == bits v 8 8
    let s := if same then s else unlockChecker s d k
    let s := (s.wr (Pg.tst d) TST_CHK_PATTERN (bits v 3 0) k).wr (Pg.tst d) TST_CHK_INVERT (bits v 8 8) k
    if bit v 16 then tstClear s d else s

/-- A write of one bit of TST_GEN or TST_CHK that leaves the rest. -/
def execInject (d : Nat) (ag : Agent) (s : State) : Host.Outcome State Fault Refusal :=
  if pageBlk s.cfg (Pg.tst d) ≠ some .tst then .next (syn s (absentPage s .hub) Syn.ABSENT ag)
  else if ag ≠ .cabinet then .next (syn s (Pg.tst d) Syn.AUTH ag false TST_GEN_PATTERN.off)
  else if ¬ tstHolds s.cfg d (tstSel s d) then .next (syn s (Pg.tst d) Syn.ABSENT ag false TST_GEN_PATTERN.off)
  else .next (tstInject s d)

def execClear (d : Nat) (ag : Agent) (s : State) : Host.Outcome State Fault Refusal :=
  if pageBlk s.cfg (Pg.tst d) ≠ some .tst then .next (syn s (absentPage s .hub) Syn.ABSENT ag)
  else if ag ≠ .cabinet then .next (syn s (Pg.tst d) Syn.AUTH ag false TST_CHK_PATTERN.off)
  else if ¬ tstHolds s.cfg d (tstSel s d) then .next (syn s (Pg.tst d) Syn.ABSENT ag false TST_CHK_PATTERN.off)
  else .next (tstClear s d)

/-- R500: the checker of a lane has seen 256 error-free bits after its seed. -/
def execCheckerLocked (d kind index lane : Nat) (s : State) : Host.Outcome State Fault Refusal :=
  let k := tstKey kind index lane
  if ¬ tstHolds s.cfg d (kind, index, lane) ∨ s.rd (Pg.tst d) TST_CHK_PATTERN k = 0 ∨ s.rd (Pg.tst d) TST_CHK_LOCKED k = 1 then .next s
  else .next (setLockedAt (s.wr (Pg.tst d) TST_CHK_LOCKED 1 k) d k (some s.hub.lcs.ticks))

/-- R500: 64 errors within 1,024 bits; `errs` are the errors counted since the checker locked. -/
def execLockLost (d kind index lane errs : Nat) (s : State) : Host.Outcome State Fault Refusal :=
  let k := tstKey kind index lane
  if ¬ tstHolds s.cfg d (kind, index, lane) ∨ s.rd (Pg.tst d) TST_CHK_LOCKED k = 0 then .next s
  else .next (raise ((unlockChecker s d k).bump (Pg.tst d) TST_ERR k errs) (Pg.tst d) Irq.TST_LOCK_LOST)

/-! ### Lane alignment (R81) -/

/-- A port gains or loses lane alignment (ports 0–15, MA 16, MB 17); the deskew measured, in LCS_TSC_STAT's unit. -/
def execLaneAlignment (port : Nat) (up : Bool) (deskew : Nat) (s : State) : Host.Outcome State Fault Refusal :=
  if port ≥ 18 then .next s
  else
    let s := { s with hub := { s.hub with aligned := s.hub.aligned.set port up } }
    let s := s.wr (Pg.tst (portDie port)) TST_LINK_UP (b2n up) (portKey port)
    if port ≥ 16 then .next (s.wr (Pg.cab (portDie port)) (if port = 16 then CAB_MGMT_MA_UP else CAB_MGMT_MB_UP) (b2n up))
    else if up then .next (s.wr Pg.xLcs (LCS_TSC_STAT_DESKEW port) deskew)
    else .next s

/-! ### TEST MODE of a Tally (R503) -/

/-- The common fields of a page that hold state (R18–R23). -/
def commonFlds : List Fld :=
  [BLK_CTRL_EN, BLK_CTRL_FRZ_P, BLK_STAT_FROZEN, BLK_SYNDROME_CODE, BLK_SYNDROME_COUNT, BLK_SYNDROME_INFO_OFFSET, BLK_SYNDROME_INFO_AGENT,
    BLK_SYNDROME_INFO_STAGED, BLK_SYNDROME_INFO_DETAIL, BLK_APPT_TIME_NS, BLK_APPT_TIME_SLO, BLK_APPT_TIME_SHI, BLK_APPT_CTRL_STATE,
    BLK_APPT_CTRL_APPLIED_CNT] ++
  (List.range 32).map BLK_IRQ_STAT ++ (List.range 32).map BLK_IRQ_EN

/-- A field takes a free value. -/
def freeFld (s : State) (pg : Page) (f : Fld) (i : Nat) : State :=
  let x := s.free
  x.1.wr pg f x.2 i

/-- Every field of the Tally's pages, live and staged, bank entry by bank entry up to `n`, takes a free value. -/
def freeTallyCells (s : State) (n : Nat) : State :=
  (List.range 16).foldl (fun s p =>
    let pg := Page.tally p
    match pageBlk s.cfg pg with
    | none => s
    | some b =>
      let own := (blkRegs b).flatMap (fun r => r.flds.flatMap (fun f => if f.ty == .rwa then [f.f, f.f.staged] else [f.f]))
      let s := commonFlds.foldl (fun s f => freeFld s pg f 0) s
      own.foldl (fun s f => (List.range n).foldl (fun s i => freeFld s pg f i) s) s) s

/-- R503: tly_test_mode is asserted: every state of the Tally is undefined until tly_por_n. -/
def execTlyTestMode (s : State) : Host.Outcome State Fault Refusal :=
  let s := freeTallyCells s 4096
  .next { s with freeCtr := s.freeCtr + 1, tally := { freeTally s.freeCtr with testMode := true } }

end Sys2Proof.Machine
end

