-- ==== Sys2Proof/Machine/Verdict.lean ====
section
/-!
DEFINITION. Sys2Proof/Machine/Verdict.lean: the verdict of a job window (R308–R329, R251): stragglers and their causes, drift, levelling, the
full record and the unit frames, the actions sent with them.
-/
namespace Sys2Proof.Machine
open Reg

/-! ### Order statistics -/

/-- Insert by a key, ascending; equal keys keep their order. -/
def insertBy {α : Type} (key : α → Int) (x : α) : List α → List α
  | [] => [x]
  | a :: t => if key x < key a then x :: a :: t else a :: insertBy key x t

def sortBy {α : Type} (key : α → Int) (l : List α) : List α := l.foldl (fun acc x => insertBy key x acc) []

/-- R311: the ((count + 1) / 2)-th smallest value. -/
def lowerMedian (l : List Int) : Int := (sortBy (fun x => x) l).getD ((l.length + 1) / 2 - 1) 0

/-! ### Stragglers (R309–R313) -/

namespace MarkKind
/-! STP_MARK.KIND. -/
def STEP : Nat := 0
def ENTRY : Nat := 1
def EXIT : Nat := 2
end MarkKind

/-- A straggler: the tuple with its largest lag. -/
structure Straggler where
  unit : Nat
  lag : Int
  step : Nat
  id : Nat
  cause : Nat
  absent : Bool
  deriving DecidableEq, Repr

/-- What a job's record holds of a mark. -/
def RecInfo.markAt (r : RecInfo) (kind step id : Nat) : Option Nat :=
  (r.marks.find? (fun m => m.1 == kind && m.2.1 == step && m.2.2.1 == id)).map (fun m => m.2.2.2)

/-- The earliest of a unit's marks of a tuple among accepted records: the record and the time. -/
def earliest (rs : List RecInfo) (unit kind step id : Nat) : Option (RecInfo × Nat) :=
  rs.foldl (fun acc r =>
    if r.unit = unit then
      match r.markAt kind step id, acc with
      | some t, none => some (r, t)
      | some t, some (q, u) => if t < u then some (r, t) else some (q, u)
      | none, _ => acc
    else acc) none

/-- The tuples whose ENTRY marks the records carry, each once. -/
def tuplesOf (rs : List RecInfo) : List (Nat × Nat) :=
  (rs.flatMap (fun r => (r.marks.filter (fun m => m.1 == MarkKind.ENTRY)).map (fun m => (m.2.1, m.2.2.1)))).eraseDups

/-- R312: the unit is excluded for the tuple: the mark's record was not LOCKED, or a record dropped marks and the tuple is not among those
carried (windows from that of the tuple's earliest mark to n). -/
def excluded (rs : List RecInfo) (unit step id w0 n : Nat) : Bool :=
  match earliest rs unit MarkKind.ENTRY step id with
  | some (r, _) => !r.locked
  | none => rs.any (fun r => r.unit == unit && decide (w0 ≤ r.win) && decide (r.win ≤ n) && r.drops != 0)

/-- The time and window of the tuple's earliest mark. -/
def firstMark (rs : List RecInfo) (units : List Nat) (step id : Nat) : Option (Nat × Nat) :=
  units.foldl (fun acc u =>
    match earliest rs u MarkKind.ENTRY step id, acc with
    | some (r, t), none => some (t, r.win)
    | some (r, t), some (t0, w0) => if t < t0 then some (t, r.win) else some (t0, w0)
    | none, _ => acc) none

/-- R310: the tuple is judged in the verdict of window n. -/
def tupleDue (p : VPolicy) (rs : List RecInfo) (units : List Nat) (step id n endNs : Nat) : Bool :=
  match firstMark rs units step id with
  | none => false
  | some (t0, w0) =>
    units.all (fun u => (earliest rs u MarkKind.ENTRY step id).isSome || excluded rs u step id w0 n) ||
    decide (endNs ≥ t0 + p.markWait * 1000)

/-- R313: the interval of a unit before its ENTRY: from its EXIT of the previous MARK_ID, or from its STEP mark. -/
def beforeEntry (rs : List RecInfo) (unit step id t : Nat) : Option Int :=
  let step0 : Option Nat := rs.foldl (fun (acc : Option Nat) r =>
    if r.unit = unit then
      match r.marks.find? (fun m => m.1 == MarkKind.STEP && m.2.1 == step) with
      | some m => some m.2.2.2
      | none => acc
    else acc) none
  match (if id = 0 then none else earliest rs unit MarkKind.EXIT step (id - 1)) with
  | some (_, u) => some ((t : Int) - u)
  | none => step0.map (fun u => (t : Int) - u)

/-- R313: the cause of a straggler from its residencies in a window and the one before. -/
def residencyCause (rs : List RecInfo) (unit win : Nat) : Nat :=
  let has (i : Nat) : Bool := rs.any (fun r => r.unit == unit && (r.win == win || r.win + 1 == win) && r.res.getD i 0 != 0)
  if has 0 then 1 else if has 2 then 2 else if has 3 then 3 else if has 4 then 4 else 0

/-- R311–R313: the stragglers of one tuple; absent units count at window_end(n). -/
def judgeTuple (p : VPolicy) (rs : List RecInfo) (units : List Nat) (step id n endNs : Nat) : List Straggler :=
  match firstMark rs units step id with
  | none => []
  | some (_, w0) =>
    let marked := units.filter (fun u => (earliest rs u MarkKind.ENTRY step id).isSome)
    if marked.length < p.minUnits then []
    else
      let judged := units.filter (fun u => !excluded rs u step id w0 n)
      let time (u : Nat) : Int := ((earliest rs u MarkKind.ENTRY step id).map (fun x => (x.2 : Int))).getD endNs
      let med := lowerMedian (judged.map time)
      let mad := lowerMedian (judged.map (fun u => ((time u - med).natAbs : Int)))
      let thr : Int := max (p.absNs : Int) ((p.mult : Int) * mad / 16)
      let before (u : Nat) : Option Int := (earliest rs u MarkKind.ENTRY step id).bind (fun x => beforeEntry rs u step id x.2)
      let medBefore := lowerMedian (judged.filterMap before)
      (judged.filter (fun u => decide (time u - med > thr))).map (fun u =>
        let win := ((earliest rs u MarkKind.ENTRY step id).map (fun x => x.1.win)).getD n
        let c := residencyCause rs u win
        let host := match before u with
          | some b => decide (b > medBefore + thr)
          | none => false
        { unit := u, lag := time u - med, step, id, cause := if c ≠ 0 then c else if host then 5 else 6,
          absent := !marked.contains u })

/-- R311: a unit's entry names the tuple with its largest lag. -/
def worstEach (l : List Straggler) : List Straggler :=
  l.foldl (fun acc x =>
    match acc.find? (fun y => y.unit == x.unit) with
    | some y => if x.lag > y.lag then acc.map (fun z => if z.unit = x.unit then x else z) else acc
    | none => acc ++ [x]) []

/-- R318: the entry of a straggler. -/
def stragglerEntry (prev : List Nat) (x : Straggler) : VEntry :=
  { type := 1, code := x.cause, flags := b2n x.absent + 2 * b2n (prev.contains x.unit), unit := x.unit,
    a := x.step * 2 ^ 32 + x.id * 2 ^ 20, b := ofSigned 64 x.lag }

/-! ### Drift (R314) -/

/-- The order of finite FP32 values and infinities; none for a NaN. -/
def fp32Order (x : Nat) : Option Int :=
  let m : Nat := x % 2 ^ 31
  if m > 0x7F800000 then none else if bit x 31 then some (-(m : Int)) else some m

def atLeast32 (x y : Nat) : Bool :=
  match fp32Order x, fp32Order y with
  | some a, some b => decide (a ≥ b)
  | _, _ => false

/-- R314: the runs after a window's scores. -/
def driftRuns (p : VPolicy) (old : List (Nat × Nat × Bool × Bool × Nat)) (scores : List Score) : List (Nat × Nat × Bool × Bool × Nat) :=
  (scores.filter (fun x => atLeast32 x.score p.driftThr)).map (fun x =>
    let n := ((old.find? (fun y => y.1 == x.unit && y.2.1 == x.model && y.2.2.1 == x.history && y.2.2.2.1 == x.tensor)).map
      (fun y => y.2.2.2.2)).getD 0
    (x.unit, x.model, x.history, x.tensor, n + 1))

/-- R314, R318: the alerts of a window. -/
def driftEntries (p : VPolicy) (runs : List (Nat × Nat × Bool × Bool × Nat)) (scores : List Score) : List VEntry :=
  (runs.filter (fun r => decide (r.2.2.2.2 ≥ p.driftWin))).map (fun r =>
    let score := ((scores.find? (fun x => x.unit == r.1 && x.model == r.2.1 && x.history == r.2.2.1 && x.tensor == r.2.2.2.1)).map
      (fun x => x.score)).getD 0
    { type := 2, code := b2n r.2.2.1 + 2 * b2n r.2.2.2.1, flags := 0, unit := r.1,
      a := r.2.1 * 2 ^ 48 + min 255 r.2.2.2.2 * 2 ^ 40 + score, b := 0 })

/-! ### Levelling (R322–R326) -/

/-- Throttle residency: limiter, host thermal or host power. -/
def throttled (r : RecInfo) : Bool := r.res.getD 0 0 != 0 || r.res.getD 2 0 != 0 || r.res.getD 3 0 != 0

/-- R308: largest CAP_FLOOR, smallest CAP_TOP and smallest CAP_STEP of the members read. -/
def floorOf (j : HJob) (units : List Nat) : Option Nat :=
  ((j.bounds.filter (fun b => units.contains b.1)).map (fun b => b.2.1)).foldl (fun m x => some (max x (m.getD 0))) none
def topOf (j : HJob) (units : List Nat) : Option Nat :=
  ((j.bounds.filter (fun b => units.contains b.1)).map (fun b => b.2.2.1)).foldl (fun m x => some (min x (m.getD x))) none
def stepOf (j : HJob) (units : List Nat) : Option Nat :=
  ((j.bounds.filter (fun b => units.contains b.1)).map (fun b => b.2.2.2)).foldl (fun m x => some (min x (m.getD x))) none

/-- R322: the effective top: the smaller of LEVEL_TOP and the members' smallest CAP_TOP (the reset CAP_TOP, 4,094, while none is read). -/
def effTop (p : VPolicy) (j : HJob) (units : List Nat) : Nat :=
  let t := (topOf j units).getD 4094
  if p.levelTop = 0 then t else min p.levelTop t

def effFloor (p : VPolicy) (j : HJob) (units : List Nat) : Nat := max p.levelFloor ((floorOf j units).getD 0)

/-- R322: the sustainable frequency of a member, MHz. -/
def sustainable (p : VPolicy) (top : Nat) (r : RecInfo) : Nat :=
  if throttled r then
    match r.gauges.find? (fun g => g.1 == p.freqGauge) with
    | some g => (g.2 / 2 ^ 24).toNat
    | none => top
  else top

/-- R322: the smallest f_u and the member that gave it (lowest unit number on a tie). -/
def slowest (p : VPolicy) (top : Nat) (rs : List RecInfo) : Option (Nat × Nat) :=
  rs.foldl (fun acc r =>
    let f := sustainable p top r
    match acc with
    | none => some (f, r.unit)
    | some (g, u) => if f < g ∨ (f = g ∧ r.unit < u) then some (f, r.unit) else some (g, u)) none

/-- What a verdict decides of a job's cap: the LEVEL code (0: no entry), the job's code, its appointment, the code for each member that gets
a CAP, the limiting unit, whether a release goes on. -/
structure Level where
  code : Nat
  cap : Nat
  appt : Option Nat
  sends : List (Nat × Nat)
  limit : Nat
  releasing : Bool
  target : Nat
  permits : Bool
  deriving DecidableEq, Repr

/-- R324: the code of a member in a release. -/
def releaseCode (j : HJob) (new unit : Nat) : Nat :=
  match j.bounds.find? (fun b => b.1 == unit) with
  | none => 0xFFF
  | some b =>
    let cur := ((j.unitCap.find? (fun c => c.1 == unit)).map (·.2)).getD (if j.releasing then 0xFFF else new)
    if cur = 0xFFF ∨ b.2.2.1 ≤ cur + b.2.2.2 then 0xFFF else min (cur + b.2.2.2) b.2.2.1

/-- R322–R326: the decision of the verdict of window n; `appt` is the appointment of R53 (R321 where late), `ready`: a raise is not barred by
headroom or PARTIAL. -/
def levelOf (p : VPolicy) (j : HJob) (units : List Nat) (rs : List RecInfo) (k appt : Nat) (partial_ : Bool) : Level :=
  let on := p.level == 1
  let top := if on then effTop p j units else (topOf j units).getD 4094
  let slow := slowest p top rs
  let target := max ((slow.map (·.1)).getD top) (effFloor p j units)
  let eff := if j.cap = 0xFFF then top else j.cap
  let limit := if target < top then (slow.map (·.2)).getD jobWide else jobWide
  let soon := match j.capAt with
    | some a => decide (appt < a + 10000000)
    | none => false
  let headroom := decide (j.headRun ≥ p.headroom)
  let hold : Level := { code := if on then 3 else if j.releasing then 4 else 0, cap := j.cap, appt := none, sends := [], limit := jobWide,
                        releasing := j.releasing, target, permits := headroom && !partial_ && !soon }
  if on ∧ target < eff then
    let at_ := match j.capAt with
      | some a => max appt (boundaryAt k (a + 10000000))
      | none => appt
    { code := 1, cap := target, appt := some at_, sends := units.map (fun u => (u, target)), limit, releasing := false, target,
      permits := false }
  else if j.cap = 0xFFF ∧ ¬ j.releasing then (if on then hold else { hold with code := 0, permits := true })
  else if partial_ ∨ soon ∨ (on ∧ ¬ j.releasing ∧ ¬ headroom) then (if on then hold else { hold with code := 4 })
  else
    let step := (stepOf j units).getD 100
    let new := min (min (j.cap * (100 + p.raisePct) / 100) (j.cap + step)) top
    if j.releasing ∨ (new = top ∧ (p.levelTop = 0 ∨ ¬ on)) then
      let sends := (units.filter (fun u => !(j.releasing && ((j.unitCap.find? (fun c => c.1 == u)).map (·.2)).getD 0xFFF == 0xFFF))).map
        (fun u => (u, releaseCode j j.cap u))
      { code := 4, cap := if sends.all (fun x => x.2 == 0xFFF) then 0xFFF else top, appt := some appt, sends, limit := jobWide,
        releasing := sends.any (fun x => x.2 != 0xFFF), target, permits := true }
    else if j.cap = top then hold
    else { code := 2, cap := new, appt := some appt, sends := units.map (fun u => (u, new)), limit := jobWide, releasing := false, target,
           permits := true }

/-- R318: the LEVEL entry. -/
def levelEntry (l : Level) (refused : Nat) : List VEntry :=
  if l.code = 0 then []
  else [{ type := 3, code := l.code, flags := 0, unit := jobWide, a := refused * 2 ^ 32 + l.cap, b := l.limit }]

/-- R325: the code sent to a unit on a die that holds other jobs with LEVEL = 1; none where another job's target is lower or does not permit
a raise. -/
def sharedCode (s : State) (j : HJob) (l : Level) (unit code : Nat) : Option Nat :=
  let others := s.hub.jobs.filter (fun o => o.job != j.job &&
    ((polAt o.vpol (s.now .hub)).map (fun p => p.level)).getD 0 == 1 &&
    (match jobNow s o with
      | some g => (servedMembers s g).any (fun m => m.unit == unit)
      | none => false))
  if l.code = 1 then (if others.all (fun o => decide (l.target ≤ o.target)) then some code else none)
  else if others.all (fun o => o.permits) then
    some (others.foldl (fun c o => min c (if o.cap = 0xFFF then c else o.cap)) code)
  else none

/-! ### Migration (R328) -/

/-- The runs of throttle after a window, and the entries and Bureau posts they call for. -/
def throttleRuns (old : List (Nat × Nat × Nat)) (units : List Nat) (rs : List RecInfo) : List (Nat × Nat × Nat) :=
  units.filterMap (fun u =>
    match rs.find? (fun r => r.unit == u) with
    | some r => if throttled r then
        (let c := if r.res.getD 0 0 ≠ 0 then 1 else if r.res.getD 2 0 ≠ 0 then 2 else 3
         some (u, ((old.find? (fun x => x.1 == u)).map (fun x => x.2.1)).getD 0 + 1, c))
      else none
    | none => none)

def migrateEntries (p : VPolicy) (runs : List (Nat × Nat × Nat)) : List VEntry :=
  if p.migrate = 0 then []
  else (runs.filter (fun r => decide (r.2.1 ≥ p.migrate))).map (fun r => { type := 4, code := r.2.2, flags := 0, unit := r.1, a := r.2.1, b := 0 })

/-! ### The record (R316–R319) -/

/-- The 24 bytes of an entry. -/
def VEntry.bytes (e : VEntry) : List Nat :=
  [e.type % 256, e.code % 256] ++ beBytes 2 e.flags ++ beBytes 4 e.unit ++ beBytes 8 e.a ++ beBytes 8 e.b

/-- The 64 bytes of the header. -/
def VHead.bytes (h : VHead) : List Nat :=
  [h.status % 256, 0] ++ beBytes 2 h.entries ++ beBytes 4 h.gen ++ beBytes 8 h.refWindow ++ beBytes 4 h.expected ++ beBytes 4 h.records ++
  beBytes 4 h.late ++ beBytes 2 h.stragglers ++ beBytes 2 h.drift ++ beBytes 2 h.cap ++ beBytes 2 h.tilesSet ++ beBytes 2 h.tilesDone ++
  [0, 0] ++ beBytes 8 h.apptS ++ beBytes 4 h.apptNs ++ beBytes 4 h.issued ++ List.replicate 8 0

def VRec.bytes (r : VRec) : List Nat := r.head.bytes ++ r.entries.flatMap VEntry.bytes

/-- R318: the order of entries: by TYPE, stragglers by descending lag, the others by ascending unit. -/
def sortEntries (l : List VEntry) : List VEntry :=
  sortBy (fun e => (e.type : Int)) (sortBy (fun e => if e.type = 1 then -(toSigned 64 e.b) else (e.unit : Int)) l)

/-- R319: the entries of a unit's frame, in order, up to 2,032 bytes of plaintext. -/
def frameEntries (es : List VEntry) (m : Member) (members : List Member) : List VEntry :=
  let es := es.filter (fun e => e.type != 5 && e.type != 6)
  let inGroup (u : Nat) : Bool := members.any (fun x => x.unit == u && x.rgroup == m.rgroup)
  let one := es.filter (fun e => e.unit == m.unit)
  let two := es.filter (fun e => e.unit != m.unit && e.type == 3 && e.unit == jobWide)
  let three := es.filter (fun e => e.unit != m.unit && decide (0x10 ≤ e.type) && (e.unit == jobWide || inGroup e.unit))
  let four := es.filter (fun e => e.unit != m.unit && e.type == 1) ++ es.filter (fun e => e.unit != m.unit && e.type == 2)
  (one ++ two ++ three ++ four).take 82

/-- R319: the plaintext of a unit's frame; TRUNC where an entry other than TILE and CORRELATION is left out. -/
def framePlain (r : VRec) (m : Member) (members : List Member) : List Nat :=
  let es := frameEntries r.entries m members
  let all := (r.entries.filter (fun e => e.type != 5 && e.type != 6)).length
  let status := r.head.status + 32 * b2n (decide (es.length < all))
  { r.head with status, entries := es.length }.bytes ++ es.flatMap VEntry.bytes

/-- R316: the ring holds the last 4,096 windows. -/
def putRing (j : HJob) (r : VRec) : HJob := { j with ring := (r :: j.ring.filter (fun x => !(x.win == r.win && x.rev == r.rev))).take 8192 }

def inRing (j : HJob) (n rev : Nat) : Bool := j.ring.any (fun r => r.win == n && r.rev == rev)

/-- R321: the header-only record of a missing verdict. -/
def missingRec (s : State) (j : HJob) (g : JobGen) (n rev : Nat) : VRec :=
  { win := n, rev, entries := [],
    head := { status := hubSite s + 64 + 8 * rev, entries := 0, gen := g.gen, refWindow := j.refWin, expected := (servedMembers s g).length,
              records := 0, late := 0, stragglers := 0, drift := 0, cap := j.cap, tilesSet := 0, tilesDone := 0, apptS := 0, apptNs := 0,
              issued := s.now .hub - windowEnd n g.k } }

/-! ### Actions (R325, R329, R336, R349) -/

/-- The rank of an action: REPLAY, CAP, OBSERVE, DIGEST. -/
def VAct.rank : VAct → Nat
  | .replay _ _ _ _ => 0
  | .cap _ => 1
  | .observe _ _ => 2
  | .digest _ _ => 3

/-- An action takes the place of one of its kind that waits for the unit (a REPLAY or OBSERVE waits beside it). -/
def queueAct (l : List (Nat × VAct)) (unit : Nat) (a : VAct) : List (Nat × VAct) :=
  (if a.rank = 1 ∨ a.rank = 3 then l.filter (fun x => !(x.1 == unit && x.2.rank == a.rank)) else l) ++ [(unit, a)]

/-- The action sent to a unit in this verdict: the first in the order of R329. -/
def firstAct (l : List (Nat × VAct)) (unit : Nat) : Option VAct :=
  ([0, 1, 2, 3].filterMap (fun r => l.find? (fun x => x.1 == unit && x.2.rank == r))).head?.map (·.2)

/-- The command of an action; a CAP takes the verdict's appointment. -/
def VAct.cmd (appt : Nat) : VAct → UCmd
  | .replay a b c d => .replay a b c d
  | .cap c => .cap c appt
  | .observe e t => .observe e t
  | .digest e f => .digest e f

/-- R349: the cadence every member should have: EVERY 1 while a member is under observation, the policy's otherwise. -/
def wantedEvery (j : HJob) (t : Nat) : Nat :=
  if j.obs.all (fun o => o.until_ == 0) then ((polAt j.dpol t).map (fun p => p.every)).getD 0 else 1

/-- R336: the highest step seen in the job's marks plus 2. -/
def firstStep (j : HJob) : Nat :=
  ((j.recs.flatMap (fun r => r.marks.map (fun m => m.2.1))).foldl max 0 + 2) % 2 ^ 32

/-- R336, R349: a change of the cadence is ordered of every member. -/
def cadence (j : HJob) (units : List Nat) (t : Nat) : HJob :=
  let e := wantedEvery j t
  if e = j.every then j else { j with every := e, acts := units.foldl (fun l u => queueAct l u (.digest e (firstStep j))) j.acts }

/-- The unit's waiting action leaves (R329: one for each unit). -/
def sendAct (s : State) (job appt unit : Nat) : State :=
  match (hjob s job).bind (fun j => firstAct j.acts unit) with
  | some a =>
    if canCommand s then
      let s := modJob s job (fun j =>
        let unitCap := match a with
          | .cap c => (unit, c) :: j.unitCap.filter (fun x => x.1 != unit)
          | _ => j.unitCap
        let rpl := match a with
          | .replay _ id _ _ => j.rpl.map (fun (r : Rpl) => if r.id = id ∧ r.ordered = 0 then { r with ordered := s.now .hub } else r)
          | _ => j.rpl
        { j with acts := j.acts.erase (unit, a), unitCap, rpl })
      sendCmd s unit job (a.cmd appt) (.action job)
    else s
  | none => s

/-! ### Issue (R251, R316–R321) -/

/-- R351: what is listed while it lasts: observations and quarantines. -/
def standing (j : HJob) : List VEntry :=
  (j.obs.filter (fun o => o.until_ != 0)).map (fun o =>
    ({ type := 0x14, code := if o.started then 2 else 1, flags := 0, unit := o.unit, a := o.until_ / 1000000000, b := o.events } : VEntry)) ++
  j.obs.filterMap (fun o => o.quarantine.map (fun c =>
    ({ type := 0x15, code := c, flags := 0, unit := o.unit, a := o.events, b := o.first } : VEntry)))

/-- R251, R318: the TILE entries of a PARTIAL verdict: the completed tiles (hub index, tile). -/
def tileEntries (done : List (Nat × Nat)) : List VEntry :=
  done.map (fun x => { type := 6, code := 0, flags := 0, unit := jobWide, a := x.1 * 2 ^ 48 + x.2 * 2 ^ 32, b := 0 })

/-- R52: the latest window, up to n, whose fleet aggregate is held or issued here. -/
def refWindow (s : State) (j : HJob) (n : Nat) : Nat :=
  s.hub.wins.foldl (fun m w =>
    if w.job = j.job ∧ w.win ≤ n ∧ ((issuedRev w 4).isSome ∨ w.contribs.any (fun c => c.level == 4)) then max m w.win else m) j.refWin

/-- R317: RECORDS and LATE of the Hub aggregate revision judged. -/
def judgedCounts (s : State) (g : JobGen) (n rev : Nat) : Nat × Nat :=
  let w := theWin s g n
  match contribOf w 1 (selfId s) with
  | some c => (c.agg.records, c.agg.late)
  | none =>
    let t := w.table.filter (fun t => !t.snapshot && (rev == 1 || !t.late))
    (t.length, (t.filter (fun x => x.late)).length)

/-- R321: the appointment of a verdict's actions: R53, or after issue + 100 µs where it is late. -/
def verdictAppt (s : State) (g : JobGen) (n : Nat) (late : Bool) : Nat :=
  let t := windowEnd n g.k + 300000
  boundaryAt g.k (if late then max t (s.now .hub + 100000) else t)

/-- The tiles of the job's set that are done with window n: of this Hub, and of peers as they report. -/
def doneTiles (s : State) (g : JobGen) (n : Nat) (peers : List (Nat × Nat)) : List (Nat × Nat) :=
  let own := s.rd (Pg.cab 56) CAB_STATE_HUB_INDEX
  ((tileSet s g.slot).filter (fun t => (getTile s t).doneWins.contains (n % 2 ^ 32))).map (fun t => (own, t)) ++ peers

/-- The tiles of a job's set on peer Hubs (R244). -/
def peerTiles (s : State) (j : HJob) : List (Nat × Nat) :=
  let own := s.rd (Pg.cab 56) CAB_STATE_HUB_INDEX
  match j.image with
  | some i => (i.place.places.filter (fun p => p.hub != own)).map (fun p => (p.hub, p.tile))
  | none => []

/-- R251: every tile of the set still in service is done. -/
def setDone (s : State) (j : HJob) (g : JobGen) (n : Nat) (peers : List (Nat × Nat)) : Bool :=
  (tileSet s g.slot).all (fun t => (getTile s t).doneWins.contains (n % 2 ^ 32)) && (peerTiles s j).all (fun x => peers.contains x)

def asmInstant (g : JobGen) (n : Nat) : Nat := windowEnd n g.k + g.verdO * 1000 - 10000
/-- R51: the seal deadline of window n + 4. -/
def abandonAt (g : JobGen) (n : Nat) : Nat := sealDeadline g (n + 4)

/-- The job's stragglers in the verdict of window n, and the tuples judged. -/
def stragglersOf (p : VPolicy) (j : HJob) (units : List Nat) (g : JobGen) (n deadline : Nat) (tuples : List (Nat × Nat)) : List Straggler :=
  let rs := j.recs.filter (fun r => decide (r.at_ ≤ deadline))
  worstEach (tuples.flatMap (fun t => judgeTuple p rs units t.1 t.2 n (windowEnd n g.k)))

/-- R310: the tuples the verdict of window n judges. -/
def dueTuples (p : VPolicy) (j : HJob) (units : List Nat) (g : JobGen) (n : Nat) : List (Nat × Nat) :=
  let rs := j.recs.filter (fun r => decide (r.at_ ≤ sealDeadline g n))
  (tuplesOf rs).filter (fun t => !j.judged.any (fun x => x.1 == t.1 && x.2.1 == t.2) && tupleDue p rs units t.1 t.2 n (windowEnd n g.k))

/-- A full record with its entries in order. -/
def mkRec (s : State) (j : HJob) (g : JobGen) (n rev : Nat) (partial_ : Bool) (cap appt : Nat) (es : List VEntry) (done : Nat) : VRec :=
  let es := sortEntries es
  let c := judgedCounts s g n rev
  { win := n, rev, entries := es,
    head := { status := hubSite s + 4 * b2n partial_ + 8 * rev + 16 * b2n (j.checked.contains n), entries := es.length, gen := g.gen,
              refWindow := refWindow s j n, expected := (servedMembers s g).length, records := c.1, late := c.2,
              stragglers := (es.filter (fun e => e.type == 1)).length, drift := (es.filter (fun e => e.type == 2)).length, cap,
              tilesSet := (tileSet s g.slot).length + (peerTiles s j).length, tilesDone := done, apptS := appt / 1000000000,
              apptNs := appt % 1000000000, issued := s.now .hub - windowEnd n g.k } }

/-- R320: the unit frames of a verdict, each followed by the unit's action. -/
def sendVerdict (s : State) (g : JobGen) (r : VRec) (members : List Member) (appt : Nat) : State :=
  match jobKey s g.job g.epoch with
  | none => s
  | some k => members.foldl (fun s m =>
      let port := unitPort (hjob s g.job) m.unit
      let s := sendOn s port (.verdict port m.unit g.job g.epoch r.win k.val (framePlain r m (winMembers s g)))
      sendAct s g.job appt m.unit) s

/-- R328: the Bureau entry of a run that reaches MIGRATE_WIN. -/
def migratePosts (s : State) (p : VPolicy) (job n : Nat) (runs : List (Nat × Nat × Nat)) : State :=
  (runs.filter (fun r => p.migrate != 0 && r.2.1 == p.migrate)).foldl (fun s r =>
    cabEntry s 1 4 { job, unit := r.1, win := n, detail := r.2.2 }) s

/-- R322–R325: the cap the verdict leaves the job with, and the CAP actions. -/
def applyLevel (s : State) (j : HJob) (l : Level) : HJob :=
  match l.appt with
  | none => { j with target := l.target, permits := l.permits, releasing := l.releasing }
  | some a =>
    let acts := l.sends.foldl (fun acc x =>
      match sharedCode s j l x.1 x.2 with
      | some c => queueAct acc x.1 (.cap c)
      | none => acc) j.acts
    { j with cap := l.cap, capAt := some a, releasing := l.releasing, target := l.target, permits := l.permits, acts, refused := 0,
             unitCap := if l.code = 4 then j.unitCap else [] }

/-- R325: a unit that refused its CAP is sent the code in force again, at the next boundary R115 allows. -/
def resends (j : HJob) (appt : Nat) : HJob :=
  let free := match j.capAt with
    | some a => decide (appt ≥ a + 10000000)
    | none => true
  if free && !j.resend.isEmpty then { j with acts := j.resend.foldl (fun l u => queueAct l u (.cap j.cap)) j.acts, resend := [] } else j

/-- R316–R329: the verdict of window n, revision 0. -/
def issueVerdict (s : State) (j : HJob) (g : JobGen) (p : VPolicy) (n : Nat) (scores : List Score) (peers : List (Nat × Nat)) : State :=
  let members := servedMembers s g
  let units := members.map (·.unit)
  let late := decide (s.now .hub > windowEnd n g.k + g.verdO * 1000)
  let appt := verdictAppt s g n late
  let rs := j.recs.filter (fun r => r.win == n && decide (r.at_ ≤ sealDeadline g n) && units.contains r.unit)
  let tuples := dueTuples p j units g n
  let strag := stragglersOf p j units g n (sealDeadline g n) tuples
  let drift := driftRuns p j.drift scores
  let clear := !late && units.all (fun u => rs.any (fun r => r.unit == u && !throttled r))
  let j := { j with headRun := if clear then j.headRun + 1 else 0, obs := j.obs.filter (fun o => units.contains o.unit) }
  let lv := levelOf p j units rs g.k appt late
  let thr := throttleRuns j.throttle units rs
  let ready := j.pend.filter (fun x => decide (x.1 ≤ windowEnd n g.k))
  let done := doneTiles s g n peers
  let es := strag.map (stragglerEntry j.prevStrag) ++ driftEntries p drift scores ++ levelEntry lv j.refused ++ migrateEntries p thr ++
    (if late then tileEntries done else []) ++ ready.map (·.2) ++ standing j
  let r := mkRec s j g n 0 late lv.cap (lv.appt.getD appt) es done.length
  let j' := cadence (resends (applyLevel s j lv) appt) units (s.now .hub)
  let j' := putRing { j' with judged := (tuples.map (fun t => (t.1, t.2, n)) ++ j.judged).take 65536, prevStrag := strag.map (·.unit), drift,
                              throttle := thr, pend := j.pend.filter (fun x => !decide (x.1 ≤ windowEnd n g.k)),
                              obs := j.obs.map (fun o => { o with started := true }), refWin := refWindow s j n,
                              faults := if late ∨ j.faultWaits then j.faults else 0 } r
  sendVerdict (migratePosts (modJob s j.job (fun _ => j')) p j.job n thr) g r members (lv.appt.getD appt)

/-- R321: the revision verdict: the tuples of the window judged again with the late records; to the ring only. -/
def reviseVerdict (s : State) (j : HJob) (g : JobGen) (p : VPolicy) (n : Nat) (scores : List Score) (peers : List (Nat × Nat)) : State :=
  let units := (servedMembers s g).map (·.unit)
  let tuples := (j.judged.filter (fun t => t.2.2 == n)).map (fun t => (t.1, t.2.1))
  let strag := stragglersOf p j units g n (lateHorizon g n) tuples
  let drift := driftEntries p (driftRuns p j.drift scores) scores
  let r := mkRec s j g n 1 false j.cap 0 (strag.map (stragglerEntry j.prevStrag) ++ drift) (doneTiles s g n peers).length
  modJob s j.job (fun j => putRing j r)

/-- The job at a slot with its settings and policy for window n. -/
def verdictJob (s : State) (slot n : Nat) : Option (HJob × JobGen × VPolicy) :=
  match hjobAt s slot, genOfWin s slot n with
  | some j, some g =>
    match polAt j.vpol (windowStart n g.k) with
    | some p => if j.job = g.job ∧ j.image.isSome then some (j, g, p) else none
    | none => none
  | _, _ => none

/-- R251, R253: the assembly instant: each tile of the set not done is DONE_LATE, but for a tile frozen then; three in a row are a partition
fault (R356). -/
def execVerdictAssembly (slot n : Nat) (s : State) : Host.Outcome State Fault Refusal :=
  match verdictJob s slot n with
  | none => .next s
  | some (j, g, _) =>
    if s.now .hub < asmInstant g n ∨ j.asm > n then .next s
    else
      let s := modJob s j.job (fun j => { j with asm := n + 1 })
      .next ((tileSet s slot).foldl (fun s t =>
        let x := getTile s t
        if isFrozen s (Pg.til t) then s
        else if x.doneWins.contains (n % 2 ^ 32) then setTile s t { x with doneRun := 0 }
        else
          let s := setTile s t { x with doneRun := if x.doneRun ≥ 2 then 0 else x.doneRun + 1 }
          let s := syn (s.bump (Pg.til t) TIL_LATE_DONE) (Pg.til t) Syn.LATE
          let s := raise s (Pg.til t) Irq.TIL_DONE_LATE { job := j.job, win := n, detail := t }
          if x.doneRun ≥ 2 then tileJobFault s t else s) s)

/-- R251, R316, R321, R355, R356: the verdict of window n, revision 0 or 1; `scores` are what the image's models have written, `peers` the tiles
of peer Hubs that have reported done. -/
def execVerdictIssue (slot n rev : Nat) (scores : List Score) (peers : List (Nat × Nat)) (s : State) : Host.Outcome State Fault Refusal :=
  match verdictJob s slot n with
  | none => .next s
  | some (j, g, p) =>
    if rev = 1 then
      (if inRing j n 0 ∧ ¬ inRing j n 1 ∧ issuedRev (theWin s g n) 1 = some 1 ∧ s.now .hub ≥ lateHorizon g n then
        .next (reviseVerdict s j g p n scores peers) else .next s)
    else if rev ≠ 0 ∨ inRing j n 0 ∨ s.now .hub < asmInstant g n ∨ s.now .hub ≥ abandonAt g n then .next s
    else if j.missing.contains n ∨ j.faultWaits ∨ j.recovery.isSome then
      .next (modJob s j.job (fun x => putRing { x with missing := x.missing.filter (fun w => w != n) } (missingRec s j g n 0)))
    else if ¬ setDone s j g n peers then .next s
    else .next (issueVerdict s j g p n scores peers)

/-- R51, R321: at the seal deadline of window n + 4 a verdict not issued is abandoned. -/
def execVerdictAbandon (slot n : Nat) (s : State) : Host.Outcome State Fault Refusal :=
  match verdictJob s slot n with
  | none => .next s
  | some (j, g, _) =>
    if s.now .hub < abandonAt g n ∨ inRing j n 0 then .next s
    else .next (modJob s j.job (fun x => putRing x (missingRec s j g n 0)))

end Sys2Proof.Machine
end

