-- ==== Sys2Proof/Machine/Journal.lean ====
section
/-!
DEFINITION. Sys2Proof/Machine/Journal.lean: the command journal (R480–R483, R508): its entries and their steps, the RESPONSEs that resolve a
command (R176), the rounds of READs and the bootstraps for a command that gets none, the commit point of R47, the resumption of R474.
-/
namespace Sys2Proof.Machine
open Reg

namespace Jr
/-! States of an entry (R481). -/
def STARTED : Nat := 1
def DONE : Nat := 2
def PARTIAL : Nat := 3
def ABORTED : Nat := 4
end Jr

namespace Js
/-! States of a step. -/
def SENT : Nat := 1
def CONFIRMED : Nat := 2
def REFUSED : Nat := 3
def UNREACHABLE : Nat := 4
end Js

/-! ### Entries -/

def jentry (s : State) (id : Nat) : Option JEntry := s.hub.cabinet.journal.find? (fun e => e.id == id)

/-- The entry is final (R481). -/
def JEntry.final (e : JEntry) : Bool := decide (e.st ≥ Jr.DONE)

/-- R478: the session that made an entry hears of its state. -/
def jevent (s : State) (e : JEntry) : State :=
  if s.hub.cabinet.sessions.any (fun x => x.id == e.session && x.journal) then s.send (.journalEvent e.session e.id e.st) else s

/-- Write an entry; a change of state is told to its session. -/
def putJEntry (s : State) (e : JEntry) : State :=
  let old := jentry s e.id
  let c := s.hub.cabinet
  let s := setCabinet s { c with journal := c.journal.map (fun x => if x.id = e.id then e else x) }
  if old.any (fun o => o.st != e.st) then jevent s e else s

def modEntry (s : State) (id : Nat) (f : JEntry → JEntry) : State :=
  match jentry s id with
  | some e => putJEntry s (f e)
  | none => s

/-- R480: the journal ID of a count under the boot counter. -/
def journalId (boots n : Nat) : Nat := boots % 2 ^ 16 * 2 ^ 48 + n % 2 ^ 48

/-- R483: room for one more entry: none where no final entry has been kept for an hour. -/
def journalRoom (s : State) : Option State :=
  let c := s.hub.cabinet
  if c.journal.length < 65536 then some s
  else match c.journal.reverse.find? (fun e => e.final && decide (e.ended + 3600000000000 ≤ s.now .hub)) with
    | some e => some (setCabinet s { c with journal := c.journal.filter (fun x => x.id != e.id) })
    | none => none

/-! ### Steps -/

/-- The Tally job slot of a job on a unit, by the roster in force. -/
def unitSlot (s : State) (job unit : Nat) : Nat :=
  (((hjob s job).bind (fun j => jobNow s j)).bind (fun g => (memberOf s job g.gen unit).map (·.slot))).getD 0

def JEntry.setStep (e : JEntry) (i : Nat) (f : JStep → JStep) : JEntry := { e with steps := e.steps.modify i f }

/-- Step `i` is the next of its unit: not sent, every earlier one confirmed. -/
def stepReady (e : JEntry) (i : Nat) (x : JStep) : Bool :=
  x.st == 0 && (e.steps.take i).all (fun y => y.unit != x.unit || y.st == Js.CONFIRMED || (x.undo && !y.undo))

/-- R480: every step that is next for its unit is recorded and sent. -/
def sendReady (s : State) (id : Nat) : State :=
  match jentry s id with
  | none => s
  | some e =>
    if canCommand s = false ∨ e.final then s
    else (e.steps.zipIdx.filter (fun x => stepReady e x.2 x.1)).foldl (fun s x =>
      sendCmd (modEntry s id (fun e => e.setStep x.2 (fun y => { y with st := Js.SENT }))) x.1.unit x.1.job x.1.cmd (.step id x.2)) s

/-- Nothing more comes of a step. -/
def JStep.above (x : JStep) : Bool := decide (x.st ≥ Js.CONFIRMED)

/-- No step of the entry is to be sent or awaited: a step behind a refused one of its unit is not sent. -/
def stepsOver (e : JEntry) : Bool := e.steps.all (fun x => x.above || (x.st == 0 && e.steps.any (fun y =>
  y.unit == x.unit && decide (y.st ≥ Js.REFUSED) && !(x.undo && !y.undo))))

/-- R480: the units that are UNREACHABLE or refused a step. -/
def failedUnits (e : JEntry) : List Nat := ((e.steps.filter (fun x => decide (x.st ≥ Js.REFUSED))).map (·.unit)).eraseDups

/-- The syndrome an entry ends with: the first refusal's, TIMEOUT where a unit was UNREACHABLE. -/
def firstSyn (e : JEntry) (dflt : Nat) : Nat := ((e.steps.find? (fun x => decide (x.st ≥ Js.REFUSED))).map (·.syn)).getD dflt

/-- An entry becomes final. -/
def endEntry (s : State) (id st code : Nat) (units : List Nat) : State :=
  modEntry s id (fun e => { e with st, syn := code, ended := s.now .hub, units })

/-! ### Pages of the Hub -/

/-- Arm some pages at an instant, ns: the state and the first refusal's syndrome. -/
def armPages (pages : List Page) (t : Nat) (s : State) : State × Nat :=
  pages.foldl (fun r pg =>
    if r.2 ≠ 0 then r
    else match pageBlk r.1.cfg pg with
      | none => (r.1, Syn.ABSENT)
      | some b =>
        if isFrozen r.1 pg then (syn r.1 pg Syn.STATE .cabinet false 0x02C, Syn.STATE)
        else
          let s := ((r.1.wr pg BLK_APPT_TIME_NS (t % 1000000000)).wr pg BLK_APPT_TIME_SLO (t / 1000000000)).wr pg BLK_APPT_TIME_SHI
            (t / 1000000000 / 2 ^ 32)
          if isArmed r.1 pg then (syn r.1 pg Syn.STATE .cabinet false 0x020, Syn.STATE)
          else
            let s := armChecked s pg b .cabinet
            if isArmed s pg then (s, 0) else (s, s.rd pg BLK_SYNDROME_CODE)) (s, 0)

/-- Cancel the pages of a list that stand armed for an instant. -/
def unarm (pages : List Page) (t : Nat) (s : State) : State :=
  pages.foldl (fun s pg => if isArmed s pg && apptTime s pg == t then cancelChecked s pg .cabinet else s) s

/-! ### What the end of an entry does -/

/-- R38, R47: what an entry that comes to nothing leaves behind is withdrawn: its roster, its NEXT key. -/
def withdraw (s : State) (e : JEntry) : State :=
  let s := if e.gen = 0 then s
    else { s with hub := { s.hub with rosters := s.hub.rosters.filter (fun r => !(r.job == e.job && r.gen == e.gen)) } }
  if e.epoch = 0 then s
  else setHKeys s (s.hub.keys.filter (fun k => !(k.kind == 1 && k.job == e.job && k.epoch == e.epoch && k.state == KSt.NEXT)))

/-- R479: the job of a JOB_CREATE exists from DONE (log entry 70: and from PARTIAL, where it has taken effect). -/
def installJob (s : State) (e : JEntry) : State :=
  match e.op, e.newJob with
  | 0x20, some j => if (hjob s j.job).isSome then s else { s with hub := { s.hub with jobs := s.hub.jobs ++ [j] } }
  | _, _ => s

/-- R405, R479: the energy of a deleted job, by queue, goes into the entry. -/
def noteEnergy (s : State) (e : JEntry) : State :=
  match e.op, e.newJob with
  | 0x23, some j => modEntry s e.id (fun e => { e with result := (List.range 5).map (fun q => s.rd Pg.hPwr HPWR_EN_JOB (j.slot * 8 + q)) })
  | _, _ => s

/-- R453: the steps of a unit that arm an action of its FRZ page. -/
def freezeSteps (unit action dur appt : Nat) : List JStep :=
  [.write 0x0F 0x840 [action], .write 0x0F 0x870 [dur], .arm [0x0F] appt].map
    (fun c => { unit, job := 0, cmd := c, st := 0, syn := 0, back := 0, undo := false })

/-- R453: the FRZ pages of some dies staged with an action. -/
def stageFreeze (s : State) (pages : List Page) (action dur : Nat) : State :=
  pages.foldl (fun s pg => (s.wr pg FRZ_CTRL.staged action).wr pg FRZ_DUR.staged dur) s

/-- R453: every page is FROZEN: the release is armed as a change of its own, with the lead of R48. -/
def armRelease (s : State) (e : JEntry) (t : Nat) (units : List Nat) : State :=
  if t < s.now .hub + e.lead then endEntry s e.id Jr.PARTIAL Syn.LATE units
  else
    let r := armPages e.pages t (stageFreeze s e.pages 2 0)
    if r.2 ≠ 0 then endEntry (unarm e.pages t r.1) e.id Jr.PARTIAL r.2 units
    else
      let all := (e.steps.map (·.unit)).eraseDups.filter (fun u => !units.contains u)
      let go (e : JEntry) : JEntry :=
        { e with appt := t, result := [], committed := false, units, pageSteps := e.pageSteps + e.pages.length,
                 steps := all.flatMap (fun u => freezeSteps u 2 0 t) }
      sendReady (modEntry r.1 e.id go) e.id

/-- R47: a change that has taken effect everywhere, or only in part. -/
def endChange (s : State) (e : JEntry) (units : List Nat) : State :=
  match e.op, e.result with
  | 0x30, [t] => armRelease s e t units
  | _, _ =>
    let s := noteEnergy (installJob s e) e
    let units := (e.units ++ units).eraseDups
    endEntry s e.id (if units.isEmpty then Jr.DONE else Jr.PARTIAL) 0 units

/-- R308, R47: a change that stands: its policies govern from the appointment; R37: its roster's window length; R247: its image. -/
def commitHook (s : State) (e : JEntry) : State :=
  let c := s.hub.cabinet
  let s := if e.epoch = 0 then s else setCabinet s { c with rolls := (e.job, e.appt) :: c.rolls.filter (fun x => x.1 != e.job) }
  match e.op, e.newJob with
  | 0x22, some n => modJob s e.job (fun j => { j with vpol := n.vpol ++ j.vpol, dpol := n.dpol ++ j.dpol, kpol := n.kpol ++ j.kpol })
  | 0x21, some n => modJob s e.job (fun j => { j with k := n.k })
  | 0x24, some n => modJob s e.job (fun j => { j with image := n.image })
  | _, _ => s

/-! ### Advancing an entry -/

/-- R481: an entry without an appointment ends when every step is over. -/
def endPlain (s : State) (e : JEntry) : State :=
  let bad := failedUnits e
  if bad.isEmpty then endEntry s e.id Jr.DONE 0 []
  else if e.steps.any (fun x => x.st == Js.CONFIRMED) || e.pageSteps != 0 then endEntry s e.id Jr.PARTIAL (firstSyn e 0) bad
  else endEntry (withdraw s e) e.id Jr.ABORTED (firstSyn e 0) bad

/-- The freeze of a FREEZE has applied: what is left is its release. -/
def releasePhase (e : JEntry) : Bool := e.op == 0x30 && decide (e.pageSteps > e.pages.length)

/-- R47: a cancelled entry ends when every CANCEL is answered: PARTIAL where one came after the change had applied. -/
def endCancelled (s : State) (e : JEntry) : State :=
  let undos := e.steps.filter (fun x => x.undo)
  let applied := ((undos.filter (fun x => x.st == Js.REFUSED)).map (·.unit)).eraseDups
  let gone := ((e.steps.filter (fun x => x.st == Js.UNREACHABLE)).map (·.unit)).eraseDups
  if applied.isEmpty && !releasePhase e then endEntry (withdraw s e) e.id Jr.ABORTED (if e.syn = 0 then firstSyn e Syn.TIMEOUT else e.syn) gone
  else endEntry (installJob s e) e.id Jr.PARTIAL e.syn (applied ++ gone).eraseDups

/-- R47: a committed entry ends when every page has been read back. -/
def endRead (s : State) (e : JEntry) : State :=
  if e.steps.all (fun x => x.back == 0) then s
  else if e.steps.any (fun x => x.back == 1) then s
  else endChange s e (((e.steps.filter (fun x => x.back == 3)).map (·.unit)) ++ failedUnits e).eraseDups

/-- Send what may be sent, and end the entry where nothing is left. -/
def advance (s : State) (id : Nat) : State :=
  let s := sendReady s id
  match jentry s id with
  | none => s
  | some e =>
    if e.final then s
    else if e.appt = 0 then (if stepsOver e then endPlain s e else s)
    else if e.cancelled then (if (e.steps.filter (fun x => x.undo)).all JStep.above then endCancelled s e else s)
    else if e.committed then endRead s e else s

/-! ### Reading what a command did (R482) -/

/-- The registers a command addresses: page, offset, words of one READ each. -/
def readsOf : UCmd → List (Nat × Nat × Nat)
  | .write page ofs data => [(page, ofs, data.length)]
  | .read page ofs n => [(page, ofs, n)]
  | .arm pages _ => pages.map (fun p => (p, 0x02C, 1))
  | .cap _ _ => [(0x07, 0x02C, 1), (0x07, 0x040, 1), (0x07, 0x840, 1)]
  | .keyload kind _ _ _ => if kind = 1 then [(0x09, 0x054, 1), (0x09, 0x044, 4)] else [(0x09, 0x058, 1)]
  | .bootstrap _ _ => []
  | .digest _ _ => [(0x0C, 0x068, 2)]
  | .replay _ _ _ _ => [(0x0C, 0x070, 1), (0x0C, 0x078, 2)]
  | .observe _ _ => [(0x0C, 0x08C, 3)]

/-- The command's registers are selected by DGS_SLOT. -/
def selected : UCmd → Bool
  | .digest _ _ => true
  | .replay _ _ _ _ => true
  | .observe _ _ => true
  | _ => false

/-- What the registers show: 0 it took effect, 1 it did not, 2 it was refused. -/
def effectOf (cmd : UCmd) (slot : Nat) (a : List (List Nat)) : Nat :=
  let w (i j : Nat) : Nat := (a.getD i []).getD j 0
  let yes (b : Bool) : Nat := if b then 0 else 1
  match cmd with
  | .write _ ofs data =>
    if ofs = 0x02C then (if bits (w 0 0) 5 4 = Appt.APPLIED then 2 else yes (bits (w 0 0) 5 4 != Appt.ARMED))
    else yes (a.getD 0 [] == data)
  | .read _ _ _ => 0
  | .arm pages _ =>
    let st := (List.range pages.length).map (fun i => bits (w i 0) 5 4)
    if st.contains Appt.REFUSED then 2 else yes (st.all (fun x => x == Appt.ARMED || x == Appt.APPLIED))
  | .cap code _ => yes ((bits (w 0 0) 5 4 == Appt.ARMED && w 2 0 == code) || w 1 0 == code)
  | .keyload kind epoch _ _ =>
    if kind = 1 then yes (bit (w 0 0) (4 * slot + 1) || (bit (w 0 0) (4 * slot) && w 1 slot == epoch)) else yes (w 0 0 == epoch)
  | .bootstrap _ _ => 0
  | .digest every first => yes (w 0 0 == every && w 0 1 == first)
  | .replay step id shift _ => yes (w 1 0 == step && bits (w 1 1) 31 16 == id && bits (w 1 1) 5 0 == shift)
  | .observe end_ testS => yes (w 0 1 * 2 ^ 32 + w 0 0 == end_ / 1000000000 && w 0 2 == testS)

def setCmds (s : State) (l : List CmdOut) : State := setCabinet s { s.hub.cabinet with cmds := l }
def modCmd (s : State) (unit seq : Nat) (f : CmdOut → CmdOut) : State :=
  setCmds s (s.hub.cabinet.cmds.map (fun c => if c.unit = unit ∧ c.seq = seq then f c else c))
def dropCmd (s : State) (unit seq : Nat) : State := setCmds s (s.hub.cabinet.cmds.filter (fun c => !(c.unit == unit && c.seq == seq)))
def findCmd (s : State) (unit seq : Nat) : Option CmdOut := s.hub.cabinet.cmds.find? (fun c => c.unit == unit && c.seq == seq)

/-! ### The outcome of a command -/

/-- R325: an action refused at a unit is counted and, for CAP, sent again. -/
def actionRefused (s : State) (job unit : Nat) (cmd : UCmd) : State :=
  match cmd with
  | .cap _ _ => modJob s job (fun j => { j with refused := j.refused + 1, resend := if j.resend.contains unit then j.resend else j.resend ++ [unit] })
  | _ => modJob s job (fun j => { j with refused := j.refused + 1 })

/-- R308: CAP_FLOOR, CAP_TOP and CAP_STEP of a member, as read. -/
def noteBounds (s : State) (job unit : Nat) (cmd : UCmd) (w : List Nat) : State :=
  let put (j : HJob) : HJob := { j with bounds := (unit, w.getD 0 0, w.getD 1 0, w.getD 2 0) :: j.bounds.filter (fun b => b.1 != unit) }
  match cmd with
  | .read 0x07 0x044 3 =>
    let s := modJob s job put
    let c := s.hub.cabinet
    setCabinet s { c with journal := c.journal.map (fun e =>
      if e.st = Jr.STARTED ∧ e.op = 0x20 ∧ e.job = job then { e with newJob := e.newJob.map put } else e) }
  | .read 0x09 0x05C 2 =>
    let last := w.getD 1 0 * 2 ^ 32 + w.getD 0 0
    let c := s.hub.cabinet
    setCabinet s { c with seqs := c.seqs.map (fun x => if x.1 = unit then (unit, max x.2 last) else x) }
  | _ => s

/-- R477: a READ of a REG_READ is answered; with the last the REPLY is sent: the words up to the first refusal, whose syndrome is the STATUS. -/
def resolveQuery (s : State) (id i out code : Nat) (w : List Nat) : State :=
  let c := s.hub.cabinet
  match c.queries.find? (fun q => q.id == id) with
  | none => s
  | some q =>
    let st := if out = 0 then 0 else if out = 3 then Syn.TIMEOUT else code
    let q := { q with got := (i, st, w) :: q.got.filter (fun g => g.1 != i) }
    if q.got.length < q.parts then setCabinet s { c with queries := c.queries.map (fun x => if x.id = id then q else x) }
    else
      let parts := (List.range q.parts).filterMap (fun i => q.got.find? (fun g => g.1 == i))
      let good := parts.takeWhile (fun g => g.2.1 == 0)
      let bad := parts.find? (fun g => g.2.1 != 0)
      let words := good.flatMap (·.2.2) ++ (bad.map (·.2.2)).getD []
      (setCabinet s { c with queries := c.queries.filter (fun x => x.id != id) }).send
        (.reply q.session 0x10 q.req ((bad.map (·.2.1)).getD 0) (.words words))

/-- A step is resolved: 0 it took effect, 1 it did not and is sent again, 2 it was refused with a code, 3 the unit is UNREACHABLE. -/
def resolveStep (s : State) (id i out code : Nat) : State :=
  match jentry s id with
  | none => s
  | some e =>
    let st := match out with
      | 0 => Js.CONFIRMED
      | 1 => 0
      | 2 => Js.REFUSED
      | _ => Js.UNREACHABLE
    advance (putJEntry s (e.setStep i (fun x => { x with st, syn := code }))) id

/-- R47: a page read back after the appointment. -/
def resolveBack (s : State) (id i : Nat) (applied : Bool) : State :=
  advance (modEntry s id (fun e => e.setStep i (fun x => { x with back := if applied then max 2 x.back else 3 }))) id

/-- A command is resolved. -/
def resolveCmd (s : State) (c : CmdOut) (out code : Nat) (w : List Nat) : State :=
  let s := dropCmd s c.unit c.seq
  match c.for_ with
  | .step id i => resolveStep (noteBounds s c.job c.unit c.cmd w) id i out code
  | .action job => if out = 0 then s else actionRefused s job c.unit c.cmd
  | .back id i => resolveBack s id i (out == 0 && bits (w.getD 0 0) 5 4 == Appt.APPLIED)
  | .query id i => resolveQuery s id i out code w
  | .round _ _ _ => s
  | .boot _ => s

/-! ### RESPONSEs -/

/-- The words of a RESPONSE's data. -/
def respWords (p : List Nat) : List Nat :=
  (List.range ((p.length - 4) / 4)).map (fun i => ofBe ((p.drop (4 + 4 * i)).take 4))

/-- An answer to READ `i` of round `n` of a command: the command is resolved when every READ of its round is answered. -/
def roundAnswer (s : State) (unit seq n i : Nat) (w : List Nat) : State :=
  match findCmd s unit seq with
  | none => s
  | some c =>
    if c.rounds ≠ n then s
    else
      let c := { c with answers := (i, w) :: c.answers.filter (fun a => a.1 != i) }
      let s := modCmd s unit seq (fun _ => c)
      let k := (readsOf c.cmd).length
      let got := (List.range k).map (fun i => c.answers.find? (fun a => a.1 == i))
      if got.any (fun x => x.isNone) then s
      else
        let ws := got.map (fun x => (x.map (·.2)).getD [])
        resolveCmd s c (effectOf c.cmd (unitSlot s c.job unit) ws) Syn.STATE (ws.getD 0 [])

/-- R508: a bootstrap is answered: the unit is keyed anew, the step is repeated. -/
def bootAnswer (s : State) (unit seq : Nat) : State :=
  match findCmd s unit seq with
  | none => s
  | some c => resolveCmd s c 1 0 []

/-- R176, R482: an accepted RESPONSE. -/
def responseAccepted (s : State) (c : CmdOut) (p : List Nat) : State :=
  let code := bits (ofBe (p.take 4)) 23 16
  let w := respWords p
  match c.for_ with
  | .round seq n i => roundAnswer (dropCmd s c.unit c.seq) c.unit seq n i w
  | .boot seq => if code = 0 then bootAnswer (dropCmd s c.unit c.seq) c.unit seq else dropCmd s c.unit c.seq
  | _ => resolveCmd s c (if code = 0 then 0 else 2) code w

/-- R420: a response under the new command epoch ends the overlap of the old. -/
def endOverlap (s : State) (k : HKey) : State :=
  if k.state = KSt.CURRENT then setHKeys s (s.hub.keys.filter (fun x => !(x.kind == 2 && x.state == KSt.PREVIOUS))) else s

/-- The command key of an epoch, current or within its overlap. -/
def cmdKeyOf (s : State) (epoch : Nat) : Option HKey :=
  s.hub.keys.find? (fun k => k.kind == 2 && k.epoch == epoch &&
    (k.state == KSt.CURRENT || (k.state == KSt.PREVIOUS && decide (s.now .hub < k.until_))))

/-- R176: the checks of a RESPONSE set. -/
def responseSet (s : State) (d : Nat) (r : Reasm) : State :=
  let h := r.hdr
  if r.lengthsOk = false then ingRefuse s d 4 Syn.SIZE Cnt.REASM
  else match cmdKeyOf s h.epoch with
    | none => ingRefuse s d 10 Syn.AUTH Cnt.AUTH
    | some key => match r.data with
      | none => ingRefuse s d 11 Syn.AUTH Cnt.AUTH
      | some body =>
        if body.intact = false ∨ body.key ≠ key.val ∨ body.hdr ≠ h ∨ body.plain.length + 16 ≠ h.sealedLen then ingRefuse s d 11 Syn.AUTH Cnt.AUTH
        else match findCmd s h.unit h.window with
          | none => syn s (Pg.ing d) Syn.STATE .block false 0 12
          | some c => responseAccepted (endOverlap (count s d Cnt.RESPONSE) key) c body.plain

/-- R176: the next reassembled RESPONSE of a die. -/
def execResponseRx (d : Nat) (s : State) : Host.Outcome State Fault Refusal :=
  if ¬ isXD d ∨ isFrozen s (Pg.ing d) then .next s
  else
    let s := drainHeld (promoteSiteKeys s) d
    match firstSet s d 3 with
    | none => .next s
    | some r => .next (responseSet (takeSet s d r) d r)

/-! ### A command without a RESPONSE -/

/-- R482: one round of READs, preceded by a WRITE of DGS_SLOT where that selects the registers. -/
def sendRound (s : State) (c : CmdOut) : State :=
  let n := c.rounds + 1
  let s := modCmd s c.unit c.seq (fun c => { c with rounds := n, last := s.now .hub, answers := [] })
  let rs := readsOf c.cmd
  let s := if selected c.cmd then
      sendCmd s c.unit c.job (.write 0x0C 0x040 [unitSlot s c.job c.unit]) (.round c.seq n rs.length) else s
  rs.zipIdx.foldl (fun s x => sendCmd s c.unit c.job (.read x.1.1 x.1.2.1 x.1.2.2) (.round c.seq n x.2)) s

/-- R508: the bootstrap of R419. -/
def sendBoot (s : State) (c : CmdOut) : State :=
  match siteKey s 2 with
  | none => s
  | some k =>
    let s := modCmd s c.unit c.seq (fun c => { c with boots := c.boots + 1, last := s.now .hub })
    sendCmd s c.unit c.job (.bootstrap k.epoch k.val) (.boot c.seq)

/-- The READs and bootstraps of a command are no longer awaited. -/
def forgetRounds (s : State) (unit seq : Nat) : State :=
  setCmds s (s.hub.cabinet.cmds.filter (fun c => !(c.unit == unit && (match c.for_ with
    | .round q _ _ => q == seq
    | .boot q => q == seq
    | _ => false))))

/-- R482, R508: the next attempt for a command without an answer. -/
def retry (s : State) (c : CmdOut) : State :=
  if c.rounds < 3 then sendRound s c
  else if c.boots < 3 then sendBoot s c
  else resolveCmd (forgetRounds s c.unit c.seq) c 3 Syn.TIMEOUT []

/-- The command is one that R482 follows up: no READ of a round, no bootstrap. -/
def CmdOut.primary (c : CmdOut) : Bool :=
  match c.for_ with
  | .round _ _ _ => false
  | .boot _ => false
  | _ => true

/-- R482: 5 ms after the last attempt. -/
def execResponseTimeout (unit seq : Nat) (s : State) : Host.Outcome State Fault Refusal :=
  let s := promoteSiteKeys s
  match findCmd s unit seq with
  | none => .next s
  | some c => if c.primary ∧ s.now .hub ≥ c.last + 5000000 ∧ canCommand s then .next (retry s c) else .next s

/-! ### The commit point (R47) -/

/-- The page holds the change: armed for its instant, or applied at it. -/
def pageArmed (s : State) (e : JEntry) (pg : Page) : Bool := isArmed s pg && apptTime s pg == e.appt
def pageApplied (s : State) (e : JEntry) (pg : Page) : Bool :=
  s.rd pg BLK_APPT_CTRL_STATE == Appt.APPLIED && apptTime s pg == e.appt

/-- Every page of the change reads ARMED, here and at the units. -/
def allArmed (s : State) (e : JEntry) : Bool :=
  e.pages.all (fun pg => pageArmed s e pg || pageApplied s e pg) &&
  e.steps.all (fun x => x.st == Js.CONFIRMED || (match x.cmd with
    | .read _ _ _ => true
    | _ => false))

/-- CANCEL on the pages of this Hub. -/
def cancelPages (s : State) (e : JEntry) : State :=
  e.pages.foldl (fun s pg => if pageArmed s e pg then cancelChecked s pg .cabinet else s) s

/-- CANCEL of every page a step armed, or may have armed. -/
def undoSteps (e : JEntry) : List JStep :=
  (e.steps.filter (fun x => x.st == Js.CONFIRMED || x.st == Js.SENT)).flatMap (fun x => match x.cmd with
    | .arm pages _ => pages.map (fun p => { unit := x.unit, job := x.job, cmd := .write p 0x02C [2], st := 0, syn := 0, back := 0, undo := true })
    | _ => [])

/-- R47: the change is cancelled. -/
def cancelChange (s : State) (e : JEntry) (code : Nat) : State :=
  let late := e.pages.filter (fun pg => pageApplied s e pg)
  let s := cancelPages s e
  let s := e.hubs.foldl (fun s h => s.send (.cancelChange h e.id)) s
  if late.isEmpty ∨ e.pages.isEmpty then
    advance (putJEntry s { e with cancelled := true, syn := code, steps := e.steps ++ undoSteps e }) e.id
  else endEntry (installJob s e) e.id Jr.PARTIAL code (failedUnits e)

/-- R47: the pages of the units are read back. -/
def readBack (s : State) (e : JEntry) : State :=
  let asks := e.steps.zipIdx.filter (fun x => match x.1.cmd with
    | .arm _ _ => x.1.back == 0
    | _ => false)
  if asks.isEmpty then
    (if e.steps.any (fun x => x.back == 1) then s else endChange s e (failedUnits e))
  else asks.foldl (fun s x =>
    match x.1.cmd with
    | .arm pages _ => pages.foldl (fun s p => sendCmd s x.1.unit x.1.job (.read p 0x02C 1) (.back e.id x.2))
        (modEntry s e.id (fun e => e.setStep x.2 (fun y => { y with back := 1 })))
    | _ => s) s

/-- R47: the commit point of an entry, and after its appointment the reading back of its pages. `others`: every other serving Hub has reported
its pages ARMED. -/
def commitPoint (s : State) (e : JEntry) (others : Bool) : State :=
  if e.final ∨ e.appt = 0 ∨ e.cancelled then s
  else if e.committed then
    (if s.now .hub < e.appt then s
     else if e.pages.any (fun pg => isArmed s pg && apptTime s pg == e.appt) then s else readBack s e)
  else if s.now .hub + e.lead < e.appt then s
  else if allArmed s e && others then putJEntry (commitHook s e) { e with committed := true }
  else cancelChange s e (firstSyn e Syn.TIMEOUT)

def execCommitPoint (id : Nat) (others : Bool) (s : State) : Host.Outcome State Fault Refusal :=
  match jentry s id with
  | some e => .next (commitPoint (promoteSiteKeys s) e others)
  | none => .next s

/-! ### Resumption (R474) -/

/-- R474: the commands sent and not confirmed are followed up at once. -/
def resumeJournal (s : State) : State :=
  let open_ := s.hub.cabinet.cmds.filter (fun c => c.primary)
  if canCommand s = false then s
  else open_.foldl (fun s c => match c.for_ with
    | .step _ _ => sendRound s { c with rounds := 0 }
    | _ => s) s

end Sys2Proof.Machine
end

