-- ==== Sys2Proof/Machine/Boot.lean ====
section
/-!
DEFINITION. Sys2Proof/Machine/Boot.lean: the resets of a Hub (R484), boot (R468–R470), the cabinet chain (R471), the two complexes (R472–R474),
the peer ports (R166), the failure of a UCIe half (R501, R502).
-/
namespace Sys2Proof.Machine
open Reg

namespace Role
/-! CAB_STATE.ROLE (R487). -/
def BOOTING : Nat := 0
def ACTIVE : Nat := 1
def STANDBY : Nat := 2
def SAFE : Nat := 3
end Role

namespace BFail
/-! CAB_STATE.FAIL (R487). -/
def IDENTITY : Nat := 1
def CABINET : Nat := 2
def VOUCHER : Nat := 3
def CONFIG : Nat := 4
def CHAIN : Nat := 5
def PACKAGE : Nat := 6
def STEWARD : Nat := 7
def HBM : Nat := 8
end BFail

/-- The role of the complex on XD0 (56) or XD1 (57). -/
def cabRole (s : State) (d : Nat) : Nat := s.rd (Pg.cab d) CAB_STATE_ROLE

def setState (s : State) (d role phase fail : Nat) : State :=
  ((s.wr (Pg.cab d) CAB_STATE_ROLE role).wr (Pg.cab d) CAB_STATE_PHASE phase).wr (Pg.cab d) CAB_STATE_FAIL fail

/-- The complex that is ACTIVE, STANDBY. -/
def complexIn (s : State) (role : Nat) : Option Nat := [56, 57].find? (fun d => cabRole s d == role)

/-- Write a field of both CAB pages. -/
def wrCab (s : State) (f : Fld) (v : Nat) : State := (s.wr (Pg.cab 56) f v).wr (Pg.cab 57) f v

/-! ### Resets of the Hub (R484) -/

/-- Board storage (R465) and what a Cabinet holds across every reset: the operator's TLS certificate (log entry 71). -/
def boardStorage (c : Cabinet) : Cabinet :=
  { Cabinet.reset with boots := c.boots, cabImg := c.cabImg, cfgImg := c.cfgImg, tlsKey := c.tlsKey, slot1 := c.slot1 }

/-- R484: a package reset keeps the Longcase and the time generation, the Bureau store and HEAD, the always-on counters. -/
def packageKeeps (k : RegKey) : Bool := k.pg.num == 0x010 || (k.pg.num == 0x014 && (k.off == 0x040 || k.off == 0x0E0))

/-- R484: package reset. Numbers that count since power-on stay (R369, R455); therm_trip_n stays asserted until power-on (R403). -/
def packageReset (s : State) : State :=
  let h := s.hub
  let s := resetCells s (fun k => !k.pg.isTally && !packageKeeps k)
  let rch := h.rch.map (fun r => { RchPort.reset with lastSession := r.lastSession })
  { s with hub := { Hub.reset with lcs := h.lcs, trackers := h.trackers, tt := h.tt, switchedAt := h.switchedAt, disagree := h.disagree,
                                   ppsAt := h.ppsAt, ptpDiscards := h.ptpDiscards, burStore := h.burStore, intake := h.intake,
                                   leapExpired := h.leapExpired, chanSeq := h.chanSeq, retired := h.retired, rch,
                                   power := { HPower.reset with trip := h.power.trip }, cabinet := boardStorage h.cabinet },
           trace := s.trace.filter (fun x => x.1.isTally) }

/-- R484: power-on reset keeps board storage alone. -/
def powerOn (s : State) : State :=
  let h := s.hub
  let s := resetCells s (fun k => !k.pg.isTally)
  { s with hub := { Hub.reset with retired := h.retired, cabinet := boardStorage h.cabinet }, trace := s.trace.filter (fun x => x.1.isTally) }

/-! ### Boot (R468) -/

/-- The index of the first copy that passes. -/
def firstGood {α : Type} (l : List α) (ok : α → Bool) : Option Nat := (List.range l.length).find? (fun i => (l[i]?).any ok)

/-- R393, R467: the values of a CONFIG image lie in the ranges of their target rules. -/
def configOk (qh40 : Bool) (x : CfgImage) : Bool :=
  let c : Parts := ⟨false, qh40, 0⟩
  let rated (f : Fld) : Nat := resetVal c (f.key Pg.hPwr 0)
  decide (x.site < 8) && decide (x.hubIndex < 4) && decide (x.board < 2 ^ 16) && decide (x.limFast ≤ rated HPWR_LIM_FAST) &&
  decide (x.lim1ms ≤ rated HPWR_LIM_1MS) && decide (x.limSust ≤ rated HPWR_LIM_SUST) && decide (x.limFast ≥ x.lim1ms) &&
  decide (x.lim1ms ≥ x.limSust) && decide (x.thrLevel < 64) && decide (x.vrEn < 256) && decide (x.pmb.length ≤ 16) &&
  x.pmb.all (fun p => decide (p.1 < 128) && decide (p.2 < 3)) && decide (1 ≤ x.mgmtAddr.getLastD 0) && decide (x.mgmtAddr.getLastD 0 < 2 ^ 16)

/-- R465: what board storage holds (the model's, or, where it holds none, what the boot finds). -/
def cabCopies (s : State) (b : BootIn) : List ImgCopy := if s.hub.cabinet.cabImg.isEmpty then b.cabinet else s.hub.cabinet.cabImg
def cfgCopies (s : State) (b : BootIn) : List (ImgCopy × CfgImage) :=
  if s.hub.cabinet.cfgImg.isEmpty then b.config else s.hub.cabinet.cfgImg

/-- R466: a CONFIG copy is valid. -/
def cfgValid (b : BootIn) (x : ImgCopy × CfgImage) : Bool := x.1.ok && decide (x.2.serial ≥ b.minSerial) && configOk b.qh40 x.2

/-- Phases 2 and 3: the copies that boot, or the code of the failure. -/
def findImages (s : State) (b : BootIn) : Except Nat (Nat × Nat × CfgImage) :=
  let cfgs := cfgCopies s b
  let tried := (firstGood cfgs (cfgValid b)).getD 0
  let minVer := ((cfgs[tried]?).map (fun x => x.2.minCab)).getD 0
  match firstGood (cabCopies s b) (fun x => x.ok && decide (x.version ≥ minVer)) with
  | none => .error BFail.CABINET
  | some i =>
    if b.voucher = false then .error BFail.VOUCHER
    else match firstGood cfgs (cfgValid b) with
      | none => .error BFail.CONFIG
      | some j => match cfgs[j]? with
        | some x => .ok (i, j, x.2)
        | none => .error BFail.CONFIG

/-- The phase a failure code belongs to. -/
def failPhase (f : Nat) : Nat :=
  match f with
  | 1 => 1
  | 2 => 2
  | 3 => 3
  | 4 => 3
  | 5 => 4
  | 6 => 6
  | _ => 5

/-- R469: the active complex cannot complete a phase: the Hub enters SAFE. -/
def enterSafe (s : State) (d fail : Nat) : State := setState s d Role.SAFE (failPhase fail) fail

/-- Phase 3: the board section of the CONFIG image (R467), and PWR_LOCK. -/
def boardSection (s : State) (x : CfgImage) : State :=
  let s := wrCab (wrCab s CAB_BOARD_BOARD_ID x.board) CAB_BOARD_SITE x.site
  let s := (List.range 16).foldl (fun s n =>
    let v := x.tscAdj.getD n 0
    let put (s : State) (f : Fld) (v : Nat) : State := (s.wr Pg.xLcs f v).wr Pg.xLcs f.staged v
    put (put s (LCS_TSC_ADJ_RX_ADJ n) (bits v 15 0)) (LCS_TSC_ADJ_TX_ADJ n) (bits v 31 16)) s
  let s := ((s.wr Pg.hPwr HPWR_LIM_FAST x.limFast).wr Pg.hPwr HPWR_LIM_1MS x.lim1ms).wr Pg.hPwr HPWR_LIM_SUST x.limSust
  let s := (s.wr Pg.hPwr HPWR_THR_LEVEL x.thrLevel).wr Pg.hPwr HPWR_LOCK 1
  { s with hub := { s.hub with siteRoute := x.route, power := { s.hub.power with vrEn := x.vrEn, pmb := x.pmb },
                               cabinet := { s.hub.cabinet with config := some x } } }

/-- The modules of the package. -/
def allModules (c : Parts) : List (Nat × Nat) :=
  ((List.range 64).filter (diePresent c)).flatMap (fun d => ((List.range 4).filter (fun m => (across c d m).isSome)).map (fun m => (d, m)))

/-- Phases 5 to 7. -/
def bootDies (s : State) (d : Nat) (b : BootIn) : State :=
  if b.package = false then enterSafe s d BFail.PACKAGE
  else if b.steward = false then enterSafe s d BFail.STEWARD
  else if b.hbm = false then enterSafe s d BFail.HBM
  else
    let s := wrCab s CAB_STATE_POP (b2n b.qh40)
    let s := ((List.range 64).filter (diePresent s.cfg)).foldl (fun s x => s.wr (Pg.hStw x) STW_STAT_STATE Stw.RUNNING) s
    let list := if b.listOk then s.hub.retired else b.failTiles
    let s := (list.filter (fun t => decide (t < tileCount s.cfg))).foldl retireTile { s with hub := { s.hub with retired := list } }
    let s := (allModules s.cfg).foldl (fun s e => s.wr (Pg.tst e.1) TST_LINK_UP 1 (tstKey 2 e.2 0)) s
    setState (s.wr Pg.xLcs LCS_CTRL_AUTO_STEP 1) d Role.ACTIVE 7 0

/-- R471: a hub index is taken. -/
def takeIndex (s : State) (d i : Nat) (b : BootIn) : State :=
  let s := { s with hub := { s.hub with cabinet := { s.hub.cabinet with boot := none } } }
  if i ≥ 4 then enterSafe s d BFail.CHAIN
  else
    let s := wrCab (wrCab s CAB_STATE_INDEXED 1) CAB_STATE_HUB_INDEX i
    let s := { s with cfg := { s.cfg with hubIndex := i } }
    if s.hub.cabinet.config.any (fun x => x.hubIndex != i) then enterSafe s d BFail.CHAIN else bootDies s d b

/-- Phase 4. -/
def bootChain (s : State) (d : Nat) (b : BootIn) : State :=
  if b.chainLow then takeIndex s d 0 b
  else if b.chainNone then enterSafe s d BFail.CHAIN
  else setState { s with hub := { s.hub with cabinet := { s.hub.cabinet with boot := some b } } } d Role.BOOTING 4 0

/-- R468: the phases 0 to 3 of both complexes, and what follows. -/
def runBoot (s : State) (b : BootIn) : State :=
  let s := { s with cfg := { s.cfg with qh40 := b.qh40 } }
  let id (i : Nat) : Bool := b.identity.getD i false
  let c := s.hub.cabinet
  let boots := (c.boots + 1) % 2 ^ 16
  let s := setCabinet s { c with boots, nextId := 1, journal := [] }
  let s := [56, 57, 58, 59, 60, 61, 62, 63].foldl (fun s d => s.wr (Pg.sec d) SEC_STAT_ID (if id 0 || id 1 then 1 else 2)) s
  let found := findImages s b
  let fail (i : Nat) : Nat := if id i = false then BFail.IDENTITY else match found with
    | .error f => f
    | .ok _ => 0
  let active : Option Nat := if fail 0 = 0 ∧ b.inTime.getD 0 false then some 0 else if fail 1 = 0 then some 1 else none
  match active, found with
  | some i, .ok (a, j, x) =>
    let o := 1 - i
    let c := s.hub.cabinet
    let s := setCabinet s { c with bootCopy := a + 2 * j, cabImg := cabCopies s b, cfgImg := cfgCopies s b }
    let s := setState s (56 + i) Role.BOOTING 4 0
    let s := boardSection s x
    let s := if fail o = 0 then setState s (56 + o) Role.STANDBY 3 0
      else cabEntry (setState s (56 + o) Role.SAFE (failPhase (fail o)) (fail o)) 3 6 { detail := fail o }
    bootChain s (56 + i) b
  | _, _ =>
    let f (i : Nat) : Nat := if fail i = 0 then fail (1 - i) else fail i
    setState (setState s 56 Role.SAFE (failPhase (f 0)) (f 0)) 57 Role.SAFE (failPhase (f 1)) (f 1)

/-- R468, R484: the release of hub_por_n. -/
def execHubPor (b : BootIn) (s : State) : Host.Outcome State Fault Refusal := .next (runBoot (powerOn s) b)

/-- R468, R484: the release of hub_rst_n. -/
def execHubReset (b : BootIn) (s : State) : Host.Outcome State Fault Refusal := .next (runBoot (packageReset s) b)

/-! ### The cabinet chain (R471) -/

/-- R471: a frame on cab_chain_in. -/
def execChainFrame (index type : BitVec 4) (s : State) : Host.Outcome State Fault Refusal :=
  if type ≠ 1 then .next s
  else match s.hub.cabinet.boot, complexIn s Role.BOOTING with
    | some b, some d => .next (takeIndex s d (index.toNat + 1) b)
    | _, _ =>
      if s.flag (Pg.cab 56) CAB_STATE_INDEXED ∧ index.toNat + 1 ≠ s.rd (Pg.cab 56) CAB_STATE_HUB_INDEX then
        .next (raise s (absentPage s .hub) Irq.CAB_CHAIN { detail := index.toNat })
      else .next s

/-- R471: every 1 ms. -/
def execChainEnumTx (s : State) : Host.Outcome State Fault Refusal :=
  let c := s.hub.cabinet
  let due : Bool := match c.chainTx with
    | some t => decide (s.now .hub ≥ t + 1000000)
    | none => true
  if s.flag (Pg.cab 56) CAB_STATE_INDEXED = true ∧ due = true then
    .next ((setCabinet s { c with chainTx := some (s.now .hub) }).send (.chainEnum (s.rd (Pg.cab 56) CAB_STATE_HUB_INDEX)))
  else .next s

/-! ### Active and standby (R472–R474) -/

/-- R473: every 1 ms the ACTIVE complex sends a heartbeat. -/
def execHeartbeatTx (s : State) : Host.Outcome State Fault Refusal :=
  let c := s.hub.cabinet
  let due : Bool := match c.hbAt with
    | some t => decide (s.now .hub ≥ t + 1000000)
    | none => true
  if (complexIn s Role.ACTIVE).isSome = true ∧ due = true then .next ((setCabinet s { c with hbAt := some (s.now .hub) }).send .heartbeat) else .next s

/-- R473: heartbeats missed in a row. -/
def hbMissed (s : State) : Nat :=
  match s.hub.cabinet.hbAt with
  | some t => min 255 ((s.now .hub - t - 1) / 1000000)
  | none => 0

/-- R473, R474: the STANDBY complex takes over; the other returns as STANDBY where it passes phase 3. -/
def takeOver (s : State) (back : Bool) : State :=
  match complexIn s Role.STANDBY with
  | none => s
  | some d =>
    let o := 113 - d
    let s := setState s d Role.ACTIVE 7 0
    let s := if back then setState s o Role.STANDBY 3 0 else setState s o Role.SAFE (s.rd (Pg.cab o) CAB_STATE_PHASE) (s.rd (Pg.cab o) CAB_STATE_FAIL)
    let c := s.hub.cabinet
    let s := setCabinet s { c with sessions := [], hbAt := some (s.now .hub) }
    resumeJournal (raise (s.bump (Pg.cab d) CAB_PEER_TAKEOVERS) (Pg.cab d) Irq.CAB_TAKEOVER)

/-- R473: ten heartbeats in a row are missed. -/
def execTakeover (back : Bool) (s : State) : Host.Outcome State Fault Refusal :=
  if hbMissed s ≥ 10 then .next (takeOver s back) else .next s

/-- R486, R487: what a write of CAB_CTRL is refused with. -/
def cabCtrlRefusal (s : State) (ag : Agent) (v : Nat) : Nat :=
  if ag ≠ .cabinet then Syn.AUTH
  else if bits v 31 16 ≠ 0x5153 then Syn.RANGE
  else if bit v 0 && bit v 1 then Syn.RANGE
  else if bit v 0 && (complexIn s Role.STANDBY).isNone then Syn.STATE
  else 0

/-- R487: a write of CAB_CTRL; `boot` is what the boot after a package reset finds: none where that boot is a command of its own. -/
def cabCtrlWrite (s : State) (d : Nat) (ag : Agent) (v : Nat) (back : Bool) (boot : Option BootIn) : State :=
  let c := cabCtrlRefusal s ag v
  if c ≠ 0 then syn s (Pg.cab d) c ag false 0x064
  else if bit v 0 then takeOver s back
  else if bit v 1 then
    (match boot with
     | some b => runBoot (packageReset s) b
     | none => packageReset s)
  else s

/-- CAB_CTRL.SWITCHOVER; `v` the word written, that bit taken as 1. -/
def execCabSwitchover (d : Nat) (ag : Agent) (v : Word) (back : Bool) (s : State) : Host.Outcome State Fault Refusal :=
  if pageBlk s.cfg (Pg.cab d) = some .cab then .next (cabCtrlWrite s d ag (putBit v.toNat 0 true) back none)
  else .next (syn s (absentPage s .hub) Syn.ABSENT ag false 0x064)

/-- CAB_CTRL.RESET_PKG; `v` the word written, that bit taken as 1. -/
def execResetPkg (d : Nat) (ag : Agent) (v : Word) (b : BootIn) (s : State) : Host.Outcome State Fault Refusal :=
  if pageBlk s.cfg (Pg.cab d) = some .cab then .next (cabCtrlWrite s d ag (putBit v.toNat 1 true) false (some b))
  else .next (syn s (absentPage s .hub) Syn.ABSENT ag false 0x064)

/-! ### Peer ports (R166, R167) -/

def setPeer (s : State) (p : Nat) (x : PeerPort) : State := { s with hub := { s.hub with peers := s.hub.peers.set p x } }

/-- This Hub's index on its board. -/
def ownIndex (s : State) : Nat := s.rd (Pg.cab 56) CAB_STATE_HUB_INDEX

/-- R166: a hello every 1 ms on a port toward another index. -/
def execPeerHelloTx (p : Nat) (s : State) : Host.Outcome State Fault Refusal :=
  match s.hub.peers[p]? with
  | none => .next s
  | some x =>
    let due : Bool := match x.tx with
      | some t => decide (s.now .hub ≥ t + 1000000)
      | none => true
    if p = ownIndex s ∨ due = false ∨ s.hub.aligned.getD (10 + p) false = false ∨ hubSafe s then .next s
    else .next (sendOn (setPeer s p { x with tx := some (s.now .hub) }) (10 + p)
      (.peerHello p (s.rd (Pg.cab 56) CAB_BOARD_BOARD_ID) (ownIndex s)))

/-- R167, R356: the tiles of a peer leave the sets that span its link. -/
def peerLost (s : State) (p : Nat) : State :=
  (s.hub.jobs.filter (fun j => j.image.any (fun x => x.place.places.any (fun y => y.hub == p)))).foldl (fun s j => partitionFault s j.job) s

/-- R166: a hello received on port p names board, hub index and port. -/
def peerHelloIn (s : State) (p : Nat) (x : PeerPort) (board hub port : Nat) : State :=
  if board = s.rd (Pg.cab 56) CAB_BOARD_BOARD_ID ∧ hub = p ∧ port = ownIndex s ∧ p ≠ ownIndex s then
    setPeer s p { x with st := 1, rx := s.now .hub }
  else
    let s' := setPeer s p { x with st := 2, rx := s.now .hub }
    let s' := if x.st = 2 then s' else cabEntry s' 4 6 { unit := hub, detail := port }
    if x.st = 1 then peerLost s' p else s'

def execPeerHello (p board hub port : Nat) (s : State) : Host.Outcome State Fault Refusal :=
  match s.hub.peers[p]? with
  | none => .next s
  | some x =>
    if hubSafe s then .next s
    else if portTest s (10 + p) then .next (discardFrame s (10 + p))
    else .next (peerHelloIn s p x board hub port)

/-- R166: no hello for 4 ms. -/
def execPeerHelloLoss (p : Nat) (s : State) : Host.Outcome State Fault Refusal :=
  match s.hub.peers[p]? with
  | none => .next s
  | some x =>
    if x.st = 0 ∨ s.now .hub < x.rx + 4000000 then .next s
    else
      let s' := setPeer s p { x with st := 0 }
      .next (if x.st = 1 then peerLost s' p else s')

/-! ### The failure of a UCIe half (R501, R502) -/

/-- R502: the loss of a module of an edge die that has a second link moves its traffic there. -/
def secondLink (s : State) (d m : Nat) : Bool :=
  (linkEnds s.cfg d m).any (fun e => decide (e.1 ≥ 48) && (List.range 2).any (fun n => n != e.2 && (across s.cfg e.1 n).isSome &&
    linkWidth s e.1 n != 3))

/-- R502: a module is DOWN. -/
def moduleDown (s : State) (d m : Nat) : State :=
  if secondLink s d m then cabEntry s 5 6 { unit := d, detail := m }
  else
    let a := (complexIn s Role.ACTIVE).getD 56
    enterSafe (packageReset (cabEntry s 6 7 { unit := d, detail := m })) a BFail.PACKAGE

/-- R501: a half fails, on both ends of its link: a test of the other half ends, the module runs on what is left. -/
def halfFail (s : State) (d m half : Nat) : State :=
  let ends := linkEnds s.cfg d m
  let s := ends.foldl (fun s e =>
    { s.wr (Pg.tst e.1) TST_MODE_HALF 0 (tstKey 2 e.2 0) with
      hub := { s.hub with halfFails := if s.hub.halfFails.contains (e.1, e.2, half) then s.hub.halfFails else s.hub.halfFails ++ [(e.1, e.2, half)] } }) s
  let w := widthFor s d m 0
  let s := setWidth s d m w
  let s := ends.foldl (fun s e => raise s (Pg.tst e.1) Irq.TST_HALF_WIDTH { unit := e.1, detail := e.2 * 4 + w }) s
  if w = 3 then moduleDown s d m else s

/-- R501: `half` 0 stands for lanes 0–31, 1 for lanes 32–63. -/
def execHalfFail (d m half : Nat) (s : State) : Host.Outcome State Fault Refusal :=
  if (across s.cfg d m).isNone ∨ half > 1 ∨ halfFailed s d m half then .next s else .next (halfFail s d m half)

end Sys2Proof.Machine
end

