-- ==== Sys2Proof/Machine/Bureau.lean ====
section
/-!
DEFINITION. Sys2Proof/Machine/Bureau.lean: the Bureau of 17_observability.md (R433–R442): calendar time, the store, the spill
ring, lookups, firmware posts.
-/
namespace Sys2Proof.Machine
open Reg

/-! ### Calendar time (R437) -/

/-- The proleptic Gregorian date and time of u seconds after 1970-01-01 00:00:00: year, month, day, hour, minute,
second. -/
def civil (u : Int) : Nat × Nat × Nat × Nat × Nat × Nat :=
  let days := u.fdiv 86400
  let sod := (u - days * 86400).toNat
  let z := days + 719468
  let era := z.fdiv 146097
  let doe := (z - era * 146097).toNat
  let yoe := (doe - doe / 1460 + doe / 36524 - doe / 146096) / 365
  let doy := doe - (365 * yoe + yoe / 4 - yoe / 100)
  let mp := (5 * doy + 2) / 153
  let d := doy - (153 * mp + 2) / 5 + 1
  let m := if mp < 10 then mp + 3 else mp - 9
  let y := (yoe : Int) + era * 400 + (if m ≤ 2 then 1 else 0)
  (y.toNat, m, d, sod / 3600, sod / 60 % 60, sod % 60)

/-- The page whose store and leap table a part uses. -/
def storePage : Part → Page
  | .tally => Pg.tBur
  | .hub => Pg.hBur 56

def leapStart (s : State) (p : Part) (i : Nat) : Nat :=
  s.rd (storePage p) BUR_LEAP_START_HI i * 2 ^ 32 + s.rd (storePage p) BUR_LEAP_START_LO i
def leapOfs (s : State) (p : Part) (i : Nat) : Int := toSigned 8 (s.rd (storePage p) BUR_LEAP_OFS i)
def leapExp (s : State) (p : Part) : Nat :=
  s.rd (storePage p) BUR_LEAP_EXP_HI * 2 ^ 32 + s.rd (storePage p) BUR_LEAP_EXP_LO

/-- R437: the largest index whose START is at or below t, 0 when t is before the first. -/
def leapIndex (s : State) (p : Part) (t : Nat) : Nat → Nat
  | 0 => 0
  | i + 1 => if leapStart s p i ≤ t then i else leapIndex s p t i

/-- What calendar(t) of R437 gives: offset, provisional, leap second, date and time. -/
def calendar (s : State) (p : Part) (t : Nat) : Int × Bool × Bool × (Nat × Nat × Nat × Nat × Nat × Nat) :=
  let cnt := s.rd (storePage p) BUR_LEAP_CNT
  let i := leapIndex s p t cnt
  let ofs : Int := if cnt = 0 then 37 else leapOfs s p i
  let prov : Bool := if cnt = 0 then true else decide (t ≥ leapExp s p) || decide (t < leapStart s p 0)
  let leap : Bool := cnt ≠ 0 ∧ i + 1 < cnt ∧ leapOfs s p (i + 1) = ofs + 1 ∧ t + 1 = leapStart s p (i + 1)
  let u : Int := (t : Int) - ofs
  if leap then
    let c := civil (u - 1)
    (ofs, prov, leap, (c.1, c.2.1, c.2.2.1, c.2.2.2.1, c.2.2.2.2.1, 60))
  else (ofs, prov, leap, civil u)

/-- R434: the 64 bytes of an entry. -/
def BurEntry.bytes (e : BurEntry) : List Nat :=
  leBytes 8 e.seq ++ [e.sev + 8 * b2n e.prov + 16 * b2n e.fw + 32 * b2n e.leap + 64 * b2n e.host, e.die] ++
  leBytes 2 e.blk ++ [e.inst, 0] ++ leBytes 2 e.code ++ leBytes 8 e.sec ++ leBytes 4 e.ns ++ leBytes 2 e.tgen ++
  [e.tq, e.utcOfs] ++ leBytes 2 e.year ++ [e.month, e.day, e.hour, e.minute, e.second, 0] ++ e.payload.take 24 ++
  List.replicate (24 - e.payload.length) 0

/-! ### The store (R433, R438, R440) -/

/-- R433: entries the store of a part holds. -/
def storeCap (c : Parts) : Part → Nat
  | .tally => if c.lite then 256 else 1024
  | .hub => 65536

def burStore (s : State) : Part → List BurEntry
  | .tally => s.tally.burStore
  | .hub => s.hub.burStore

def setStore (s : State) (p : Part) (l : List BurEntry) : State :=
  match p with
  | .tally => { s with tally := { s.tally with burStore := l } }
  | .hub => { s with hub := { s.hub with burStore := l } }

def leapDone (s : State) : Part → Bool
  | .tally => s.tally.leapExpired
  | .hub => s.hub.leapExpired

def setLeapDone (s : State) (p : Part) (b : Bool) : State :=
  match p with
  | .tally => { s with tally := { s.tally with leapExpired := b } }
  | .hub => { s with hub := { s.hub with leapExpired := b } }

/-- R440: the spill copy of an accepted entry. -/
def spill (s : State) (e : BurEntry) : State :=
  let size := s.rd (Pg.hBur 56) BUR_SPILL_SIZE
  if size = 0 then s
  else hbmWrite s (s.rd (Pg.hBur 56) BUR_SPILL_BASE * 4096 + 64 * (e.seq % (size * 64))) e.bytes

/-- R478: the sessions that have asked for them hear of an entry of the Hub. -/
def burEvents (s : State) (e : BurEntry) : State :=
  (s.hub.cabinet.sessions.filter (fun x => x.bureau.any (fun t => decide (t ≤ e.sev)))).foldl (fun s x => s.send (.bureauEvent x.id e)) s

/-- R438 place: the entry takes the next SEQ and its calendar fields, and is stored; HIGH and LEAP_EXPIRED (R437, R459). -/
def place (s : State) (p : Part) (e : BurEntry) : State :=
  let pg := storePage p
  let c := calendar s p e.sec
  let d := c.2.2.2
  let e := { e with seq := s.rd pg BUR_HEAD, prov := c.2.1, leap := c.2.2.1, utcOfs := ofSigned 8 c.1, year := d.1,
                    month := d.2.1, day := d.2.2.1, hour := d.2.2.2.1, minute := d.2.2.2.2.1, second := d.2.2.2.2.2 }
  let s := s.incr pg BUR_HEAD
  let s := setStore s p (burStore s p ++ [e])
  let s := match p with | .tally => s | .hub => burEvents (spill s e) e
  let s := if e.sev ≥ s.rd pg BUR_CFG then raise s pg Irq.BUR_HIGH else s
  if e.prov ∧ s.rd pg BUR_LEAP_CNT ≠ 0 ∧ e.sec ≥ leapExp s p ∧ leapDone s p = false then
    setLeapDone (raise s pg Irq.BUR_LEAP_EXPIRED) p true
  else s

/-- R438 post: an entry reaching the store is placed, displaces the oldest entry of equal or lower severity, or is dropped. -/
def storePost (s : State) (p : Part) (e : BurEntry) : State :=
  let pg := storePage p
  if (burStore s p).length < storeCap s.cfg p then place s p e
  else match (burStore s p).find? (fun v => v.sev ≤ e.sev) with
    | none => raise (s.bump pg BUR_CNT_DROPPED e.sev) pg Irq.BUR_DROP
    | some v => place (setStore (s.bump pg BUR_CNT_EVICTED v.sev) p ((burStore s p).erase v)) p e

/-- The next entry on its way to the store of a part, and the state without it. -/
def nextPost (s : State) : Part → Option (BurEntry × State)
  | .tally => match s.tally.burPend with
    | [] => none
    | e :: t => some (e, { s with tally := { s.tally with burPend := t } })
  | .hub => match s.hub.intake with
    | [] => none
    | (_, e) :: t => some (e, { s with hub := { s.hub with intake := t } })

/-- R438: the oldest entry posted and not yet stored reaches the store. -/
def execBureauPost (p : Part) (s : State) : Host.Outcome State Fault Refusal :=
  match nextPost s p with
  | none => .next s
  | some (e, s') => .next (storePost s' p e)

/-! ### Lookups (R441) -/

/-- R441: a write of BUR_RD_SEQ_HI starts the agent's lookup. -/
def burLookup (s : State) (pg : Page) (ag : Agent) (hi : Nat) : State :=
  (s.wr pg BUR_RD_SEQ_HI hi ag.code).wr pg BUR_RD_STAT_BUSY 1 ag.code

def execBureauLookup (p : Part) (ag : Agent) (hi : Word) (s : State) : Host.Outcome State Fault Refusal :=
  .next (burLookup s (storePage p) ag hi.toNat)

/-- Capture the 16 words of an entry into BUR_RD_DATA. -/
def captureEntry (s : State) (pg : Page) (ag : Agent) (bytes : List Nat) : State :=
  (List.range 16).foldl (fun s n => s.wr pg (BUR_RD_DATA n) (ofLe ((bytes.drop (4 * n)).take 4)) ag.code) s

/-- R441: the lookup completes: BUSY clears, and the stored entry of lowest SEQ at or above BUR_RD_SEQ is captured, or
FOUND clears. Nothing happens where no lookup is in progress. -/
def execBureauLookupDone (p : Part) (ag : Agent) (s : State) : Host.Outcome State Fault Refusal :=
  let pg := storePage p
  if s.rd pg BUR_RD_STAT_BUSY ag.code = 1 then
    let q := s.rd pg BUR_RD_SEQ_HI ag.code * 2 ^ 32 + s.rd pg BUR_RD_SEQ_LO ag.code
    let s := s.wr pg BUR_RD_STAT_BUSY 0 ag.code
    match (burStore s p).find? (fun e => q ≤ e.seq) with
    | some e => .next (captureEntry (s.wr pg BUR_RD_STAT_FOUND 1 ag.code) pg ag e.bytes)
    | none => .next (s.wr pg BUR_RD_STAT_FOUND 0 ag.code)
  else .next s

/-! ### Firmware posts (R436) -/

/-- R436: a write of BUR_POST_CTRL posts a FIRMWARE entry with the payload of BUR_POST_P0–P5. From a steward core a severity
above 5 is refused with AUTH; through a Tally's host register port any severity is accepted and FLAGS.HOST is set. -/
def firmwarePost (s : State) (pg : Page) (ag : Agent) (sev detail : Nat) : State :=
  if ag = .steward ∧ sev > 5 then syn s pg Syn.AUTH ag false 0x0A4
  else
    post s pg (0x3000 + detail) sev true (pg.isTally && ag == .regPort)
      ((List.range 6).flatMap (fun n => leBytes 4 (s.rd pg (BUR_POST_P n))))

def execFirmwarePost (pg : Page) (ag : Agent) (sev : BitVec 3) (detail : BitVec 12) (s : State) :
    Host.Outcome State Fault Refusal :=
  if pageBlk s.cfg pg = some .bur then .next (firmwarePost s pg ag sev.toNat detail.toNat)
  else .next (syn s (absentPage s pg.part) Syn.ABSENT ag false 0x0A4)

end Sys2Proof.Machine
end

