-- ==== Sys2Proof/Machine/Tape.lean ====
section
/-!
DEFINITION. Sys2Proof/Machine/Tape.lean: the fleet tape (R287–R304): entries, blocks, frames, commit and eviction, one-second
summaries. Frames, index entries and scan rings are bytes of HBM at the places the chapter gives them.
-/
namespace Sys2Proof.Machine
open Reg

/-! ### Places (R283, R287) -/

/-- Memory-side die m (0–7) of a die field. -/
def mdBase (c : Parts) (m : Nat) : Nat := m * mdSize c

def tierRegion : Nat → HbmRegion
  | 0 => .t0
  | _ => .t1

def mib : Nat := 1048576
def indexBytes (c : Parts) (tier : Nat) : Nat := (if tier = 0 then 512 else 160) * mib / (if c.qh40 then 2 else 1)
def summBytes (c : Parts) : Nat := (if c.qh40 then 512 else 1024) * mib
def dataBytes (c : Parts) (tier : Nat) : Nat := (if tier = 0 then 65024 else 19296) * mib / (if c.qh40 then 2 else 1)
def indexBase (c : Parts) (m tier : Nat) : Nat := mdBase c m + ((tierRegion tier).span c).1
def dataBase (c : Parts) (m tier : Nat) : Nat := indexBase c m tier + indexBytes c tier + (if tier = 0 then 0 else summBytes c)

/-- R296: index slots of a tier. -/
def indexSlots (c : Parts) (tier : Nat) : Nat := indexBytes c tier / 64

def getTap (s : State) (m : Nat) : TapMd := s.hub.taps.getD m TapMd.reset
def setTap (s : State) (m : Nat) (t : TapMd) : State := { s with hub := { s.hub with taps := s.hub.taps.set m t } }

/-- The pages of memory-side die m. -/
def tapPg (m : Nat) : Page := Pg.tap (48 + m)
def cmpPg (m : Nat) : Page := Pg.hCmp (48 + m)

/-- The live job a Cabinet holds. -/
def findJob (s : State) (job : Nat) : Option HJob := hjob s job

/-! ### Index entries (R296) -/

namespace Ent
def COMMITTED : Nat := 1
def EXPIRED : Nat := 2
def DAMAGED : Nat := 3
end Ent

structure TEntry where
  seq : Nat
  job : Nat
  k : Nat
  state : Nat
  poison : Bool
  entries : Nat
  first : Nat
  last : Nat
  stream : Nat
  ofs : Nat
  clen : Nat
  ulen : Nat
  secs : Nat
  nanos : Nat
  deriving DecidableEq, Repr

def TEntry.bytes (e : TEntry) : List Nat :=
  leBytes 8 e.seq ++ leBytes 4 e.job ++ leBytes 1 e.k ++ leBytes 1 (e.state + 128 * b2n e.poison) ++ leBytes 2 e.entries ++
  leBytes 8 e.first ++ leBytes 8 e.last ++ leBytes 8 e.stream ++ leBytes 4 e.ofs ++ leBytes 4 e.clen ++ leBytes 4 e.ulen ++
  leBytes 8 e.secs ++ leBytes 4 e.nanos

/-- The entry 64 bytes spell. -/
def readEntry (l : List Nat) : TEntry :=
  let at_ (o n : Nat) : Nat := ofLe ((l.drop o).take n)
  { seq := at_ 0 8, job := at_ 8 4, k := at_ 12 1, state := at_ 13 1 % 8, poison := bit (at_ 13 1) 7, entries := at_ 14 2,
    first := at_ 16 8, last := at_ 24 8, stream := at_ 32 8, ofs := at_ 40 4, clen := at_ 44 4, ulen := at_ 48 4,
    secs := at_ 52 8, nanos := at_ 60 4 }

/-- The place of the entry of a SEQ. -/
def entryAddr (s : State) (m tier seq : Nat) : Nat := indexBase s.cfg m tier + seq % indexSlots s.cfg tier * 64

def getEntry (s : State) (m tier seq : Nat) : TEntry := readEntry (hbmRead s (entryAddr s m tier seq) 64)
def putEntry (s : State) (m tier seq : Nat) (e : TEntry) : State := hbmWrite s (entryAddr s m tier seq) e.bytes

/-! ### Frames (R293, R294) -/

/-- R293: the bytes of a frame before its block: magic, descriptor, content size. -/
def zstdHead (n : Nat) : List Nat :=
  [0x28, 0xB5, 0x2F, 0xFD] ++ (if n ≤ 255 then [0x24, n] else 0x64 :: leBytes 2 (n - 256))

/-- The content checksum. -/
def contentSum (c : List Nat) : List Nat := leBytes 4 (Config.xxh64 c).toNat

/-- R293, R295: the frame of one Raw block. -/
def rawFrame (c : List Nat) : List Nat := zstdHead c.length ++ leBytes 3 (1 + c.length * 8) ++ c ++ contentSum c

/-- R294: the content a frame decompresses to; none where it is refused or its checksum fails. A frame starts with the head of its own
content, holds one block that is its last, and ends with the checksum. -/
def decodeFrame (f : List Nat) : Option (List Nat) :=
  let one := (f.drop 4).headD 0 == 0x24
  let n := if one then (f.drop 5).headD 0 else ofLe ((f.drop 5).take 2) + 256
  let h := if one then 6 else 7
  let bh := ofLe ((f.drop h).take 3)
  let size := bh / 8
  let body := f.drop (h + 3)
  let type := bits bh 2 1
  let len := if type = 1 then 1 else size
  let content : Option (List Nat) :=
    match type with
    | 0 => some (body.take size)
    | 1 => some (List.replicate size (body.headD 0))
    | 2 => Config.zstdBlock (body.take size)
    | _ => none
  if f.take h ≠ zstdHead n ∨ n > 65536 ∨ bh % 2 = 0 ∨ f.length ≠ h + 3 + len + 4 then none
  else match content with
    | some c => if c.length = n ∧ body.drop len = contentSum c then some c else none
    | none => none

/-- R295: the compressor emits Raw and Compressed blocks only. -/
def emitted (f : List Nat) : Bool :=
  let h := if (f.drop 4).headD 0 == 0x24 then 6 else 7
  bits (ofLe ((f.drop h).take 3)) 2 1 != 1

/-! ### Entries of a stream (R290) -/

/-- The 24-byte header and the payload. -/
def streamEntry (flags tq unit k win arrival tgen : Nat) (payload : List Nat) : List Nat :=
  beBytes 2 payload.length ++ [flags % 256, tq % 256] ++ beBytes 3 unit ++ [k % 256] ++ beBytes 8 win ++ beBytes 4 arrival ++
  beBytes 2 tgen ++ [0, 0] ++ payload

/-- R289, R290: the entry of a record of window n; a poisoned one carries nothing. -/
def recordEntry (g : JobGen) (n : Nat) (t : TabRec) (poison : Bool) : List Nat :=
  let h := t.body.hdr
  streamEntry (b2n t.late + 2 * b2n t.snapshot + 4 * b2n poison) h.tq h.unit g.k n
    (ofSigned 32 (((t.tLast : Int) - (windowEnd n g.k : Int)) / 4)) h.tgen (if poison then [] else t.body.plain)

/-- R290: the marker of window n (its TQ and TGEN are no record's: free values). -/
def markerEntry (s : State) (g : JobGen) (w : JobWin) : State × List Nat :=
  let members := ((rosterOf s g.job g.gen).map (fun r => r.members.length)).getD 0
  let a := s.free
  let b := a.1.free
  (b.1, streamEntry 16 a.2 0xFFFFFF g.k w.win 0 b.2
    (beBytes 4 g.gen ++ beBytes 4 members ++ beBytes 4 w.table.length ++ beBytes 4 ((w.table.filter (fun t => t.late)).length)))

/-! ### Blocks (R287, R291) -/

/-- Engines of memory-side die m in service. -/
def enginesIn (s : State) (m : Nat) : List Nat :=
  (List.range 16).filter (fun e => bit (s.rd (cmpPg m) CMP_ENG_EN) e && !bit (s.rd (cmpPg m) CMP_ENG_OUT) e)

/-- R287: the die a block goes to. -/
def blockMd (s : State) (b : Nat) : Nat :=
  (((List.range 8).map (fun i => (b + i) % 8)).find? (fun m => !(enginesIn s m).isEmpty)).getD (b % 8)

/-- The stream of a job's tier, new from block 0. -/
def getStream (s : State) (job tier : Nat) : TStream :=
  (s.hub.streams.find? (fun x => x.job == job && x.tier == tier)).getD
    { job, tier, next := 0, content := [], entries := 0, first := 0, last := 0, since := 0 }

def putStream (s : State) (x : TStream) : State :=
  { s with hub := { s.hub with streams := x :: s.hub.streams.filter (fun y => !(y.job == x.job && y.tier == x.tier)) } }

/-- Close the open block of a stream: it goes to its die for compression. -/
def closeBlock (s : State) (k : Nat) (x : TStream) : State :=
  if x.content.isEmpty then s
  else
    let m := blockMd s x.next
    let t := getTap s m
    let blk : TBlock := { job := x.job, k, tier := x.tier, b := x.next, content := x.content, entries := x.entries,
                          first := x.first, last := x.last, tries := [] }
    putStream (setTap s m { t with work := t.work ++ [blk] })
      { x with next := x.next + 1, content := [], entries := 0 }

/-- An entry joins its stream; it never spans two blocks. -/
def tapeEntry (s : State) (job k tier win : Nat) (e : List Nat) : State :=
  let x := getStream s job tier
  let s := if x.content.length + e.length > 65536 then closeBlock s k x else s
  let x := getStream s job tier
  let new := x.content.isEmpty
  putStream s { x with content := x.content ++ e, entries := x.entries + 1, first := if new then win else x.first, last := win,
                       since := if new then s.now .hub else x.since }

/-- R291: at the end of taping a window. -/
def flushBlock (s : State) (m job k tier : Nat) : State :=
  let x := getStream s job tier
  if !x.content.isEmpty ∧ s.now .hub ≥ x.since + s.rd (tapPg m) TAP_CFG * 1000000 then closeBlock s k x else s

/-! ### One-second summaries (R292) -/

/-- The TAI second in which window n starts. -/
def secondOf (n k : Nat) : Nat := windowStart n k / 1000000000

/-- Windows that start in a second. -/
def windowsIn (sec k : Nat) : Nat :=
  ceilDiv ((sec + 1) * 8000) (2 ^ k) - ceilDiv (sec * 8000) (2 ^ k)

def Summ.new (unit sec queues : Nat) (gap : Bool) : Summ :=
  { unit, sec, gap, hot := [], slow := [], gauges := [], drops := 0, steps := 0, entries := 0, exits := 0, lastStep := 0, queues,
    energy := [], total := 0, unattr := 0, res := [0, 0, 0, 0, 0], loss := none, wins := 0, late := 0 }

/-- Sum two lists entry by entry; the longer keeps its tail. -/
def addHot : List (Nat × Bool) → List (Nat × Bool) → List (Nat × Bool)
  | [], b => b
  | a, [] => a
  | (x, p) :: a, (y, q) :: b => (x + y, p || q) :: addHot a b

/-- Set or replace the value kept under an index. -/
def putIdx {α : Type} (l : List (Nat × α)) (i : Nat) (v : α) : List (Nat × α) :=
  if l.any (fun x => x.1 == i) then l.map (fun x => if x.1 == i then (i, v) else x) else l ++ [(i, v)]

def getIdx {α : Type} (l : List (Nat × α)) (i : Nat) : Option α := (l.find? (fun x => x.1 == i)).map (·.2)

def foldGauge (l : List (Nat × Int × Int × Int)) (g : Nat × Int × Int × Int) : List (Nat × Int × Int × Int) :=
  match getIdx l g.1 with
  | some (_, lo, hi) => putIdx l g.1 (g.2.1, (if g.2.2.1 < lo then g.2.2.1 else lo), (if g.2.2.2 > hi then g.2.2.2 else hi))
  | none => l ++ [g]

/-- Fold a record into its summary. -/
def Summ.fold (x : Summ) (v : RecView) (late : Bool) : Summ :=
  let kind (n : Nat) : List (Nat × Nat × Nat × Nat × Nat) := v.marks.filter (fun m => m.1 == n)
  { x with
    hot := addHot x.hot v.hot
    slow := v.slow.foldl (fun l c => putIdx l c.1 c.2) x.slow
    gauges := v.gauges.foldl foldGauge x.gauges
    drops := x.drops + v.drops
    steps := x.steps + (kind 0).length
    entries := x.entries + (kind 1).length
    exits := x.exits + (kind 2).length
    lastStep := match (kind 0).getLast? with
      | some m => m.2.2.1
      | none => x.lastStep
    energy := v.energy.foldl (fun l e => putIdx l e.1 ((getIdx l e.1).getD 0 + e.2)) x.energy
    total := x.total + v.total
    unattr := x.unattr + v.unattr
    res := (x.res.zip v.res).map (fun p => p.1 + p.2)
    loss := if v.loss = 0 then x.loss else some (x.loss.getD 0 + v.loss)
    wins := x.wins + 1
    late := x.late + b2n late }

/-- Summaries in progress on a table die that take room. -/
def summCount (s : State) (m : Nat) : Nat :=
  (s.hub.summs.filter (fun x => !x.2.gap && ((findJob s x.1).map (·.tableMd)) == some m)).length

/-- A record enters the summary of its (job, unit, second). -/
def foldRecord (s : State) (m : Nat) (g : JobGen) (n : Nat) (t : TabRec) : State :=
  let u := t.body.hdr.unit
  let sec := secondOf n g.k
  let mine (x : Nat × Summ) : Bool := x.1 == g.job && x.2.unit == u && x.2.sec == sec
  let s := if s.hub.summs.any mine then s
    else
      let full := decide ((summCount s m + 1) * 16384 > summBytes s.cfg)
      let q := if (memberOf s g.job g.gen u).any (fun x => x.lite) then 4 else 16
      let s := if full then s.bump (tapPg m) TAP_PEND_T1_GAP else s
      { s with hub := { s.hub with summs := s.hub.summs ++ [(g.job, Summ.new u sec q full)] } }
  match readRecord t.body.plain with
  | none => s
  | some v => { s with hub := { s.hub with summs := s.hub.summs.map (fun x =>
      if mine x && !x.2.gap then (x.1, x.2.fold v t.late) else x) } }

/-- The HOT section with 8-byte sums, packed where that is smaller (R132). -/
def hotSection8 (l : List (Nat × Bool)) : List Nat :=
  if l.isEmpty then []
  else
    let sat := l.any (·.2)
    let satMap := if sat then bitmap (l.map (·.2)) else []
    let plain := l.flatMap (fun x => beBytes 8 x.1)
    let pack := bitmap (l.map (fun x => x.1 != 0)) ++ (l.filter (fun x => x.1 != 0)).flatMap (fun x => beBytes 8 x.1)
    if pack.length < plain.length then secHdr 1 true sat l.length ++ pack ++ satMap
    else secHdr 1 false sat l.length ++ plain ++ satMap

/-- R292: the sections of a closed summary. What R131 gives no COUNT for (MARK and COVER of a summary) and the step of a second without a
STEP mark are free values. -/
def Summ.bytes (x : Summ) (k markCount coverCount noStep : Nat) : List Nat :=
  let parts := ((x.energy.map (fun e => e.1 / 16)).eraseDups)
  let owned := (List.range 16).filter (fun p => parts.contains p)
  hotSection8 x.hot ++
  slowSection x.slow ++ gaugeSection x.gauges ++
  secHdr 4 false false markCount ++ beBytes 4 x.drops ++ beBytes 4 x.steps ++ beBytes 4 x.entries ++ beBytes 4 x.exits ++
    beBytes 4 (if x.steps = 0 then noStep else x.lastStep) ++
  secHdr 5 false false owned.length ++ beBytes 4 ((owned.map (fun p => 2 ^ p)).foldl (· + ·) 0) ++
    owned.flatMap (fun p => (List.range x.queues).flatMap (fun q => beBytes 8 ((getIdx x.energy (p * 16 + q)).getD 0))) ++
    beBytes 8 x.total ++ beBytes 8 x.unattr ++
  residencySection x.res ++ lossSection (x.loss.getD 0) ++
  secHdr 8 false false coverCount ++ beBytes 4 x.wins ++ beBytes 4 (windowsIn x.sec k) ++ beBytes 4 x.late

/-- A closed summary enters the T1 stream. -/
def tapeSummary (s : State) (job k : Nat) (x : Summ) : State :=
  if x.gap then s
  else
    let a := s.free
    let b := a.1.free
    let c := b.1.free
    let d := c.1.free
    let e := d.1.free
    tapeEntry e.1 job k 1 x.sec (streamEntry 8 a.2 x.unit k x.sec 0 b.2 (x.bytes k c.2 d.2 e.2))

/-- The summaries of a job whose second is over once window n is taped close, in ascending second and unit. -/
def closeSummaries (s : State) (job k n : Nat) : State :=
  let done (x : Nat × Summ) : Bool := x.1 == job && decide (x.2.sec < secondOf (n + 1) k)
  let l := sortLe (fun a b => decide (a.sec < b.sec ∨ (a.sec = b.sec ∧ a.unit ≤ b.unit))) ((s.hub.summs.filter done).map (·.2))
  l.foldl (fun s x => tapeSummary s job k x) { s with hub := { s.hub with summs := s.hub.summs.filter (fun x => !done x) } }

/-! ### Taping a window (R289) -/

/-- R289: the tables of the windows whose every block is committed are released. -/
def releaseWins (s : State) (job : Nat) : State :=
  let carried (n : Nat) : Bool :=
    s.hub.taps.any (fun t => t.work.any (fun b => b.job == job && b.tier == 0 && decide (b.first ≤ n) && decide (n ≤ b.last))) ||
    s.hub.streams.any (fun x => x.job == job && x.tier == 0 && !x.content.isEmpty && decide (x.first ≤ n) && decide (n ≤ x.last))
  { s with hub := { s.hub with wins := s.hub.wins.map (fun w =>
      if w.job == job && w.taped && !w.released && !carried w.win then { w with released := true, table := [] } else w) } }

/-- R289: window n of a job is taped once its late horizon has passed, after the windows before it; `poison` names the units whose
record reads poisoned in the window table. -/
def execTapeWindow (slot n : Nat) (poison : List Nat) (s : State) : Host.Outcome State Fault Refusal :=
  match genOfWin s slot n with
  | none => .next s
  | some g => match findJob s g.job, findWin s slot g.job n with
    | some j, some w =>
      let m := j.tableMd
      let earlier := s.hub.wins.any (fun v => v.slot == slot && v.job == g.job && decide (v.win < n) && !v.taped)
      if w.closed = false ∨ w.taped = true ∨ earlier = true ∨ isFrozen s (tapPg m) ∨ (getTap s m).ready = false then .next s
      else
        let mk := markerEntry s g w
        let s := tapeEntry mk.1 g.job g.k 0 n mk.2
        let recs := sortLe (fun a b => decide (a.body.hdr.unit ≤ b.body.hdr.unit)) w.table
        let s := recs.foldl (fun s t =>
          let bad := poison.contains t.body.hdr.unit
          let s := tapeEntry s g.job g.k 0 n (recordEntry g n t bad)
          if t.snapshot || bad then s else foldRecord s m g n t) s
        let s := putWin s { w with taped := true }
        let s := closeSummaries s g.job g.k n
        .next (flushBlock (flushBlock s m g.job g.k 0) m g.job g.k 1)
    | _, _ => .next s

/-! ### Commit and eviction (R296, R297) -/

def headOf (t : TapMd) (tier : Nat) : Nat := t.head.getD tier 1
def tailOf (t : TapMd) (tier : Nat) : Nat := t.tail.getD tier 1

/-- The block of lowest SEQ is evicted. -/
def evictOne (s : State) (m tier : Nat) : State :=
  let t := getTap s m
  let q := tailOf t tier
  let s := putEntry s m tier q { getEntry s m tier q with state := Ent.EXPIRED }
  setTap s m { t with tail := t.tail.set tier (q + 1) }

/-- A retained block stands in [p, p + n) of the data ring, or the index ring is full. -/
def mustEvict (s : State) (m tier p n : Nat) : Bool :=
  let t := getTap s m
  let q := tailOf t tier
  let h := headOf t tier
  decide (q < h) && (decide (h - q ≥ indexSlots s.cfg tier) ||
    (List.range (h - q)).any (fun i =>
      let e := getEntry s m tier (q + i)
      decide (e.ofs * 64 < p + n) && decide (p < e.ofs * 64 + e.clen)))

/-- Evict until the place is free. -/
def makeRoom (s : State) (m tier p n : Nat) : Nat → State
  | 0 => s
  | fuel + 1 => if mustEvict s m tier p n then makeRoom (evictOne s m tier) m tier p n fuel else s

/-- R306: the seconds a tier holds. -/
def tapSpan (s : State) (m tier : Nat) : Nat :=
  let t := getTap s m
  let q := tailOf t tier
  let h := headOf t tier
  if q ≥ h then 0
  else min ((getEntry s m tier (h - 1)).secs - (getEntry s m tier q).secs) 0xFFFFFFFF

/-- R288: RET_LOW while a tier's span falls short of its alarm. -/
def checkSpan (s : State) (m tier : Nat) : State :=
  let alarm := if tier = 0 then s.rd (tapPg m) TAP_ALARM_T0_S else s.rd (tapPg m) TAP_ALARM_T1_MIN * 60
  let short := decide (tapSpan s m tier < alarm)
  let t := getTap s m
  let was := t.low.getD tier false
  let s := setTap s m { t with low := t.low.set tier short }
  if short then (if was then s.wr (tapPg m) (BLK_IRQ_STAT Irq.TAP_RET_LOW) 1 else raise s (tapPg m) Irq.TAP_RET_LOW) else s

/-- R296: the frame is written to the data ring, then its index entry. -/
def commitBlock (s : State) (m : Nat) (b : TBlock) (frame : List Nat) : State :=
  let t := getTap s m
  let p := t.wptr.getD b.tier 0
  let p := if p + frame.length > dataBytes s.cfg b.tier then 0 else p
  let seq := headOf t b.tier
  let s := makeRoom s m b.tier p frame.length (seq - tailOf t b.tier)
  let s := hbmWrite s (dataBase s.cfg m b.tier + p) frame
  let s := putEntry s m b.tier seq
    { seq, job := b.job, k := b.k, state := Ent.COMMITTED, poison := false, entries := b.entries, first := b.first, last := b.last,
      stream := b.b, ofs := p / 64, clen := frame.length, ulen := b.content.length, secs := s.now .hub / 1000000000,
      nanos := s.now .hub % 1000000000 }
  let t := getTap s m
  let s := setTap s m { t with head := t.head.set b.tier (seq + 1), wptr := t.wptr.set b.tier (p + ceilDiv frame.length 64 * 64) }
  checkSpan (s.incr (Pg.hBur (48 + m)) BUR_AOC 11 b.content.length) m b.tier

/-! ### Compression (R295) -/

/-- R295: a failure charged to an engine; with a second within 600 s it is taken out of service. -/
def chargeEngine (s : State) (m e : Nat) : State :=
  let t := getTap s m
  let now := s.now .hub
  let fails := (e, now) :: t.fails.filter (fun f => decide (now < f.2 + 600000000000))
  if (fails.filter (fun f => f.1 == e)).length ≥ 2 then
    let s := setTap s m { t with fails := fails.filter (fun f => f.1 != e) }
    raise (s.wr (cmpPg m) CMP_ENG_OUT (putBit (s.rd (cmpPg m) CMP_ENG_OUT) e true)) (cmpPg m) Irq.CMP_ENG_OUT { detail := e }
  else setTap s m { t with fails }

/-- R295: a block all three engines failed on is lost. -/
def loseBlock (s : State) (m : Nat) (b : TBlock) : State :=
  post (s.bump (tapPg m) TAP_STAT_LOST) (tapPg m) 0x2100 6 false false
    ({ job := b.job, win := b.first, detail := b.last : EvInfo }).bytes

/-- R295: an engine ends its work on a block of its die with a frame: the `i`-th of the blocks that wait. It is compared with the content. The third engine
builds a Raw-block frame. -/
def execBlockCompressDone (m i eng : Nat) (frame : List Nat) (s : State) : Host.Outcome State Fault Refusal :=
  let t := getTap s m
  match t.work[i]? with
  | none => .next s
  | some b =>
    if m ≥ 8 ∨ isFrozen s (tapPg m) ∨ isFrozen s (cmpPg m) ∨ ¬ (enginesIn s m).contains eng ∨ b.tries.contains eng then .next s
    else
      let s := s.incr (cmpPg m) CMP_CIN 0 b.content.length
      let good := if b.tries.length ≥ 2 then frame == rawFrame b.content
        else emitted frame && decodeFrame frame == some b.content
      if good then
        let s := setTap s m { t with work := t.work.eraseIdx i }
        let s := commitBlock s m b frame
        let s := b.tries.foldl (fun s e => chargeEngine s m e) s
        .next (releaseWins s b.job)
      else
        let s := raise (s.bump (cmpPg m) CMP_FAIL_VERIFY) (cmpPg m) Irq.CMP_VERIFY_FAIL { job := b.job, win := b.first, detail := eng }
        if b.tries.length ≥ 2 then
          .next (releaseWins (loseBlock (setTap s m { t with work := t.work.eraseIdx i }) m b) b.job)
        else .next (setTap s m { t with work := t.work.set i { b with tries := b.tries ++ [eng] } })

/-- R295, R307: a write of CMP_ENG_EN: an engine written 1 returns to service; on a Hub the Cabinet's write alone returns it. -/
def engineEnable (s : State) (pg : Page) (ag : Agent) (v : Nat) : State :=
  let n := if pg.isTally then 1 else 16
  let s' := s.wr pg CMP_ENG_EN (v % 2 ^ n)
  if pg.isTally ∨ ag = .cabinet then
    s'.wr pg CMP_ENG_OUT (((setBits n (s.rd pg CMP_ENG_OUT)).filter (fun e => !bit v e)).foldl (fun a e => a + 2 ^ e) 0)
  else s'

def execEngineEnableWrite (pg : Page) (ag : Agent) (v : Word) (s : State) : Host.Outcome State Fault Refusal :=
  if pageBlk s.cfg pg ≠ some .cmp then .next (syn s (absentPage s pg.part) Syn.ABSENT ag)
  else if isFrozen s pg then .next (syn s pg Syn.STATE ag false CMP_ENG_EN.off)
  else .next (engineEnable s pg ag v.toNat)

end Sys2Proof.Machine
end

