-- ==== Sys2Proof/Machine/Scan.lean ====
section
/-!
DEFINITION. Sys2Proof/Machine/Scan.lean: scans of the tape (R297–R300, R306), the soft reset of the tape pages (R303, R304), and the
HBM controllers' patrol and error injection (R286, R305).
-/
namespace Sys2Proof.Machine
open Reg

namespace ScanSt
/-! TAP_SCAN_CTRL.STATE. -/
def IDLE : Nat := 0
def RUNNING : Nat := 1
def DONE : Nat := 2
def ABORTED : Nat := 3
end ScanSt

def scanState (s : State) (m : Nat) : Nat := s.rd (tapPg m) TAP_SCAN_CTRL_STATE
def scanTier (s : State) (m : Nat) : Nat := s.rd (tapPg m) TAP_SCAN_CTRL_TIER

/-- The scan of a die ends. -/
def endScan (s : State) (m st : Nat) : State :=
  let t := getTap s m
  raise ((setTap s m { t with scan := none }).wr (tapPg m) TAP_SCAN_CTRL_STATE st) (tapPg m) Irq.TAP_SCAN_END

/-- R299: the ring: its base, slots, the place of its data slots and its size. -/
def ringBase (s : State) (m : Nat) : Nat := s.rd (tapPg m) TAP_SCAN_RING * 4096
def ringSlots (s : State) (m : Nat) : Nat := s.rd (tapPg m) TAP_SCAN_SLOTS
def ringData (slots : Nat) : Nat := ceilDiv (64 * (slots + 1)) 4096 * 4096
def ringSize (slots : Nat) : Nat := ringData slots + slots * 65536

/-- R298: the bounds of the span, in 125 µs units. -/
def scanFrom (s : State) (m : Nat) : Nat := s.rd (tapPg m) TAP_SCAN_FROM_HI * 2 ^ 32 + s.rd (tapPg m) TAP_SCAN_FROM_LO
def scanTo (s : State) (m : Nat) : Nat := s.rd (tapPg m) TAP_SCAN_TO_HI * 2 ^ 32 + s.rd (tapPg m) TAP_SCAN_TO_LO

/-- R298: a block matches the scan of its die. -/
def scanMatches (s : State) (m : Nat) (e : TEntry) : Bool :=
  let job := s.rd (tapPg m) TAP_SCAN_JOB
  let unit := if scanTier s m = 0 then 2 ^ e.k else 8000
  (job == 0 || e.job == job) && decide (e.first * unit < scanTo s m) && decide (scanFrom s m < (e.last + 1) * unit)

/-- R297: pass over the blocks that are not delivered, counting those never held, expired or damaged, up to the next that matches or the
head at START. -/
def scanSeek (s : State) (m : Nat) (sc : Scan) : Nat → State × Scan
  | 0 => (s, sc)
  | fuel + 1 =>
    if sc.next ≥ sc.head then (s, sc)
    else
      let e := getEntry s m (scanTier s m) sc.next
      if e.seq ≠ sc.next ∨ e.state ≠ Ent.COMMITTED then
        scanSeek (s.bump (tapPg m) TAP_SCAN_SKIP) m { sc with next := sc.next + 1 } fuel
      else if scanMatches s m e then (s, sc)
      else scanSeek s m { sc with next := sc.next + 1 } fuel

/-- Go on to the next block of a running scan; with none left it is DONE. -/
def scanOn (s : State) (m : Nat) (sc : Scan) : State :=
  let r := scanSeek s m sc (sc.head - sc.next)
  if r.2.next ≥ r.2.head then endScan r.1 m ScanSt.DONE
  else setTap r.1 m { getTap r.1 m with scan := some r.2 }

/-- R298: a refused START. -/
def scanRefuse (s : State) (m code : Nat) (ag : Agent) : State :=
  raise (syn (s.wr (tapPg m) TAP_SCAN_CTRL_STATE ScanSt.ABORTED) (tapPg m) code ag false TAP_SCAN_CTRL_STATE.off)
    (tapPg m) Irq.TAP_SCAN_END

/-- R298: START with the settings of the page. -/
def scanStart (s : State) (m : Nat) (ag : Agent) : State :=
  let slots := ringSlots s m
  let region := (HbmRegion.work.span s.cfg).2
  if scanFrom s m > scanTo s m then scanRefuse s m Syn.RANGE ag
  else if ringSize slots > region then scanRefuse s m Syn.SIZE ag
  else if ¬ inRegion s.cfg .work (ringBase s m) (ringSize slots) ∨ mdOf s.cfg (ringBase s m) ≠ 48 + m then scanRefuse s m Syn.RANGE ag
  else
    let s := (s.wr (tapPg m) TAP_SCAN_CNT 0).wr (tapPg m) TAP_SCAN_SKIP 0
    if slots = 0 ∨ scanFrom s m = scanTo s m then endScan s m ScanSt.DONE
    else
      let t := getTap s m
      let s := hbmWrite s (ringBase s m) (leBytes 8 0)
      let sc : Scan := { next := tailOf t (scanTier s m), head := headOf t (scanTier s m), produced := 0,
                         consumed := ofLe (hbmRead s (ringBase s m + 8) 8), since := s.now .hub }
      scanOn (s.wr (tapPg m) TAP_SCAN_CTRL_STATE ScanSt.RUNNING) m sc

/-- R306: a write of TAP_SCAN_CTRL. -/
def scanCtrlWrite (s : State) (m : Nat) (ag : Agent) (v : Nat) : State :=
  let pg := tapPg m
  let refuse (code : Nat) : State := syn s pg code ag false TAP_SCAN_CTRL_STATE.off
  let start := bit v 0
  let abort := bit v 1
  let running := scanState s m = ScanSt.RUNNING
  if isFrozen s pg then refuse Syn.STATE
  else if start ∧ abort then refuse Syn.RANGE
  else if bits v 31 16 = 0 ∧ ¬ (abort ∧ running) then refuse Syn.RANGE
  else if abort then (if running then endScan s m ScanSt.ABORTED else refuse Syn.STATE)
  else if running ∨ (start ∧ (getTap s m).ready = false) then refuse Syn.STATE
  else
    let s := ((s.wr pg TAP_SCAN_CTRL_TIER (bits v 4 4)).wr pg TAP_SCAN_CTRL_DELIVER (bits v 5 5)).wr pg TAP_SCAN_CTRL_TIMEOUT (bits v 31 16)
    if start then scanStart s m ag else s

/-- R298: START with the other fields of the word written. -/
def execScanStart (m : Nat) (ag : Agent) (v : Word) (s : State) : Host.Outcome State Fault Refusal :=
  if m ≥ 8 then .next (syn s (absentPage s .hub) Syn.ABSENT ag)
  else .next (scanCtrlWrite s m ag (putBit v.toNat 0 true))

/-- R306: ABORT with the other fields of the word written. -/
def execScanAbort (m : Nat) (ag : Agent) (v : Word) (s : State) : Host.Outcome State Fault Refusal :=
  if m ≥ 8 then .next (syn s (absentPage s .hub) Syn.ABSENT ag)
  else .next (scanCtrlWrite s m ag (putBit v.toNat 1 true))

/-! ### Delivery (R299, R300) -/

/-- What the consumer has written into CONSUMED is noted with its time. -/
def noteConsumed (s : State) (m : Nat) (sc : Scan) : Scan :=
  let c := ofLe (hbmRead s (ringBase s m + 8) 8)
  if c = sc.consumed then sc else { sc with consumed := c, since := s.now .hub }

/-- R300: what a read of a block's frame gives: the index entry for the header, with the bytes for the data slot, each with its poison. -/
def deliverBlock (s : State) (m eng1 : Nat) (fail1 fail2 : Bool) (e : TEntry) : State × TEntry × List (Nat × Bool) :=
  let tier := scanTier s m
  let f := hbmFetch s (dataBase s.cfg m tier + e.ofs * 64) e.clen
  let s := f.1
  let raw := s.rd (tapPg m) TAP_SCAN_CTRL_DELIVER = 1
  let poison := f.2.any (·.2) || e.poison
  let s := if poison ∧ ¬ e.poison then putEntry s m tier e.seq { e with poison := true } else s
  let e := { e with poison := poison }
  if raw then (s, e, f.2)
  else if poison then
    let c := freeBytes s e.ulen
    (c.1, e, c.2.map (fun b => (b, true)))
  else
    let c := decodeFrame (f.2.map (·.1))
    let sumFail (s : State) : State :=
      raise (s.bump (cmpPg m) CMP_FAIL_CHECKSUM) (cmpPg m) Irq.CMP_CHECKSUM_FAIL { job := e.job, win := e.first, detail := e.seq }
    let good (s : State) (c : List Nat) : State × TEntry × List (Nat × Bool) :=
      (s.incr (cmpPg m) CMP_DOUT 0 c.length, e, c.map (fun b => (b, false)))
    match c, fail1, fail2 with
    | some c, false, _ => good s c
    | some c, true, false => good (chargeEngine (sumFail s) m eng1) c
    | _, _, _ =>
      let s := sumFail (sumFail s)
      let e := { e with state := Ent.DAMAGED }
      let s := putEntry s m tier e.seq e
      (raise (s.bump (tapPg m) TAP_STAT_DAMAGED) (tapPg m) Irq.TAP_DAMAGED { job := e.job, win := e.first, detail := e.seq }, e, [])

/-- R299: the next block of the scan into the ring, when it has room. `eng1` is the engine that decompresses, `fail1` and `fail2` say whether it and the
second engine fail on a good frame. -/
def execScanDeliver (m eng1 : Nat) (fail1 fail2 : Bool) (s : State) : Host.Outcome State Fault Refusal :=
  match (getTap s m).scan with
  | none => .next s
  | some sc =>
    if m ≥ 8 ∨ isFrozen s (tapPg m) then .next s
    else
      let sc := noteConsumed s m sc
      let r := scanSeek s m sc (sc.head - sc.next)
      let s := r.1
      let sc := r.2
      let slots := ringSlots s m
      if sc.consumed > sc.produced then
        .next (syn (endScan s m ScanSt.ABORTED) (tapPg m) Syn.RANGE .block false TAP_SCAN_CTRL_STATE.off)
      else if sc.next ≥ sc.head then .next (endScan s m ScanSt.DONE)
      else if sc.produced - sc.consumed ≥ slots then .next (setTap s m { getTap s m with scan := some sc })
      else
        let d := deliverBlock s m eng1 fail1 fail2 (getEntry s m (scanTier s m) sc.next)
        let i := sc.produced % slots
        let base := ringBase s m
        let s := hbmWriteP d.1 (base + ringData slots + i * 65536) d.2.2
        let s := hbmWrite s (base + 64 + i * 64) d.2.1.bytes
        let s := hbmWrite s base (leBytes 8 (sc.produced + 1))
        let s := s.incr (tapPg m) TAP_SCAN_CNT
        .next (scanOn s m { sc with next := sc.next + 1, produced := sc.produced + 1 })

/-- R299: no change of CONSUMED for TIMEOUT ms. -/
def execScanTimeout (m : Nat) (s : State) : Host.Outcome State Fault Refusal :=
  match (getTap s m).scan with
  | none => .next s
  | some sc =>
    if m ≥ 8 ∨ isFrozen s (tapPg m) then .next s
    else
      let sc := noteConsumed s m sc
      if s.now .hub ≥ sc.since + s.rd (tapPg m) TAP_SCAN_CTRL_TIMEOUT * 1000000 then
        .next (syn (endScan s m ScanSt.ABORTED) (tapPg m) Syn.TIMEOUT .block false TAP_SCAN_CTRL_STATE.off)
      else .next (setTap s m { getTap s m with scan := some sc })

/-! ### Soft resets (R303, R304) -/

/-- R303: the jobs of a set are taped again from the first window that is not wholly committed, from a new stream block. -/
def retape (s : State) (again : Nat → Bool) : State :=
  { s with hub := { s.hub with
      streams := s.hub.streams.map (fun x => if again x.job then { x with content := [], entries := 0 } else x)
      wins := s.hub.wins.map (fun w => if again w.job && w.taped && !w.released then { w with taped := false } else w)
      summs := s.hub.summs.filter (fun x => !again x.1) } }

/-- R303: a TAP soft reset: open blocks, blocks in compression and scans are discarded; head and tail are recovered. -/
def softTap (s : State) (m : Nat) : State :=
  let t := getTap s m
  let dropped := t.work.map (·.job)
  let again (j : Nat) : Bool := dropped.contains j || ((findJob s j).map (·.tableMd)) == some m
  let s := if t.scan.isSome then endScan s m ScanSt.ABORTED else s
  retape (setTap s m { t with work := [], scan := none, low := [false, false], ready := false }) again

/-- R304: a CMP soft reset: engines in progress are abandoned, their blocks compressed again. -/
def softCmp (s : State) (m : Nat) : State :=
  let t := getTap s m
  setTap s m { t with work := t.work.map (fun b => { b with tries := [] }) }

/-- R303: head and tail are recovered. -/
def execTapRecoveryDone (m : Nat) (s : State) : Host.Outcome State Fault Refusal :=
  if m ≥ 8 then .next s else .next (setTap s m { getTap s m with ready := true })

/-- R306: windows of a table die that wait for their blocks. -/
def tapWaiting (s : State) (m : Nat) : Nat :=
  (s.hub.wins.filter (fun w => w.taped && !w.released && ((findJob s w.job).map (·.tableMd)) == some m)).length

/-! ### Patrol and injection (R286, R305) -/

/-- R286: a patrol pass of a die ends: the granules it found in error (by number, over the whole HBM) are treated as R285 lays down. -/
def execPatrol (m : Nat) (corr unc : List Nat) (s : State) : Host.Outcome State Fault Refusal :=
  let pg := Pg.mem (48 + m)
  let hours := s.rd pg MEM_SCRUB_HOURS
  let t := getTap s m
  if m ≥ 8 ∨ hours = 0 ∨ s.now .hub < t.patrol + hours * 3600000000000 then .next s
  else
    let mine (g : Nat) : Bool := g * 32 / mdSize s.cfg == m
    let s := { s with hub := { s.hub with
      hbmCorr := (corr.filter mine).foldl (fun l g => setInsert g l) s.hub.hbmCorr
      hbmUnc := (unc.filter mine).foldl (fun l g => setInsert g l) s.hub.hbmUnc } }
    let s := findErrors s (mdBase s.cfg m) (mdSize s.cfg)
    let s := setTap s m { getTap s m with patrol := s.now .hub }
    .next (raise (s.bump pg MEM_SCRUB_PASSES) pg Irq.MEM_SCRUB_DONE)

/-- R305: a write of MEM_INJ_CTRL. -/
def injectWrite (s : State) (pg : Page) (ag : Agent) (v : Nat) : State :=
  if ag ≠ .cabinet then syn s pg Syn.AUTH ag false MEM_INJ_CTRL.off
  else if v % 4 = 3 then syn s pg Syn.RANGE ag false MEM_INJ_CTRL.off
  else s.wr pg MEM_INJ_CTRL (v % 4)

def execErrorInject (m : Nat) (ag : Agent) (v : Word) (s : State) : Host.Outcome State Fault Refusal :=
  if m ≥ 8 then .next (syn s (absentPage s .hub) Syn.ABSENT ag) else .next (injectWrite s (Pg.mem (48 + m)) ag v.toNat)

end Sys2Proof.Machine
end

