-- ==== Sys2Proof/Machine/Trace.lean ====
section
/-!
DEFINITION. Sys2Proof/Machine/Trace.lean: the trace units (R445–R452, R461). What a source puts into its trace (R447, R448) comes in as
packets; the unit lays them into 64-byte lines of its buffer, a packet lying within one line (log entry 60).
-/
namespace Sys2Proof.Machine
open Reg

namespace TrcSt
/-! TRC_STAT.STATE (R450). -/
def IDLE : Nat := 0
def ARMED : Nat := 1
def RUN : Nat := 2
def HOLD : Nat := 3
end TrcSt

def trcState (s : State) (pg : Page) : Nat := s.rd pg TRC_STAT_STATE

def getTrc (s : State) (pg : Page) : Trc := ((s.trace.find? (fun x => x.1 == pg)).map (·.2)).getD Trc.reset
def setTrc (s : State) (pg : Page) (t : Trc) : State := { s with trace := (pg, t) :: s.trace.filter (fun x => x.1 != pg) }

/-- The page is a trace unit of this machine. -/
def isTrc (s : State) (pg : Page) : Bool := pageBlk s.cfg pg == some .trc

def trcBase (s : State) (pg : Page) : Nat := s.rd pg TRC_BUF_HI * 2 ^ 32 + s.rd pg TRC_BUF_LO * 4096
def trcBytes (s : State) (pg : Page) : Nat := s.rd pg TRC_BUF_SIZE * 4096

/-- R435: a TRACE entry (its severity is stated nowhere: a free value, log entry 61). -/
def traceEntry (s : State) (pg : Page) (detail lost : Nat) : State :=
  let f := s.free
  post f.1 pg (0x5000 + detail) (f.2 % 8) false false (leBytes 4 (s.rd pg TRC_WPTR) ++ leBytes 4 lost ++ List.replicate 16 0)

/-- Bytes into the buffer, from the line TRC_WPTR names: HBM on a Hub, host memory on a Tally-F. -/
def trcStore (s : State) (pg : Page) (bs : List Nat) : State :=
  let a := trcBase s pg + s.rd pg TRC_WPTR * 64
  match pg with
  | .tally _ => s.send (.mpWrite a bs)
  | .hub _ _ => hbmWrite s a bs

/-- R450: HOLD is entered: raised, with a TRACE entry. -/
def trcHold (s : State) (pg : Page) : State :=
  traceEntry (raise (s.wr pg TRC_STAT_STATE TrcSt.HOLD) pg Irq.TRC_HOLD) pg 2 (s.rd pg TRC_LOST)

/-- Pad to whole 64-byte lines (R446 PAD). -/
def padLine (bs : List Nat) : List Nat := bs ++ List.replicate (ceilDiv bs.length 64 * 64 - bs.length) 0

/-- R451, R452: whole lines at the write pointer: around the end in WRAP, no further in STOP_ON_FULL; false where they did not fit. -/
def trcPut (s : State) (pg : Page) (bs : List Nat) : State × Bool :=
  let bs := padLine bs
  let size := trcBytes s pg
  let fits := decide (s.rd pg TRC_WPTR * 64 + bs.length ≤ size)
  if ¬ fits ∧ (s.rd pg TRC_CFG_MODE = 0 ∨ bs.length > size) then (s, false)
  else
    let s := if fits then s else (s.wr pg TRC_WPTR 0).wr pg TRC_STAT_WRAPPED 1
    let s := trcStore s pg bs
    let w := s.rd pg TRC_WPTR + bs.length / 64
    if w * 64 < size then (s.wr pg TRC_WPTR w, true)
    else if s.rd pg TRC_CFG_MODE = 1 then ((s.wr pg TRC_WPTR 0).wr pg TRC_STAT_WRAPPED 1, true)
    else (s.wr pg TRC_WPTR w, true)

/-- The buffer is full in STOP_ON_FULL. -/
def trcFull (s : State) (pg : Page) : Bool :=
  s.rd pg TRC_CFG_MODE == 0 && decide (s.rd pg TRC_WPTR * 64 ≥ trcBytes s pg)

/-- R452, R295, R307: the frame of a block of the Tally's engine, verified; a Raw-block frame where the verification fails or the engine
is out of service. -/
def trcFrame (s : State) (c : List Nat) : State × List Nat :=
  if s.rd Pg.tCmp CMP_ENG_EN % 2 = 0 ∨ s.rd Pg.tCmp CMP_ENG_OUT % 2 = 1 then (s, rawFrame c)
  else
    let s := s.incr Pg.tCmp CMP_CIN 0 c.length
    let f := Config.zstdFrame (s.rd Pg.tCmp CMP_CFG) c
    if decodeFrame f = some c then (s, f)
    else (raise (s.bump Pg.tCmp CMP_FAIL_VERIFY) Pg.tCmp Irq.CMP_VERIFY_FAIL, rawFrame c)

/-- Whether the unit compresses (R452: a Tally-F). -/
def trcCompress (s : State) (pg : Page) : Bool := pg.isTally && s.rd pg TRC_CFG_COMPRESS == 1

/-- The open block of a compressed stream is written. -/
def trcFlush (s : State) (pg : Page) : State × Bool :=
  let t := getTrc s pg
  if t.content.isEmpty then (s, true)
  else
    let f := trcFrame (setTrc s pg { t with content := [] }) t.content
    trcPut f.1 pg f.2

/-- HOLD after the open block has been written (log entry 60). -/
def trcStop (s : State) (pg : Page) : State := trcHold (trcFlush s pg).1 pg

/-- R451: a line in RUN: content of the block at hand where the unit compresses, a line of the buffer otherwise. The buffer full in
STOP_ON_FULL, or TRC_POST KiB after the trigger, end in HOLD. -/
def trcLine (s : State) (pg : Page) (line : List Nat) : State :=
  if trcState s pg ≠ TrcSt.RUN then s
  else
    let line := padLine line
    let t := getTrc s pg
    let r : State × Bool :=
      if trcCompress s pg then
        let s := setTrc s pg { t with content := t.content ++ line }
        if t.content.length + line.length ≥ 65536 then trcFlush s pg else (s, true)
      else trcPut s pg line
    let s := r.1
    let t := getTrc s pg
    let left := t.left.map (fun n => n - line.length)
    let s := setTrc s pg { t with left }
    if r.2 = false ∨ left = some 0 ∨ trcFull s pg = true then trcStop s pg else s

def trcLines (s : State) (pg : Page) (ls : List (List Nat)) : State := ls.foldl (fun s l => trcLine s pg l) s

/-! ### Packets (R446) -/

/-- The bytes of a packet. -/
def TPacket.bytes (p : TPacket) : List Nat := (p.type % 16 * 16 + p.low % 16) :: p.source % 256 :: p.payload.map (· % 256)

/-- R446: the payload length a type and header give; none for PAD and the reserved types. -/
def packetLen (type low : Nat) : Option Nat :=
  match type with
  | 1 => if low = 0 then none else some (ceilDiv low 8)
  | 2 => some 4
  | 3 => some 6
  | 4 => some 16
  | 5 => some 4
  | 6 => some 12
  | 7 => some 4
  | 8 => some 12
  | _ => none

/-- The source is one the unit has (R445) and records. -/
def trcSource (s : State) (pg : Page) (src : Nat) : Bool :=
  if src = 32 then s.rd pg TRC_SRC_HI == 1 else decide (src < 32) && bit (s.rd pg TRC_SRC_LO) src

/-- R445: the sources 0–31 a unit has. -/
def sourcesOf : Page → Nat
  | .tally _ => 0
  | .hub d _ => if isCD d then 32 else if d = 56 ∨ d = 57 then 4 else 0

/-- Packets into lines of 64 bytes, none across two. -/
def packLines : List (List Nat) → List Nat → List (List Nat)
  | [], cur => if cur.isEmpty then [] else [cur]
  | p :: ps, cur => if cur.length + p.length ≤ 64 then packLines ps (cur ++ p) else cur :: packLines ps p

/-- Seconds (8) and nanoseconds (4) of the unit's Longcase. -/
def trcTime (s : State) (pg : Page) : List Nat :=
  leBytes 8 (s.now pg.part / 1000000000) ++ leBytes 4 (s.now pg.part % 1000000000)

/-- R449, R451: source packets (types 1 to 6 of selected sources, of the length their type has) are written in RUN. -/
def execTraceLineWrite (pg : Page) (packets : List TPacket) (s : State) : Host.Outcome State Fault Refusal :=
  if ¬ isTrc s pg ∨ trcState s pg ≠ TrcSt.RUN then .next s
  else
    let good := packets.filter (fun p => decide (1 ≤ p.type) && decide (p.type ≤ 6) && trcSource s pg p.source &&
      packetLen p.type p.low == some p.payload.length)
    .next (trcLines s pg (packLines (good.map TPacket.bytes) []))

/-- R449: room has returned after `lost` bytes of packets were lost: OVERFLOW, then a SYNC for each source that lost packets (source, address
of its next instruction). -/
def execTraceOverflow (pg : Page) (lost : Nat) (syncs : List (Nat × Word)) (s : State) : Host.Outcome State Fault Refusal :=
  if ¬ isTrc s pg ∨ trcState s pg ≠ TrcSt.RUN ∨ lost = 0 then .next s
  else
    let s := s.bump pg TRC_LOST 0 lost
    let n := min lost 0xFFFFFFFF
    let ov : List Nat := [0x70, 0xFF] ++ leBytes 4 n
    let sy := (syncs.filter (fun x => trcSource s pg x.1)).map (fun x => [0x40, x.1] ++ leBytes 4 x.2.toNat ++ trcTime s pg)
    let s := trcLines s pg (packLines (ov :: sy) [])
    .next (traceEntry (raise s pg Irq.TRC_OVERFLOW) pg 3 n)

/-! ### States (R450) -/

/-- The comparators with an action (0 START, 1 STOP, 2 TRIGGER) that are not OFF. -/
def trcHas (s : State) (pg : Page) (action : Nat) : Bool :=
  (List.range 8).any (fun i => s.rd pg TRC_CMP_CFG_ACTION i == action && s.rd pg TRC_CMP_CFG_KIND i != 0)

/-- RUN is entered; a buffer of no pages holds at once (R461). -/
def trcRun (s : State) (pg : Page) : State :=
  let s := s.wr pg TRC_STAT_STATE TrcSt.RUN
  if trcBytes s pg = 0 then trcHold s pg else s

/-- R450: a write of TRC_CTRL.ARM. -/
def trcArm (s : State) (pg : Page) (ag : Agent) : State :=
  let refuse (c : Nat) : State := syn s pg c ag false TRC_CTRL_ARM.off
  let size := trcBytes s pg
  if trcState s pg ≠ TrcSt.IDLE ∨ s.rd pg BLK_CTRL_EN = 0 then refuse Syn.STATE
  else if ¬ pg.isTally ∧ size ≠ 0 ∧ ¬ inRegion s.cfg .chest (trcBase s pg) size then refuse Syn.RANGE
  else if s.rd pg TRC_POST * 1024 > size then refuse Syn.SIZE
  else if (List.range 32).any (fun i => bit (s.rd pg TRC_SRC_LO) i && decide (i ≥ sourcesOf pg)) then refuse Syn.ABSENT
  else
    let s := ((s.wr pg TRC_WPTR 0).wr pg TRC_STAT_WRAPPED 0).wr pg TRC_STAT_TRIGGERED 0
    let s := setTrc (s.wr pg TRC_STAT_TRIG_CMP 0) pg Trc.reset
    if trcHas s pg 0 then s.wr pg TRC_STAT_STATE TrcSt.ARMED else trcRun s pg

/-- R450: a write of TRC_CTRL.STOP. -/
def trcStopWrite (s : State) (pg : Page) (ag : Agent) : State :=
  if trcState s pg = TrcSt.ARMED ∨ trcState s pg = TrcSt.RUN then trcStop s pg else syn s pg Syn.STATE ag false TRC_CTRL_ARM.off

/-- R450: a write of TRC_CTRL.CLEAR. -/
def trcClear (s : State) (pg : Page) (ag : Agent) : State :=
  if trcState s pg = TrcSt.HOLD then setTrc (s.wr pg TRC_STAT_STATE TrcSt.IDLE) pg Trc.reset
  else syn s pg Syn.STATE ag false TRC_CTRL_ARM.off

/-- R461: a write of TRC_CTRL: more than one bit is refused. -/
def trcCtrlWrite (s : State) (pg : Page) (ag : Agent) (v : Nat) : State :=
  match v % 8 with
  | 0 => s
  | 1 => trcArm s pg ag
  | 2 => trcStopWrite s pg ag
  | 4 => trcClear s pg ag
  | _ => syn s pg Syn.RANGE ag false TRC_CTRL_ARM.off

def execTraceArm (pg : Page) (ag : Agent) (s : State) : Host.Outcome State Fault Refusal :=
  if isTrc s pg then .next (trcArm s pg ag) else .next (syn s (absentPage s pg.part) Syn.ABSENT ag)

def execTraceStop (pg : Page) (ag : Agent) (s : State) : Host.Outcome State Fault Refusal :=
  if isTrc s pg then .next (trcStopWrite s pg ag) else .next (syn s (absentPage s pg.part) Syn.ABSENT ag)

def execTraceClear (pg : Page) (ag : Agent) (s : State) : Host.Outcome State Fault Refusal :=
  if isTrc s pg then .next (trcClear s pg ag) else .next (syn s (absentPage s pg.part) Syn.ABSENT ag)

/-- R450, R451: the first TRIGGER since ARM: its packet, its line, the bytes that may follow. -/
def trcTrigger (s : State) (pg : Page) (i : Nat) : State :=
  if s.flag pg TRC_STAT_TRIGGERED then s
  else
    let s := (s.wr pg TRC_TRIG_PTR (s.rd pg TRC_WPTR)).wr pg TRC_STAT_TRIG_CMP i
    let s := trcLine (s.wr pg TRC_STAT_TRIGGERED 1) pg ([0x80 + i, 0xFF] ++ trcTime s pg)
    let s := traceEntry (raise s pg Irq.TRC_TRIGGER) pg 1 (s.rd pg TRC_LOST)
    if trcState s pg ≠ TrcSt.RUN then s
    else if s.rd pg TRC_POST = 0 then trcStop s pg
    else setTrc s pg { getTrc s pg with left := some (s.rd pg TRC_POST * 1024) }

/-- R450: what a comparator compares, as far as the state holds it: the time for TIME, the die's freeze, the status bit. The events of PC, TRAP
and BUREAU are the command itself. -/
def trcMeets (s : State) (pg : Page) (i : Nat) : Bool :=
  let lo := s.rd pg TRC_CMP_A_LO i
  match s.rd pg TRC_CMP_CFG_KIND i with
  | 1 => true
  | 2 => decide (s.now pg.part ≥ (s.rd pg TRC_CMP_B i * 2 ^ 32 + s.rd pg TRC_CMP_A_HI i) * 1000000000 + lo)
  | 3 => true
  | 4 => true
  | 5 =>
    let p : Page := match pg with
      | .tally _ => .tally (bits lo 19 8)
      | .hub d _ => .hub d (bits lo 19 8)
    s.rd p (BLK_IRQ_STAT (lo % 32)) == 1
  | 6 => s.rd (frzPage pg) FRZ_STAT_FROZEN == 1
  | _ => false

/-- R450: comparator i of a trace unit fires. -/
def execTraceComparator (pg : Page) (i : BitVec 3) (s : State) : Host.Outcome State Fault Refusal :=
  if ¬ isTrc s pg ∨ trcMeets s pg i.toNat = false then .next s
  else match s.rd pg TRC_CMP_CFG_ACTION i.toNat with
    | 0 => if trcState s pg = TrcSt.ARMED then .next (trcRun s pg) else .next s
    | 1 => if trcState s pg = TrcSt.RUN then .next (s.wr pg TRC_STAT_STATE TrcSt.ARMED) else .next s
    | _ => if trcState s pg = TrcSt.RUN then .next (trcTrigger s pg i.toNat) else .next s

end Sys2Proof.Machine
end

