-- ==== Sys2Proof/Machine/RegCheck.lean ====
section
/-!
DEFINITION. Sys2Proof/Machine/RegCheck.lean: what a write of a register is refused with: the bank index of an indexed register, the
agents a register is closed to, the states in which it may not be written, the values outside its range (the field tables of every
chapter).
-/
namespace Sys2Proof.Machine
open Reg

/-! ### Bank indices -/

/-- R482: DGS_SLOT as the agent sees it: the command inlet has its own copy. -/
def dgsBank (ag : Agent) : Nat := if ag = .cabinet then 1 else 0

/-- The index an indexed register is accessed at (R122 and the chapters' index registers). -/
def bankIdx (s : State) (b : Blk) (pg : Page) (off : Nat) (ag : Agent) : Nat :=
  match b with
  | .cnt =>
    if off = 0x044 ∨ off = 0x048 then s.rd pg CNT_MAP_IDX
    else if off = 0x050 then s.rd pg CNT_VAL_IDX
    else if off = 0x05C ∨ off = 0x068 then s.rd pg CNT_GAUGE_IDX else 0
  | .hot => if off = 0x05C then s.rd pg HOT_LIST_IDX else 0
  | .nrg => if off = 0x04C then s.rd pg NRG_IDX_PART * 16 + s.rd pg NRG_IDX_QUEUE else 0
  | .stw => if off = 0x04C then s.rd pg STW_LOAD_ADDR else 0
  | .seal => if off = 0x080 then s.rd pg SEAL_VBUF_IDX else 0
  | .shp =>
    if 0x058 ≤ off ∧ off ≤ 0x060 then s.rd pg SHP_CLS_IDX else if off = 0x06C then s.rd pg SHP_GCL_IDX else 0
  | .ing =>
    if 0x04C ≤ off ∧ off ≤ 0x064 then s.rd pg ING_JOB_IDX else if off = 0x06C then s.rd pg ING_CNT_SEL else 0
  | .trs =>
    if off = 0x044 then s.rd pg TRS_FLD_JOB
    else if off = 0x04C ∨ off = 0x050 then s.rd pg TRS_FLD_JOB * 2048 + s.rd pg TRS_FLD_IDX else 0
  | .dgs =>
    let slot := s.rd pg DGS_SLOT (dgsBank ag)
    if off = 0x040 then dgsBank ag
    else if off = 0x048 ∨ off = 0x068 ∨ off = 0x06C then slot
    else if 0x04C ≤ off ∧ off ≤ 0x064 then slot * 64 + s.rd pg DGS_EXT_IDX else 0
  | .rch => if off = 0x08C then s.rd pg RCH_CNT_SEL else 0
  | .gsi => if 0x04C ≤ off ∧ off ≤ 0x064 then s.rd pg GSI_LINE_IDX else 0
  | .pwrH =>
    if off = 0x074 then s.rd pg HPWR_DIE_IDX
    else if off = 0x078 then dieClass (s.rd pg HPWR_DIE_IDX)
    else if off = 0x088 then s.rd pg HPWR_EN_IDX_SLOT * 8 + s.rd pg HPWR_EN_IDX_QUEUE else 0
  | .bur =>
    if 0x048 ≤ off ∧ off ≤ 0x090 then ag.code
    else if off = 0x098 then s.rd pg BUR_CNT_SEL
    else if 0x0C8 ≤ off ∧ off ≤ 0x0D0 then s.rd pg BUR_LEAP_IDX
    else if off = 0x0E0 then s.rd pg BUR_AOC_SEL else 0
  | .trc => if 0x074 ≤ off ∧ off ≤ 0x080 then s.rd pg TRC_CMP_IDX else 0
  | .tst =>
    let sel := tstSel s pg.die
    if off = 0x044 ∨ off = 0x05C then unitKey sel else if 0x048 ≤ off ∧ off ≤ 0x054 then laneKey sel else 0
  | _ => 0

/-! ### Agents and states -/

/-- R114, R127, R153: the registers only the host's register port writes, and only before the lock. -/
def hostOwned (b : Blk) (off : Nat) : Bool :=
  match b with
  | .pwrT => decide (0x040 ≤ off) && decide (off ≤ 0x054)
  | .cap => decide (0x044 ≤ off) && decide (off ≤ 0x04C)
  | .shp => decide (0x040 ≤ off) && decide (off ≤ 0x048)
  | _ => false

/-- Registers of the Tally that only the register port writes: the header template (R138, R152), the digest's extents, replay offset, control and test counts (R360). -/
def regPortOnly (b : Blk) (off : Nat) : Bool :=
  match b with
  | .seal => decide (0x0C0 ≤ off) && decide (off ≤ 0x100)
  | .dgs => (decide (0x044 ≤ off) && decide (off ≤ 0x064)) || (decide (0x080 ≤ off) && decide (off ≤ 0x088)) || off == 0x098
  | _ => false

/-- Registers of the Hub closed to its steward cores: R406, R407 and R430 (whole pages), R485 (the steward's controls), the TST page (R500). -/
def cabinetOnly (b : Blk) (pg : Page) (off : Nat) : Bool :=
  match b with
  | .pwrH => true
  | .sec => true
  | .tst => true
  | .stw => !pg.isTally && (off == 0x040 || (decide (0x048 ≤ off) && decide (off ≤ 0x054)))
  | _ => false

/-- What the agent, the lock and the state of the block refuse; 0 for nothing. -/
def accessCheck (s : State) (b : Blk) (pg : Page) (off : Nat) (ag : Agent) : Nat :=
  if hostOwned b off then
    (if ag ≠ .regPort then Syn.AUTH else if s.rd pg (lockFld pg) = 1 then Syn.STATE else 0)
  else if regPortOnly b off ∧ ag ≠ .regPort then Syn.AUTH
  else if cabinetOnly b pg off ∧ ag ≠ .cabinet then Syn.AUTH
  else if b = .cap ∧ off = 0x040 ∧ ag = .cabinet then Syn.AUTH
  else if b = .trc ∧ off ≠ 0x040 ∧ (trcState s pg = TrcSt.ARMED ∨ trcState s pg = TrcSt.RUN) then Syn.STATE
  else if b = .frz ∧ 0x058 ≤ off ∧ off ≤ 0x060 ∧ s.rd pg FRZ_STAT_FROZEN = 1 then Syn.STATE
  else if b = .tap ∧ 0x06C ≤ off ∧ off ≤ 0x084 ∧ s.rd pg TAP_SCAN_CTRL_STATE = ScanSt.RUNNING then Syn.STATE
  else if b = .til ∧ off = 0x050 ∧ s.rd pg TIL_STAT_SEQ ≠ Seq.HALTED then Syn.STATE
  else 0

/-! ### Ranges -/

/-- A code where a condition holds. -/
def when_ (c : Bool) (code : Nat) : Nat := if c then code else 0

/-- The first refusal of a list. -/
def firstOf (l : List Nat) : Nat := (l.find? (fun c => c != 0)).getD 0

def lcsRange (s : State) (pg : Page) (off v : Nat) (st : Bool) : Nat :=
  let r (f : Fld) : Nat := s.rd pg (pick st f)
  let within (n : Nat) : Bool := decide ((toSigned 32 v).natAbs ≤ n)
  if off = 0x060 then when_ (decide (v ≥ 1000000000)) Syn.RANGE
  else if off = 0x070 then
    when_ (bits v 31 23 == 0 || decide (bits v 31 23 > 500) || decide (bits v 19 16 < bits v 22 20) || bits v 15 8 == 0) Syn.RANGE
  else if off = 0x074 then when_ (decide (bits v 31 16 < 10) || decide (bits v 31 16 > 1000)) Syn.RANGE
  else if off = 0x078 then
    let p := [bits v 31 28, bits v 27 24, bits v 23 20, bits v 19 16]
    let named := p.filter (fun x => x != 0)
    let a := bits v 15 8
    let b := bits v 7 0
    let d := r LCS_ROLE_DOM_BOARD
    when_ (p.any (fun x => x == 1 || decide (x > 5)) || named.eraseDups != named || decide (a > 127) || decide (b > 127) ||
      a == b || a == d || b == d) Syn.RANGE
  else if off = 0x090 then when_ (!within 256000) Syn.RANGE
  else if off = 0x0A0 ∨ off = 0x0A4 then when_ (!within 1000000) Syn.RANGE
  else if off = 0x0B0 then
    when_ (bits v 31 16 == 0 || bits v 15 8 == 0 || decide (bits v 7 4 < 4) || decide (bits v 7 4 > 8)) Syn.RANGE
  else if off = 0x0B8 then
    let d := bits v 15 8
    when_ ((bit v 1 && bit v 2) || decide (d > 127) || d == r LCS_SRC_CFG_DOM_A || d == r LCS_SRC_CFG_DOM_B) Syn.RANGE
  else 0

def cntRange (c : Parts) (off v : Nat) : Nat :=
  if off = 0x040 ∨ off = 0x04C then when_ (decide (bits v 11 0 ≥ counterCount c)) Syn.RANGE
  else if off = 0x044 then
    when_ (bits v 31 30 == 3 || decide (bits v 27 20 ≥ laneCount c) || decide (bits v 19 16 ≥ partCount c) ||
      decide (bits v 15 12 ≥ partCount c)) Syn.RANGE
  else if off = 0x058 then when_ (decide (bits v 3 0 ≥ gaugeCount c)) Syn.RANGE
  else if off = 0x05C then when_ (decide (bits v 31 28 > 5)) Syn.RANGE
  else 0

def hotRange (c : Parts) (off v : Nat) : Nat :=
  if off = 0x050 then when_ ((List.range (slotCount c)).any (fun i => decide (bits v (4 * i + 3) (4 * i) > 13))) Syn.RANGE
  else if off = 0x054 then when_ (decide (bits v 9 0 > hotCount c)) Syn.SIZE
  else if off = 0x058 then when_ (decide (bits v 8 0 ≥ hotCount c)) Syn.RANGE
  else if off = 0x05C then when_ (decide (bits v 11 0 ≥ counterCount c)) Syn.RANGE
  else if off = 0x060 then
    firstOf [when_ (decide (bits v 20 16 > 20)) Syn.RANGE, when_ (decide (bits v 9 0 > hotCount c)) Syn.SIZE]
  else 0

def nrgRange (c : Parts) (off v : Nat) : Nat :=
  if off = 0x040 then when_ (c.lite && (List.range 4).any (fun p => bits v (4 * p + 1) (4 * p) != 0)) Syn.RANGE
  else if off = 0x048 then when_ (decide (bits v 7 4 ≥ partCount c) || decide (bits v 3 0 ≥ partCount c)) Syn.RANGE
  else 0

def shpRange (off v : Nat) : Nat :=
  if off = 0x040 then when_ (bits v 10 0 == 0 || decide (bits v 10 0 > 1600)) Syn.RANGE
  else if off = 0x044 then when_ (decide (bits v 13 0 > 10000)) Syn.RANGE
  else if off = 0x048 then when_ (decide (bits v 15 0 < 9277)) Syn.RANGE
  else if off = 0x064 then
    firstOf [when_ (decide (bits v 11 8 > 13)) Syn.RANGE, when_ (decide (bits v 6 0 > 64)) Syn.SIZE]
  else if off = 0x06C then when_ (decide (bits v 21 0 > 4096000)) Syn.RANGE
  else 0

/-- R182: the largest INDEX of a field's source. -/
def fieldIndexMax (src : Nat) : Nat :=
  if src = 1 then 511 else if src = 2 ∨ src = 10 then 4095 else if 3 ≤ src ∧ src ≤ 5 then 15
  else if src = 6 then 255 else if src = 9 then 4 else 0xFFFF

def ingRange (off v : Nat) : Nat :=
  if off = 0x040 then when_ (bits v 31 16 == 0 || bits v 31 16 == 0xFFFF || bits v 15 8 == 0) Syn.RANGE
  else if off = 0x050 then
    firstOf [when_ (decide (bits v 27 24 > 13)) Syn.RANGE, when_ (decide (bits v 4 0 > 16)) Syn.SIZE]
  else if off = 0x058 then when_ (decide (bits v 15 0 > 1000)) Syn.RANGE
  else if off = 0x068 then when_ (decide (bits v 4 0 ≥ 19)) Syn.RANGE
  else 0

def trsRange (off v : Nat) : Nat :=
  if off = 0x044 then when_ (decide (bits v 11 0 > 2048)) Syn.SIZE
  else if off = 0x04C then
    when_ (decide (bits v 31 28 ≥ 12) || (bits v 31 28 == 10 && bits v 23 22 == 3) || decide (bits v 15 0 > fieldIndexMax (bits v 31 28))) Syn.RANGE
  else 0

def tilRange (s : State) (pg : Page) (off v : Nat) (st : Bool) : Nat :=
  let pages := hbmEnd s.cfg / 4096
  let r (f : Fld) : Nat := s.rd pg (pick st f)
  let above (x y : Nat) : Nat := when_ (decide (x + y > pages)) Syn.SIZE
  if off = 0x048 then when_ (decide (bits v 28 16 + bits v 30 29 > 6143)) Syn.RANGE
  else if off = 0x04C then when_ (decide (bits v 31 28 > 13) || bits v 25 24 == 3) Syn.RANGE
  else if off = 0x074 then above (bits v 27 0) (r TIL_HBM0_SIZE)
  else if off = 0x078 then above (r TIL_HBM0_BASE) (bits v 27 0)
  else if off = 0x07C then above (bits v 27 0) (r TIL_HBM1_SIZE)
  else if off = 0x080 then above (r TIL_HBM1_BASE) (bits v 27 0)
  else 0

/-- R305: an injection address lies in its die's range. -/
def injRange (s : State) (pg : Page) (off v : Nat) : Nat :=
  let lo := if off = 0x05C then v / 32 * 32 else s.rd pg MEM_INJ_ADDR_LO
  let hi := if off = 0x060 then bits v 7 0 else s.rd pg MEM_INJ_ADDR_HI
  if off = 0x05C ∨ off = 0x060 then when_ (mdOf s.cfg (hi * 2 ^ 32 + lo) != pg.die) Syn.RANGE else 0

def rchRange (s : State) (off v : Nat) : Nat :=
  let site := s.rd (Pg.cab 56) CAB_BOARD_SITE
  if off = 0x040 then
    when_ (bits v 31 16 == 0 || bits v 31 16 == 0xFFFF || bits v 15 8 == 0 || bits v 7 4 == 0) Syn.RANGE
  else if off = 0x044 then when_ (decide (bits v 31 16 < 100) || bits v 15 8 == 0 || bits v 7 0 == 0) Syn.RANGE
  else if off = 0x048 then when_ (decide (bits v 15 8 < 2)) Syn.RANGE
  else if off = 0x04C then when_ (decide (bits v 11 0 > 2047)) Syn.SIZE
  else if off = 0x050 then when_ (bits v 23 21 == site) Syn.RANGE
  else if off = 0x054 then when_ (bit v site) Syn.RANGE
  else if off = 0x088 then when_ (decide (bits v 4 0 ≥ 15)) Syn.RANGE
  else 0

def hpwrRange (s : State) (off v : Nat) : Nat :=
  if hpwrCheck s off v ≠ 0 then hpwrCheck s off v
  else if off = 0x05C then when_ (decide (bits v 12 0 > s.rd Pg.hPwr HPWR_LIM_SUST)) Syn.RANGE
  else if off = 0x060 then when_ (decide (bits v 7 0 < 85) || decide (bits v 7 0 > 105)) Syn.RANGE
  else if off = 0x070 then when_ (!diePresent s.cfg (bits v 5 0)) Syn.ABSENT
  else if off = 0x084 then when_ (decide (bits v 10 8 > 4)) Syn.RANGE
  else 0

/-- R440: the spill ring lies in one die's model and work region. -/
def spillRange (s : State) (pg : Page) (off v : Nat) : Nat :=
  let base := (if off = 0x09C then bits v 27 0 else s.rd pg BUR_SPILL_BASE) * 4096
  let size := (if off = 0x0A0 then bits v 27 0 else s.rd pg BUR_SPILL_SIZE) * 4096
  when_ (size != 0 && !inRegion s.cfg .work base size) Syn.RANGE

/-- R443: the always-on counters a die holds. -/
def aocHeld (pg : Page) (sel : Nat) : Bool :=
  decide (sel ≤ 2) ||
  (if pg.isTally then decide (16 ≤ sel) && decide (sel ≤ 20)
   else sel == 3 || sel == 4 || (isCD pg.die && decide (5 ≤ sel) && decide (sel ≤ 8)) || (isMD pg.die && decide (9 ≤ sel) && decide (sel ≤ 11)) ||
     (isXD pg.die && decide (12 ≤ sel) && decide (sel ≤ 15)))

def burRange (s : State) (pg : Page) (off v : Nat) : Nat :=
  if off = 0x09C ∨ off = 0x0A0 then spillRange s pg off v
  else if off = 0x0C0 then when_ (decide (bits v 5 0 > 32)) Syn.SIZE
  else if off = 0x0DC then firstOf [when_ (decide (bits v 4 0 ≥ 21)) Syn.RANGE, when_ (!aocHeld pg (bits v 4 0)) Syn.ABSENT]
  else 0

def trcRange (off v : Nat) : Nat :=
  if off = 0x048 then when_ (bits v 31 24 == 0 || decide (bits v 23 20 < 8)) Syn.RANGE
  else if off = 0x074 then
    when_ (decide (bits v 31 28 ≥ 7) || bits v 27 26 == 3 || decide (bits v 5 0 > 32)) Syn.RANGE
  else 0

/-- R462: the channel area lies in the Chest region, checked as FRZ_CHAN_BASE_LO is written. -/
def frzRange (s : State) (pg : Page) (off v : Nat) : Nat :=
  if off = 0x048 then when_ (bits v 15 0 == 0) Syn.RANGE
  else if off = 0x058 then
    when_ (!inRegion s.cfg .chest (s.rd pg FRZ_CHAN_BASE_HI * 2 ^ 32 + v / 4096 * 4096) 1) Syn.RANGE
  else 0

/-- R13, R16: the word written, without the bits that are reserved on this part although a field of the register covers them: LCS_HOLD
(R92) and the JOBMASKs, window codes and owners (R122, R123, R125) of a Tally or Tally-L, TRC_CFG and TRC_BUF_HI (R461) of a Hub, MEM_INJ_ADDR
(R305). -/
def reservedOut (c : Parts) (b : Blk) (pg : Page) (off v : Nat) : Nat :=
  match b with
  | .lcs => if off = 0x074 ∧ pg.isTally then v / 65536 * 65536 else v
  | .cnt => if (off = 0x044 ∨ off = 0x05C) ∧ c.lite then v / 16 * 16 + v % 2 else v
  | .hot => if off = 0x050 ∧ c.lite then v % 16 else v
  | .nrg => if off = 0x040 ∧ c.lite then v % 65536 else v
  | .trc =>
    if pg.isTally then v else if off = 0x048 then putBit v 1 false else if off = 0x058 then v % 256 else v
  | .mem => if off = 0x05C then v / 32 * 32 else if off = 0x060 then v % 256 else v
  | _ => v

/-- What the value written to a register is refused with; 0 for nothing. `off` is the register's own offset, `st` says that the write is of the staged copy. -/
def rangeCheck (s : State) (b : Blk) (pg : Page) (off v : Nat) (st : Bool) : Nat :=
  match b with
  | .lcs => lcsRange s pg off v st
  | .cnt => cntRange s.cfg off v
  | .hot => hotRange s.cfg off v
  | .nrg => nrgRange s.cfg off v
  | .pwrT =>
    if off = 0x040 ∨ off = 0x044 then when_ (bits v 7 0 == 0) Syn.RANGE
    else if off = 0x054 then when_ (bits v 15 0 == 0) Syn.RANGE else 0
  | .cap =>
    if off = 0x040 then capCodeCheck s (bits v 11 0)
    else if off = 0x048 then when_ (decide (bits v 11 0 < s.rd Pg.cap CAP_FLOOR)) Syn.RANGE else 0
  | .stw =>
    if off = 0x048 then when_ (decide (bits v 16 2 ≥ stwRam s.cfg pg / 4)) Syn.RANGE
    else if off = 0x050 then when_ (decide (bits v 16 0 > stwRam s.cfg pg)) Syn.SIZE else 0
  | .seal =>
    if off = 0x040 then
      firstOf [when_ (decide (bits v 13 0 < 1024)) Syn.RANGE, when_ (decide (bits v 13 0 > 8920)) Syn.SIZE] else 0
  | .shp => shpRange off v
  | .ing => ingRange off v
  | .trs => trsRange off v
  | .til => tilRange s pg off v st
  | .mem => injRange s pg off v
  | .tap => if off = 0x040 then when_ (bits v 7 0 == 0) Syn.RANGE else 0
  | .cmp => if off = 0x040 then when_ (bits v 3 0 == 0 || decide (bits v 3 0 > 9)) Syn.RANGE else 0
  | .dgs =>
    if off = 0x040 then when_ (decide (bits v 1 0 ≥ slotCount s.cfg)) Syn.RANGE
    else if off = 0x048 then when_ (decide (bits v 6 0 > 64)) Syn.SIZE
    else if off = 0x04C then when_ (!([4, 6, 8, 16, 32].contains (bits v 15 8))) Syn.RANGE else 0
  | .rch => rchRange s off v
  | .gsi =>
    if off = 0x040 then when_ (bits v 7 0 == 0) Syn.RANGE
    else if off = 0x04C then when_ (bits v 31 30 == 3) Syn.RANGE else 0
  | .pwrH => hpwrRange s off v
  | .sec =>
    if off = 0x04C then when_ (bits v 5 0 != 0) Syn.RANGE
    else if off = 0x05C then when_ (decide (bits v 11 0 > 2063)) Syn.RANGE else 0
  | .bur => burRange s pg off v
  | .trc => trcRange off v
  | .frz => frzRange s pg off v
  | .tst =>
    if off = 0x040 then
      (if bits v 31 30 = 3 then Syn.RANGE
       else when_ (!tstHolds s.cfg pg.die (bits v 31 30, bits v 23 16, bits v 5 0)) Syn.ABSENT) else 0
  | _ => 0

end Sys2Proof.Machine
end

