-- ==== Sys2Proof/Machine/BusRead.lean ====
section
/-!
DEFINITION. Sys2Proof/Machine/BusRead.lean: a read of a register (R12, R16–R22): the common page, the registers that show what the block
computes, the captures of wide values.
-/
namespace Sys2Proof.Machine
open Reg

/-! ### BLK_STAT -/

/-- Work in progress (DESIGN CHOICE, log entry 40: the spec names the bit and not, block by block, what sets it). -/
def blkBusy (s : State) (b : Blk) (pg : Page) : Bool :=
  let t := s.tally
  let m := pg.die - 48
  match b with
  | .dgs => t.digRun.isSome || t.digRpl.isSome
  | .seal => !t.recs.isEmpty
  | .shp => !t.egress.isEmpty || t.sending.isSome
  | .tap => !(getTap s m).work.isEmpty || (getTap s m).scan.isSome
  | .cmp => !pg.isTally && !(getTap s m).work.isEmpty
  | .til => !queuesEmpty (getTile s (32 * pg.die + (pg.num - 0x040)))
  | .stw => s.rd pg STW_STAT_STATE == Stw.VERIFYING || s.rd pg STW_STAT_STATE == Stw.RUNNING
  | .trc => s.rd pg TRC_STAT_STATE == TrcSt.RUN
  | .ing => !(getIng s pg.die).reasm.isEmpty
  | _ => false

/-- An unresolved error (log entry 40). -/
def blkError (s : State) (b : Blk) (pg : Page) : Bool :=
  match b with
  | .stw => s.rd pg STW_STAT_STATE == Stw.FAULT
  | .til => s.rd pg TIL_STAT_SEQ == Seq.FAULT || s.rd pg TIL_STAT_QHALT != 0
  | _ => false

/-- The fast clock of the block is gated (R95, R162). -/
def blkAsleep (s : State) (b : Blk) (pg : Page) : Bool :=
  match b with
  | .til => s.rd pg TIL_STAT_PSTATE == PS.GATED || s.rd pg TIL_STAT_PSTATE == PS.PARKED
  | .seal | .shp | .dgs | .cmp | .stw | .trc => pg.isTally && !s.tally.fclkAck
  | _ => false

/-- READY: the block has completed its reset (R303: a tape manager recovers its head and tail first). -/
def blkReady (s : State) (b : Blk) (pg : Page) : Bool :=
  match b with
  | .tap => (getTap s (pg.die - 48)).ready
  | _ => true

/-- BLK_STAT [31:16] (R90, R195). -/
def blockStat (s : State) (b : Blk) (pg : Page) : Nat :=
  match b with
  | .lcs => (s.lcs pg.part).servo.code
  | .ing => min 255 (liveJobSlots s pg.die).length
  | _ => 0

def blkStat (s : State) (b : Blk) (pg : Page) : Nat :=
  b2n (blkReady s b pg) + 2 * b2n (blkBusy s b pg) + 4 * b2n (isFrozen s pg) + 8 * b2n (blkAsleep s b pg) + 16 * b2n (blkError s b pg) +
    blockStat s b pg * 2 ^ 16

/-! ### The common page (R18) -/

/-- The word of BLK_IRQ_STAT or BLK_IRQ_EN. -/
def irqWord (s : State) (b : Blk) (pg : Page) (f : Nat → Fld) : Nat :=
  (([0, 1, 2, 3, 4] ++ blkIrqs b).map (fun n => s.rd pg (f n) * 2 ^ n)).foldl (· + ·) 0

def commonWord (s : State) (b : Blk) (pg : Page) (off : Nat) : Nat :=
  if off = 0x000 then blkId b pg
  else if off = 0x004 then blkCap s.cfg b pg
  else if off = 0x008 then s.rd pg BLK_CTRL_EN + 4 * s.rd pg BLK_CTRL_FRZ_P
  else if off = 0x00C then blkStat s b pg
  else if off = 0x010 then irqWord s b pg BLK_IRQ_STAT
  else if off = 0x014 then irqWord s b pg BLK_IRQ_EN
  else if off = 0x018 then s.rd pg BLK_SYNDROME_COUNT * 2 ^ 16 + s.rd pg BLK_SYNDROME_CODE
  else if off = 0x01C then
    s.rd pg BLK_SYNDROME_INFO_DETAIL * 2 ^ 16 + s.rd pg BLK_SYNDROME_INFO_STAGED * 2 ^ 14 + s.rd pg BLK_SYNDROME_INFO_AGENT * 2 ^ 12 +
      s.rd pg BLK_SYNDROME_INFO_OFFSET
  else if off = 0x020 then s.rd pg BLK_APPT_TIME_NS
  else if off = 0x024 then s.rd pg BLK_APPT_TIME_SLO
  else if off = 0x028 then s.rd pg BLK_APPT_TIME_SHI
  else s.rd pg BLK_APPT_CTRL_APPLIED_CNT * 2 ^ 16 + s.rd pg BLK_APPT_CTRL_STATE * 2 ^ 4

/-! ### Registers that show what the block computes -/

/-- A register field whose value nothing in the model fixes takes a free value (log entry 2). -/
def showFree (s : State) (pg : Page) (f : Fld) (i : Nat := 0) : State :=
  let x := s.free
  x.1.wr pg f x.2 i

/-- R60, R90: a follower page shows XD0's registers. -/
def showFollower (s : State) (pg : Page) (off : Nat) : State :=
  match (blkRegs .lcs).find? (fun r => r.off == off) with
  | some r => r.flds.foldl (fun s f => s.wr pg f.f (s.rd Pg.xLcs f.f)) s
  | none => s

def showLcs (s : State) (pg : Page) (off : Nat) : State :=
  let s := if !pg.isTally && isFollower pg && off != 0x040 && decide (0x050 ≤ off) then showFollower s pg off else s
  if off = 0x040 then captureNow s pg
  else if off = 0x050 then s.wr pg LCS_STATUS_TQ (tq s pg.part)
  else if off = 0x080 then s.wr pg LCS_SRC_OFS_A (offsetWord (s.tracker 2).ofs)
  else if off = 0x084 then s.wr pg LCS_SRC_OFS_B (offsetWord (s.tracker 3).ofs)
  else if off = 0x088 then s.wr pg LCS_SRC_OFS_BOARD (offsetWord (s.tracker 4).ofs)
  else if off = 0x08C then s.wr pg LCS_SRC_OFS_REACH (offsetWord (s.tracker 5).ofs)
  else if off = 0x098 ∧ !pg.isTally then s.wr pg LCS_SITE_QUAL (hubSite s)
  else if off = 0x09C then
    (if s.hub.ppsAt.any (fun t => decide (s.now .hub < t + 2000000000)) then s else s.wr pg LCS_PPS_OFS 0x80000000)
  else s

/-- R152: SEAL_KEYSTAT and SEAL_CMD_EPOCH. -/
def showSeal (s : State) (pg : Page) (off : Nat) : State :=
  let s := cmdPromote s
  if off = 0x054 then
    let put (s : State) (i : Nat) (c n p : Fld) : State :=
      let k := getKeys s i
      ((s.wr pg c (b2n k.cur.isSome)).wr pg n (b2n k.next.isSome)).wr pg p (b2n k.prev.isSome)
    let s := put s 0 SEAL_KEYSTAT_CUR0 SEAL_KEYSTAT_NEXT0 SEAL_KEYSTAT_PREV0
    let s := put s 1 SEAL_KEYSTAT_CUR1 SEAL_KEYSTAT_NEXT1 SEAL_KEYSTAT_PREV1
    let s := put s 2 SEAL_KEYSTAT_CUR2 SEAL_KEYSTAT_NEXT2 SEAL_KEYSTAT_PREV2
    let s := put s 3 SEAL_KEYSTAT_CUR3 SEAL_KEYSTAT_NEXT3 SEAL_KEYSTAT_PREV3
    s.wr pg SEAL_KEYSTAT_CMD (b2n s.tally.cmd.cur.isSome)
  else if off = 0x058 then s.wr pg SEAL_CMD_EPOCH ((s.tally.cmd.cur.map (·.epoch)).getD 0)
  else s

/-- R389, R390. -/
def showRch (s : State) (pg : Page) (off : Nat) : State :=
  let r := getRch s (pg.die - 62)
  let kib (l : List RTx) : Nat := sumSizes l / 1024
  if off = 0x060 then s.wr pg RCH_NEXT r.next
  else if off = 0x068 then s.wr pg RCH_CUM r.cum
  else if off = 0x070 then s.wr pg RCH_SRTT (min r.srtt 0xFFFFFFFF)
  else if off = 0x074 then s.wr pg RCH_RTTVAR (min r.rttvar 0xFFFFFFFF)
  else if off = 0x078 then s.wr pg RCH_INFLIGHT (kib (r.ring.filter (fun f => f.first.isSome && !f.sacked)))
  else if off = 0x07C then s.wr pg RCH_QUEUED (kib (r.ring.filter (fun f => f.first.isNone)))
  else if off = 0x080 then s.wr pg RCH_CREDIT ((r.ack.map (fun a => a.1)).getD 0 / 1024)
  else if off = 0x084 then s.wr pg RCH_RX_HELD (rxUsed r / 1024)
  else s

/-- R430, R431. -/
def showSec (s : State) (pg : Page) (off : Nat) : State :=
  let k := keyAt s (s.rd pg SEC_KS_SEL)
  if off = 0x040 then (if s.rd pg SEC_STAT_ID = 1 then s else s.wr pg SEC_ID 0)
  else if off = 0x048 then s.wr pg SEC_STAT_KEYS s.hub.keys.length
  else if off = 0x060 then
    let v := ksInfo k
    ((s.wr pg SEC_KS_INFO_JOB_SLOT (v / 2 ^ SEC_KS_INFO_JOB_SLOT.lo)).wr pg SEC_KS_INFO_KIND (v / 2 ^ SEC_KS_INFO_KIND.lo)).wr pg
      SEC_KS_INFO_STATE (v / 2 ^ SEC_KS_INFO_STATE.lo)
  else if off = 0x064 then s.wr pg SEC_KS_EPOCH (ksEpoch k)
  else if off = 0x068 then s.wr pg SEC_KS_END (ksEnd k)
  else s

/-- R487. -/
def showCab (s : State) (pg : Page) (off : Nat) : State :=
  let c := s.hub.cabinet
  let n (p : Session → Bool) : Nat := min 255 (c.sessions.filter p).length
  if off = 0x048 then s.wr pg CAB_BOOTS c.boots
  else if off = 0x04C then s.wr pg CAB_PEER_HB_MISS (hbMissed s)
  else if off = 0x050 then s.wr pg CAB_JRNL_NEXT (journalId c.boots c.nextId)
  else if off = 0x058 then s.wr pg CAB_JRNL_OPEN (c.journal.filter (fun e => !e.final)).length
  else if off = 0x05C then s.wr pg CAB_JOBS s.hub.jobs.length
  else if off = 0x060 then
    ((((s.wr pg CAB_MGMT_MA_UP (b2n (s.hub.aligned.getD 16 false))).wr pg CAB_MGMT_MB_UP (b2n (s.hub.aligned.getD 17 false))).wr pg
      CAB_MGMT_TENANT (n (fun x => !x.operator && !x.anon))).wr pg CAB_MGMT_OPERATOR (n (fun x => x.operator && !x.anon)))
  else if off = 0x068 then s.wr pg CAB_RETIRED s.hub.retired.length
  else s

/-- R443: the always-on counters kept elsewhere, and those of events no command brings (free: log entry 41). -/
def showAoc (s : State) (pg : Page) (sel : Nat) : State :=
  if sel = 0 then s.wr pg BUR_AOC (s.lcs pg.part).ticks sel
  else if [3, 4, 5, 7, 8, 14, 15].contains sel then
    let a := s.free
    let b := a.1.free
    b.1.wr pg BUR_AOC (a.2 * 2 ^ 32 + b.2) sel
  else s

def showTap (s : State) (pg : Page) (off : Nat) : State :=
  let m := pg.die - 48
  let t := getTap s m
  let sel := s.rd pg TAP_SEL
  if off = 0x04C then s.wr pg TAP_HEAD (if t.ready then headOf t sel else 1)
  else if off = 0x054 then s.wr pg TAP_TAIL (if t.ready then tailOf t sel else 1)
  else if off = 0x05C then s.wr pg TAP_SPAN (min (tapSpan s m sel) 0xFFFFFFFF)
  else if off = 0x064 then s.wr pg TAP_PEND_WINDOWS (min (tapWaiting s m) 0xFFFF)
  else s

def showTil (s : State) (pg : Page) (off : Nat) : State :=
  if off = 0x054 then
    (if s.rd pg TIL_STAT_SEQ = Seq.RUNNING then showFree s pg TIL_SEQ_PC
     else s.wr pg TIL_SEQ_PC (getTile s (32 * pg.die + (pg.num - 0x040))).pc)
  else if off = 0x088 then showFree (showFree s pg TIL_ECC_UNCORR) pg TIL_ECC_CORR
  else s

/-- Bring the fields of a register up to the moment of the read. -/
def refresh (s : State) (b : Blk) (pg : Page) (off i : Nat) : State :=
  match b with
  | .lcs => showLcs s pg off
  | .cnt => if off = 0x068 then s.wr pg CNT_GAUGE_RHI (s.rd pg gaugeFld i / 2 ^ 32) else s
  | .stw =>
    if s.rd pg STW_STAT_STATE ≠ Stw.RUNNING then s
    else if off = 0x058 then showFree s pg STW_S2H else if off = 0x05C then showFree s pg STW_PC else s
  | .seal => showSeal s pg off
  | .shp =>
    if off = 0x060 then s.wr pg SHP_CLS_TOK (clsTokens s i / 1024) i
    else if off = 0x070 then s.wr pg SHP_CEIL_TOK (s.tally.ceilTok / 1024) else s
  | .dgs => if off = 0x070 then s.wr pg DGS_STAT_OBSERVED (b2n (observed s)) else s
  | .ing =>
    if off = 0x064 then
      (s.wr pg ING_JOB_STAT_WINDOWS (min 255 (windowsInFlight s pg.die i)) i).wr pg ING_JOB_STAT_GENS (gensInFlight s pg.die i).length i
    else s
  | .trs =>
    if off = 0x054 then s.wr pg TRS_FREE (trsFree s pg.die)
    else if off = 0x058 then s.wr pg TRS_FREE_HIST (trsFreeHist s pg.die) else s
  | .til => showTil s pg off
  | .tap => showTap s pg off
  | .cmp =>
    if off = 0x04C then (if blkBusy s .cmp pg then showFree s pg CMP_ENG_BUSY else s.wr pg CMP_ENG_BUSY 0) else s
  | .rch => showRch s pg off
  | .sec => showSec s pg off
  | .bur => if off = 0x0E0 then showAoc s pg i else s
  | .cab => showCab s pg off
  | .tst =>
    if off = 0x050 then (if (lockedAt s pg.die i).isSome then showFree s pg TST_ERR i else s)
    else if off = 0x054 then foldBits s pg.die i else s
  | _ => s

/-! ### The word of a register -/

/-- What a field shows at its place in the word; a write-only field reads 0 (R18). -/
def fieldWord (s : State) (pg : Page) (i : Nat) (st : Bool) (f : FldS) : Nat :=
  match f.ty with
  | .wo => 0
  | .rwa => s.rd pg (if st then f.f.staged else f.f) i % 2 ^ 32 * 2 ^ f.f.lo
  | _ => s.rd pg f.f i % 2 ^ 32 * 2 ^ f.f.lo

def regWord (s : State) (pg : Page) (r : RegS) (i : Nat) (st : Bool) : Nat :=
  (r.flds.map (fieldWord s pg i st)).foldl (· + ·) 0 % 2 ^ 32

/-- R122 and its like: the read of the first register of a pair or triple captures the rest into the registers that follow. -/
def capture (s : State) (pg : Page) (r : RegS) (i : Nat) : State :=
  match r.flds with
  | [f] =>
    if f.f.w ≤ 32 then s
    else
      let v := s.rd pg f.f i
      let s := s.wr pg ⟨r.off + 4, 0, 32⟩ (v / 2 ^ 32)
      if f.f.w ≤ 64 then s else s.wr pg ⟨r.off + 8, 0, 32⟩ (v / 2 ^ 64)
  | _ => s

/-- A read of a register: the state after it and the word. -/
def busRead (s : State) (pg : Page) (off : Nat) (ag : Agent) : State × Nat :=
  match pageBlk s.cfg pg with
  | none => (absent s pg ag off, 0)
  | some b =>
    if off % 4 ≠ 0 then (syn s pg Syn.RANGE ag false off, 0)
    else if off < 0x030 then (s, commonWord s b pg off)
    else if 0x840 ≤ off then
      match findReg s.cfg b pg (off - 0x800) with
      | some r => if r.ty = .rwa then (s, regWord s pg r (bankIdx s b pg r.off ag) true) else (absent s pg ag off, 0)
      | none => (absent s pg ag off, 0)
    else match findReg s.cfg b pg off with
      | some r =>
        let i := bankIdx s b pg off ag
        let s := refresh s b pg off i
        (capture s pg r i, regWord s pg r i false)
      | none => (absent s pg ag off, 0)

end Sys2Proof.Machine
end

