-- ==== Sys2Proof/Machine/BusWrite.lean ====
section
/-!
DEFINITION. Sys2Proof/Machine/BusWrite.lean: a write of a register (R12, R16–R24): BLK_CTRL with the soft reset of every page, the
registers that act when they are written, the registers that keep what is written.
-/
namespace Sys2Proof.Machine
open Reg

/-! ### BLK_CTRL (R18–R20) -/

/-- The TIL tile of a TIL or HUT page. -/
def pageTile (pg : Page) : Nat := 32 * pg.die + (pg.num - (if pg.num < 0x060 then 0x040 else 0x060))

/-- R19: a write of EN = 0 the block refuses. -/
def enStays (s : State) (b : Blk) (pg : Page) : Bool :=
  match b with
  | .lcs | .bur | .mem | .sec | .cab | .tst | .gsi | .pwrH => true
  | .tly | .cnt | .hot | .stp | .nrg | .cap | .seal | .shp | .dgs => !(liveSlots s).isEmpty
  | .ing | .trs => !(liveJobSlots s pg.die).isEmpty
  | .tap => !(liveJobSlots s xd0).isEmpty
  | .cmp => if pg.isTally then trcState s Pg.tTrc == TrcSt.RUN else !(liveJobSlots s xd0).isEmpty
  | .til | .hut => s.flag (Pg.til (pageTile pg)) TIL_JOB_VALID
  | .frz => s.rd pg FRZ_STAT_FROZEN == 1 || isArmed s pg
  | .pwrT | .stw | .trc | .rch => false

/-- What a write of EN and FRZ_P is refused with (R19, R114, R119, R151); 0 for nothing. -/
def enRefusal (s : State) (b : Blk) (pg : Page) (ag : Agent) (en frz : Bool) : Nat :=
  if cabinetOnly b pg 0x008 ∧ ag ≠ .cabinet then Syn.AUTH
  else if b = .pwrT ∧ b2n en ≠ s.rd pg BLK_CTRL_EN ∧ ag ≠ .regPort then Syn.AUTH
  else if b = .pwrT ∧ b2n en ≠ s.rd pg BLK_CTRL_EN ∧ s.rd pg PWR_LOCK = 1 then Syn.STATE
  else if frz ∧ frzpFixed b then Syn.STATE
  else if en = false ∧ enStays s b pg then Syn.STATE
  else 0

/-- What a changed EN does beyond the bit (R126, R387, R461). -/
def enChanged (s : State) (b : Blk) (pg : Page) (old : Nat) (en : Bool) : State :=
  match b with
  | .pwrT => limiterRefresh s
  | .rch =>
    if en then (if old = 0 then setLink s (pg.die - 62) Rch.DOWN else s) else softRch s (pg.die - 62) Rch.DISABLED
  | .trc => if en = false ∧ (trcState s pg = TrcSt.ARMED ∨ trcState s pg = TrcSt.RUN) then trcStop s pg else s
  | _ => s

/-! ### Soft reset (R20) -/

/-- What a soft reset of a page is refused with (R17, R67, R114, R254, R406, R430, R454); 0 for nothing. -/
def srstRefusal (s : State) (b : Blk) (pg : Page) (ag : Agent) : Nat :=
  if cabinetOnly b pg 0x008 ∧ ag ≠ .cabinet then Syn.AUTH
  else if pg = Pg.xLcs ∧ ag = .steward then Syn.AUTH
  else if (b = .pwrT ∨ b = .cap) ∧ ag ≠ .regPort then Syn.AUTH
  else if isFrozen s pg then Syn.STATE
  else if (b = .pwrT ∨ b = .cap) ∧ s.rd pg (lockFld pg) = 1 then Syn.STATE
  else if b = .pwrH ∧ s.rd pg HPWR_LOCK = 1 then Syn.STATE
  else if b = .lcs ∧ !pg.isTally ∧ isFollower pg then Syn.STATE
  else if b = .til ∧ s.rd pg TIL_STAT_PSTATE = PS.RETIRED then Syn.STATE
  else 0

/-- R488: a soft reset of a CAB page. -/
def softCab (s : State) (pg : Page) : State :=
  let s := (clearSyn s pg).wr pg CAB_PEER_TAKEOVERS 0
  let s := ([0, 1, 2, 3, 4] ++ blkIrqs .cab).foldl (fun s n => s.wr pg (BLK_IRQ_STAT n) 0) s
  let c := s.hub.cabinet
  setCabinet s { c with hbAt := c.hbAt.map (fun _ => s.now .hub) }

/-- R500, R501: a soft reset of a TST page: ports and halves return to service, a failed half stays failed. -/
def softTst (s : State) (d : Nat) : State :=
  let s := resetPage s (Pg.tst d) (fun k => k.off == 0x05C && k.lo != TST_LINK_RETRAINS.lo)
  let s := { s with hub := { s.hub with locked := s.hub.locked.filter (fun x => x.1 != d) } }
  let s := ((List.range 16).filter (fun p => portDie p == d)).foldl (fun s p => s.wr Pg.xLcs (LCS_TSC_STAT_MODE p) (portModeNow s p 0)) s
  ((allModules s.cfg).filter (fun x => x.1 == d)).foldl (fun s x => setWidth s d x.2 (widthFor s d x.2 0)) s

/-- R461: a trace unit as after reset; the buffer's contents stay in memory. -/
def dropTrc (s : State) (pg : Page) : State := { resetPage s pg keepNone with trace := s.trace.filter (fun x => x.1 != pg) }

/-- The soft reset of a Hub page (R20 and the event tables of the chapters). -/
def hubSoftReset (s : State) (b : Blk) (pg : Page) : State :=
  let m := pg.die - 48
  match b with
  | .lcs => longcaseReset s .hub
  | .bur => softBur s pg
  | .frz => softFrz s pg
  | .trc => dropTrc s pg
  | .stw => resetPage s pg (keepOff [0x04C])
  | .cab => softCab s pg
  | .tst => softTst s pg.die
  | .ing => softIng (resetPage s pg keepNone) pg.die
  | .trs => noteSettings (softTrs (resetPage s pg keepNone) pg.die) pg.die
  | .til =>
    let p := s.rd pg TIL_STAT_PSTATE
    softTil (resetPage s pg keepNone) (pageTile pg) p
  | .mem => setTap (resetPage s pg keepNone) m { getTap s m with patrol := s.now .hub }
  | .tap => softTap (resetPage s pg keepNone) m
  | .cmp => softCmp (resetPage s pg (keepOff [CMP_ENG_OUT.off])) m
  | .rch => softRch (resetPage s pg keepNone) (pg.die - 62) Rch.DOWN
  | .gsi => softGsi (resetPage s pg keepNone) (pg.die - 62)
  | .pwrH => softHpwr (resetPage s pg keepNone)
  | .sec => zeroize (resetPage s pg (keepOff [SEC_STAT_ID.off])) pg.die
  | _ => resetPage s pg keepNone

/-- R18, R20: a write of SRST. -/
def softReset (s : State) (b : Blk) (pg : Page) (ag : Agent) : State :=
  let c := srstRefusal s b pg ag
  if c ≠ 0 then syn s pg c ag false 0x008
  else if pg.isTally then (if b = .trc then dropTrc s pg else tallySoftReset s b pg)
  else hubSoftReset s b pg

/-- A write of BLK_CTRL. With SRST the other bits have no effect; on a frozen page SYN_CLR alone is taken (R454; log entry 42). -/
def blkCtrlWrite (s : State) (b : Blk) (pg : Page) (ag : Agent) (v : Nat) : State :=
  if bit v 1 then softReset s b pg ag
  else if isFrozen s pg then (if bit v 3 then clearSyn s pg else syn s pg Syn.STATE ag false 0x008)
  else
    let c := enRefusal s b pg ag (bit v 0) (bit v 2)
    if c ≠ 0 then syn s pg c ag false 0x008
    else
      let old := s.rd pg BLK_CTRL_EN
      let s := (s.wr pg BLK_CTRL_EN (v % 2)).wr pg BLK_CTRL_FRZ_P (v / 4)
      let s := if old = v % 2 then s else enChanged s b pg old (bit v 0)
      if bit v 3 then clearSyn s pg else s

/-! ### The rest of the common page -/

/-- R18: a write of BLK_IRQ_STAT clears the causes written 1; BLK_IRQ_EN keeps what is written. -/
def irqWrite (s : State) (b : Blk) (pg : Page) (off v : Nat) : State :=
  ([0, 1, 2, 3, 4] ++ blkIrqs b).foldl (fun s n =>
    if off = 0x014 then s.wr pg (BLK_IRQ_EN n) (b2n (bit v n)) else if bit v n then s.wr pg (BLK_IRQ_STAT n) 0 else s) s

/-- R23, R24: a write of the appointment time. -/
def apptTimeWrite (s : State) (b : Blk) (pg : Page) (ag : Agent) (off v : Nat) : State :=
  if apptAccess s pg b ag ≠ 0 then syn s pg (apptAccess s pg b ag) ag false off
  else if isArmed s pg then syn s pg Syn.STATE ag false off
  else if off = 0x020 ∧ v ≥ 1000000000 then syn s pg Syn.RANGE ag false off
  else s.wr pg (if off = 0x020 then BLK_APPT_TIME_NS else if off = 0x024 then BLK_APPT_TIME_SLO else BLK_APPT_TIME_SHI) v

/-- A write below 0x030; the read-only registers take none. -/
def commonWrite (s : State) (b : Blk) (pg : Page) (ag : Agent) (off v : Nat) : State :=
  if off = 0x008 then blkCtrlWrite s b pg ag v
  else if cabinetOnly b pg off ∧ ag ≠ .cabinet then syn s pg Syn.AUTH ag false off
  else if off = 0x010 ∨ off = 0x014 then irqWrite s b pg off v
  else if off = 0x020 ∨ off = 0x024 ∨ off = 0x028 then apptTimeWrite s b pg ag off v
  else if off = 0x02C then apptCtrlWrite s pg b ag v
  else s

/-! ### Registers that act when they are written -/

/-- R92: LCS_CTRL. -/
def lcsCtrlWrite (s : State) (pg : Page) (ag : Agent) (v : Nat) : State :=
  let p := pg.part
  if bit v 1 ∧ (!s.isUnset p ∨ bit v 0) then syn s pg Syn.STATE ag false 0x06C
  else
    let s := s.wr pg LCS_CTRL_AUTO_STEP (v % 2)
    let s := if bit v 2 then
        (if pg.isTally then (s.wr pg LCS_TB_STAT_MISSED 0).wr pg LCS_TB_STAT_BAD_ANN 0 else s.wr pg LCS_SRC_STAT_SWITCHES 0)
      else s
    if bit v 1 then stepTo s p ((s.rd pg LCS_STEP_SHI * 2 ^ 32 + s.rd pg LCS_STEP_SLO) * 1000000000 + s.rd pg LCS_STEP_NS) else s

/-- R59, R92: LCS_GEN; a follower page shows XD0's generation and takes no write (log entry 43). -/
def lcsGenWrite (s : State) (pg : Page) (ag : Agent) (v : Nat) : State :=
  if (pg.isTally ∨ !isFollower pg) ∧ s.isUnset pg.part ∧ s.rd pg LCS_GEN_LOADED = 0 then
    (s.wr pg LCS_GEN_GEN v).wr pg LCS_GEN_LOADED 1
  else syn s pg Syn.STATE ag false 0x054

/-- R257, R163: TIL_CTRL. The power requests of one write exclude each other, and START excludes HALT (log entry 44). -/
def tilCtrlWrite (s : State) (pg : Page) (ag : Agent) (v : Nat) : State :=
  let t := pageTile pg
  if popcount 3 v > 1 ∨ (bit v 5 ∧ bit v 6) then syn s pg Syn.RANGE ag false 0x040
  else if isFrozen s pg ∧ bits v 7 5 ≠ 0 then syn s pg Syn.STATE ag false 0x040
  else if bit v 7 ∧ ag ≠ .cabinet then syn s pg Syn.AUTH ag false 0x040
  else if bit v 7 then retireForGood s t
  else
    let s := if bit v 0 then tilRequest s t ag .wake else if bit v 1 then tilRequest s t ag (.sleep 1)
      else if bit v 2 then tilRequest s t ag (.sleep 2) else s
    if bit v 5 then seqStart s t ag else if bit v 6 then seqHalt s t else s

/-- R360: DGS_CTRL. -/
def dgsCtrlWrite (s : State) (ag : Agent) (v : Nat) : State :=
  match v % 4 with
  | 0 => s
  | 1 => rplReady s ag
  | 2 => rplDecline s ag
  | _ => syn s Pg.dgs Syn.RANGE ag false 0x088

/-- R128: STW_CTRL. -/
def stwCtrlWrite (s : State) (pg : Page) (ag : Agent) (v : Nat) : State :=
  if bit v 0 then stwStart s pg ag else if bit v 1 then stwHalt s pg ag else s

/-- The write of a TIL register beside TIL_CTRL that acts. -/
def tilActWrite (s : State) (pg : Page) (off : Nat) (ag : Agent) (v : Nat) : State :=
  let t := pageTile pg
  if isFrozen s pg then syn s pg Syn.STATE ag false off
  else if off = 0x060 then (setBits 4 v).foldl (fun s q => flushQueue s t q) s
  else
    let x := getTile s t
    setTile (s.wr pg TIL_MBOX_IN v) t { x with tevent := Nat.lor x.tevent 16 }

/-- The registers that act when they are written: the state after the write, none for every other register. -/
def actWrite (s : State) (b : Blk) (pg : Page) (off : Nat) (ag : Agent) (v : Nat) : Option State :=
  match b, off with
  | .lcs, 0x054 => some (lcsGenWrite s pg ag v)
  | .lcs, 0x06C => some (lcsCtrlWrite s pg ag v)
  | .tly, 0x040 => some (tlyUnitWrite s ag (v % 2 ^ 24))
  | .cnt, 0x060 => some (gaugeHostWrite s ag v)
  | .stp, 0x040 => some (stepMark s ag (bits v 31 30) (bits v 29 28) (bits v 27 16) (bits v 15 0))
  | .pwrT, 0x058 | .cap, 0x050 | .shp, 0x04C => some (lockWrite s pg ag (bit v 0))
  | .stw, 0x040 => some (stwCtrlWrite s pg ag v)
  | .stw, 0x04C => some (stwLoad s pg ag v)
  | .til, 0x040 => some (tilCtrlWrite s pg ag v)
  | .til, 0x060 | .til, 0x08C => some (tilActWrite s pg off ag v)
  | .mem, 0x064 => some (injectWrite s pg ag v)
  | .tap, 0x068 => some (scanCtrlWrite s (pg.die - 48) ag v)
  | .cmp, 0x044 => some (if isFrozen s pg then syn s pg Syn.STATE ag false off else engineEnable s pg ag v)
  | .dgs, 0x088 => some (dgsCtrlWrite s ag v)
  | .sec, 0x054 => some (secLoadWrite s pg.die ag v)
  | .sec, 0x078 => some (zeroizeWrite s pg.die ag v)
  | .bur, 0x04C => some (burLookup s pg ag v)
  | .bur, 0x0A4 => some (firmwarePost s pg ag (bits v 18 16) (bits v 11 0))
  | .trc, 0x040 => some (trcCtrlWrite s pg ag v)
  | .cab, 0x064 => some (cabCtrlWrite s pg.die ag v true none)
  | .tst, 0x044 => some (tstModeWrite s pg.die ag v)
  | .tst, 0x048 => some (tstGenWrite s pg.die ag v)
  | .tst, 0x04C => some (tstChkWrite s pg.die ag v)
  | _, _ => none

/-! ### Registers that keep what is written -/

/-- What a write of a register that keeps it is refused with: the agent, a freeze, the staged-copy rules (R22, R24, R63), the value. -/
def keepRefusal (s : State) (b : Blk) (pg : Page) (r : RegS) (st : Bool) (ag : Agent) (v : Nat) : Nat :=
  let a := accessCheck s b pg r.off ag
  if a ≠ 0 then a
  else if isFrozen s pg then Syn.STATE
  else if r.ty = .rwa ∧ isArmed s pg then Syn.STATE
  else if r.ty = .rwa ∧ st = false ∧ s.rd pg BLK_CTRL_EN = 1 ∧ !(b == .lcs && s.isUnset pg.part) then Syn.STATE
  else rangeCheck s b pg r.off v st

/-- A field takes its part of the word (R22: the live value and the staged copy together, where `both`). -/
def keepField (s : State) (pg : Page) (i : Nat) (st both : Bool) (v : Nat) (f : FldS) : State :=
  let x := bits v (f.f.lo + min f.f.w 32 - 1) f.f.lo
  match f.ty with
  | .rw => s.wr pg f.f x i
  | .rwa => if st then s.wr pg f.f.staged x i else if both then (s.wr pg f.f x i).wr pg f.f.staged x i else s.wr pg f.f x i
  | .rw1c => (setBits f.f.w x).foldl (fun s n => s.wr pg f.f (putBit (s.rd pg f.f i) n false) i) s
  | .ro => s
  | .wo => s

/-- What a register that keeps its word does beyond keeping it: limits of the Tally's limiter, the ceiling's burst; a live write of settings
that take effect at once (log entry 45). -/
def keptHook (old s : State) (b : Blk) (pg : Page) (r : RegS) (st : Bool) : State :=
  match b with
  | .pwrT => limiterRefresh s
  | .shp => if r.off = 0x040 ∨ r.off = 0x044 ∨ r.off = 0x048 then clipCeil s else s
  | .hot | .seal | .ing | .trs | .til | .rch => if r.ty = .rwa ∧ st = false then appliedHook old s pg b else s
  | _ => s

def keepWrite (s : State) (b : Blk) (pg : Page) (r : RegS) (st : Bool) (ag : Agent) (v : Nat) : State :=
  let c := keepRefusal s b pg r st ag v
  if c ≠ 0 then syn s pg c ag st (r.off + if st then 0x800 else 0)
  else
    let i := bankIdx s b pg r.off ag
    let v := reservedOut s.cfg b pg r.off v
    let s' := r.flds.foldl (fun s f => keepField s pg i st (r.ty == .rwa && !st) v f) s
    keptHook s s' b pg r st

/-! ### A write of a register -/

/-- A write of the 32-bit word `v` at an offset of a page. -/
def busWrite (s : State) (pg : Page) (off : Nat) (ag : Agent) (v : Nat) : State :=
  match pageBlk s.cfg pg with
  | none => absent s pg ag off
  | some b =>
    if off % 4 ≠ 0 then syn s pg Syn.RANGE ag false off
    else if off < 0x030 then commonWrite s b pg ag off v
    else if 0x840 ≤ off then
      match findReg s.cfg b pg (off - 0x800) with
      | some r => if r.ty = .rwa then keepWrite s b pg r true ag v else absent s pg ag off
      | none => absent s pg ag off
    else match findReg s.cfg b pg off with
      | none => absent s pg ag off
      | some r =>
        match actWrite s b pg off ag v with
        | some s' => s'
        | none => if r.ty = .ro then s else keepWrite s b pg r false ag v

/-! ### What an access was refused with -/

/-- The page a refusal of an access to this offset is recorded on (R16, R21). -/
def accessPage (s : State) (pg : Page) (off : Nat) : Page :=
  match pageBlk s.cfg pg with
  | none => absentPage s pg.part
  | some b =>
    if off < 0x030 ∨ off % 4 ≠ 0 then pg
    else if 0x840 ≤ off then
      (if (findReg s.cfg b pg (off - 0x800)).any (fun r => r.ty == .rwa) then pg else absentPage s pg.part)
    else if (findReg s.cfg b pg off).isSome then pg else absentPage s pg.part

/-- Run an access and find the syndrome it recorded: 0 where it was accepted. -/
def watched (s : State) (pg : Page) (keepOld : Bool) (f : State → State) : State × Nat :=
  let old := s.rd pg BLK_SYNDROME_CODE
  let s' := f (s.wr pg BLK_SYNDROME_CODE 0)
  let c := s'.rd pg BLK_SYNDROME_CODE
  if c = 0 ∧ keepOld then (s'.wr pg BLK_SYNDROME_CODE old, 0) else (s', c)

/-- A write, and the syndrome of its refusal. -/
def writeCode (s : State) (pg : Page) (off : Nat) (ag : Agent) (v : Nat) : State × Nat :=
  watched s (accessPage s pg off) (!(off == 0x008 && (bit v 1 || bit v 3))) (fun s => busWrite s pg off ag v)

/-- A read: the state after it, the word, and the syndrome of its refusal. -/
def readCode (s : State) (pg : Page) (off : Nat) (ag : Agent) : State × Nat × Nat :=
  let r := watched s (accessPage s pg off) true (fun s => (busRead s pg off ag).1)
  (r.1, (busRead s pg off ag).2, r.2)

/-! ### The commands -/

/-- The page and offset of an address (R14, R15). -/
def addrPage : RegAddr → Page
  | .tally a => .tally (a.toNat / 2 ^ 12)
  | .hub a => .hub (a.toNat / 2 ^ 24) (a.toNat / 2 ^ 12 % 2 ^ 12)
def addrOff : RegAddr → Nat
  | .tally a => a.toNat % 2 ^ 12
  | .hub a => a.toNat % 2 ^ 12

/-- R22: a write of a register. -/
def execRegisterWrite (a : RegAddr) (ag : Agent) (v : Word) (s : State) : Host.Outcome State Fault Refusal :=
  .next (busWrite s (addrPage a) (addrOff a) ag v.toNat)

/-- R18: BLK_CTRL.SYN_CLR, accepted on a frozen page too (R454). -/
def execSynClr (pg : Page) (ag : Agent) (s : State) : Host.Outcome State Fault Refusal :=
  match pageBlk s.cfg pg with
  | none => .next (absent s pg ag 0x008)
  | some b => if cabinetOnly b pg 0x008 ∧ ag ≠ .cabinet then .next (syn s pg Syn.AUTH ag false 0x008) else .next (clearSyn s pg)

/-- R20: BLK_CTRL.SRST. -/
def execSoftReset (pg : Page) (ag : Agent) (s : State) : Host.Outcome State Fault Refusal :=
  match pageBlk s.cfg pg with
  | none => .next (absent s pg ag 0x008)
  | some b => .next (softReset s b pg ag)

/-! ### The commands of the inlet (R138) -/

/-- R138 WRITE: words from `i` on; stops at the first refused one. Answers the state, its code, how many words were written. -/
def inletWrites (page off : Nat) : Nat → List Nat → State → State × Nat × Nat
  | _, [], s => (s, 0, 0)
  | i, v :: vs, s =>
    let r := writeCode s (.tally page) (off + 4 * i) .cabinet v
    if r.2 ≠ 0 then (r.1, r.2, 0)
    else
      let t := inletWrites page off (i + 1) vs r.1
      (t.1, t.2.1, t.2.2 + 1)

/-- R138 READ: words from `i` on, `n` of them. -/
def inletReads (page off : Nat) : Nat → Nat → State → State × Nat × List Nat
  | _, 0, s => (s, 0, [])
  | i, n + 1, s =>
    let r := readCode s (.tally page) (off + 4 * i) .cabinet
    if r.2.2 ≠ 0 then (r.1, r.2.2, [])
    else
      let t := inletReads page off (i + 1) n r.1
      (t.1, t.2.1, r.2.1 :: t.2.2)

/-- A command whose data are fewer than COUNT says is refused with SIZE (log entry 46). -/
def execWrite (f : InFrame) (page : BitVec 6) (off : BitVec 12) (count : Byte) (data : List Word) (s : State) :
    Host.Outcome State Fault Refusal :=
  .next (runCommand s f 0x01 (fun s =>
    if count.toNat > 64 ∨ data.length < count.toNat then cmdRefuse s Pg.sealP Syn.SIZE
    else
      let r := inletWrites page.toNat off.toNat 0 ((data.take count.toNat).map (·.toNat)) s
      (r.1, r.2.1, r.2.2, [])))

def execRead (f : InFrame) (page : BitVec 6) (off : BitVec 12) (count : Byte) (s : State) : Host.Outcome State Fault Refusal :=
  .next (runCommand s f 0x02 (fun s =>
    if count.toNat > 64 then cmdRefuse s Pg.sealP Syn.SIZE
    else
      let r := inletReads page.toNat off.toNat 0 count.toNat s
      (r.1, r.2.1, r.2.2.length, r.2.2.flatMap (beBytes 4))))

/-- Set the appointment time of a page, ns. -/
def setApptTime (s : State) (pg : Page) (t : Nat) : State :=
  ((s.wr pg BLK_APPT_TIME_NS (t % 1000000000)).wr pg BLK_APPT_TIME_SLO (t / 1000000000)).wr pg BLK_APPT_TIME_SHI (t / 1000000000 / 2 ^ 32)

/-- R138, R482: an appointment is written and armed on a page; the syndrome of a refusal beside the state. -/
def armAt (s : State) (pg : Page) (ag : Agent) (sec ns : Nat) : State × Nat :=
  match pageBlk s.cfg pg with
  | none => (absent s pg ag 0x020, Syn.ABSENT)
  | some b =>
    let a := apptAccess s pg b ag
    if a ≠ 0 then (syn s pg a ag false 0x02C, a)
    else if isArmed s pg then (syn s pg Syn.STATE ag false 0x020, Syn.STATE)
    else if ns ≥ 1000000000 then (syn s pg Syn.RANGE ag false 0x020, Syn.RANGE)
    else
      let s := armChecked (setApptTime s pg (sec * 1000000000 + ns)) pg b ag
      if isArmed s pg then (s, 0) else (s, s.rd pg BLK_SYNDROME_CODE)

/-- R138 ARM: the pages of a mask in ascending order: the first code, the pages armed, the mask of refused pages. -/
def armMask (sec ns : Nat) : List Nat → State → State × Nat × Nat × Nat
  | [], s => (s, 0, 0, 0)
  | p :: ps, s =>
    let r := armAt s (.tally p) .cabinet sec ns
    let t := armMask sec ns ps r.1
    if r.2 = 0 then (t.1, t.2.1, t.2.2.1 + 1, t.2.2.2) else (t.1, r.2, t.2.2.1, t.2.2.2 + 2 ^ p)

def execArm (f : InFrame) (mask : BitVec 64) (appt : BitVec 96) (s : State) : Host.Outcome State Fault Refusal :=
  .next (runCommand s f 0x03 (fun s =>
    let r := armMask (appt.toNat / 2 ^ 32) (appt.toNat % 2 ^ 32) (setBits 64 mask.toNat) s
    (r.1, r.2.1, r.2.2.1, beBytes 8 r.2.2.2)))

/-- R138, R115, R116: the CAP action stages the code and arms the CAP page. -/
def capAction (s : State) (code sec ns : Nat) : State × Nat × Nat × List Nat :=
  if isArmed s Pg.cap then cmdRefuse s Pg.cap Syn.STATE
  else if capCodeCheck s code ≠ 0 then cmdRefuse s Pg.cap (capCodeCheck s code)
  else
    let s := s.wr Pg.cap CAP_CODE.staged code
    if ns ≥ 1000000000 then cmdRefuse s Pg.cap Syn.RANGE
    else
      let s := armChecked (setApptTime s Pg.cap (sec * 1000000000 + ns)) Pg.cap .cap .cabinet
      if isArmed s Pg.cap then (s, 0, 1, []) else (s, s.rd Pg.cap BLK_SYNDROME_CODE, 0, [])

def execCap (f : InFrame) (code : BitVec 12) (appt : BitVec 96) (s : State) : Host.Outcome State Fault Refusal :=
  .next (runCommand s f 0x04 (fun s => runAction s f (fun _ s => capAction s code.toNat (appt.toNat / 2 ^ 32) (appt.toNat % 2 ^ 32))))

end Sys2Proof.Machine
end

