-- ==== Sys2Proof/Machine/Rosters.lean ====
section
/-!
DEFINITION. Sys2Proof/Machine/Rosters.lean: what the Cabinet checks of rosters (R36–R41), policies (R308, R335, R416), field tables and
appointments (R44–R46, R48) before a change reaches any unit.
-/
namespace Sys2Proof.Machine
open Reg

/-! ### Shard descriptors (R39, R40) -/

/-- R40: one extent. -/
def extentCheck (e : Extent) : Nat :=
  if !([4, 6, 8, 16, 32].contains e.bits) || decide (e.tensor ≥ 2 ^ 16) || decide (e.base ≥ 2 ^ 48) || decide (e.len ≥ 2 ^ 32) ||
      (decide (e.bits < 8) && e.stride != 0) then Syn.RANGE
  else if e.base + e.len > 2 ^ 48 then Syn.SIZE
  else 0

/-- The runs (tensor, first index, end) a replica group covers, ascending. -/
def groupSpans (ms : List Member) (g : Nat) : List (Nat × Nat × Nat) :=
  sortLe (fun a b => decide (a.1 < b.1 ∨ (a.1 = b.1 ∧ a.2.1 ≤ b.2.1)))
    ((((ms.filter (fun m => m.rgroup == g)).flatMap (·.shard)).filter (fun e => e.len != 0)).map (fun e => (e.tensor, e.base, e.base + e.len)))

/-- Two runs that follow each other in a sorted list share an index. -/
def spansClash : List (Nat × Nat × Nat) → Bool
  | a :: b :: t => (a.1 == b.1 && decide (b.2.1 < a.2.2)) || spansClash (b :: t)
  | _ => false

/-- The union of sorted runs: runs that touch are joined. -/
def joinSpans (l : List (Nat × Nat × Nat)) : List (Nat × Nat × Nat) :=
  (l.foldl (fun acc x =>
    match acc with
    | y :: t => if y.1 = x.1 ∧ x.2.1 ≤ y.2.2 then (y.1, y.2.1, max y.2.2 x.2.2) :: t else x :: y :: t
    | [] => [x]) []).reverse

/-! ### Rosters (R36, R37) -/

/-- The roster a job has at an instant: of the changes under way, the last that applies by then. -/
def rosterBy (s : State) (j : HJob) (t : Nat) : Option Roster :=
  let pend := s.hub.cabinet.journal.filter (fun e => e.st == Jr.STARTED && !e.cancelled && e.job == j.job && e.appt != 0 && decide (e.appt ≤ t))
  if pend.any (fun e => e.op == 0x23) then none
  else
    let now := ((jobNow s j).map (·.gen)).getD 0
    rosterOf s j.job ((pend.map (·.gen)).foldl max now)

/-- The jobs being created by an instant. -/
def newJobs (s : State) (t : Nat) : List HJob :=
  (s.hub.cabinet.journal.filter (fun e => e.st == Jr.STARTED && !e.cancelled && e.op == 0x20 && decide (e.appt ≤ t))).filterMap (·.newJob)

/-- R37: the rosters of the other jobs at an instant. -/
def otherRosters (s : State) (job t : Nat) : List Roster :=
  ((s.hub.jobs ++ newJobs s t).filter (fun j => j.job != job)).filterMap (fun j => rosterBy s j t)

/-- The units of a roster are all different. -/
def unitsTwice (ms : List Member) : Bool := (ms.map (·.unit)).eraseDups.length != ms.length

/-- R37–R41: the checks of a roster against the other jobs' rosters. -/
def rosterCheck (r : Roster) (others : List Roster) : Nat :=
  let ms := r.members
  let ext := (ms.flatMap (·.shard)).map extentCheck
  let groups := (List.range r.groups).map (groupSpans ms)
  if r.job = 0 ∨ r.job ≥ 2 ^ 32 ∨ r.k > 13 ∨ r.groups = 0 ∨ r.groups > 4096 then Syn.RANGE
  else if ms.isEmpty ∨ ms.length > 1048576 ∨ ms.any (fun m => decide (m.shard.length > 64)) then Syn.SIZE
  else if ms.any (fun m => decide (m.unit ≥ 2 ^ 24) || decide (m.slot > 3) || decide (m.rgroup > 4095) || decide (m.pgroup > 15)) then Syn.RANGE
  else if ext.any (fun c => c != 0) then (ext.find? (fun c => c != 0)).getD 0
  else if unitsTwice ms then Syn.ROSTER
  else if ms.any (fun m => decide (m.rgroup ≥ r.groups) || (m.lite && m.slot != 0)) then Syn.ROSTER
  else if ms.any (fun m => others.any (fun o => o.members.any (fun x => x.unit == m.unit && x.slot == m.slot))) then Syn.ROSTER
  else if groups.any spansClash then Syn.ROSTER
  else if groups.any (fun g => joinSpans g != joinSpans (groups.headD [])) then Syn.ROSTER
  else 0

/-- R37: members of a roster this Hub serves. -/
def servedOf (s : State) (r : Roster) : List Member := r.members.filter (fun m => m.hub == selfId s)

/-- The other Hubs of some members. -/
def otherHubs (s : State) (ms : List Member) : List Nat := ((ms.map (·.hub)).eraseDups).filter (fun h => h != selfId s)

/-! ### Policies -/

/-- R308: the ranges of a verdict policy. -/
def vpolCheck (p : VPolicy) : Bool :=
  let within (x lo hi : Nat) : Bool := decide (lo ≤ x) && decide (x ≤ hi)
  within p.level 0 1 && within p.absNs 1 1000000000 && within p.mult 0 255 && within p.markWait 125 65535 && within p.minUnits 3 65535 &&
  within p.freqGauge 0 15 && (p.levelTop == 0 || within p.levelTop 400 4094) && (p.levelFloor == 0 || within p.levelFloor 1 4094) &&
  within p.raisePct 1 5 && within p.headroom 3 255 && within p.migrate 0 65535 && decide (p.driftThr < 2 ^ 32) &&
  decide (p.driftThr / 2 ^ 23 % 256 ≠ 255) && within p.driftWin 1 255

/-- R308: a floor above the effective top. -/
def vpolFloor (p : VPolicy) (j : HJob) (units : List Nat) : Bool := decide (p.levelFloor ≤ effTop p j units)

/-- R335: the ranges of a digest policy. -/
def dpolCheck (p : DPolicy) : Bool :=
  decide (p.every ≤ 65535) && decide (1 ≤ p.reportWait) && decide (p.reportWait ≤ 10000) && decide (100 ≤ p.replayWait) &&
  decide (p.replayWait ≤ 600000) && decide (1 ≤ p.obsH) && decide (p.obsH ≤ 720) && decide (1 ≤ p.testS) && decide (p.testS ≤ 65535)

/-- R416: the ranges of a key policy, and its overlap against the Reach ports (R379) and the job's settings. -/
def kpolCheck (s : State) (p : KPolicy) (g : JobGen) : Bool :=
  let retx := max (s.rd (Pg.rch 0) RCH_RETX_RETX_MAX_MS) (s.rd (Pg.rch 1) RCH_RETX_RETX_MAX_MS)
  decide (100 ≤ p.overlap) && decide (p.overlap ≤ 600000) && decide (p.rollS ≤ 604800) && decide (p.powerMask < 2 ^ 16) &&
  decide (2 * retx ≤ p.overlap) &&
  decide ((g.late + 1) * (125000 * 2 ^ g.k) + g.sealO * 1000 + g.hold * 1000000 ≤ p.overlap * 1000000)

/-! ### Field tables (R182, R199) -/

def fieldCheck (f : TField) : Nat :=
  if f.src ≥ 12 ∨ f.mkind > 2 ∨ f.index > fieldIndexMax f.src ∨ f.shift > 63 ∨ f.bias < -(2 ^ 25) ∨ f.bias ≥ 2 ^ 25 then Syn.RANGE else 0

/-- The checks of a table. -/
def tableCheck (l : List TField) : Nat :=
  if l.length > 2048 ∨ (l.filter (fun f => f.hist)).length > 256 then Syn.SIZE
  else if l.any (fun f => fieldCheck f != 0) then Syn.RANGE
  else 0

/-! ### Appointments (R44–R46, R48) -/

/-- R48: the minimum lead of a change in which some Hubs take part beside this one, ns. -/
def leadOfHubs (s : State) (job : Nat) (hubs : List Nat) : Nat :=
  let me := selfId s
  if hubs.all (fun h => h == me) then 2000000
  else if hubs.all (fun h => boardOf h == boardOf me) then 5000000
  else if hubs.all (fun h => siteOf h == siteOf me) then 20000000
  else 20000000 + 2 * Config.mgmtDelay job

/-- R44–R46: an appointment against the lengths it must be a boundary of. -/
def apptCheck (s : State) (lead : Nat) (ks : List Nat) (t : Nat) : Nat :=
  if ks.any (fun k => !isBoundary k t) then Syn.RANGE
  else if t ≤ s.now .hub ∨ t < s.now .hub + lead then Syn.LATE
  else 0

/-- R477: an appointment that is absent: the first boundary of every length that meets R48. -/
def pickAppt (s : State) (lead : Nat) (ks : List Nat) (t : Option Nat) : Nat := t.getD (boundaryAt (ks.foldl max 0) (s.now .hub + lead))

/-- R34, R136, R361: the lengths of the other jobs on some units. -/
def sharedKs (s : State) (job t : Nat) (units : List Nat) : List Nat :=
  ((otherRosters s job t).filter (fun r => r.members.any (fun m => units.contains m.unit))).map (·.k)

/-- R123: HOT_WIN of a unit where slot `slot` takes length code k. -/
def hotWin (s : State) (job t : Nat) (m : Member) (k : Nat) : Nat :=
  let others := otherRosters s job t
  let kOf (i : Nat) : Nat :=
    if i = m.slot then k else ((others.find? (fun r => r.members.any (fun x => x.unit == m.unit && x.slot == i))).map (·.k)).getD 3
  if m.lite then kOf 0 else kOf 0 + kOf 1 * 16 + kOf 2 * 256 + kOf 3 * 4096

end Sys2Proof.Machine
end

