-- ==== Sys2Proof/Machine/Mgmt.lean ====
section
/-!
DEFINITION. Sys2Proof/Machine/Mgmt.lean: management sessions (R424, R475), who may ask for what (R426, R469, R477), and the operations that make
no journal entry.
-/
namespace Sys2Proof.Machine
open Reg

/-! ### Sessions -/

def setSessions (s : State) (l : List Session) : State := setCabinet s { s.hub.cabinet with sessions := l }
def findSession (s : State) (id : Nat) : Option Session := s.hub.cabinet.sessions.find? (fun x => x.id == id)
def modSession (s : State) (id : Nat) (f : Session → Session) : State :=
  setSessions s (s.hub.cabinet.sessions.map (fun x => if x.id = id then f x else x))

/-- The die of the complex that serves: the ACTIVE one; in SAFE, XD0's. -/
def servingDie (s : State) : Nat := (complexIn s Role.ACTIVE).getD 56

/-- R475: room for one more session of a kind. -/
def sessionRoom (s : State) (operator : Bool) : Bool :=
  decide ((s.hub.cabinet.sessions.filter (fun x => x.operator == operator)).length < (if operator then 8 else 56))

def addSession (s : State) (port : Nat) (operator anon : Bool) (jobs : List Nat) (cert : Nat) : State :=
  let c := s.hub.cabinet
  setCabinet s { c with
    nextSession := c.nextSession + 1
    sessions := c.sessions ++ [{ id := c.nextSession, port, operator, anon, jobs, cert, last := s.now .hub, journal := false, bureau := none }] }

/-- R424, R469, R475: a handshake on MA (0) or MB (1): `tls` says its settings are those of R424, `chains` that the client certificate chains to the
operator CA and names one role: an operator (none), or a tenant's jobs; `cert` is the certificate's hash. -/
def execMgmtSessionOpen (port : Nat) (tls chains : Bool) (role : Option (List Nat)) (cert : Nat) (s : State) : Host.Outcome State Fault Refusal :=
  if port ≥ 2 ∨ s.hub.aligned.getD (16 + port) false = false ∨ portTest s (16 + port) ∨ tls = false then .next s
  else if hubSafe s then
    (if s.rd (Pg.sec 56) SEC_STAT_ID = 1 ∧ sessionRoom s false then .next (addSession s port false true [] 0) else .next s)
  else if (complexIn s Role.ACTIVE).isNone ∨ chains = false then .next s
  else match role with
    | none => .next (if sessionRoom s true then addSession s port true false [] cert else s)
    | some jobs => .next (if decide (jobs.length ≤ 16) && sessionRoom s false then addSession s port false false jobs cert else s)

/-- R475: a session idle for 300 s. -/
def execSessionIdle (ses : Nat) (s : State) : Host.Outcome State Fault Refusal :=
  match findSession s ses with
  | some x => if s.now .hub ≥ x.last + 300000000000 then .next (setSessions s (s.hub.cabinet.sessions.filter (fun y => y.id != ses))) else .next s
  | none => .next s

/-! ### Requests -/

def replyTo (s : State) (ses op req st : Nat) (b : MBody) : State := s.send (.reply ses op req st b)

/-- R426: a tenant's refused request is counted. -/
def deny (s : State) (x : Session) (op req : Nat) : State :=
  let c := s.hub.cabinet
  replyTo (if x.operator || x.anon then s else setCabinet s { c with denied := c.denied + 1 }) x.id op req Syn.AUTH .empty

/-- R469, R477: a request of a session; `opOnly`: the operation is an operator's. -/
def request (s : State) (ses op req : Nat) (opOnly : Bool) (f : State → Session → State) : Host.Outcome State Fault Refusal :=
  match findSession s ses with
  | none => .next s
  | some x =>
    let s := modSession s ses (fun x => { x with last := s.now .hub })
    if x.anon then .next (if [0x01, 0x02, 0x70].contains op then f s x else deny s x op req)
    else if opOnly && !x.operator then .next (deny s x op req)
    else .next (f s x)

/-- R426: a request that names a job. -/
def jobRequest (s : State) (ses op req job : Nat) (f : State → Session → State) : Host.Outcome State Fault Refusal :=
  request s ses op req false (fun s x =>
    if !x.operator && !x.jobs.contains job then deny s x op req
    else if job = 0 then replyTo s x.id op req Syn.RANGE .empty
    else f s x)

/-! ### HELLO, BOOT_STATUS, REG_READ -/

def execHello (ses req : Nat) (s : State) : Host.Outcome State Fault Refusal :=
  request s ses 0x01 req false (fun s _ =>
    replyTo s ses 0x01 req 0 (.hello Config.deviceId.toNat s.cfg.qh40 (cabRole s (servingDie s)) (ownIndex s) s.hub.cabinet.boots))

/-- The word of CAB_STATE. -/
def execBootStatus (ses req : Nat) (s : State) : Host.Outcome State Fault Refusal :=
  request s ses 0x02 req false (fun s _ =>
    let r := busRead s (Pg.cab (servingDie s)) CAB_STATE_ROLE.off .cabinet
    replyTo r.1 ses 0x02 req 0 (.words [r.2]))

/-- Registers of the Hub from an address on, up to the first refusal: the state, its syndrome, the words. -/
def readHubWords (pg : Page) (off : Nat) : Nat → State → State × Nat × List Nat
  | 0, s => (s, 0, [])
  | n + 1, s =>
    let r := readCode s pg off .cabinet
    if r.2.2 ≠ 0 then (r.1, r.2.2, [])
    else
      let t := readHubWords pg (off + 4) n r.1
      (t.1, t.2.1, r.2.1 :: t.2.2)

/-- The READs of at most 64 words (R138) that make up `n` words: first word and count of each. -/
def chunksOf (n : Nat) : List (Nat × Nat) := (List.range (ceilDiv n 64)).map (fun i => (64 * i, min 64 (n - 64 * i)))

/-- R477 REG_READ of a unit's registers: READ commands, answered in one REPLY. -/
def readUnit (s : State) (ses req unit page off n : Nat) : State :=
  if !canCommand s then replyTo s ses 0x10 req Syn.STATE .empty
  else if n = 0 then replyTo s ses 0x10 req 0 (.words [])
  else
    let c := s.hub.cabinet
    let id := c.nextQuery
    let l := chunksOf n
    let s := setCabinet s { c with nextQuery := id + 1, queries := c.queries ++ [{ id, session := ses, req, parts := l.length, got := [] }] }
    l.zipIdx.foldl (fun s x => sendCmd s unit 0 (.read page (off + 4 * x.1.1) x.1.2) (.query id x.2)) s

def execRegRead (ses req : Nat) (a : RegAddr) (unit count : Nat) (s : State) : Host.Outcome State Fault Refusal :=
  request s ses 0x10 req true (fun s _ =>
    if count > 256 then replyTo s ses 0x10 req Syn.SIZE .empty
    else match addrPage a with
      | .tally p => readUnit s ses req unit p (addrOff a) count
      | .hub d p =>
        let r := readHubWords (.hub d p) (addrOff a) count s
        replyTo r.1 ses 0x10 req r.2.1 (.words r.2.2))

/-! ### The journal (R480) -/

/-- R426: an entry the session may see. -/
def seesEntry (x : Session) (e : JEntry) : Bool := x.operator || x.jobs.contains e.job

/-- JOURNAL_GET by journal ID or by the request's REQ_ID. -/
def execJournalGet (ses req : Nat) (id : Option Nat) (reqId : Nat) (s : State) : Host.Outcome State Fault Refusal :=
  request s ses 0x40 req false (fun s x =>
    let found := match id with
      | some i => jentry s i
      | none => s.hub.cabinet.journal.find? (fun e => e.req == reqId && e.cert == x.cert && e.session != 0)
    match found with
    | none => replyTo s ses 0x40 req Syn.ABSENT .empty
    | some e => if seesEntry x e then replyTo s ses 0x40 req 0 (.entry e) else deny s x 0x40 req)

/-- JOURNAL_LIST: the entries of a state from an ID on, ascending. -/
def execJournalList (ses req st fromId count : Nat) (s : State) : Host.Outcome State Fault Refusal :=
  request s ses 0x41 req false (fun s x =>
    if count > 1024 then replyTo s ses 0x41 req Syn.SIZE .empty
    else if st > 4 then replyTo s ses 0x41 req Syn.RANGE .empty
    else
      let l := s.hub.cabinet.journal.reverse.filter (fun e => e.st == st && decide (e.id ≥ fromId) && seesEntry x e)
      replyTo s ses 0x41 req 0 (.entries (l.take count)))

/-! ### The tenant view (R426, R427) -/

/-- R427: the power of an energy (nJ) over an interval (ns), W. -/
def powerOf (nj d : Nat) : Nat := nj / (10 * d) * 10

/-- R426, R427: a verdict entry as a tenant sees it. -/
def tenantEntry (e : VEntry) : VEntry :=
  if e.type = 0x17 then { e with a := e.a - bits e.a 42 32 * 2 ^ 32 + 0x7FF * 2 ^ 32 }
  else if e.type = 1 then { e with b := ofSigned 64 (Int.tdiv (toSigned 64 e.b) 1000 * 1000) }
  else e

def tenantRec (r : VRec) : VRec :=
  { r with head := { r.head with issued := r.head.issued / 1000 * 1000, apptNs := r.head.apptNs / 1000 * 1000 },
           entries := (r.entries.filter (fun e => e.type != 6)).map tenantEntry }

/-- VERDICTS_GET: the full records of windows `lo` to `hi` that the ring holds, oldest first. -/
def execVerdictsGet (ses req job lo hi : Nat) (s : State) : Host.Outcome State Fault Refusal :=
  jobRequest s ses 0x50 req job (fun s x =>
    match hjob s job with
    | none => replyTo s ses 0x50 req Syn.ABSENT .empty
    | some j =>
      let l := (j.ring.filter (fun r => decide (lo ≤ r.win) && decide (r.win ≤ hi))).reverse
      replyTo s ses 0x50 req 0 (.verdicts (if x.operator then l else l.map tenantRec)))

/-- The entries of a stream's content: FLAGS, UNIT, WINDOW, payload (R290). -/
def splitStream : Nat → List Nat → List (Nat × Nat × Nat × List Nat)
  | 0, _ => []
  | fuel + 1, l =>
    if l.length < 24 then []
    else
      let n := ofBe (l.take 2)
      (ofBe ((l.drop 2).take 1), ofBe ((l.drop 4).take 3), ofBe ((l.drop 8).take 8), (l.drop 24).take n) :: splitStream fuel (l.drop (24 + n))

/-- The content of the committed T1 blocks of a job on a die that hold some of the seconds `lo` to `hi`. -/
def t1Blocks (s : State) (m job lo hi : Nat) : List (List Nat) :=
  let t := getTap s m
  (List.range (headOf t 1 - tailOf t 1)).filterMap (fun i =>
    let seq := tailOf t 1 + i
    let e := getEntry s m 1 seq
    if e.seq = seq ∧ e.state = Ent.COMMITTED ∧ e.poison = false ∧ e.job = job ∧ e.first ≤ hi ∧ lo ≤ e.last then
      decodeFrame (hbmRead s (dataBase s.cfg m 1 + e.ofs * 64) e.clen)
    else none)

/-- The summaries of a job: unit, second, bytes. -/
def t1Summaries (s : State) (job lo hi : Nat) : List (Nat × Nat × List Nat) :=
  ((List.range 8).flatMap (fun m => t1Blocks s m job lo hi)).flatMap (fun c =>
    (splitStream c.length c).filterMap (fun e =>
      if bit e.1 3 ∧ lo ≤ e.2.2.1 ∧ e.2.2.1 ≤ hi then some (e.2.1, e.2.2.1, e.2.2.2) else none))

/-- Bits set in 32-bit words. -/
def onesOf (l : List Nat) : Nat := ((List.range 32).map (fun i => (l.filter (fun w => bit w i)).length)).foldl (· + ·) 0

/-- The words of some bytes. -/
def wordsOf (l : List Nat) (n : Nat) : List Nat := (List.range n).map (fun i => ofBe ((l.drop (4 * i)).take 4))

/-- Bytes of a summary's section after its header (R131, R292), `q` queues to a partition. -/
def summSecLen (q h : Nat) (rest : List Nat) : Nat :=
  let n := h % 2 ^ 16
  let map := ceilDiv n 32
  let sat := if bit h 22 then map * 4 else 0
  match h / 2 ^ 24 with
  | 1 => if bit h 23 then map * 4 + 8 * onesOf (wordsOf rest map) + sat else 8 * n + sat
  | 2 => 12 * n
  | 3 => 28 * n
  | 4 => 20
  | 5 => 4 + 8 * q * onesOf (wordsOf rest 1) + 16
  | 6 => 20
  | 7 => 4
  | _ => 12

/-- The sections of a summary: header word, body. -/
def summSections (q : Nat) : Nat → List Nat → List (Nat × List Nat)
  | 0, _ => []
  | fuel + 1, l =>
    if l.length < 4 then []
    else
      let h := ofBe (l.take 4)
      let n := summSecLen q h (l.drop 4)
      (h, (l.drop 4).take n) :: summSections q fuel (l.drop (4 + n))

/-- R426: the gauges of a section that carry no power stay. -/
def plainGauges (mask : Nat) (body : List Nat) : List (List Nat) :=
  ((List.range (body.length / 28)).map (fun i => (body.drop (28 * i)).take 28)).filter (fun g => !bit mask (ofBe (g.take 4)))

/-- R426: what a tenant is served of a summary: its sections without ENERGY and the power gauges; the power of each energy of the second (fJ). -/
def tenantSummary (mask q : Nat) (bytes : List Nat) : List Nat × List Nat :=
  let secs := summSections q 8 bytes
  (secs.flatMap (fun x =>
    if x.1 / 2 ^ 24 = 5 then []
    else if x.1 / 2 ^ 24 = 3 then
      let g := plainGauges mask x.2
      secHdr 3 false false g.length ++ g.flatten
    else beBytes 4 x.1 ++ x.2),
   secs.flatMap (fun x =>
    if x.1 / 2 ^ 24 = 5 then
      (List.range ((x.2.length - 4) / 8)).map (fun i => powerOf (ofBe ((x.2.drop (4 + 8 * i)).take 8) / 1000000) 1000000000)
    else []))

/-- How many power gauges a summary holds. -/
def powerGauges (mask q : Nat) (bytes : List Nat) : Nat :=
  ((summSections q 8 bytes).map (fun x => if x.1 / 2 ^ 24 = 3 then x.2.length / 28 - (plainGauges mask x.2).length else 0)).foldl (· + ·) 0

/-- R427: the mean of a power gauge is not in the summary: a free value, in steps of 10 W. -/
def freeMeans : Nat → State → State × List Nat
  | 0, s => (s, [])
  | n + 1, s =>
    let f := s.free
    let r := freeMeans n f.1
    (r.1, f.2 / 10 * 10 :: r.2)

/-- R426: the tenant's view of a job's summaries. -/
def tenantSummaries (s : State) (j : HJob) (l : List (Nat × Nat × List Nat)) : State × List (Nat × Nat × List Nat × List Nat) :=
  let mask := ((polAt j.kpol (s.now .hub)).map (fun (p : KPolicy) => p.powerMask)).getD 0
  let gen := ((jobNow s j).map (·.gen)).getD 0
  l.foldl (fun r x =>
    let q := if (memberOf s j.job gen x.1).any (fun m => m.lite) then 4 else 16
    let v := tenantSummary mask q x.2.2
    let f := freeMeans (powerGauges mask q x.2.2) r.1
    (f.1, r.2 ++ [(x.1, x.2.1, v.1, v.2 ++ f.2)])) (s, [])

/-- SUMMARY_GET: the committed summaries of seconds `lo` to `hi`. -/
def execSummaryGet (ses req job lo hi : Nat) (s : State) : Host.Outcome State Fault Refusal :=
  jobRequest s ses 0x51 req job (fun s x =>
    match hjob s job with
    | none => replyTo s ses 0x51 req Syn.ABSENT .empty
    | some j =>
      let l := t1Summaries s job lo hi
      if x.operator then replyTo s ses 0x51 req 0 (.summaries l)
      else
        let r := tenantSummaries s j l
        replyTo r.1 ses 0x51 req 0 (.powers r.2))

/-- R427: a job's energy at a 100 ms boundary. -/
def energyAt (s : State) (job t : Nat) : Option Nat :=
  (s.hub.cabinet.energy.find? (fun x => x.1 == job && x.2.1 == t)).map (·.2.2)

/-- R427 ENERGY_GET: the power of a job over an interval, ns. -/
def execEnergyGet (ses req job lo hi : Nat) (s : State) : Host.Outcome State Fault Refusal :=
  jobRequest s ses 0x52 req job (fun s _ =>
    if lo % 100000000 ≠ 0 ∨ hi % 100000000 ≠ 0 ∨ hi ≤ lo then replyTo s ses 0x52 req Syn.RANGE .empty
    else match energyAt s job lo, energyAt s job hi with
      | some a, some b => replyTo s ses 0x52 req 0 (.power (powerOf (b - a) (hi - lo)))
      | _, _ => replyTo s ses 0x52 req Syn.ABSENT .empty)

/-! ### BUREAU_READ, SUBSCRIBE -/

/-- R442: the 64 bytes of a Bureau entry, from the store or else from the spill ring. -/
def burEntry (s : State) (seq : Nat) : Option (List Nat) :=
  match s.hub.burStore.find? (fun e => e.seq == seq) with
  | some e => some e.bytes
  | none =>
    let size := s.rd (Pg.hBur 56) BUR_SPILL_SIZE
    let b := hbmRead s (s.rd (Pg.hBur 56) BUR_SPILL_BASE * 4096 + 64 * (seq % (size * 64))) 64
    if size ≠ 0 ∧ ofLe (b.take 8) = seq then some b else none

/-- R442: the entries from a SEQ on. -/
def execBureauRead (ses req fromSeq : Nat) (s : State) : Host.Outcome State Fault Refusal :=
  request s ses 0x60 req true (fun s _ =>
    let head := s.rd (Pg.hBur 56) BUR_HEAD
    let l := (List.range (head - fromSeq)).map (fun i => burEntry s (fromSeq + i))
    let got := l.filterMap (fun x => x)
    replyTo s ses 0x60 req 0 (.bureau got (l.length - got.length) head))

/-- R478: journal events on or off, the Bureau severity threshold (none: off; never for a tenant, R426). -/
def execSubscribe (ses req : Nat) (journal : Bool) (bureau : Option Nat) (s : State) : Host.Outcome State Fault Refusal :=
  request s ses 0x61 req false (fun s x =>
    if bureau.isSome && !x.operator then deny s x 0x61 req
    else if bureau.any (fun t => decide (t > 7)) then replyTo s ses 0x61 req Syn.RANGE .empty
    else replyTo (modSession s ses (fun x => { x with journal, bureau })) ses 0x61 req 0 .empty)

end Sys2Proof.Machine
end

