-- ==== Sys2Proof/Machine/Placement.lean ====
section
/-!
DEFINITION. Sys2Proof/Machine/Placement.lean: Weaja images and placements (R243–R249, R423): the checks of an image, the routes and links of
its transfers, the lengths a and b, the loading of a tile set.
-/
namespace Sys2Proof.Machine
open Reg

/-! ### The image (R245–R247, R423) -/



/-- The RANK of a section of the job's model region. -/
def modelRank : Nat := 0xFFFFFFFF

/-- Ranks with no inbound edge from a rank that is left are taken away, round by round; what stays is on a cycle or behind one. -/
def unordered (edges : List WEdge) : Nat → List Nat → List Nat
  | 0, l => l
  | n + 1, l => unordered edges n (l.filter (fun r => edges.any (fun e => e.to_ == r && l.contains e.from_)))

/-- R245, R246: the header and the tables hold what they may hold. -/
def imageRange (x : Weaja) : Bool :=
  let n := x.ranks.length
  x.magic == 0x4A414557 && x.version == 1 && decide (x.flags < 4) && decide (1 ≤ n) && decide (n ≤ 6144) && decide (x.edges.length ≤ 65536) &&
  decide (1 ≤ x.sections.length) && decide (x.sections.length ≤ 65536) && decide (400 ≤ x.fplan) && decide (x.fplan ≤ 1800) &&
  x.ranks.all (fun r => r.entry % 4 == 0 && decide (r.entry < sramSize)) &&
  x.edges.all (fun e => decide (e.from_ < n) && decide (e.to_ < n) && decide (e.stage ≤ 1) &&
    (e.stage == 0 || !((x.ranks[e.to_]?).any (fun r => r.inA)))) &&
  x.sections.all (fun c => decide (c.rank < n) || c.rank == modelRank) &&
  (unordered x.edges n (List.range n)).isEmpty

/-- R247: every section lies in the image, and in the SRAM of its rank. -/
def imageSize (x : Weaja) : Bool :=
  x.ranks.all (fun r => decide (r.sram ≤ sramSize)) &&
  x.sections.all (fun c => decide (c.source + c.len ≤ x.total) && (c.rank == modelRank || decide (c.dest + c.len ≤ sramSize)))

/-- R247 step 1, R412, R423: the checks of an image against the binding sets installed; 0 where it passes. -/
def imageCheck (s : State) (x : Weaja) : Nat :=
  if !imageRange x then Syn.RANGE
  else if !imageSize x then Syn.SIZE
  else if !x.sig then Syn.AUTH
  else match s.hub.cabinet.binds.find? (fun b => b.setId == x.binding) with
    | none => Syn.AUTH
    | some b =>
      if b.modelId ≠ x.modelId ∨ !b.devices.contains Config.deviceId.toNat ∨ !b.unwraps ∨ !x.tag then Syn.AUTH else 0

/-- R353: the image with its check copy as one more rank: a copy of the rank with the largest SRAM_BYTES, its inbound edges duplicated. -/
def withCheck (x : Weaja) : Weaja :=
  let n := x.ranks.length
  let top := (x.ranks.map (·.sram)).foldl max 0
  match (List.range n).find? (fun i => (x.ranks[i]?).any (fun r => r.sram == top)) with
  | none => x
  | some c => { x with ranks := x.ranks ++ (x.ranks[c]?).toList,
                       edges := x.edges ++ (x.edges.filter (fun e => e.to_ == c)).map (fun e => { e with to_ := n }) }

/-! ### Routes (R155–R159, R243) -/

/-- The stops of a walk along one axis, the first left out. -/
def axisStops (a b : Nat) : List Nat := if a ≤ b then (List.range (b - a)).map (fun i => a + 1 + i) else (List.range (a - b)).map (fun i => a - 1 - i)

/-- Compute dies passed from one to another, the first left out (R159): x and then y; on a QH-40 the shorter way round the ring. -/
def cdStops (c : Parts) (a b : Nat) : List Nat :=
  if c.qh40 then
    let up := (b + 24 - a) % 24
    if up ≤ 12 then (List.range up).map (fun i => (a + 1 + i) % 24) else (List.range (24 - up)).map (fun i => (a + 23 - i) % 24)
  else
    let p := cdPos a
    let q := cdPos b
    (axisStops p.1 q.1).map (fun x => cdAt x p.2) ++ (axisStops p.2 q.2).map (fun y => cdAt q.1 y)

/-- The first of some dies with the fewest hops; a tie goes to the lower number. -/
def nearest (hops : Nat → Nat) (l : List Nat) : Nat :=
  l.foldl (fun b d => if hops d < hops b ∨ (hops d = hops b ∧ d < b) then d else b) (l.headD 0)

/-- R159: the compute die at which traffic from a compute die leaves for a destination. -/
def exitCd (c : Parts) (a dst : Nat) : Nat :=
  if isCD dst then dst else nearest (fun x => (cdStops c a x).length) ((edgeLinks dst).filter (diePresent c))

/-- R159: the compute die at which traffic of a source enters; of two links the one that is up. -/
def entryCd (s : State) (src dst : Nat) : Nat :=
  if isCD src then src
  else
    let links := (edgeLinks src).filter (diePresent s.cfg)
    let up := links.filter (fun d => (List.range 4).any (fun m => across s.cfg src m == some d && s.flag (Pg.tst src) TST_LINK_UP (tstKey 2 m 0)))
    nearest (fun x => (cdStops s.cfg x (exitCd s.cfg x dst)).length) (if up.isEmpty then links else up)

/-- The dies passed between two dies, both included. -/
def dieRoute (s : State) (a b : Nat) : List Nat :=
  if a = b then [a]
  else
    let x := entryCd s a b
    let y := exitCd s.cfg x b
    (if isCD a then [] else [a]) ++ x :: cdStops s.cfg x y ++ (if isCD b then [] else [b])

/-- A link: kind 0 a tile router port (hub, tile, next: a tile, 2048 the tile itself, 2049 the die router), 2 a UCIe module (hub, die, die), 3 a
peer link (hub, hub). -/
structure Link where
  kind : Nat
  hub : Nat
  a : Nat
  b : Nat
  deriving DecidableEq, Repr

/-- Where a transfer begins or ends: a tile, or a memory-side die. -/
structure EndPt where
  hub : Nat
  tile : Option Nat
  die : Nat
  deriving DecidableEq, Repr

def tileEnd (hub t : Nat) : EndPt := ⟨hub, some t, t / 32⟩

/-- A route: its links and its latency in 1/6400 ns. -/
structure Route where
  links : List Link
  lat : Nat
  deriving DecidableEq, Repr

def Route.append (x y : Route) : Route := ⟨x.links ++ y.links, x.lat + y.lat⟩

/-- The links between consecutive stops. -/
def linksOf (kind hub : Nat) : List Nat → List Link
  | a :: b :: t => ⟨kind, hub, a, b⟩ :: linksOf kind hub (b :: t)
  | _ => []

/-- The tiles of a die passed between two of them, both included: along the row first (R155, R255's worked placement). -/
def meshStops (t u : Nat) : List Nat :=
  let at_ (row col : Nat) : Nat := t / 32 * 32 + row * 8 + col
  let r := t % 32 / 8
  t :: (axisStops (t % 8) (u % 8)).map (at_ r) ++ (axisStops r (u % 32 / 8)).map (fun row => at_ row (u % 8))

/-- 0.5 ns a hop. -/
def meshRoute (hub t u : Nat) : Route := ⟨linksOf 0 hub (meshStops t u), ((meshStops t u).length - 1) * 3200⟩

/-- The tile of a tile's row at which its die's router is reached. -/
def gateTile (t : Nat) : Nat := t / 8 * 8 + (if t % 8 < 4 then 0 else 7)

/-- From a die's router to a tile, and back. -/
def intoTile (hub t : Nat) : Route := Route.append ⟨[⟨0, hub, 2049, gateTile t⟩], 0⟩ (meshRoute hub (gateTile t) t)
def outOfTile (hub t : Nat) : Route := Route.append (meshRoute hub t (gateTile t)) ⟨[⟨0, hub, gateTile t, 2049⟩], 0⟩

/-- R158: 2 ns a router, 8 ns a module. -/
def diesRoute (s : State) (hub a b : Nat) : Route :=
  let l := dieRoute s a b
  ⟨linksOf 2 hub l, l.length * 12800 + (l.length - 1) * 51200⟩

/-- From an end to a die of its own Hub, and back. -/
def endOut (s : State) (e : EndPt) (d : Nat) : Route :=
  let r := diesRoute s e.hub e.die d
  match e.tile with
  | none => r
  | some t => Route.append (outOfTile e.hub t) r
def endIn (s : State) (d : Nat) (e : EndPt) : Route :=
  let r := diesRoute s e.hub d e.die
  match e.tile with
  | none => r
  | some t => Route.append r (intoTile e.hub t)

/-- R243: the route of a transfer, with the port through which it enters a tile; between Hubs over the peer port that joins them (R165), 2 µs. -/
def routeOf (s : State) (x y : EndPt) : Route :=
  let local_ : List Link := match y.tile with
    | some t => [⟨0, y.hub, t, 2048⟩]
    | none => []
  let r := if x.hub ≠ y.hub then
      Route.append (endOut s x (portDie (10 + y.hub)))
        (Route.append ⟨[⟨3, x.hub, y.hub, 0⟩], 12800000⟩ (endIn s (portDie (10 + x.hub)) y))
    else match x.tile, y.tile with
      | some t, some u => if t / 32 = u / 32 then meshRoute x.hub t u else Route.append (outOfTile x.hub t) (endIn s x.die y)
      | some t, none => Route.append (outOfTile x.hub t) (diesRoute s x.hub x.die y.die)
      | none, _ => endIn s x.die y
  ⟨r.links ++ local_, r.lat⟩

/-- R243: the time one byte takes on a link, in 1/6400 ns; the width of a module of this Hub is known. -/
def linkUnit (s : State) (self : Nat) (l : Link) : Nat :=
  match l.kind with
  | 0 => 50
  | 2 =>
    let m := (List.range 4).find? (fun m => across s.cfg l.a m == some l.b)
    if l.hub = self ∧ m.any (fun m => linkWidth s l.a m == 1 || linkWidth s l.a m == 2) then 50 else 25
  | _ => 128

/-! ### The lengths a and b (R248) -/

/-- A transfer of a stage: its source and destination tile (none: HBM), its route, its bytes. -/
structure Xfer where
  from_ : Option Nat
  to_ : Nat
  route : Route
  bytes : Nat
  deriving DecidableEq, Repr

/-- Bytes of a stage that cross a link. -/
def linkLoad (l : List Xfer) (k : Link) : Nat := ((l.filter (fun x => x.route.links.contains k)).map (·.bytes)).foldl (· + ·) 0

/-- R243: the time of a transfer among those of its stage, in 1/6400 ns. -/
def xferTime (s : State) (self : Nat) (l : List Xfer) (x : Xfer) : Nat :=
  1280000 + x.route.lat + (x.route.links.map (fun k => linkLoad l k * linkUnit s self k)).foldl max 0

/-- The place that holds a rank, by its number in the list. -/
def placeOf (ps : List Place) (rank : Nat) : Option Nat :=
  (List.range ps.length).find? (fun i => (ps[i]?).any (fun p => decide (p.rank ≤ rank) && decide (rank ≤ p.rank + p.fold)))

def placeRanks (x : Weaja) (p : Place) : List WRank := (x.ranks.drop p.rank).take (p.fold + 1)

def placeEnd (ps : List Place) (i : Nat) : EndPt := ((ps[i]?).map (fun p => tileEnd p.hub p.tile)).getD (tileEnd 0 0)

/-- The edges of a stage as transfers between places; an edge inside one tile is none. -/
def edgeXfers (s : State) (x : Weaja) (ps : List Place) (stage : Nat) : List Xfer :=
  (x.edges.filter (fun e => e.stage == stage)).filterMap (fun e =>
    match placeOf ps e.from_, placeOf ps e.to_ with
    | some i, some j => if i = j then none else some ⟨some i, j, routeOf s (placeEnd ps i) (placeEnd ps j), e.bytes⟩
    | _, _ => none)

/-- The reads of the window table in stage A, from the memory-side die that holds it. -/
def readXfers (s : State) (self tableMd : Nat) (x : Weaja) (ps : List Place) : List Xfer :=
  (List.range ps.length).filterMap (fun i =>
    let n := (((ps[i]?).map (placeRanks x)).getD []).foldl (fun a r => a + (if r.inA then r.aIn else 0)) 0
    if n = 0 then none else some ⟨none, i, routeOf s ⟨self, none, 48 + tableMd⟩ (placeEnd ps i), n⟩)

/-- Compute nanoseconds of a stage on a place. -/
def placeNs (x : Weaja) (p : Place) (b : Bool) : Nat :=
  (placeRanks x p).foldl (fun n r => n + (if b then (if r.inB then r.bNs else 0) else if r.inA then r.aNs else 0)) 0

/-- Compute time in 1/(6400 f) ns for transfers counted in the same unit: nanoseconds at FPLAN, the frequency f in MHz. -/
def scaledNs (x : Weaja) (ns : Nat) : Nat := ns * 6400 * x.fplan

/-- R248 a, in µs. -/
def stageA (s : State) (self tableMd : Nat) (x : Weaja) (ps : List Place) : Nat :=
  let f := levelMhz (s.rd Pg.hPwr HPWR_STATUS_LEVEL)
  let l := readXfers s self tableMd x ps ++ edgeXfers s x ps 0
  let times := (List.range ps.length).map (fun i =>
    match ps[i]? with
    | none => 0
    | some p =>
      if !((placeRanks x p).any (fun r => r.inA)) then 0
      else ((l.filter (fun y => y.to_ == i)).map (xferTime s self l)).foldl max 0 * f + scaledNs x (placeNs x p false))
  ceilDiv (times.foldl max 0) (6400000 * f)

/-- One round of the longest paths: the end of every place given those of its sources. -/
def pathRound (f : Nat) (x : Weaja) (ps : List Place) (l : List (Xfer × Nat)) (ends : List Nat) : List Nat :=
  (List.range ps.length).map (fun i =>
    match ps[i]? with
    | none => 0
    | some p =>
      ((l.filter (fun y => y.1.to_ == i)).map (fun y => y.2 * f + (y.1.from_.map (fun j => ends.getD j 0)).getD 0)).foldl max 0 +
        scaledNs x (placeNs x p true))

def pathRounds (f : Nat) (x : Weaja) (ps : List Place) (l : List (Xfer × Nat)) : Nat → List Nat → List Nat
  | 0, e => e
  | n + 1, e => pathRounds f x ps l n (pathRound f x ps l e)

/-- R248 b, in µs: the longest path through the stage-B ranks. -/
def stageB (s : State) (self : Nat) (x : Weaja) (ps : List Place) : Nat :=
  let f := levelMhz (s.rd Pg.hPwr HPWR_STATUS_LEVEL)
  let l := edgeXfers s x ps 1
  let ts := l.map (fun y => (y, xferTime s self l y))
  ceilDiv ((pathRounds f x ps ts ps.length (ps.map (fun p => scaledNs x (placeNs x p true)))).foldl max 0) (6400000 * f)

/-- The places and the image with the check copy, where the placement has one. -/
def checked (x : Weaja) (p : Placement) (self : Nat) : Weaja × List Place :=
  match p.check with
  | none => (x, p.places)
  | some t => (withCheck x, p.places ++ [⟨x.ranks.length, 0, self, t⟩])

/-- R248: the placement fits the verdict budget of the job's settings. -/
def budgetOk (g : JobGen) (x : Weaja) (a b : Nat) : Bool :=
  let ofs := g.sealO + (if bit x.flags 0 then 60 else 40)
  decide (ofs + b + 10 ≤ g.verdO) && decide (a + b + 10 ≤ g.verdO)

/-! ### A placement the Cabinet may make -/

/-- R244, R248, R254: a tile of this Hub in service that no job holds, or that the job itself holds. -/
def tileFree (s : State) (slot t : Nat) : Bool :=
  decide (t < tileCount s.cfg) && pstate s t != PS.RETIRED &&
  (!s.flag (Pg.til t) TIL_JOB_VALID || s.rd (Pg.til t) TIL_JOB_SLOT == slot)

/-- R167: the peer port toward a Hub of the board is UP. -/
def peerUp (s : State) (hub : Nat) : Bool := (s.hub.peers[hub]?).any (fun p => p.st == 1)

/-- Each rank on one tile, up to four consecutive ranks folded where they permit it and fit, on tiles in service (R244); the model region holds
the image and its work space. -/
def placementOk (s : State) (self slot : Nat) (x : Weaja) (p : Placement) : Bool :=
  let all := p.places ++ (p.check.map (fun t => (⟨x.ranks.length, 0, self, t⟩ : Place))).toList
  sortLe Nat.ble (p.places.flatMap (fun q => (List.range (q.fold + 1)).map (· + q.rank))) == List.range x.ranks.length &&
  p.places.all (fun q =>
    let rs := placeRanks x q
    decide (q.fold ≤ 3) && (q.fold == 0 || rs.all (·.fold)) && decide (rs.foldl (fun n r => n + r.sram) 0 ≤ sramSize)) &&
  (all.map (fun q => (q.hub, q.tile))).eraseDups.length == all.length &&
  all.all (fun q => if q.hub = self then tileFree s slot q.tile else bit x.flags 1 && peerUp s q.hub && decide (q.tile < tileCount s.cfg)) &&
  inRegion s.cfg .work (p.base * 4096) (p.size * 4096) && decide (x.hbmWork ≤ p.size) &&
  x.sections.all (fun c => c.rank != modelRank || decide (c.dest + c.len ≤ (p.size - x.hbmWork) * 4096))

/-- R247 step 2: the placement of an image; SIZE where the Cabinet finds none, RANGE where it breaks the verdict budget. -/
def placeImage (s : State) (j : HJob) (g : JobGen) (x : Weaja) (p : Option Placement) : Except Nat HImage :=
  let self := ownIndex s
  match p with
  | none => .error Syn.SIZE
  | some p =>
    if !placementOk s self j.slot x p then .error Syn.SIZE
    else
      let y := checked x p self
      let a := stageA s self j.tableMd y.1 y.2
      let b := stageB s self y.1 y.2
      if budgetOk g x a b then .ok ⟨x, p, a, b⟩ else .error Syn.RANGE

/-! ### Loading (R247 step 3, R249) -/

/-- R249: ACTIVE_OFS, µs. -/
def activeOffset (g : JobGen) (im : HImage) : Nat := min (g.sealO - 20) (g.verdO - 10 - im.bUs - im.aUs)

/-- The loader path: the sections of some ranks into a tile's SRAM. -/
def loadSections (s : State) (t : Nat) (cs : List WSection) : State :=
  cs.foldl (fun s c => setTile s t ((getTile s t).write c.dest ((c.data.take c.len).map (fun b => (b, false))))) s

/-- The sections of the job's model region into HBM. -/
def loadModel (s : State) (x : Weaja) (p : Placement) : State :=
  (x.sections.filter (fun c => c.rank == modelRank)).foldl (fun s c => hbmWrite s ((p.base + x.hbmWork) * 4096 + c.dest) (c.data.take c.len)) s

/-- R247 step 3 for one tile: its sections, its entry, the staged copies of its page, its sequencer. A tile whose sequencer runs, or that holds a
job, is not loaded through this path: it is halted first. -/
def loadTile (s : State) (j : HJob) (g : JobGen) (im : HImage) (rank fold t : Nat) (cs : List WSection) (entry : Nat) : State :=
  let pg := Pg.til t
  let s := seqHalt s t
  let s := loadSections s t cs
  let s := s.wr pg TIL_SEQ_CFG (entry / 4)
  let s := (((s.wr pg TIL_JOB_SLOT.staged j.slot).wr pg TIL_JOB_RANK.staged rank).wr pg TIL_JOB_FOLD.staged fold).wr pg TIL_JOB_VALID.staged 1
  let s := (((s.wr pg TIL_SCHED_ACTIVE_OFS.staged (activeOffset g im)).wr pg TIL_SCHED_SLEEP.staged PS.PARKED).wr pg TIL_SCHED_EN.staged 1).wr pg
    TIL_SCHED_K.staged g.k
  let p := im.place
  let s := (((s.wr pg TIL_HBM0_BASE.staged p.base).wr pg TIL_HBM0_SIZE.staged im.img.hbmWork).wr pg TIL_HBM1_BASE.staged
    (p.base + im.img.hbmWork)).wr pg TIL_HBM1_SIZE.staged (p.size - im.img.hbmWork)
  seqStart s t .cabinet

/-- The rank the check copy stands for. -/
def checkRank (x : Weaja) : Nat :=
  let top := (x.ranks.map (·.sram)).foldl max 0
  ((List.range x.ranks.length).find? (fun i => (x.ranks[i]?).any (fun r => r.sram == top))).getD 0

/-- The tiles of this Hub a placement uses, each with its lowest rank and fold; the check tile is RANKS (log entry 51). -/
def ownPlaces (s : State) (im : HImage) : List (Nat × Nat × Nat) :=
  ((im.place.places.filter (fun p => p.hub == ownIndex s)).map (fun p => (p.tile, p.rank, p.fold))) ++
  (im.place.check.map (fun t => (t, im.img.ranks.length, 0))).toList

/-- R247 step 3 for the tiles of this Hub that are not kept. -/
def loadSet (s : State) (j : HJob) (g : JobGen) (im : HImage) (kept : List Nat) : State :=
  ((ownPlaces s im).filter (fun x => !kept.contains x.1)).foldl (fun s x =>
    let check := x.2.1 == im.img.ranks.length
    let lo := if check then checkRank im.img else x.2.1
    let rs := (im.img.ranks.drop lo).take (x.2.2 + 1)
    loadTile s j g im x.2.1 x.2.2 x.1 (im.img.sections.filter (fun c => decide (lo ≤ c.rank) && decide (c.rank ≤ lo + x.2.2)))
      ((rs.head?.map (·.entry)).getD 0)) (loadModel s im.img im.place)

/-- A tile leaves its set: its staged TIL_JOB says so. -/
def stageFree (s : State) (t : Nat) : State :=
  ((s.wr (Pg.til t) TIL_JOB_VALID.staged 0).wr (Pg.til t) TIL_SCHED_EN.staged 0)

end Sys2Proof.Machine
end

