-- ==== Sys2Proof/Machine/Recovery.lean ====
section
/-!
DEFINITION. Sys2Proof/Machine/Recovery.lean: the Hub's checks of its own results (R353, R354), the recovery of a job's partition (R355–R357),
the end of a correlation search (R315).
-/
namespace Sys2Proof.Machine
open Reg

/-! ### Self-tests (R354) -/

/-- What the Cabinet keeps of a tile: last complete pass, chunks of the pass in progress, the time until which the tile is charged. -/
def testOf (s : State) (t : Nat) : Nat × Nat × Option Nat :=
  ((s.hub.cabinet.selftest.find? (fun x => x.1 == t)).map (·.2)).getD (0, 0, none)

def setTest (s : State) (t : Nat) (x : Nat × Nat × Option Nat) : State :=
  let c := s.hub.cabinet
  setCabinet s { c with selftest := (t, x) :: c.selftest.filter (fun y => y.1 != t) }

/-- The tile is charged now. -/
def isCharged (s : State) (t : Nat) : Bool := (testOf s t).2.2.any (fun u => decide (s.now .hub < u))

/-- R353, R354: a tile is charged for 24 h; a second charge within them retires it. -/
def chargeTile (s : State) (t : Nat) : State :=
  if isCharged s t then retireForGood s t
  else
    let x := testOf s t
    setTest s t (x.1, x.2.1, some (s.now .hub + 86400000000000))

/-- R354: a pass is due, or in progress. -/
def testDue (s : State) (t : Nat) : Bool :=
  let x := testOf s t
  x.2.1 != 0 || decide (s.now .hub ≥ x.1 + (if isCharged s t then 10000000000 else 600000000000))

/-- R354: the tile would otherwise sleep: a chunk of 20,000 package cycles ends 28 µs before the next wake instant. -/
def testRoom (s : State) (t : Nat) : Bool :=
  let p := pstate s t
  (p == PS.GATED || p == PS.PARKED) &&
  (!schedOn s t || decide (toNext s t (wakeLead p) ≥ 28000 + ceilDiv 20000000 (levelMhz (s.rd Pg.hPwr HPWR_STATUS_LEVEL))))

/-- R354: a failed chunk retires the tile and lists HUB_FAULT SELFTEST for the job it serves. -/
def failTile (s : State) (t : Nat) : State :=
  let last := (testOf s t).1
  match s.flag (Pg.til t) TIL_JOB_VALID, hjobAt s (s.rd (Pg.til t) TIL_JOB_SLOT) with
  | true, some j => retireForGood (hubFault s j.job HubFault.SELFTEST (some t) (windowIndex j.k last)) t
  | _, _ => retireForGood s t

/-- R354: a chunk of the self-test on a tile; `ok` says it equals its stored signature. -/
def execSelftestChunk (t : Nat) (ok : Bool) (s : State) : Host.Outcome State Fault Refusal :=
  if t ≥ tileCount s.cfg ∨ pstate s t = PS.RETIRED ∨ isFrozen s (Pg.til t) ∨ testRoom s t = false ∨ testDue s t = false then .next s
  else if ok then
    let x := testOf s t
    .next (setTest s t (if x.2.1 ≥ 15 then (s.now .hub, 0, x.2.2) else (x.1, x.2.1 + 1, x.2.2)))
  else .next (failTile s t)

/-! ### The check tile (R353) -/

/-- The rank window n checks. -/
def checkRankOf (im : HImage) (n : Nat) : Nat := n / 64 % im.img.ranks.length

/-- The place that holds a rank. -/
def rankPlace (im : HImage) (r : Nat) : Option Place := im.place.places.find? (fun p => decide (p.rank ≤ r) && decide (r ≤ p.rank + p.fold))

/-- The check tile is loaded with a rank's sections and runs them from its entry. -/
def loadCheck (s : State) (im : HImage) (t r : Nat) : State :=
  let s := loadSections (seqHalt s t) t (im.img.sections.filter (fun c => c.rank == r))
  seqStart (s.wr (Pg.til t) TIL_SEQ_CFG (((im.img.ranks[r]?).map (·.entry)).getD 0 / 4)) t .cabinet

/-- A word into TIL_MBOX_IN of every tile of a set. -/
def tellSet (s : State) (slot v : Nat) : State := (tileSet s slot).foldl (fun s t => tilActWrite s (Pg.til t) 0x08C .cabinet v) s

/-- R353, R355, R356: a check disagreement. -/
def checkFails (s : State) (j : HJob) (n : Nat) (tile : Option Nat) (check : Nat) : State :=
  let s := (tile.toList ++ [check]).foldl chargeTile s
  let s := hubFault s j.job HubFault.CHECK tile n
  partitionFault (modJob s j.job (fun j => if inRing j n 0 then j else { j with missing := n :: j.missing })) j.job

/-- The two regions are compared: the rank's (on a peer Hub, as read there) and the check tile's; each has an address and a length. -/
def compareCheck (s : State) (j : HJob) (im : HImage) (n check : Nat) (own chk : Nat × Nat) (peer : List Nat) : State :=
  let p := rankPlace im (checkRankOf im n)
  let tile := (p.filter (fun p => p.hub == ownIndex s)).map (·.tile)
  let a : List Nat := match tile with
    | some t => (Tile.read (getTile s t) own.1 own.2).map (·.1)
    | none => peer
  let b : List Nat := (Tile.read (getTile s check) chk.1 chk.2).map (·.1)
  let s := tellSet s j.slot 0xC2000000
  if a = b then modJob s j.job (fun j => { j with checked := n :: j.checked }) else checkFails s j n tile check

/-- R353: in a check window of a job: at its WAKE (`regions` none) the check tile is loaded and the set told; then the output regions of the rank's
tile and of the check tile (address, length), as both have reported them through tmbox_out, are compared; `peer` is the region of a rank that a
peer Hub holds. -/
def execCheckWindow (slot n : Nat) (regions : Option ((Nat × Nat) × (Nat × Nat))) (peer : List Nat) (s : State) :
    Host.Outcome State Fault Refusal :=
  match hjobAt s slot with
  | none => .next s
  | some j => match j.image with
    | none => .next s
    | some im => match im.place.check with
      | none => .next s
      | some check =>
        if n % 64 ≠ slot % 64 ∨ j.checked.contains n ∨ s.now .hub < windowEnd n j.k ∨ j.recovery.isSome then .next s
        else match regions with
          | none =>
            let r := checkRankOf im n
            .next (tellSet (loadCheck s im check r) slot (0xC1 * 2 ^ 24 + r * 2 ^ 11 + check))
          | some (own, chk) => .next (compareCheck s j im n check own chk peer)

/-! ### Recovering a job's partition (R356, R357) -/

/-- R357: the recovery engines in use. -/
def enginesBusy (s : State) : Nat := (s.hub.jobs.filter (fun j => j.recovery.isSome)).length

/-- R48: the first boundary of a job that meets the lead of one Hub. -/
def soonest (s : State) (k : Nat) : Nat := boundaryAt k (s.now .hub + 2000000)

/-- The places of an image on this Hub that another keeps as they are. -/
def keptTiles (s : State) (old new : HImage) : List Nat :=
  ((ownPlaces s new).filter (fun x => (ownPlaces s old).contains x && pstate s x.1 != PS.RETIRED)).map (·.1)

/-- The tiles of a list that are not retired. -/
def inService (s : State) (l : List Nat) : List Nat := l.filter (fun t => pstate s t != PS.RETIRED)

/-- R357: appointments armed on tiles of a job in recovery are cancelled. -/
def cancelTiles (s : State) (l : List Nat) : State :=
  l.foldl (fun s t => if isArmed s (Pg.til t) then cancelChecked s (Pg.til t) .cabinet else s) s

/-- The tiles that leave a set, and those that join it, take their staged settings at the first boundary; none where an ARM is refused. -/
def armTiles (s : State) (k : Nat) (l : List Nat) : Option State :=
  let r := armPages (l.map Pg.til) (soonest s k) s
  if r.2 = 0 then some r.1 else none

/-- A recovery begins. -/
def beginRecovery (s : State) (job kind : Nat) (im : HImage) : State :=
  modJob s job (fun j => { j with recovery := some (kind, some im.place), faultWaits := false, image := some im })

/-- R356: re-placement on the tiles in service; the ranks that keep their tile run on. -/
def replaceSet (s : State) (j : HJob) (g : JobGen) (old new : HImage) : Option State :=
  let kept := keptTiles s old new
  let out := inService s (((ownPlaces s old).map (·.1)).filter (fun t => !((ownPlaces s new).map (·.1)).contains t))
  let moved := ((ownPlaces s new).map (·.1)).filter (fun t => !kept.contains t)
  let s := cancelTiles s (out ++ moved)
  let s := out.foldl stageFree (loadSet s j g new kept)
  (armTiles s j.k (out ++ moved)).map (fun s => beginRecovery s j.job 1 new)

/-- R356: every rank on a tile of one peer Hub of the board. -/
def movable (s : State) (x : Weaja) (p : Placement) (hub : Nat) : Bool :=
  hub != ownIndex s && peerUp s hub && p.places.all (fun q => q.hub == hub && decide (q.tile < tileCount s.cfg) && decide (q.fold ≤ 3)) &&
  sortLe Nat.ble (p.places.flatMap (fun q => (List.range (q.fold + 1)).map (· + q.rank))) == List.range x.ranks.length

/-- R356: the whole set moves to a peer Hub, whose Cabinet loads it; its tiles here are freed. -/
def moveAway (s : State) (j : HJob) (old : HImage) (p : Placement) (hub : Nat) : Option State :=
  let out := inService s ((ownPlaces s old).map (·.1))
  let s := out.foldl stageFree (cancelTiles s out)
  (armTiles s j.k out).map (fun s => beginRecovery (s.send (.moveSet j.job hub)) j.job 2 { old with place := { p with check := none } })

/-- R356: partition reset: every tile of the set soft reset and reloaded; the windows in flight are withheld (R189). -/
def resetSet (s : State) (j : HJob) (g : JobGen) (im : HImage) : Option State :=
  let l := inService s ((ownPlaces s im).map (·.1))
  let s := (cancelTiles s l)
  let s := l.foldl (fun s t => hubSoftReset s .til (Pg.til t)) s
  let s := loadSet s j g im (((ownPlaces s im).map (·.1)).filter (fun t => !l.contains t))
  let s := { s with hub := { s.hub with wins := s.hub.wins.map (fun w =>
    if w.job = j.job ∧ ¬ w.closed then { w with flags := Nat.lor w.flags 2 } else w) } }
  (armTiles s j.k l).map (fun s => beginRecovery s j.job 3 im)

/-- R356: the response to the fault a job waits with: by the count of its faults, and by what the Hub and its peers can hold. -/
def recoverJob (s : State) (j : HJob) (g : JobGen) (im : HImage) (place : Option Placement) (peer : Option Nat) : Option State :=
  let reset := resetSet s j g im
  let move := match place, peer with
    | some p, some h => if movable s im.img p h then moveAway s j im p h else reset
    | _, _ => reset
  if j.faults ≤ 1 then
    match placeImage s j g im.img place with
    | .ok new => replaceSet s j g im new
    | .error _ => move
  else if j.faults = 2 then move else reset

/-- R356, R357: a job's partition fault is taken up by a free recovery engine; `place` is the placement the Cabinet finds, `peer` the Hub it would
move the set to. A job whose pages cannot be armed waits on. -/
def execPartitionRecovery (job : Nat) (place : Option Placement) (peer : Option Nat) (s : State) : Host.Outcome State Fault Refusal :=
  match hjob s job with
  | none => .next s
  | some j => match j.image, jobNow s j with
    | some im, some g =>
      if j.faultWaits = false ∨ j.recovery.isSome ∨ enginesBusy s ≥ 2 then .next s
      else .next ((recoverJob s j g im place peer).getD s)
    | _, _ => .next s

/-- The tile has taken up its place. -/
def inPlace (s : State) (slot : Nat) (x : Nat × Nat × Nat) : Bool :=
  s.flag (Pg.til x.1) TIL_JOB_VALID && s.rd (Pg.til x.1) TIL_JOB_SLOT == slot && s.rd (Pg.til x.1) TIL_JOB_RANK == x.2.1 &&
  s.rd (Pg.til x.1) TIL_JOB_FOLD == x.2.2 && !isArmed s (Pg.til x.1)

/-- R356: HUB_FAULT of a recovery's kind. -/
def recoveryFault : Nat → Nat
  | 1 => HubFault.REPLACED
  | 2 => HubFault.MOVED
  | _ => HubFault.RESET

/-- R356: the recovery of a job is complete: every tile here has taken up its place (those of a peer as its Cabinet reports). -/
def execPartitionRecoveryDone (job : Nat) (s : State) : Host.Outcome State Fault Refusal :=
  match hjob s job with
  | none => .next s
  | some j => match j.recovery, j.image with
    | some (kind, _), some im =>
      let own := if kind = 2 then [] else ownPlaces s im
      if !own.all (inPlace s j.slot) then .next s
      else
        let s := hubFault s job (recoveryFault kind) none (windowIndex j.k j.firstFault)
        .next (modJob s job (fun j => { j with recovery := none }))
    | _, _ => .next s

/-! ### Correlation searches (R315) -/

/-- R318: the CORRELATION entries of a set: its members with the coefficient each has with the set's lowest unit. -/
def corrEntries (id i : Nat) (l : List (Nat × Nat)) : List VEntry :=
  l.map (fun x => { type := 5, code := min i 255, flags := 0, unit := x.1, a := id % 2 ^ 32 * 2 ^ 32 + x.2, b := 0 })

/-- The entries wait for the next verdict of every job that has the unit. -/
def postCorr (s : State) (e : VEntry) : State :=
  (s.hub.jobs.filter (fun j => (jobNow s j).any (fun g => (servedMembers s g).any (fun m => m.unit == e.unit)))).foldl (fun s j =>
    addPend s j.job 0 e) s

/-- R315: a search ends; `sets` are the connected sets it found: of each unit the FP32 coefficient with the set's lowest unit. Sets of two or more
units are reported. -/
def execCorrelationDone (entry : Nat) (sets : List (List (Nat × Nat))) (s : State) : Host.Outcome State Fault Refusal :=
  let c := s.hub.cabinet
  if !c.searches.any (fun x => x.entry == entry) then .next s
  else
    let big := sets.filter (fun l => decide (l.length ≥ 2))
    let s := setCabinet s { c with searches := c.searches.filter (fun x => x.entry != entry) }
    let s := (big.zipIdx.flatMap (fun x => corrEntries entry x.2 x.1)).foldl postCorr s
    let s := modEntry s entry (fun e => { e with result := big.flatMap (fun l => l.length :: l.map (·.1)) })
    .next (endEntry s entry Jr.DONE 0 [])

end Sys2Proof.Machine
end

