-- ==== Sys2Proof/Machine/Changes.lean ====
section
/-!
DEFINITION. Sys2Proof/Machine/Changes.lean: the management operations that change a job across its Hub and its units: JOB_CREATE, ROSTER_CHANGE,
POLICY_SET, JOB_DELETE, IMAGE_LOAD, KEY_ROLL (R34, R37, R38, R47, R247, R308, R415–R418, R477–R481).
-/
namespace Sys2Proof.Machine
open Reg

/-! ### Entries of requests (R478, R480, R483) -/

/-- A new entry, ACCEPTED. -/
def newEntry (s : State) (id op job req cert session : Nat) : JEntry :=
  { id, op, job, req, cert, session, st := 0, syn := 0, accepted := s.now .hub, started := 0, ended := 0, appt := 0, lead := 0, pages := [],
    hubs := [], pageSteps := 0, steps := [], committed := false, cancelled := false, units := [], gen := 0, epoch := 0, newJob := none,
    result := [] }

/-- An entry enters the journal: its ID and the state. -/
def enterJournal (s : State) (op job req cert session : Nat) : State × Nat :=
  let c := s.hub.cabinet
  let id := journalId c.boots c.nextId
  (setCabinet s { c with nextId := c.nextId + 1, journal := newEntry s id op job req cert session :: c.journal }, id)

/-- R478: a repeated REQ_ID of the same certificate within 600 s. -/
def repeated (s : State) (x : Session) (req : Nat) : Option JEntry :=
  s.hub.cabinet.journal.find? (fun e => e.session != 0 && e.req == req && e.cert == x.cert && decide (s.now .hub < e.accepted + 600000000000))

/-- A J operation: its entry, the REPLY, and what it does with the entry's ID. -/
def journalled (s : State) (x : Session) (op req job : Nat) (f : State → Nat → State) : State :=
  match repeated s x req with
  | some e => replyTo s x.id op req 0 (.entry e)
  | none => match journalRoom s with
    | none => replyTo (raise s (Pg.cab (servingDie s)) Irq.CAB_JRNL_FULL) x.id op req Syn.SIZE .empty
    | some s =>
      let r := enterJournal s op job req x.cert x.id
      f (replyTo r.1 x.id op req 0 (.journalId r.2)) r.2

/-- A J operation of an operator. -/
def operation (s : State) (ses op req job : Nat) (f : State → Nat → State) : Host.Outcome State Fault Refusal :=
  request s ses op req true (fun s x => journalled s x op req job f)

/-- R481: the checks fail. -/
def abort (s : State) (id code : Nat) : State := endEntry s id Jr.ABORTED code []

/-- R481: the checks pass. -/
def startEntry (s : State) (id : Nat) (f : JEntry → JEntry) : State :=
  modEntry s id (fun e => { f e with st := Jr.STARTED, started := s.now .hub })

/-- R47: the pages are armed for the appointment, the change goes to the other Hubs, the units' steps begin. -/
def startChange (s : State) (id t lead : Nat) (pages : List Page) (hubs : List Nat) (f : JEntry → JEntry) : State :=
  let r := armPages pages t s
  if r.2 ≠ 0 then
    let s := modEntry (unarm pages t r.1) id f
    match jentry s id with
    | some e => abort (withdraw s e) id r.2
    | none => s
  else
    let s := startEntry r.1 id (fun e => { f e with appt := t, lead, pages, hubs, pageSteps := (f e).pageSteps + pages.length })
    advance (hubs.foldl (fun s h => s.send (.forwardChange h id)) s) id

/-- A page is armed already: a change would have to overwrite what is staged. -/
def anyArmed (s : State) (pages : List Page) : Bool := pages.any (isArmed s)

def jstep (unit job : Nat) (c : UCmd) : JStep := { unit, job, cmd := c, st := 0, syn := 0, back := 0, undo := false }

/-! ### Keys (R415–R418) -/

/-- 256 bits drawn: free values. -/
def drawKey : Nat → State → State × Nat
  | 0, s => (s, 0)
  | n + 1, s =>
    let f := s.free
    let r := drawKey n f.1
    (r.1, r.2 * 2 ^ 32 + f.2)

/-- R417: the key of a job's epoch: the one held, or one drawn and wrapped to the other Hubs; none where a ninth key would be needed. -/
def makeKey (s : State) (job slot epoch : Nat) (hubs : List Nat) : Option (State × Nat) :=
  match jobKey s job epoch with
  | some k => some (s, k.val)
  | none => match freeKeySlot s (slot * 8) 8 with
    | none => none
    | some i =>
      let d := drawKey 8 s
      some (hubs.foldl (fun s h => s.send (.wrapKey h job epoch)) (addKey d.1 i 1 slot job epoch d.2), d.2)

/-! ### What is staged on the Hub -/

def xds : List Nat := [56, 57, 58, 59, 60, 61, 62, 63]
def ingPages : List Page := xds.map Pg.ing
def jobPages : List Page := ingPages ++ xds.map Pg.trs

/-- The epoch, the generation and the length of a job's slot, staged on every ingest die. -/
def stageJob (s : State) (slot k gen epoch : Nat) : State :=
  xds.foldl (fun s d =>
    ((s.wr (Pg.ing d) ING_JOB_CFG_K.staged k slot).wr (Pg.ing d) ING_JOB_GEN.staged gen slot).wr (Pg.ing d) ING_JOB_EPOCH.staged epoch slot) s

def stageField (s : State) (d i : Nat) (f : TField) : State :=
  let pg := Pg.trs d
  let w (s : State) (x : Fld) (v : Nat) : State := s.wr pg x.staged v i
  w (w (w (w (w (w (w (w s TRS_FLD_DATA0_SRC f.src) TRS_FLD_DATA0_SUM (b2n f.sum)) TRS_FLD_DATA0_EXT (b2n f.ext)) TRS_FLD_DATA0_HIST (b2n f.hist))
    TRS_FLD_DATA0_MKIND f.mkind) TRS_FLD_DATA0_INDEX f.index) TRS_FLD_DATA1_SHIFT f.shift) TRS_FLD_DATA1_BIAS (ofSigned 26 f.bias)

/-- A field table, staged on every ingest die. -/
def stageTable (s : State) (slot : Nat) (l : List TField) : State :=
  xds.foldl (fun s d =>
    l.zipIdx.foldl (fun s x => stageField s d (slot * 2048 + x.2) x.1) (s.wr (Pg.trs d) TRS_FLD_COUNT.staged l.length slot)) s

/-- The job ID and the peer groups of a slot, staged on every ingest die. -/
def stageId (s : State) (slot job pg : Nat) : State :=
  xds.foldl (fun s d => (s.wr (Pg.ing d) ING_JOB_ID.staged job slot).wr (Pg.ing d) ING_JOB_CFG_PG.staged pg slot) s

/-! ### JOB_CREATE -/

/-- The lowest job slot that no job holds, live, staged or under way. -/
def freeJobSlot (s : State) : Option Nat :=
  let held := (s.hub.jobs ++ newJobs s (2 ^ 96)).map (·.slot)
  (List.range 256).find? (fun i => !held.contains i && s.rd (Pg.ing 56) ING_JOB_ID i == 0 && s.rd (Pg.ing 56) ING_JOB_ID.staged i == 0)

/-- R326, R418, R479: the steps of a unit that joins a job. -/
def joinSteps (s : State) (job t k epoch key cap : Nat) (m : Member) : List JStep :=
  ([UCmd.write 0x03 (0x840 + 4 * m.slot) [job], .write 0x03 0x850 [hotWin s job t m k], .keyload 1 epoch 0 key,
    .write 0x09 (0x844 + 4 * m.slot) [epoch], .arm [0x02, 0x03, 0x09, 0x0C] t] ++
   (if cap = 0xFFF then [] else [UCmd.cap cap t]) ++ [UCmd.read 0x07 0x044 3]).map (jstep m.unit job)

/-- R36, R37, R308, R335, R416, R477: the checks of JOB_CREATE, the appointment apart. -/
def createCheck (s : State) (r : Roster) (others : List Roster) (v : VPolicy) (d : DPolicy) (p : KPolicy) (fields : List TField) (pg md slot : Nat) : Nat :=
  let c := rosterCheck r others
  if r.job = 0 then Syn.RANGE
  else if (hjob s r.job).isSome || (newJobs s (2 ^ 96)).any (fun j => j.job == r.job) then Syn.STATE
  else if c ≠ 0 then c
  else if pg > 16 then Syn.SIZE
  else if tableCheck fields ≠ 0 then tableCheck fields
  else if !vpolCheck v || !dpolCheck d || decide (md ≥ 8) || !kpolCheck s p { settingsOf s 56 slot true true with k := r.k } then Syn.RANGE
  else 0

/-- R479: the settings of the job staged, its first key installed, everything armed for one appointment. -/
def createJob (s : State) (id slot t lead : Nat) (r : Roster) (v : VPolicy) (d : DPolicy) (p : KPolicy) (fields : List TField) (pg md : Nat) : State :=
  let hubs := otherHubs s r.members
  match makeKey s r.job slot 1 hubs with
  | none => abort s id Syn.SIZE
  | some (s, key) =>
    let s := { s with hub := { s.hub with rosters := s.hub.rosters ++ [r] } }
    let s := stageTable (stageJob (stageId s slot r.job pg) slot r.k 1 1) slot fields
    let j := { HJob.new r.job slot r.k md with vpol := [(t, v)], dpol := [(t, d)], kpol := [(t, p)] }
    startChange s id t lead jobPages hubs (fun e =>
      { e with gen := 1, epoch := 1, newJob := some j, steps := (servedOf s r).flatMap (joinSteps s r.job t r.k 1 key 0xFFF) })

/-- JOB_CREATE: `pg` peer groups, `md` the die that holds the job's window table (R287). -/
def execJobCreate (ses req job : Nat) (roster : Roster) (k : Nat) (v : VPolicy) (d : DPolicy) (p : KPolicy) (fields : List TField) (pg md : Nat)
    (appt : Option Nat) (s : State) : Host.Outcome State Fault Refusal :=
  operation s ses 0x20 req job (fun s id =>
    let r := { roster with job, k, gen := 1, epoch := 1 }
    let lead := leadOfHubs s job (r.members.map (·.hub))
    let ks := k :: sharedKs s job (appt.getD (s.now .hub + lead)) (r.members.map (·.unit))
    let t := pickAppt s lead ks appt
    match freeJobSlot s with
    | none => abort s id Syn.SIZE
    | some slot =>
      let c := createCheck s r (otherRosters s job t) v d p fields pg md slot
      if c ≠ 0 then abort s id c
      else if apptCheck s lead ks t ≠ 0 then abort s id (apptCheck s lead ks t)
      else if !canCommand s || anyArmed s jobPages then abort s id Syn.STATE
      else createJob s id slot t lead r v d p fields pg md)

/-! ### ROSTER_CHANGE (R34, R37, R38) -/

/-- R418: the key of the new epoch, and SEAL_EPOCH staged. -/
def epochSteps (epoch key : Nat) (m : Member) : List UCmd := [.keyload 1 epoch 0 key, .write 0x09 (0x844 + 4 * m.slot) [epoch]]

/-- A unit that stays; `old` is its entry so far. -/
def stayCmds (s : State) (job t k oldK epoch key : Nat) (old m : Member) : List UCmd :=
  (if old.slot = m.slot then [] else [.write 0x03 (0x840 + 4 * m.slot) [job], .write 0x03 (0x840 + 4 * old.slot) [0]]) ++
  (if old.slot = m.slot ∧ k = oldK then [] else [.write 0x03 0x850 [hotWin s job t m k]]) ++ epochSteps epoch key m

/-- The steps of the units of a roster change; `addrs` gives the record address (four words) of a Hub that units move to. -/
def changeSteps (s : State) (g : JobGen) (old new : List Member) (t k epoch key cap : Nat) (addrs : List (Nat × List Nat)) : List JStep :=
  let me := selfId s
  let steps (m : Member) (l : List UCmd) : List JStep := l.map (jstep m.unit g.job)
  new.flatMap (fun m =>
    match old.find? (fun o => o.unit == m.unit) with
    | none => if m.hub = me then joinSteps s g.job t k epoch key cap m else []
    | some o =>
      if o.hub = me ∧ m.hub = me then steps m (stayCmds s g.job t k g.k epoch key o m ++ [.arm [0x03, 0x09, 0x0C] t])
      else if o.hub = me then
        steps m (stayCmds s g.job t k g.k epoch key o m ++
          [.write 0x09 0x884 (((addrs.find? (fun a => a.1 == m.hub)).map (·.2)).getD []), .arm [0x03, 0x09, 0x0C] t])
      else if m.hub = me then steps m [.read 0x09 0x05C 2, .read 0x07 0x044 3]
      else []) ++
  (old.filter (fun o => o.hub == me && !new.any (fun m => m.unit == o.unit))).flatMap (fun o =>
    steps o [.write 0x03 (0x840 + 4 * o.slot) [0], .arm [0x03] t])

/-- R34: the addresses of the Hubs that units of this Hub move to are given. -/
def addrsGiven (s : State) (old new : List Member) (addrs : List (Nat × List Nat)) : Bool :=
  let me := selfId s
  new.all (fun m => m.hub == me || !old.any (fun o => o.unit == m.unit && o.hub == me) ||
    addrs.any (fun a => a.1 == m.hub && a.2.length == 4))

/-- R38, R47: the roster installed, its epoch's key made, everything armed. -/
def changeRoster (s : State) (id t lead : Nat) (j : HJob) (g : JobGen) (old : List Member) (r : Roster) (addrs : List (Nat × List Nat)) : State :=
  let hubs := otherHubs s (old ++ r.members)
  match makeKey s j.job j.slot r.epoch (otherHubs s r.members) with
  | none => abort s id Syn.SIZE
  | some (s, key) =>
    let s := { s with hub := { s.hub with rosters := s.hub.rosters ++ [r] } }
    let s := stageJob s j.slot r.k r.gen r.epoch
    startChange s id t lead jobPages hubs (fun e =>
      { e with gen := r.gen, epoch := r.epoch, newJob := some { j with k := r.k },
               steps := changeSteps s g old r.members t r.k r.epoch key j.cap addrs })

/-- ROSTER_CHANGE: `addrs` the record addresses of the Hubs that units move to (R34). -/
def execRosterChange (ses req job : Nat) (roster : Roster) (addrs : List (Nat × List Nat)) (appt : Option Nat) (s : State) :
    Host.Outcome State Fault Refusal :=
  operation s ses 0x21 req job (fun s id =>
    match (hjob s job).bind (fun j => (jobNow s j).map (fun g => (j, g))) with
    | none => abort s id Syn.ABSENT
    | some (j, g) =>
      let r := { roster with job, gen := g.gen + 1, epoch := g.epoch + 1 }
      let old := winMembers s g
      let units := (old ++ r.members).map (·.unit)
      let lead := leadOfHubs s job ((old ++ r.members).map (·.hub))
      let ks := g.k :: r.k :: sharedKs s job (appt.getD (s.now .hub + lead)) units
      let t := pickAppt s lead ks appt
      let c := rosterCheck r (otherRosters s job t)
      let kp := polAt j.kpol (s.now .hub)
      if c ≠ 0 then abort s id c
      else if r.epoch ≥ 2 ^ 32 || r.gen ≥ 2 ^ 32 || !addrsGiven s old r.members addrs || kp.any (fun p => !kpolCheck s p { g with k := r.k }) then
        abort s id Syn.RANGE
      else if apptCheck s lead ks t ≠ 0 then abort s id (apptCheck s lead ks t)
      else if !canCommand s || anyArmed s jobPages then abort s id Syn.STATE
      else changeRoster s id t lead j g old r addrs)

/-! ### KEY_ROLL (R415) -/

/-- A change of the job's keys or roster is under way. -/
def rolling (s : State) (job : Nat) : Bool := s.hub.cabinet.journal.any (fun e => !e.final && e.job == job && e.epoch != 0)

/-- R415: the epoch rolls, with the roster as it is. -/
def rollEpoch (s : State) (id t : Nat) (j : HJob) (g : JobGen) (lead : Nat) : State :=
  let ms := winMembers s g
  let epoch := g.epoch + 1
  match makeKey s j.job j.slot epoch (otherHubs s ms) with
  | none => abort s id Syn.SIZE
  | some (s, key) =>
    let s := stageJob s j.slot g.k g.gen epoch
    startChange s id t lead ingPages (otherHubs s ms) (fun e =>
      { e with epoch, newJob := some j,
               steps := (servedMembers s g).flatMap (fun m => (epochSteps epoch key m ++ [UCmd.arm [0x09] t]).map (jstep m.unit j.job)) })

/-- The roll of a job, under an entry of its own (log entry 70). -/
def rollJob (s : State) (j : HJob) (g : JobGen) : State :=
  match journalRoom s with
  | none => raise s (Pg.cab (servingDie s)) Irq.CAB_JRNL_FULL
  | some s =>
    let r := enterJournal s 0x21 j.job 0 0 0
    let s := r.1
    let lead := leadOfHubs s j.job ((winMembers s g).map (·.hub))
    let ks := g.k :: sharedKs s j.job (s.now .hub + lead) ((winMembers s g).map (·.unit))
    let t := pickAppt s lead ks none
    if g.epoch + 1 ≥ 2 ^ 32 then abort s r.2 Syn.RANGE
    else if !canCommand s || anyArmed s ingPages then abort s r.2 Syn.STATE
    else rollEpoch s r.2 t j g lead

/-- R415: ROLL_S after the last roll. -/
def execKeyRoll (job : Nat) (s : State) : Host.Outcome State Fault Refusal :=
  match (hjob s job).bind (fun j => (jobNow s j).map (fun g => (j, g))) with
  | none => .next s
  | some (j, g) =>
    let every := ((polAt j.kpol (s.now .hub)).map (fun (p : KPolicy) => p.rollS)).getD 0 * 1000000000
    let last := ((s.hub.cabinet.rolls.find? (fun x => x.1 == job)).map (·.2)).getD 0
    if every = 0 ∨ s.now .hub < last + every ∨ rolling s job then .next s else .next (rollJob s j g)

/-! ### POLICY_SET (R308, R335, R416) -/

/-- POLICY_SET: the policies given, appointed. -/
def execPolicySet (ses req job : Nat) (v : Option VPolicy) (d : Option DPolicy) (p : Option KPolicy) (appt : Option Nat) (s : State) :
    Host.Outcome State Fault Refusal :=
  operation s ses 0x22 req job (fun s id =>
    match (hjob s job).bind (fun j => (jobNow s j).map (fun g => (j, g))) with
    | none => abort s id Syn.ABSENT
    | some (j, g) =>
      let hubs := otherHubs s (winMembers s g)
      let lead := leadOfHubs s job hubs
      let t := pickAppt s lead [g.k] appt
      let units := (servedMembers s g).map (·.unit)
      if v.any (fun v => !vpolCheck v || !vpolFloor v j units) || d.any (fun d => !dpolCheck d) || p.any (fun p => !kpolCheck s p g) then
        abort s id Syn.RANGE
      else if apptCheck s lead [g.k] t ≠ 0 then abort s id (apptCheck s lead [g.k] t)
      else startChange s id t lead [] hubs (fun e =>
        { e with newJob := some { j with vpol := (v.map (fun v => (t, v))).toList, dpol := (d.map (fun d => (t, d))).toList,
                                         kpol := (p.map (fun p => (t, p))).toList } }))

/-! ### JOB_DELETE (R479) -/

/-- R479: the job's slots are cleared on every page at the appointment. -/
def deleteJob (s : State) (id t lead : Nat) (j : HJob) (g : JobGen) : State :=
  let tiles := tileSet s j.slot
  let s := tiles.foldl stageFree (stageTable (stageId s j.slot 0 1) j.slot [])
  startChange s id t lead (jobPages ++ tiles.map Pg.til) (otherHubs s (winMembers s g)) (fun e =>
    { e with newJob := some j,
             steps := (servedMembers s g).flatMap (fun m =>
               [UCmd.write 0x03 (0x840 + 4 * m.slot) [0], .arm [0x03] t].map (jstep m.unit j.job)) })

def execJobDelete (ses req job : Nat) (appt : Option Nat) (s : State) : Host.Outcome State Fault Refusal :=
  operation s ses 0x23 req job (fun s id =>
    match (hjob s job).bind (fun j => (jobNow s j).map (fun g => (j, g))) with
    | none => abort s id Syn.ABSENT
    | some (j, g) =>
      let ms := winMembers s g
      let lead := leadOfHubs s job (ms.map (·.hub))
      let ks := g.k :: sharedKs s job (appt.getD (s.now .hub + lead)) (ms.map (·.unit))
      let t := pickAppt s lead ks appt
      if apptCheck s lead ks t ≠ 0 then abort s id (apptCheck s lead ks t)
      else if !canCommand s || anyArmed s (jobPages ++ (tileSet s j.slot).map Pg.til) then abort s id Syn.STATE
      else deleteJob s id t lead j g)

/-! ### IMAGE_LOAD (R247) -/

/-- R422: the checks of a binding set. -/
def bindCheck (b : BindSet) : Nat :=
  if b.setId = 0 then Syn.RANGE
  else if b.devices.isEmpty ∨ b.devices.length > 4096 then Syn.SIZE
  else if b.sig then 0 else Syn.AUTH

def installBind (s : State) (b : BindSet) : State :=
  let c := s.hub.cabinet
  setCabinet s { c with binds := b :: c.binds.filter (fun x => x.setId != b.setId) }

/-- R247 step 3: the tiles of the set loaded and armed; the tiles the job no longer uses freed. -/
def loadImage (s : State) (id : Nat) (j : HJob) (g : JobGen) (im : HImage) : State :=
  let new := (ownPlaces s im).map (·.1)
  let out := (tileSet s j.slot).filter (fun t => !new.contains t)
  if anyArmed s ((out ++ new).map Pg.til) then abort s id Syn.STATE
  else
    let s := out.foldl stageFree (loadSet s j g im [])
    let s := if im.place.check.isNone then cabEntry s 7 4 { job := j.job } else s
    let hubs := ((im.place.places.map (·.hub)).eraseDups).filter (fun h => h != ownIndex s)
    startChange s id (soonest s g.k) 2000000 ((out ++ new).map Pg.til) (hubs.map (fun h => selfId s / 4 * 4 + h)) (fun e =>
      { e with newJob := some { j with image := some im }, pageSteps := im.img.sections.length })

/-- IMAGE_LOAD: the image, the binding set that comes with it, the placement the Cabinet finds. -/
def execImageLoad (ses req job : Nat) (x : Weaja) (b : Option BindSet) (place : Option Placement) (s : State) : Host.Outcome State Fault Refusal :=
  operation s ses 0x24 req job (fun s id =>
    match (hjob s job).bind (fun j => (jobNow s j).map (fun g => (j, g))) with
    | none => abort s id Syn.ABSENT
    | some (j, g) =>
      let bc := (b.map bindCheck).getD 0
      if bc ≠ 0 then abort s id bc
      else
        let s := (b.map (installBind s)).getD s
        let c := imageCheck s x
        if c ≠ 0 then abort s id c
        else if j.recovery.isSome || j.faultWaits then abort s id Syn.STATE
        else match placeImage s j g x place with
          | .error c => abort s id c
          | .ok im => loadImage s id j g im)

end Sys2Proof.Machine
end

