-- ==== Sys2Proof/Machine/HubDigest.lean ====
section
/-!
DEFINITION. Sys2Proof/Machine/HubDigest.lean: digest reports at the Hub, their comparison, certificates, replay, observation (R176,
R339–R351), and the delivery of what arrived over Reach (R376).
-/
namespace Sys2Proof.Machine
open Reg

/-! ### Reports (R176, R339) -/

/-- What a report says (R339); an extent is (tensor, global base, length, element bits), a bin (tensor, bin, lane A, lane B). -/
structure DView where
  step : Nat
  status : Nat
  replay : Bool
  a : Nat
  b : Nat
  mark : Nat
  rpl : Nat
  shift : Nat
  test : Nat
  exts : List (Nat × Nat × Nat × Nat)
  bins : List (Nat × Nat × Nat × Nat)
  deriving DecidableEq, Repr

/-- Bins listed ascend. -/
def ascending : List Nat → Bool
  | a :: b :: t => decide (a < b) && ascending (b :: t)
  | _ => true

/-- R339: the plaintext of a report; none where its layout is not that of R339. -/
def readDigest (p : List Nat) : Option DView :=
  let e := beAt p 6 2
  let n := beAt p 48 2
  let exts := (List.range e).map (fun i => 56 + 16 * i)
  let bins := ((List.range n).map (fun i => 56 + 16 * e + 24 * i)).map (fun o => (beAt p o 2, beAt p (o + 2) 6, beAt p (o + 8) 8, beAt p (o + 16) 8))
  if p.length < 56 ∨ p.length ≠ 56 + 16 * e + 24 * n ∨ beAt p 4 1 > 5 ∨ beAt p 5 1 > 3 ∨ beAt p 46 1 > 63 ∨ beAt p 47 1 ≠ 0 ∨ beAt p 50 2 ≠ 0 ∨
      exts.any (fun o => beAt p (o + 13) 3 != 0) ∨ ascending (bins.map (fun b => b.1 * 2 ^ 48 + b.2.1)) = false then none
  else some { step := beAt p 0 4, status := beAt p 4 1, replay := beAt p 5 1 % 2 == 1, a := beAt p 8 8, b := beAt p 16 8,
              mark := beAt p 32 8 * 1000000000 + beAt p 40 4, rpl := beAt p 44 2, shift := beAt p 46 1, test := beAt p 52 4,
              exts := exts.map (fun o => (beAt p o 2, beAt p (o + 2) 6, beAt p (o + 8) 4, beAt p (o + 12) 1)), bins }

/-- R340: the extent list matches the shard descriptor (R40). -/
def shardMatches (m : Member) (v : DView) : Bool := m.shard.map (fun e => (e.tensor, e.base, e.len, e.bits)) == v.exts

/-- R176: the key of the epoch, current or previous within its overlap. -/
def liveJobKey (s : State) (job epoch : Nat) : Option HKey :=
  match jobKey s job epoch with
  | some k => if k.state = KSt.CURRENT ∨ (k.state = KSt.PREVIOUS ∧ s.now .hub < k.until_) then some k else none
  | none => none

/-- The job's settings live at the moment of a report's mark. -/
def genAtMark (s : State) (j : HJob) (mark : Nat) : Option JobGen :=
  match genAt s 56 j.slot j.job mark with
  | some g => some g
  | none => jobNow s j

/-! ### Observation (R348–R350) -/

/-- The action OBSERVE for a unit under observation until an instant. -/
def orderObserve (j : HJob) (unit until_ testS : Nat) : HJob :=
  { j with acts := (j.acts.filter (fun x => !(x.1 == unit && x.2.rank == 2))) ++ [(unit, .observe until_ testS)] }

/-- R349, R350: an event of a unit starts its observation, or is its second event. -/
def observeUnit (s : State) (j : HJob) (unit code : Nat) : HJob :=
  let p := polAt j.dpol (s.now .hub)
  let until_ := s.now .hub + (p.map (fun p => p.obsH)).getD 24 * 3600000000000
  let testS := (p.map (fun p => p.testS)).getD 60
  let now := s.now .hub / 1000000000
  let j := orderObserve j unit until_ testS
  match j.obs.find? (fun o => o.unit == unit) with
  | none => { j with obs := j.obs ++ [{ unit, until_, events := 1, first := now, quarantine := none, started := false }] }
  | some o =>
    let o' := if o.until_ = 0 then { o with until_, events := 1, first := now, started := false }
      else { o with until_, events := o.events + 1, quarantine := some (if o.quarantine.isNone then code else o.quarantine.getD code) }
    { j with obs := j.obs.map (fun x => if x.unit = unit then o' else x) }

/-- R348, R351: an event: listed as a suspect, and observed; a second event is also a Bureau entry of severity 6. -/
def unitEvent (s : State) (j : HJob) (unit code step rpl rgroup bin : Nat) : State :=
  let e : VEntry := { type := 0x13, code, flags := 0, unit, a := step * 2 ^ 32 + rpl * 2 ^ 16 + rgroup, b := bin }
  let second := j.obs.any (fun o => o.unit == unit && o.until_ != 0)
  let s := addPend (modJob s j.job (fun j => observeUnit s j unit code)) j.job (s.now .hub) e
  if second then cabEntry s 2 6 { job := j.job, unit, detail := code } else s

/-- B of a SUSPECT that names no bin. -/
def noBin : Nat := 2 ^ 64 - 1

/-! ### Comparisons (R340–R342) -/

def cmpOf (j : HJob) (step round : Nat) : Option DCmp := j.cmps.find? (fun c => c.step == step && c.round == round)

/-- Replace the latest comparison of a state and round. -/
def putCmp (s : State) (job : Nat) (c : DCmp) : State :=
  modJob s job (fun j =>
    { j with cmps := match j.cmps.findIdx? (fun x => x.step == c.step && x.round == c.round) with
      | some i => j.cmps.set i c
      | none => c :: j.cmps })

/-- The generation a comparison judges by: that live at its STEP marks; a replay's is that of its state's round 0. -/
def cmpGen (s : State) (j : HJob) (c : DCmp) : Option JobGen :=
  let src := if c.round = 0 then some c else cmpOf j c.step 0
  match src.bind (fun (x : DCmp) => x.reports.head?) with
  | some r => genAtMark s j r.mark
  | none => jobNow s j

/-- R340: the report counts for its group. -/
def counts (c : DCmp) (r : DRep) : Bool := (r.status == 0 || (c.round != 0 && r.status == 5)) && r.shard

/-- R351: the INCOMPLETE code of a report that does not count. -/
def incompleteCode (r : DRep) : Nat :=
  match r.status with
  | 1 => 2
  | 2 => 4
  | 3 => 3
  | 4 => 7
  | 0 => if r.shard then 1 else 5
  | _ => 1

def modP (x : Nat) : Nat := x % dgsP

/-- The served members of a replica group. -/
def groupMembers (ms : List Member) (g : Nat) : List Member := ms.filter (fun m => m.rgroup == g)

/-- R341: one group of a partial. -/
def partGroup (c : DCmp) (ms : List Member) (g : Nat) : DGroup :=
  let us := (groupMembers ms g).map (·.unit)
  let rs := c.reports.filter (fun r => us.contains r.unit)
  let good := rs.filter (counts c)
  { group := g, state := if c.round = 0 ∧ rs.any (fun r => r.epoch != c.epoch) then 2 else if good.length = us.length then 0 else 1,
    units := good.length, expected := us.length, a := good.foldl (fun x r => modP (x + r.a)) 0, b := good.foldl (fun x r => modP (x + r.b)) 0 }

/-- Add a lane pair to the sum of its bin. -/
def addBin (l : List (Nat × Nat × Nat × Nat × Nat)) (g t i a b : Nat) : List (Nat × Nat × Nat × Nat × Nat) :=
  if l.any (fun x => x.1 == g && x.2.1 == t && x.2.2.1 == i) then
    l.map (fun x => if x.1 = g ∧ x.2.1 = t ∧ x.2.2.1 = i then (g, t, i, modP (x.2.2.2.1 + a), modP (x.2.2.2.2 + b)) else x)
  else l ++ [(g, t, i, a, b)]

/-- R334, R341: the bin digests of a group over the served members, where each of their reports carries bins. -/
def partBins (c : DCmp) (ms : List Member) (g : Nat) : List (Nat × Nat × Nat × Nat × Nat) :=
  let us := (groupMembers ms g).map (·.unit)
  let rs := c.reports.filter (fun r => us.contains r.unit)
  if rs.length = us.length ∧ rs.all (fun r => counts c r && !r.bins.isEmpty) then
    rs.foldl (fun l r => r.bins.foldl (fun l x => addBin l g x.1 x.2.1 x.2.2.1 x.2.2.2) l) []
  else []

/-- R347: the units a serving Hub names. -/
def partNamed (j : HJob) (c : DCmp) (ms : List Member) : List (Nat × Nat) :=
  let orig (u : Nat) : Option DRep := (cmpOf j c.step 0).bind (fun x => x.reports.find? (fun r => r.unit == u && r.status == 0))
  ms.filterMap (fun m =>
    match c.reports.find? (fun r => r.unit == m.unit && (r.status == 0 || r.status == 5)) with
    | none => some (m.unit, 4)
    | some r => match orig m.unit with
      | some o => if o.a = r.a ∧ o.b = r.b then none else some (m.unit, 1)
      | none => none)

/-- R341: this Hub's partial of a comparison. -/
def makePartial (s : State) (j : HJob) (c : DCmp) (ms : List Member) : DPart :=
  let gs := (ms.map (·.rgroup)).eraseDups
  { ver := 1, job := j.job, contrib := selfId s, epoch := c.epoch, step := c.step, round := c.round, rev := 0,
    key := ((jobKey s j.job c.epoch).map (·.val)).getD 0, intact := true, groups := gs.map (partGroup c ms),
    named := if c.round = 0 then [] else partNamed j c ms, bins := if c.round = 0 then [] else gs.flatMap (partBins c ms) }

/-- Bytes of the sealed body of a partial: 28 for each group, 8 for each named unit, 26 for each bin, and the tag (log entry 62). -/
def dpartSealed (f : DPart) : Nat := 28 * f.groups.length + 8 * f.named.length + 26 * f.bins.length + 16

/-- The Hub leads its site for a job. -/
def leads (s : State) (g : JobGen) : Bool := leadOf s g (siteOf (selfId s)) == some (selfId s)

/-- R341, R362: a partial leaves for a Hub. -/
def sendDPart (s : State) (f : DPart) (to_ : Nat) : State :=
  if siteOf to_ = siteOf (selfId s) then s.send (.dpart to_ f) else reachSend s to_ 2 (.dpart f) (rsegLens 32 (dpartSealed f))

/-- Where a partial goes from here: to the site's lead, and from the lead to the leads of the other sites. -/
def routeDPart (s : State) (g : JobGen) (f : DPart) : State :=
  let to_ := if leads s g then (expectedAt s g 4).filter (fun h => h != selfId s) else (leadOf s g (siteOf (selfId s))).toList
  to_.foldl (fun s h => sendDPart s f h) s

/-! #### Decisions -/

/-- The roster groups of a generation that have members. -/
def groupsOf (ms : List Member) : List Nat := (ms.map (·.rgroup)).eraseDups

/-- A group's digest from the partials held; none where it is not complete. -/
def groupDigest (ps : List DPart) (ms : List Member) (g : Nat) : Option (Nat × Nat) :=
  let xs := ps.flatMap (fun p => p.groups.filter (fun x => x.group == g))
  if xs.all (fun x => x.state == 0) ∧ (xs.map (·.units)).foldl (· + ·) 0 = (groupMembers ms g).length then
    some (xs.foldl (fun d x => modP (d + x.a)) 0, xs.foldl (fun d x => modP (d + x.b)) 0)
  else none

/-- The complete groups with their digests. -/
def completeGroups (ps : List DPart) (ms : List Member) : List (Nat × Nat × Nat) :=
  (groupsOf ms).filterMap (fun g => (groupDigest ps ms g).map (fun d => (g, d.1, d.2)))

/-- R351 MISMATCH: groups that differ from the digest most groups hold; every one where two digests tie. -/
def minorityCount (ds : List (Nat × Nat)) : Nat :=
  let n (d : Nat × Nat) : Nat := (ds.filter (fun x => x == d)).length
  let top := (ds.map n).foldl max 0
  let tops := (ds.filter (fun d => n d == top)).eraseDups
  if tops.length > 1 then ds.length else ds.length - top

/-- R342: outcomes: 0 CERTIFIED, 1 MISMATCH, 2 INCOMPLETE, 3 SPLIT. -/
def outcomeOf (ps : List DPart) (ms : List Member) : Nat :=
  let cg := (completeGroups ps ms).map (fun x => x.2)
  if ps.any (fun p => p.groups.any (fun x => x.state == 2)) ∨ ((ps.map (·.epoch)).eraseDups).length > 1 then 3
  else if (cg.eraseDups).length > 1 then 1
  else if cg.length < (groupsOf ms).length then 2
  else 0

/-- Distinct bins a list of extents covers under a shift, by merging runs in ascending order. -/
def countBins (l : List (Nat × Nat × Nat)) : Nat :=
  let sorted := l.foldl (fun acc x => insertBy (fun (y : Nat × Nat × Nat) => ((y.1 * 2 ^ 48 + y.2.1 : Nat) : Int)) x acc) []
  (sorted.foldl (fun (acc : Nat × Option (Nat × Nat)) x =>
    match acc.2 with
    | some (t, hi) => if t = x.1 ∧ x.2.1 ≤ hi then (acc.1 + (max hi x.2.2 - hi), some (t, max hi x.2.2)) else (acc.1 + (x.2.2 + 1 - x.2.1), some (x.1, x.2.2))
    | none => (acc.1 + (x.2.2 + 1 - x.2.1), some (x.1, x.2.2))) (0, none)).1

/-- The runs of bins of a shard under a shift: (tensor, first bin, last bin). -/
def binRuns (b : Nat) (sh : List Extent) : List (Nat × Nat × Nat) :=
  (sh.filter (fun e => e.len != 0)).map (fun e => (e.tensor, e.base / 2 ^ b, (e.base + e.len - 1) / 2 ^ b))

/-- R345: the shift meets both limits. -/
def shiftFits (ms : List Member) (b : Nat) : Bool :=
  ms.all (fun m => decide (countBins (binRuns b m.shard) ≤ if m.lite then 256 else 512)) &&
  decide ((groupsOf ms).length * countBins (ms.flatMap (fun m => binRuns b m.shard)) ≤ 65536)

/-- R345: the smallest bin shift. -/
def replayShift (ms : List Member) : Nat := ((List.range 48).find? (shiftFits ms)).getD 0

/-- R345: a replay is ordered of every member served here, or waits for the one in progress. -/
def orderReplay (s : State) (job step id epoch : Nat) (all served : List Member) : State :=
  modJob s job (fun j =>
    if j.rpl.isSome then { j with rplWait := j.rplWait ++ [(step, id, epoch)] }
    else
      let b := replayShift all
      { j with rpl := some { step, id, shift := b, epoch, ordered := 0, waited := false, named := [] },
               acts := j.acts ++ served.map (fun m => (m.unit, .replay step id b epoch)) })

/-- The next replay that waits. -/
def nextReplay (s : State) (job : Nat) : State :=
  match hjob s job with
  | some j => match j.rplWait with
    | (step, id, epoch) :: rest =>
      let s := modJob s job (fun j => { j with rplWait := rest })
      (match (cmpOf j step 0).bind (cmpGen s j) with
        | some g => orderReplay s job step id epoch (winMembers s g) (servedMembers s g)
        | none => s)
    | [] => s
  | none => s

/-- R343: D, 0 for a job at one site. -/
def reachD (s : State) (g : JobGen) : Nat :=
  if (((servingHubs s g).map siteOf).eraseDups).length ≤ 1 then 0 else Config.reachDelay g.job

/-- R341: the outcome goes to every serving Hub of the site. -/
def tellSite (s : State) (g : JobGen) (step round outcome : Nat) : State :=
  ((servingHubs s g).filter (fun h => siteOf h == siteOf (selfId s) && h != selfId s)).foldl
    (fun s h => s.send (.outcome h g.job step round outcome)) s

/-- R342, R345, R351: the outcome of a state. -/
def decideState (s : State) (j : HJob) (g : JobGen) (c : DCmp) : State :=
  let all := winMembers s g
  let served := servedMembers s g
  let o := outcomeOf c.partials all
  let now := s.now .hub
  let s := tellSite (putCmp s j.job { c with decided := some (o, now) }) g c.step 0 o
  let cg := completeGroups c.partials all
  let soon := now + 250000 + reachD s g
  match o with
  | 0 => addPend s j.job soon { type := 0x11, code := 0, flags := 0, unit := jobWide, a := c.step * 2 ^ 32 + g.gen,
                                b := ((cg.head?).map (fun x => x.2.1)).getD 0 }
  | 1 =>
    let id := j.rplNext
    let s := modJob s j.job (fun j => { j with rplNext := if id ≥ 65535 then 1 else id + 1 })
    let s := addPend s j.job soon
      { type := 0x10, code := min 255 (minorityCount (cg.map (·.2))), flags := b2n j.rpl.isNone, unit := jobWide,
        a := c.step * 2 ^ 32 + id * 2 ^ 16 + cg.length, b := 0 }
    orderReplay s j.job c.step id c.epoch all served
  | 2 => (served.filter (fun m => !c.reports.any (fun r => r.unit == m.unit && counts c r))).foldl (fun s m =>
      addPend s j.job now
        { type := 0x16, code := ((c.reports.find? (fun r => r.unit == m.unit)).map incompleteCode).getD 1, flags := 0, unit := m.unit,
          a := c.step * 2 ^ 32, b := 0 }) s
  | _ => addPend s j.job now { type := 0x16, code := 6, flags := 0, unit := jobWide, a := c.step * 2 ^ 32, b := 0 }

/-! #### Replay (R347) -/

/-- The bin digests of a group from the partials; none where some partial with members of it carries none. -/
def groupBins (ps : List DPart) (g : Nat) : Option (List (Nat × Nat × Nat × Nat × Nat)) :=
  let with_ := ps.filter (fun p => p.groups.any (fun x => x.group == g))
  if with_.all (fun p => p.bins.any (fun x => x.1 == g)) then
    some (with_.foldl (fun l p => (p.bins.filter (fun x => x.1 == g)).foldl (fun l x => addBin l g x.2.1 x.2.2.1 x.2.2.2.1 x.2.2.2.2) l) [])
  else none

/-- The lane pair of a bin in a group's bins. -/
def binIn (l : List (Nat × Nat × Nat × Nat × Nat)) (t i : Nat) : Option (Nat × Nat) :=
  (l.find? (fun x => x.2.1 == t && x.2.2.1 == i)).map (fun x => x.2.2.2)

/-- Units of a group whose extents cover a bin. -/
def covering (ms : List Member) (g shift t i : Nat) : List Nat :=
  ((groupMembers ms g).filter (fun m => (binRuns shift m.shard).any (fun r => r.1 == t && decide (r.2.1 ≤ i) && decide (i ≤ r.2.2)))).map (·.unit)

/-- R347: the units a lead names, with code, tensor and bin, and whether there is a majority. -/
def replayNames (ps : List DPart) (ms : List Member) (shift : Nat) : Bool × List (Nat × Nat × Nat × Nat) :=
  let cg := completeGroups ps ms
  let n (d : Nat × Nat) : Nat := (cg.filter (fun x => x.2 == d)).length
  let bins := cg.map (fun x => (x.1, groupBins ps x.1))
  let keys := ((bins.flatMap (fun x => (x.2.getD []).map (fun y => (y.2.1, y.2.2.1)))).eraseDups)
  let binOfG (g t i : Nat) : Option (Nat × Nat) := ((bins.find? (fun x => x.1 == g)).bind (fun x => x.2)).bind (fun l => binIn l t i)
  match cg.find? (fun x => decide (2 * n x.2 > cg.length)) with
  | some v =>
    let odd := cg.filter (fun x => x.2 != v.2)
    let holder := (cg.find? (fun x => x.2 == v.2 && ((bins.find? (fun y => y.1 == x.1)).bind (fun y => y.2)).isSome)).map (·.1)
    (true, odd.flatMap (fun x =>
      match (bins.find? (fun y => y.1 == x.1)).bind (fun y => y.2), holder with
      | some _, some h => keys.flatMap (fun k =>
          if binOfG x.1 k.1 k.2 = binOfG h k.1 k.2 then [] else (covering ms x.1 shift k.1 k.2).map (fun u => (u, 2, k.1, k.2)))
      | _, _ => (groupMembers ms x.1).map (fun m => (m.unit, 2, 0xFFFF, 2 ^ 48 - 1))))
  | none =>
    if bins.all (fun x => x.2.isSome) then
      (false, keys.flatMap (fun k =>
        if ((cg.map (fun x => binOfG x.1 k.1 k.2)).eraseDups).length ≤ 1 then []
        else cg.flatMap (fun x => (covering ms x.1 shift k.1 k.2).map (fun u => (u, 3, k.1, k.2)))))
    else (false, cg.flatMap (fun x => (groupMembers ms x.1).map (fun m => (m.unit, 3, 0xFFFF, 2 ^ 48 - 1))))

/-- Each unit once, as first named. -/
def firstNames (l : List (Nat × Nat × Nat × Nat)) : List (Nat × Nat × Nat × Nat) :=
  l.foldl (fun acc x => if acc.any (fun y => y.1 == x.1) then acc else acc ++ [x]) []

/-- R347, R348: the replay ends (1 DECIDED, 2 UNDECIDED, 3 EXPIRED); named units become suspects; the next replay is ordered. -/
def endReplay (s : State) (j : HJob) (g : JobGen) (r : Rpl) (code : Nat) (named : List (Nat × Nat × Nat × Nat)) : State :=
  let named := firstNames (named ++ r.named)
  let all := winMembers s g
  let served := (servedMembers s g).map (·.unit)
  let s := modJob s j.job (fun j => { j with rpl := none })
  let s := tellSite s g r.step r.id (3 + code)
  let s := addPend s j.job (s.now .hub)
    { type := 0x12, code, flags := 0, unit := jobWide, a := r.step * 2 ^ 32 + r.id * 2 ^ 16 + named.length % 2 ^ 16, b := r.shift }
  let s := named.foldl (fun s x =>
    let rg := ((all.find? (fun m => m.unit == x.1)).map (·.rgroup)).getD 0
    let bin := x.2.2.1 * 2 ^ 48 + x.2.2.2
    if served.contains x.1 then unitEvent s ((hjob s j.job).getD j) x.1 x.2.1 r.step r.id rg bin
    else addPend s j.job (s.now .hub)
      { type := 0x13, code := x.2.1, flags := 0, unit := x.1, a := r.step * 2 ^ 32 + r.id * 2 ^ 16 + rg, b := bin }) s
  nextReplay s j.job

/-- A lead decides a replay round on the partials held. -/
def decideReplay (s : State) (j : HJob) (g : JobGen) (c : DCmp) (r : Rpl) : State :=
  let x := replayNames c.partials (winMembers s g) r.shift
  let byHubs := c.partials.flatMap (fun p => p.named.map (fun n => (n.1, n.2, 0xFFFF, 2 ^ 48 - 1)))
  let code := if x.1 then 1 else 2
  endReplay (putCmp s j.job { c with decided := some (3 + code, s.now .hub) }) j g r code (byHubs ++ x.2)

/-- R341: a lead decides a comparison once every expected partial is held, or at once when `force`. -/
def tryDecide (s : State) (job step round : Nat) (force : Bool) : State :=
  match (hjob s job).bind (fun j => (cmpOf j step round).map (fun c => (j, c))) with
  | none => s
  | some (j, c) =>
    match cmpGen s j c with
    | none => s
    | some g =>
      let all := (servingHubs s g).all (fun h => c.partials.any (fun p => p.contrib == h))
      if leads s g = false ∨ c.decided.isSome ∨ ¬ (all ∨ force = true) then s
      else if round = 0 then decideState s j g c
      else match j.rpl with
        | some r => if r.id = round then decideReplay s j g c r else s
        | none => s

/-- R341: this Hub's partial of a comparison leaves; a lead holds it and decides where it can. -/
def sendPartial (s : State) (job step round : Nat) : State :=
  match (hjob s job).bind (fun j => (cmpOf j step round).map (fun c => (j, c))) with
  | none => s
  | some (j, c) =>
    match cmpGen s j c with
    | none => s
    | some g =>
      if c.sent then s
      else
        let f := makePartial s j c (servedMembers s g)
        let s := putCmp s job { c with sent := true, partials := if leads s g then c.partials ++ [f] else c.partials }
        tryDecide (routeDPart s g f) job step round false

/-- Every member served here has reported. -/
def allReported (s : State) (j : HJob) (c : DCmp) : Bool :=
  match cmpGen s j c with
  | some g => (servedMembers s g).all (fun m => c.reports.any (fun r => r.unit == m.unit))
  | none => false

/-- R340: a report enters the comparison of its state and round; one with a later STEP mark than the decision opens a new one. -/
def addReport (s : State) (j : HJob) (step round : Nat) (r : DRep) : State :=
  let now := s.now .hub
  let fresh : DCmp := { step, round, epoch := r.epoch, shift := 0, first := now, siteFirst := now, reports := [r], sent := false, partials := [], decided := none }
  let s := match cmpOf j step round with
    | none => putCmp s j.job fresh
    | some c => match c.decided with
      | some (_, t) => if r.mark > t then modJob s j.job (fun j => { j with cmps := fresh :: j.cmps }) else s
      | none =>
        if c.reports.any (fun x => x.unit == r.unit) then s
        else putCmp s j.job { c with reports := c.reports ++ [r], first := if c.reports.isEmpty then now else c.first }
  match (hjob s j.job).bind (fun j => (cmpOf j step round).map (fun c => (j, c))) with
  | some (j, c) => if allReported s j c then sendPartial s j.job step round else s
  | none => s

/-- R348: a rise of the FAIL count, modulo 2^16. -/
def failRise (old new : Nat) : Bool :=
  let d := (new + 65536 - old) % 65536
  decide (0 < d) && decide (d < 32768)

/-- R340, R348: an accepted report of a member; with `lanes` 2 its sum is withheld (R189). -/
def reportIn (s : State) (g : JobGen) (m : Member) (epoch lanes : Nat) (v : DView) : State :=
  match hjob s g.job with
  | none => s
  | some j =>
    let fail := v.test % 65536
    let rise := match j.tests.find? (fun x => x.1 == m.unit) with
      | some x => failRise x.2 fail
      | none => false
    let s := modJob s g.job (fun j => { j with tests := (m.unit, fail) :: j.tests.filter (fun x => x.1 != m.unit) })
    let s := if v.status = Dgs.POISON then unitEvent s ((hjob s g.job).getD j) m.unit 6 v.step v.rpl m.rgroup noBin else s
    let s := if rise then unitEvent s ((hjob s g.job).getD j) m.unit 5 v.step v.rpl m.rgroup noBin else s
    let round := if v.replay then v.rpl else 0
    let e := if v.replay then ((j.rpl.filter (fun r => r.id == v.rpl)).map (fun r => r.epoch)).getD epoch else epoch
    let r : DRep := { unit := m.unit, epoch := e, status := if lanes ≥ 2 then 255 else v.status, shard := shardMatches m v, a := v.a, b := v.b,
                      bins := v.bins, mark := v.mark }
    addReport s ((hjob s g.job).getD j) v.step round r

/-- R189, R352: the lanes of a digest sum differ on a die; `lanes` 1: the sum made again agrees. -/
def digestLanes (s : State) (d : Nat) (g : JobGen) (lanes : Nat) : State :=
  if lanes = 0 then s
  else
    let s := (s.bump (Pg.trs d) TRS_LANE_MISMATCH).wr (Pg.trs d) TRS_LANE_SLOT g.slot
    let s := raise s (Pg.trs d) Irq.TRS_LANE_MISMATCH { job := g.job, win := windowIndex g.k (s.now .hub) }
    if lanes ≥ 2 then jobLane s g.job (windowIndex g.k (s.now .hub)) else s

/-- R174, R176: the checks of a complete DIGEST set; `poison` says whether its plaintext reads poisoned. -/
def digestSet (s : State) (d lanes : Nat) (poison : Bool) (r : Reasm) : State :=
  let h := r.hdr
  if r.lengthsOk = false then ingRefuse s d 4 Syn.SIZE Cnt.REASM
  else match slotOf s d h.job with
    | none => ingRefuse s d 5 Syn.ROSTER Cnt.NOJOB
    | some slot =>
      let g := liveGen s d slot
      match memberOf s h.job g.gen h.unit with
      | none => ingRefuse s d 9 Syn.ROSTER Cnt.ROSTER
      | some m =>
        if m.hub ≠ selfId s then ingRefuse s d 9 Syn.ROSTER Cnt.ROSTER
        else match liveJobKey s h.job h.epoch with
          | none => ingRefuse s d 10 Syn.AUTH Cnt.AUTH
          | some key => match r.data with
            | none => ingRefuse s d 11 Syn.AUTH Cnt.AUTH
            | some body =>
              if body.intact = false ∨ body.key ≠ key.val ∨ body.hdr ≠ h ∨ body.plain.length + 16 ≠ h.sealedLen then ingRefuse s d 11 Syn.AUTH Cnt.AUTH
              else match s.hub.digSeen.find? (fun b => b.hdr.job == h.job && b.hdr.unit == h.unit && b.hdr.epoch == h.epoch && b.hdr.window == h.window) with
                | some b =>
                  if b = body then count s d Cnt.DUP
                  else raise (ingRefuse s d 12 Syn.STATE Cnt.CONFLICT) (Pg.ing d) Irq.ING_CONFLICT
                    { job := h.job, unit := h.unit, win := h.window, detail := b.hdr.tgen + h.tgen * 2 ^ 16 }
                | none =>
                  if poison then raise (ingRefuse s d 13 Syn.POISON Cnt.POISON) (Pg.ing d) Irq.POISON
                  else match readDigest body.plain with
                    | none => ingRefuse s d 14 Syn.RANGE Cnt.HDR
                    | some v =>
                      let s := count { s with hub := { s.hub with digSeen := body :: s.hub.digSeen } } d Cnt.DIGEST
                      reportIn (digestLanes s d g lanes) g m h.epoch lanes v

/-- R176, R340: the next reassembled DIGEST set of a die. -/
def execDigestReportRx (d lanes : Nat) (poison : Bool) (s : State) : Host.Outcome State Fault Refusal :=
  if ¬ isXD d ∨ isFrozen s (Pg.ing d) then .next s
  else
    let s := drainHeld s d
    match firstSet s d 2 with
    | none => .next s
    | some r => .next (digestSet (takeSet s d r) d lanes poison r)

/-- REPORT_WAIT_MS and REPLAY_WAIT_MS of a job, ns (R335). -/
def reportWait (s : State) (j : HJob) : Nat := ((polAt j.dpol (s.now .hub)).map (fun p => p.reportWait)).getD 100 * 1000000
def replayWait (s : State) (j : HJob) : Nat := ((polAt j.dpol (s.now .hub)).map (fun p => p.replayWait)).getD 10000 * 1000000

/-- R341: REPORT_WAIT_MS after the first report received here of a state. -/
def execReportWaitExpiry (job step : Nat) (s : State) : Host.Outcome State Fault Refusal :=
  match (hjob s job).bind (fun j => (cmpOf j step 0).map (fun c => (j, c))) with
  | some (j, c) =>
    if c.sent = true ∨ c.reports = [] ∨ c.decided.isSome ∨ s.now .hub < c.first + reportWait s j then .next s
    else .next (sendPartial s job step 0)
  | none => .next s

/-! ### Partials from other Hubs (R341) -/

/-- The comparison a partial belongs to, new where nothing of it is held. -/
def cmpFor (s : State) (j : HJob) (f : DPart) : DCmp :=
  match cmpOf j f.step f.round with
  | some c => { c with siteFirst := min c.siteFirst (s.now .hub) }
  | none => { step := f.step, round := f.round, epoch := f.epoch, shift := 0, first := s.now .hub, siteFirst := s.now .hub, reports := [], sent := false,
              partials := [], decided := none }

/-- R194, R341: a digest partial at a lead Hub: checked, told apart by identity, held, and from a Hub of its own site sent on to the other
leads. -/
def dpartialIn (s : State) (d : Nat) (f : DPart) : State :=
  if f.ver ≠ 1 then count (syn s (Pg.ing d) Syn.RANGE) d Cnt.HDR
  else match slotOf s d f.job, hjob s f.job with
    | some slot, some j =>
      let g := liveGen s d slot
      if ¬ (liveJobKey s f.job f.epoch).any (fun k => k.val == f.key) ∨ f.intact = false then count (syn s (Pg.ing d) Syn.AUTH) d Cnt.AUTH
      else if leads s g = false ∨ ¬ (servingHubs s g).contains f.contrib then count (syn s (Pg.ing d) Syn.ROSTER) d Cnt.ROSTER
      else
        let c := cmpFor s j f
        if c.partials.any (fun p => p.contrib == f.contrib && decide (f.rev ≤ p.rev)) ∨ c.decided.isSome then count s d Cnt.DUP
        else
          let s := putCmp (count s d Cnt.AGG) f.job { c with partials := f :: c.partials.filter (fun p => p.contrib != f.contrib) }
          let s := if siteOf f.contrib = siteOf (selfId s) then routeDPart s g f else s
          tryDecide s f.job f.step f.round false
    | _, _ => count (syn s (Pg.ing d) Syn.ROSTER) d Cnt.NOJOB

def execDpartialRx (d : Nat) (f : DPart) (s : State) : Host.Outcome State Fault Refusal :=
  if ¬ isXD d ∨ isFrozen s (Pg.ing d) then .next s else .next (dpartialIn s d f)

/-- R341: 2 × REPORT_WAIT_MS after the first report of the state reached the site, the lead decides with what it holds. -/
def execOutcomeWaitExpiry (job step : Nat) (s : State) : Host.Outcome State Fault Refusal :=
  match (hjob s job).bind (fun j => (cmpOf j step 0).map (fun c => (j, c))) with
  | some (j, c) =>
    if c.decided.isSome ∨ s.now .hub < c.siteFirst + 2 * reportWait s j then .next s
    else .next (tryDecide (sendPartial s job step 0) job step 0 true)
  | none => .next s

/-! ### The waits of a replay (R346, R347) -/

/-- R346, R347: the wait for replay reports is over: units without one are named NO_REPLAY, and the partial leaves. -/
def execReplayWaitExpiry (job : Nat) (s : State) : Host.Outcome State Fault Refusal :=
  match (hjob s job).bind (fun j => j.rpl.map (fun r => (j, r))) with
  | some (j, r) =>
    if r.waited = true ∨ r.ordered = 0 ∨ s.now .hub < r.ordered + replayWait s j then .next s
    else
      let c := (cmpOf j r.step r.id).getD
        { step := r.step, round := r.id, epoch := r.epoch, shift := r.shift, first := s.now .hub, siteFirst := s.now .hub, reports := [], sent := false,
          partials := [], decided := none }
      let named := match cmpGen s j c with
        | some g => (partNamed j c (servedMembers s g)).map (fun n => (n.1, n.2, 0xFFFF, 2 ^ 48 - 1))
        | none => []
      let s := modJob (putCmp s job c) job (fun j => { j with rpl := some { r with waited := true, named } })
      .next (sendPartial s job r.step r.id)
  | none => .next s

/-- R347: REPLAY_WAIT_MS + 2 × REPORT_WAIT_MS + D after its order an undecided replay ends EXPIRED. -/
def execReplayExpired (job : Nat) (s : State) : Host.Outcome State Fault Refusal :=
  match (hjob s job).bind (fun j => j.rpl.map (fun r => (j, r))) with
  | some (j, r) =>
    match (cmpOf j r.step 0).bind (cmpGen s j) with
    | some g =>
      if r.ordered = 0 ∨ s.now .hub < r.ordered + replayWait s j + 2 * reportWait s j + reachD s g then .next s
      else .next (endReplay s j g r 3 [])
    | none => .next s
  | none => .next s

/-- R349: a unit's observation ends; QUARANTINE stays listed (R350). -/
def execObservationEnd (job unit : Nat) (s : State) : Host.Outcome State Fault Refusal :=
  match (hjob s job).bind (fun j => j.obs.find? (fun o => o.unit == unit)) with
  | some o =>
    if o.until_ = 0 ∨ s.now .hub < o.until_ then .next s
    else
      let s := modJob s job (fun j =>
        { j with obs := if o.quarantine.isSome then j.obs.map (fun x => if x.unit = unit then { x with until_ := 0 } else x)
                        else j.obs.filter (fun x => x.unit != unit) })
      .next (addPend s job (s.now .hub)
        { type := 0x14, code := 3, flags := 0, unit, a := o.until_ / 1000000000, b := o.events })
  | none => .next s

/-! ### Delivery from Reach (R363, R376) -/

/-- A segment handed on joins its frame set; the set that is whole is taken. -/
def collect (l : List (RInner × List Nat)) (g : RSeg) : List (RInner × List Nat) × Option RInner :=
  let have_ := ((l.find? (fun x => x.1 == g.inner)).map (·.2)).getD []
  let have_ := if have_.contains g.seg then have_ else g.seg :: have_
  let rest := l.filter (fun x => x.1 != g.inner)
  if (List.range g.segs).all (fun i => have_.contains i) then (rest, some g.inner) else ((g.inner, have_) :: rest, none)

/-- R376: the next frame in SEQ order is handed to ingest of the Reach die, or forwarded; ingest cannot take it while frozen. -/
def execRxDeliver (l : Nat) (s : State) : Host.Outcome State Fault Refusal :=
  let r := getRch s l
  if l ≥ 2 ∨ isFrozen s (Pg.rch l) then .next s
  else match r.rxQ with
    | [] => .next s
    | f :: fs =>
      if f.dest ≠ selfId s then .next ((rchCount (setRch s l { r with rxQ := fs }) l RCnt.FWD).send (.forward f.dest f.dest f.seg))
      else if isFrozen s (Pg.ing (62 + l)) then .next s
      else
        let c := collect r.reasm f.seg
        let s := setRch s l { r with rxQ := fs, reasm := c.1 }
        match c.2 with
        | some (.agg a) => .next (aggregateIn s (62 + l) a)
        | some (.dpart p) => .next (dpartialIn s (62 + l) p)
        | none => .next s

end Sys2Proof.Machine
end

