-- ==== Sys2Proof/Machine/Descriptor.lean ====
section
/-!
DEFINITION. Sys2Proof/Machine/Descriptor.lean: descriptors: their fields (R232, R234–R236, R272), the checks at the head of a
queue (R225, R237), and reading and writing rows of elements in SRAM (R201, R215–R217).
-/
namespace Sys2Proof.Machine
open Reg

/-! ### Fields -/

def dw (d : TDesc) (i : Nat) : Nat := d.words.getD i 0
def dOp (d : TDesc) : Nat := bits (dw d 0) 31 24
def dDepV (d : TDesc) : Nat := bits (dw d 0) 23 20
def dFlags (d : TDesc) : Nat := bits (dw d 0) 19 16
/-- DEP_q. -/
def dDep (d : TDesc) (q : Nat) : Nat := dw d (1 + q / 2) / 2 ^ (16 * (q % 2)) % 2 ^ 16
def dArith (d : TDesc) : Nat := dw d 3
def dSeed (d : TDesc) : Nat := dw d 4
def aFmtA (d : TDesc) : Nat := bits (dArith d) 31 28
def aFmtB (d : TDesc) : Nat := bits (dArith d) 27 24
def aFmtOut (d : TDesc) : Nat := bits (dArith d) 23 20
def aMxA (d : TDesc) : Bool := bit (dArith d) 19
def aMxB (d : TDesc) : Bool := bit (dArith d) 18
def aMxOut (d : TDesc) : Bool := bit (dArith d) 17
def aRnd (d : TDesc) : Bool := bit (dArith d) 16
def aFrac (d : TDesc) : Nat := bits (dArith d) 13 8
def dVop (d : TDesc) : Nat := dw d 5 % 2 ^ 8
def dLen (d : TDesc) : Nat := dw d 10

def opMATMUL : Nat := 1
def opVECTOR : Nat := 2
def opTREE : Nat := 3
def opCOPY : Nat := 4
def opFENCE : Nat := 5

/-- R235: the operations that exist. -/
def vopDefined (v : Nat) : Bool := (decide (1 ≤ v) && decide (v ≤ 0x14)) || (decide (0x20 ≤ v) && decide (v ≤ 0x2D))
/-- The operations on INT32 lanes. -/
def vopInt (v : Nat) : Bool := decide (v ≥ 0x20)
/-- R235: sources of an operation. -/
def vopSources (v : Nat) : Nat :=
  if v = 0x04 then 3
  else if (0x06 ≤ v ∧ v ≤ 0x0A) ∨ (0x11 ≤ v ∧ v ≤ 0x14) then 1 else 2
/-- The operations that write the mask array and no elements. -/
def vopMask (v : Nat) : Bool := (decide (0x0D ≤ v) && decide (v ≤ 0x10)) || v == 0x2D
/-- The operations that read the mask array (carries). -/
def vopCarry (v : Nat) : Bool := v == 0x20 || v == 0x21

/-! ### The five checks of R237 -/

/-- Words 5–15: a mask of the bits an operation names (R234–R236, R272). -/
def operandMasks : Nat → List Nat
  | 1 => [0x3FFFFF, 0x3FFFFF, 0x3FFFFF, 0x3FFFFF, 0xFFFFFFFF, 0xFFFFF, 0xFFFFFFFF, 0xFFFFFFFF, 0x3FFFFF, 0x3FFFFF, 0x3FFFFF]
  | 2 => [0xFF, 0x3FFFFF, 0x3FFFFF, 0x3FFFFF, 0x3FFFFF, 0x3FFFFF, 0x3FFFFF, 0x3FFFFF, 0x3FFFFF, 0, 0]
  | 3 => [0x3FFFFF, 0xFFFF, 0x1FFFF, 0x3FFFFF, 0xFFFFFFFF, 0x3FFFFF, 0x3FFFFF, 0x3FFFFF, 0x3FFFFF, 0, 0]
  | 4 => [0xFFFFFFFF, 0xFFFFFFFF, 0xFFFFFFFF, 0xFFFFFFFF, 0x7FFFFF, 0xFFFF, 0xFFFFFFFF, 0xFFFFFFFF, 0, 0, 0]
  | _ => [0, 0, 0, 0, 0, 0, 0, 0, 0, 0, 0]

/-- The FLAGS bits an operation uses. -/
def flagMask (d : TDesc) : Nat :=
  if dOp d = opMATMUL then 1
  else if dOp d = opVECTOR then
    (if dVop d = 0x2D then 7 else if dVop d = 0x2B ∨ dVop d = 0x2C ∨ dVop d = 0x24 then 1 else 0)
  else if dOp d = opTREE then 15 else 0

/-- R232: the queue an operation belongs to. -/
def opOnQueue (op q : Nat) : Bool := op == 5 || (decide (1 ≤ op) && decide (op ≤ 4) && op == q + 1)

/-- Check 1. -/
def check1 (d : TDesc) (q : Nat) : Bool :=
  opOnQueue (dOp d) q && !bit (dDepV d) q && Nat.land (dFlags d) (flagMask d) == dFlags d &&
  ((operandMasks (dOp d)).zipIdx.all (fun m => Nat.land (dw d (5 + m.2)) m.1 == dw d (5 + m.2)))

/-- R219: the operand pairs of the matrix unit. -/
def matPair (a b : Nat) : Bool :=
  (a == b && decide (a ≤ 10)) || (mxFmt a && mxFmt b) ||
  (a == 9 && b == 10) || (a == 10 && b == 9)

/-- R219: the operands are integers. -/
def matInt (a : Nat) : Bool := a == 9 || a == 10

/-- R221: the outputs of the matrix unit. -/
def matOut (a out : Nat) : Bool :=
  if matInt a then out == 11 || out == 9 || out == 10 || out == 0 else decide (out ≤ 10)

/-- Check 2 (R225). -/
def check2 (d : TDesc) : Bool :=
  if dOp d = opMATMUL ∨ dOp d = opVECTOR then
    decide (aFmtA d ≤ 11) && decide (aFmtB d ≤ 11) && decide (aFmtOut d ≤ 11) &&
    bits (dArith d) 15 14 == 0 && bits (dArith d) 7 0 == 0 &&
    (!aMxA d || mxFmt (aFmtA d)) && (!aMxB d || mxFmt (aFmtB d)) && (!aMxOut d || mxFmt (aFmtOut d)) &&
    (!aRnd d || srFmt (aFmtOut d)) &&
    (aFrac d == 0 || (dOp d == opVECTOR && dVop d == 0x14)) &&
    (dOp d != opMATMUL || (matPair (aFmtA d) (aFmtB d) && matOut (aFmtA d) (aFmtOut d)))
  else dArith d == 0 && dSeed d == 0

/-- The bytes of a row of `n` elements of a format code. -/
def rowBytes (c n : Nat) : Nat := ceilDiv (n * fmtBits c) 8

/-- `rows` rows of `len` bytes at a stride lie inside SRAM. -/
def inSram (base rows stride len : Nat) : Bool :=
  rows == 0 || len == 0 || decide (base + (rows - 1) * stride + len ≤ sramSize)

/-! MATMUL fields (R234). -/
def mM (d : TDesc) : Nat := bits (dw d 9) 31 16
def mN (d : TDesc) : Nat := bits (dw d 9) 15 0
def mK (d : TDesc) : Nat := dw d 10
def mLda (d : TDesc) : Nat := bits (dw d 11) 31 16 * 64
def mLdb (d : TDesc) : Nat := bits (dw d 11) 15 0 * 64
def mLdo (d : TDesc) : Nat := bits (dw d 12) 31 16 * 64
def mLdc (d : TDesc) : Nat := bits (dw d 12) 15 0 * 64
def mAcc (d : TDesc) : Bool := bit (dFlags d) 0

def matmulCheck3 (d : TDesc) : Bool :=
  dw d 5 % 64 == 0 && dw d 6 % 64 == 0 && (!mAcc d || dw d 7 % 64 == 0) && dw d 8 % 64 == 0 &&
  (!(aMxA d || aMxB d) || mK d % 32 == 0) && (!aMxOut d || mN d % 32 == 0) &&
  rowOk (aFmtA d) (aMxA d) (mK d) && rowOk (aFmtB d) (aMxB d) (mK d) && rowOk (aFmtOut d) (aMxOut d) (mN d)

def matmulCheck4 (d : TDesc) : Bool :=
  let m := mM d
  let n := mN d
  let k := mK d
  decide (m ≤ 4096) && decide (n ≤ 4096) &&
  (m == 0 || n == 0 ||
    (inSram (dw d 5) m (mLda d) (rowBytes (aFmtA d) k) && inSram (dw d 6) n (mLdb d) (rowBytes (aFmtB d) k) &&
     (!mAcc d || inSram (dw d 7) m (mLdc d) (4 * n)) && inSram (dw d 8) m (mLdo d) (rowBytes (aFmtOut d) n) &&
     (!aMxA d || inSram (dw d 13) m (k / 32) (k / 32)) && (!aMxB d || inSram (dw d 14) n (k / 32) (k / 32)) &&
     (!aMxOut d || inSram (dw d 15) m (n / 32) (n / 32))))

/-! VECTOR fields (R235). -/

/-- R222, R223: the lane format of a float operation: BF16 or FP16 where every operand format is that one and the operation
has such lanes, else FP32 (log entry 16). -/
def laneFmt (d : TDesc) : FFmt :=
  let v := dVop d
  let wide := (0x05 ≤ v ∧ v ≤ 0x0A) ∨ v = 0x14
  let two := vopSources v ≥ 2
  if wide then FP32
  else if aFmtA d = 2 ∧ (¬ two ∨ aFmtB d = 2) then BF16
  else if aFmtA d = 3 ∧ (¬ two ∨ aFmtB d = 3) then FP16
  else FP32

/-- The format code of a lane format. -/
def laneCode (d : TDesc) : Nat := if vopInt (dVop d) then 11 else if laneFmt d = BF16 then 2 else if laneFmt d = FP16 then 3 else 0

/-- Elements the operation writes (R223: CVT.FX writes a pair of lanes). -/
def vOut (d : TDesc) : Nat := if dVop d = 0x14 then 2 * dLen d else dLen d

def vectorCheck3 (d : TDesc) : Bool :=
  vopDefined (dVop d) && !aMxB d && rowOk (aFmtA d) (aMxA d) (dLen d) &&
  (decide (vopSources (dVop d) < 2) || rowOk (aFmtB d) false (dLen d)) &&
  (vopMask (dVop d) || rowOk (aFmtOut d) (aMxOut d) (vOut d))

def vectorCheck4 (d : TDesc) : Bool :=
  let v := dVop d
  let n := dLen d
  inSram (dw d 6) 1 0 (rowBytes (aFmtA d) n) &&
  (decide (vopSources v < 2) || inSram (dw d 7) 1 0 (rowBytes (aFmtB d) n)) &&
  (decide (vopSources v < 3) || inSram (dw d 8) 1 0 (rowBytes (laneCode d) n)) &&
  (vopMask v || inSram (dw d 9) 1 0 (rowBytes (aFmtOut d) (vOut d))) &&
  (!(vopMask v || vopCarry v) || inSram (dw d 11) 1 0 (ceilDiv n 8)) &&
  (!aMxA d || inSram (dw d 12) 1 0 (n / 32)) &&
  (vopMask v || !aMxOut d || inSram (dw d 13) 1 0 (vOut d / 32))

/-! COPY fields (R236). -/
def cAddr (d : TDesc) (i : Nat) : Nat := dw d (i + 1) * 2 ^ 32 + dw d i
def cSpace (a : Nat) : Nat := bits a 63 60
def cTile (a : Nat) : Nat := bits a 42 32
def cHub (a : Nat) : Nat := bits a 49 48
/-- The offset or byte address inside the space. -/
def cOfs (a : Nat) : Nat := if cSpace a = 2 then bits a 39 0 else bits a 21 0
def cRowBytes (d : TDesc) : Nat := dw d 9
def cRows (d : TDesc) : Nat := dw d 10

/-- R236: the space is defined and the bits it does not use are 0. -/
def cAddrOk (a : Nat) : Bool :=
  match cSpace a with
  | 0 => a == bits a 21 0
  | 1 => a == 2 ^ 60 + cTile a * 2 ^ 32 + bits a 21 0
  | 2 => a == 2 * 2 ^ 60 + bits a 39 0
  | 3 => a == 3 * 2 ^ 60 + cHub a * 2 ^ 48 + cTile a * 2 ^ 32 + bits a 21 0
  | _ => false

def copyCheck3 (d : TDesc) : Bool := cAddrOk (cAddr d 5) && cAddrOk (cAddr d 7)

def copyCheck4 (d : TDesc) : Bool :=
  let fits (a stride : Nat) := cSpace a == 2 || inSram (cOfs a) (cRows d) stride (cRowBytes d)
  decide (cRowBytes d ≤ sramSize) && fits (cAddr d 5) (dw d 11) && fits (cAddr d 7) (dw d 12)

/-- R241: `rows` rows at a stride lie inside an HBM window of 4 KiB pages. -/
def inWindow (base size a rows stride len : Nat) : Bool :=
  rows == 0 || len == 0 || (decide (base * 4096 ≤ a) && decide (a + (rows - 1) * stride + len ≤ (base + size) * 4096))

/-- R241: every HBM byte of a COPY lies inside a window: TIL_HBM0 for reads and writes, TIL_HBM1 for reads. -/
def copyCheck5 (s : State) (t : Nat) (d : TDesc) : Bool :=
  let pg := Pg.til t
  let w0 (a stride : Nat) := inWindow (s.rd pg TIL_HBM0_BASE) (s.rd pg TIL_HBM0_SIZE) (cOfs a) (cRows d) stride (cRowBytes d)
  let w1 (a stride : Nat) := inWindow (s.rd pg TIL_HBM1_BASE) (s.rd pg TIL_HBM1_SIZE) (cOfs a) (cRows d) stride (cRowBytes d)
  (cSpace (cAddr d 5) != 2 || w0 (cAddr d 5) (dw d 11) || w1 (cAddr d 5) (dw d 11)) &&
  (cSpace (cAddr d 7) != 2 || w0 (cAddr d 7) (dw d 12))

/-- R229, R235, R236: a count of zero (R29): the descriptor completes with status 0 and reads and writes nothing. -/
def zeroWork (d : TDesc) : Bool :=
  if dOp d = opMATMUL then mM d == 0 || mN d == 0
  else if dOp d = opVECTOR then dLen d == 0
  else if dOp d = opCOPY then cRows d == 0 || cRowBytes d == 0
  else false

/-! ### Rows of elements (R201, R216, R217) -/

/-- Element i of an array of `w`-bit elements at a base, and whether its words are poisoned. -/
def readElem (x : Tile) (base w i : Nat) : Nat × Bool :=
  let a := base + i * w / 8
  let o := i * w % 8
  let n := ceilDiv (o + w) 8
  (ofLe (memReadN x.sram a n) / 2 ^ o % 2 ^ w, x.poisoned a n)

/-- The exact value of element i of a row in format code c, under the MX scales at `sc` where it has them (R216). -/
def readVal (x : Tile) (c base : Nat) (sc : Option Nat) (i : Nat) : FVal × Bool :=
  let (w, p) := readElem x base (fmtBits c) i
  let v := ((fmtOf c).map (fun f => f.decode w)).getD .nan
  match sc with
  | none => (v, p)
  | some b => (mxRead (memRead x.sram (b + i / 32)).toNat v, p || x.poisoned (b + i / 32) 1)

/-- Elements packed from the lowest bit (R201). -/
def packElems (w : Nat) : List Nat → Nat
  | [] => 0
  | e :: es => e % 2 ^ w + 2 ^ w * packElems w es

/-- Write a row of elements of a format code; the words of a poisoned element are poisoned. -/
def writeRow (x : Tile) (c base : Nat) (es : List (Nat × Bool)) : Tile :=
  let w := fmtBits c
  let n := ceilDiv (es.length * w) 8
  let bs := leBytes n (packElems w (es.map (·.1)))
  x.write base (bs.zipIdx.map (fun b => (b.1, es.zipIdx.any (fun e =>
    e.1.2 && decide (e.2 * w < b.2 * 8 + 8) && decide (b.2 * 8 < e.2 * w + w)))))

/-- Split a list into blocks of 32. -/
def blocks32 {α : Type} : Nat → List α → List (List α)
  | 0, _ => []
  | n + 1, l => l.take 32 :: blocks32 n (l.drop 32)

/-- R212–R217: a row of exact values converted to format code c: the elements, the scale bytes (none without MX), the flags. `i0` is the
index of the first element in the output (R209). A poisoned input sets no flag; in an MX block it poisons the block (R211). -/
def convRow (c : Nat) (mx : Bool) (rnd : Bool) (seed i0 : Nat) (vs : List (FVal × Bool)) : List (Nat × Bool) × List (Nat × Bool) × Nat :=
  match fmtOf c with
  | none => ([], [], 0)
  | some f =>
    let draw (i : Nat) : Option Nat := if rnd then some (srDraw seed i) else none
    if mx then
      let bl := blocks32 (vs.length / 32) vs
      let out := bl.zipIdx.map (fun b =>
        let bad := b.1.any (·.2)
        let sc := mxScale c (b.1.map (·.1))
        (b.1.zipIdx.map (fun v => (mxWrite f sc (draw (i0 + 32 * b.2 + v.2)) v.1.1 false, bad)), (sc, bad)))
      let es := out.flatMap (·.1)
      (es.map (fun e => (e.1.1, e.2)), out.map (·.2), es.foldl (fun fl e => if e.2 then fl else fl ||| e.1.2) 0)
    else
      let es := vs.zipIdx.map (fun v => (f.convert (draw (i0 + v.2)) v.1.1, v.1.2))
      (es.map (fun e => (e.1.1, e.2)), [], es.foldl (fun fl e => if e.2 then fl else fl ||| e.1.2) 0)

/-- Write a converted row and its scale bytes. -/
def storeRow (x : Tile) (c base : Nat) (sc : Nat) (r : List (Nat × Bool) × List (Nat × Bool) × Nat) : Tile :=
  (writeRow x c base r.1).write sc r.2.1

/-! ### Executing (R231, R237) -/

/-- The descriptor of a queue that is executing, where it is of the operation (and, for VECTOR, the VOP) a command names. -/
def runningDesc (s : State) (t q op vop : Nat) : Option TDesc :=
  let v := getQ (getTile s t) q
  match v.run, v.held with
  | .running, d :: _ => if tileRuns s t && dOp d == op && (op != opVECTOR || dVop d == vop) then some d else none
  | _, _ => none

/-- The effect of the running descriptor is made. -/
def finishDesc (s : State) (t q code progress : Nat) (halts : Bool) : State :=
  putQ s t q { getQ (getTile s t) q with run := .done code progress halts }

/-- Run the effect `f` of the descriptor that executes; a descriptor without work has none (R238). `f` answers the state, the code, the
progress, and whether the queue halts. -/
def runDesc (s : State) (t q op vop : Nat) (f : TDesc → State × Nat × Nat × Bool) : Host.Outcome State Fault Refusal :=
  match runningDesc s t q op vop with
  | none => .next s
  | some d =>
    if zeroWork d then .next (finishDesc s t q 0 0 false)
    else
      let r := f d
      .next (finishDesc r.1 t q r.2.1 r.2.2.1 r.2.2.2)

/-- POISON where an output is poisoned (R238). -/
def poisonCode (b : Bool) : Nat := if b then Syn.POISON else 0

end Sys2Proof.Machine
end

