-- ==== Sys2Proof/Machine/TileOps.lean ====
section
/-!
DEFINITION. Sys2Proof/Machine/TileOps.lean: what the matrix unit, the vector unit and the DMA engine do with a descriptor
(R218–R225, R234–R236, R238, R242; 08_tile_arithmetic.md, 09_tile_execution.md).
-/
namespace Sys2Proof.Machine
open Reg

/-! ### The matrix unit (R218–R221, R234) -/

/-- R218, R219: chunk length. -/
def chunkLen (a b : Nat) : Nat :=
  if a ≠ b then 32 else if a = 0 then 4 else if a = 1 then 8 else if a = 2 ∨ a = 3 then 16 else 32

def orAll (l : List Nat) : Nat := l.foldl (· ||| ·) 0

/-- R220: the exact sum of a chunk's products and the accumulator: infinities of opposite sign make a NaN with INVALID, a NaN operand one
without. -/
def chunkSum (acc : FVal) (ps : List Ex) : Ex :=
  let vs := acc :: ps.map (·.v)
  let clash := vs.contains (.inf false) && vs.contains (.inf true)
  let fl := orAll (ps.map (·.fl)) ||| (if clash then fINVALID else 0)
  if clash || vs.any FVal.isNan then ⟨.nan, false, fl⟩
  else ⟨(ps.foldl (fun a p => (a.add p.v).v) acc), false, fl⟩

/-- One float chunk: the new accumulator (an FP32 value) and the flags. -/
def floatChunk (acc : FVal) (as bs : List FVal) : FVal × Nat :=
  let (b, fl) := (chunkSum acc (as.zipWith FVal.mul bs)).round FP32
  (FP32.decode b, fl)

/-- The integer an exact value stands for. -/
def FVal.toInt : FVal → Int
  | .num s m e => sigAt s m e 0
  | _ => 0

/-- One integer chunk: exact, then clamped to the INT32 range. -/
def intChunk (acc : Int) (as bs : List FVal) : Int × Nat :=
  let x := acc + (as.zipWith (fun a b => a.toInt * b.toInt) bs).foldl (· + ·) 0
  let y := clamp (-2 ^ 31) (2 ^ 31 - 1) x
  (y, if x = y then 0 else fSATURATION + fINEXACT)

/-- R220: the chunks of one output element in ascending K. -/
def chunks (ints : Bool) (c : Nat) : Nat → FVal × Nat → List FVal → List FVal → FVal × Nat
  | 0, r, _, _ => r
  | n + 1, (acc, fl), as, bs =>
    let r := if ints then let (y, f) := intChunk acc.toInt (as.take c) (bs.take c); (FVal.ofInt y, f)
             else floatChunk acc (as.take c) (bs.take c)
    chunks ints c n (r.1, fl ||| r.2) (as.drop c) (bs.drop c)

/-- The K values of a row of an operand, and whether any input is poisoned. -/
def operandRow (x : Tile) (c base : Nat) (sc : Option Nat) (k : Nat) : List FVal × Bool :=
  let vs := (List.range k).map (readVal x c base sc)
  (vs.map (·.1), vs.any (·.2))

/-- One row of outputs: the accumulated values with their poison, and the flags of accumulation. -/
def matmulRow (x : Tile) (d : TDesc) (i : Nat) : List (FVal × Bool) × Nat :=
  let k := mK d
  let ints := matInt (aFmtA d)
  let c := chunkLen (aFmtA d) (aFmtB d)
  let a := operandRow x (aFmtA d) (dw d 5 + i * mLda d) (if aMxA d then some (dw d 13 + i * (k / 32)) else none) k
  let r := (List.range (mN d)).map (fun j =>
    let b := operandRow x (aFmtB d) (dw d 6 + j * mLdb d) (if aMxB d then some (dw d 14 + j * (k / 32)) else none) k
    let acc := if mAcc d then readVal x (if ints then 11 else 0) (dw d 7 + i * mLdc d) none j else (.num false 0 0, false)
    let bad := a.2 || b.2 || acc.2
    let v := chunks ints c (ceilDiv k c) (acc.1, 0) a.1 b.1
    ((v.1, bad), if bad then 0 else v.2))
  (r.map (·.1), orAll (r.map (·.2)))

/-- R234: OUT = A × B (+ ACC). Every row is computed from the SRAM as the descriptor found it. -/
def matmul (s : State) (t : Nat) (d : TDesc) : State × Nat × Nat × Bool :=
  let x := getTile s t
  let n := mN d
  let rows := (List.range (mM d)).map (fun i =>
    let r := matmulRow x d i
    (i, convRow (aFmtOut d) (aMxOut d) (aRnd d) (dSeed d) (i * n) r.1, r.2))
  let y := rows.foldl (fun y r => storeRow y (aFmtOut d) (dw d 8 + r.1 * mLdo d) (dw d 15 + r.1 * (n / 32)) r.2.1) x
  let s := setFlags (setTile s t y) t (orAll (rows.map (fun r => r.2.1.2.2 ||| r.2.2)))
  (s, poisonCode (rows.any (fun r => r.2.1.1.any (·.2))), 0, false)

/-- R234: the running MATMUL. -/
def execMatmul (t : Nat) (s : State) : Host.Outcome State Fault Refusal := runDesc s t 0 opMATMUL 0 (matmul s t)

/-! ### The vector unit (R222–R225, R235) -/

/-- A value loaded into a lane: converted to the lane format (R222). -/
def loadLane (c : Nat) (v : FVal × Bool) : (FVal × Bool) × Nat :=
  match fmtOf c with
  | some f => let (b, fl) := f.convert none v.1; ((f.decode b, v.2), if v.2 then 0 else fl)
  | none => (v, 0)

/-- Element i of source n of a VECTOR, in its lane. The third source holds lane values (log entry 16). -/
def laneAt (x : Tile) (d : TDesc) (n i : Nat) : (FVal × Bool) × Nat :=
  match n with
  | 0 => loadLane (laneCode d) (readVal x (aFmtA d) (dw d 6) (if aMxA d then some (dw d 12) else none) i)
  | 1 => loadLane (laneCode d) (readVal x (aFmtB d) (dw d 7) none i)
  | _ => loadLane (laneCode d) (readVal x (laneCode d) (dw d 8) none i)

/-- Store the lanes of a VECTOR (R212–R217): the flags are those of the operation and of the store. -/
def storeLanes (s : State) (t : Nat) (d : TDesc) (ls : List ((FVal × Bool) × Nat)) : State × Nat × Nat × Bool :=
  let r := convRow (aFmtOut d) (aMxOut d) (aRnd d) (dSeed d) 0 (ls.map (·.1))
  let s := setTile s t (storeRow (getTile s t) (aFmtOut d) (dw d 9) (dw d 13) r)
  let s := setFlags s t (orAll (ls.map (·.2)) ||| r.2.2)
  (s, poisonCode (r.1.any (·.2)), ls.length, false)

/-- The result of a lane: rounded to the lane format; a poisoned lane sets no flag. -/
def roundLane (d : TDesc) (bad : Bool) (fl : Nat) (r : Ex) : (FVal × Bool) × Nat :=
  let (b, f) := r.round (laneFmt d)
  (((laneFmt d).decode b, bad), if bad then 0 else fl ||| f)

/-- A float operation of one, two or three sources. -/
def vec1 (f : FVal → Ex) (s : State) (t : Nat) (d : TDesc) : State × Nat × Nat × Bool :=
  let x := getTile s t
  storeLanes s t d ((List.range (dLen d)).map (fun i =>
    let a := laneAt x d 0 i
    roundLane d a.1.2 a.2 (f a.1.1)))

def vec2 (f : FVal → FVal → Ex) (s : State) (t : Nat) (d : TDesc) : State × Nat × Nat × Bool :=
  let x := getTile s t
  storeLanes s t d ((List.range (dLen d)).map (fun i =>
    let a := laneAt x d 0 i
    let b := laneAt x d 1 i
    roundLane d (a.1.2 || b.1.2) (a.2 ||| b.2) (f a.1.1 b.1.1)))

def vec3 (f : FVal → FVal → FVal → Ex) (s : State) (t : Nat) (d : TDesc) : State × Nat × Nat × Bool :=
  let x := getTile s t
  storeLanes s t d ((List.range (dLen d)).map (fun i =>
    let a := laneAt x d 0 i
    let b := laneAt x d 1 i
    let c := laneAt x d 2 i
    roundLane d (a.1.2 || b.1.2 || c.1.2) (a.2 ||| b.2 ||| c.2) (f a.1.1 b.1.1 c.1.1)))

/-- The mask array with bits written (R235): bits beyond the length keep their value; a poisoned bit poisons its word. -/
def writeMask (x : Tile) (base : Nat) (ms : List (Bool × Bool)) : Tile :=
  let n := ceilDiv ms.length 8
  let old := ofLe (memReadN x.sram base n)
  let v := ms.zipIdx.foldl (fun v m => putBit v m.2 m.1.1) old
  x.write base ((leBytes n v).zipIdx.map (fun b => (b.1, ms.zipIdx.any (fun m => m.1.2 && m.2 / 8 == b.2))))

/-- Bit i of the mask array and its poison. -/
def maskAt (x : Tile) (d : TDesc) (i : Nat) : Bool × Bool :=
  (bit (memRead x.sram (dw d 11 + i / 8)).toNat (i % 8), x.poisoned (dw d 11 + i / 8) 1)

/-- A comparison: its truth goes to the mask array. -/
def vecCmp (p : FVal → FVal → Bool) (s : State) (t : Nat) (d : TDesc) : State × Nat × Nat × Bool :=
  let x := getTile s t
  let ls := (List.range (dLen d)).map (fun i =>
    let a := laneAt x d 0 i
    let b := laneAt x d 1 i
    ((p a.1.1 b.1.1, a.1.2 || b.1.2), a.2 ||| b.2))
  let s := setTile s t (writeMask x (dw d 11) (ls.map (·.1)))
  (setFlags s t (orAll (ls.map (·.2))), poisonCode (ls.any (·.1.2)), ls.length, false)

/-- The 32 bits of an INT32 lane. -/
def laneWord (v : FVal) : Nat := ofSigned 32 v.toInt

/-- An integer operation of two sources on words. -/
def vecInt (f : Nat → Nat → Nat) (s : State) (t : Nat) (d : TDesc) : State × Nat × Nat × Bool :=
  let x := getTile s t
  storeLanes s t d ((List.range (dLen d)).map (fun i =>
    let a := laneAt x d 0 i
    let b := laneAt x d 1 i
    ((FVal.ofInt (toSigned 32 (f (laneWord a.1.1) (laneWord b.1.1))), a.1.2 || b.1.2), a.2 ||| b.2)))

/-- R223: IADD and ISUB with the carry or borrow of the mask array in and out. `f` answers the word and the bit. -/
def vecCarry (f : Nat → Nat → Nat → Nat × Bool) (s : State) (t : Nat) (d : TDesc) : State × Nat × Nat × Bool :=
  let x := getTile s t
  let ls := (List.range (dLen d)).map (fun i =>
    let a := laneAt x d 0 i
    let b := laneAt x d 1 i
    let m := maskAt x d i
    let r := f (laneWord a.1.1) (laneWord b.1.1) (b2n m.1)
    let bad := a.1.2 || b.1.2 || m.2
    (((FVal.ofInt (toSigned 32 r.1), bad), a.2 ||| b.2), (r.2, bad)))
  let r := storeLanes s t d (ls.map (·.1))
  (setTile r.1 t (writeMask (getTile r.1 t) (dw d 11) (ls.map (·.2))), r.2)

/-- R223: CVT.FX: round(x × 2^F) to a 64-bit integer; low word in the even lane. -/
def vecFx (s : State) (t : Nat) (d : TDesc) : State × Nat × Nat × Bool :=
  let x := getTile s t
  storeLanes s t d ((List.range (dLen d)).flatMap (fun i =>
    let a := laneAt x d 0 i
    let (v, fl) := roundInt 64 none (a.1.1.scale (aFrac d)) false
    let w := ofSigned 64 v
    [((FVal.ofInt (toSigned 32 (w % 2 ^ 32)), a.1.2), if a.1.2 then 0 else a.2 ||| fl),
     ((FVal.ofInt (toSigned 32 (w / 2 ^ 32)), a.1.2), 0)]))

/-- R212, R223: CVT: one rounding from the source format to the store format. -/
def vecCvt (s : State) (t : Nat) (d : TDesc) : State × Nat × Nat × Bool :=
  let x := getTile s t
  storeLanes s t d ((List.range (dLen d)).map (fun i =>
    (readVal x (aFmtA d) (dw d 6) (if aMxA d then some (dw d 12) else none) i, 0)))

/-- FLAGS [16] of a VECTOR: unsigned. -/
def vUnsigned (d : TDesc) : Bool := bit (dFlags d) 0

/-- The order of INT32 lanes, signed or unsigned. -/
def intLt (d : TDesc) (a b : Nat) : Bool :=
  if vUnsigned d then decide (a < b) else decide (toSigned 32 a < toSigned 32 b)

/-- R235: the predicate of ICMP. -/
def icmpPred (d : TDesc) (a b : Nat) : Bool :=
  match dFlags d / 2 % 4 with
  | 0 => a == b
  | 1 => a != b
  | 2 => intLt d a b
  | _ => !intLt d b a

/-- The running VECTOR of an operation. -/
def runVec (s : State) (t vop : Nat) (f : State → Nat → TDesc → State × Nat × Nat × Bool) : Host.Outcome State Fault Refusal :=
  runDesc s t 1 opVECTOR vop (f s t)

def execAdd (t : Nat) (s : State) : Host.Outcome State Fault Refusal := runVec s t 0x01 (vec2 FVal.add)
def execSub (t : Nat) (s : State) : Host.Outcome State Fault Refusal := runVec s t 0x02 (vec2 (fun a b => a.add b.negate))
def execMul (t : Nat) (s : State) : Host.Outcome State Fault Refusal := runVec s t 0x03 (vec2 FVal.mul)
def execFma (t : Nat) (s : State) : Host.Outcome State Fault Refusal := runVec s t 0x04 (vec3 FVal.fma)
def execDiv (t : Nat) (s : State) : Host.Outcome State Fault Refusal := runVec s t 0x05 (vec2 FVal.div)
def execSqrt (t : Nat) (s : State) : Host.Outcome State Fault Refusal := runVec s t 0x06 (vec1 FVal.sqrt)
def execRcp (t : Nat) (s : State) : Host.Outcome State Fault Refusal := runVec s t 0x07 (vec1 FVal.rcp)
def execRsqrt (t : Nat) (s : State) : Host.Outcome State Fault Refusal := runVec s t 0x08 (vec1 FVal.rsqrt)
def execExp2 (t : Nat) (s : State) : Host.Outcome State Fault Refusal := runVec s t 0x09 (vec1 FVal.exp2)
def execLog2 (t : Nat) (s : State) : Host.Outcome State Fault Refusal := runVec s t 0x0A (vec1 FVal.log2)
/-- R224: MIN. -/
def execMin (t : Nat) (s : State) : Host.Outcome State Fault Refusal := runVec s t 0x0B (vec2 (fun a b => Ex.exact (FVal.minmax false a b)))
/-- R224: MAX. -/
def execMax (t : Nat) (s : State) : Host.Outcome State Fault Refusal := runVec s t 0x0C (vec2 (fun a b => Ex.exact (FVal.minmax true a b)))
def execCmpEq (t : Nat) (s : State) : Host.Outcome State Fault Refusal := runVec s t 0x0D (vecCmp FVal.eqv)
/-- R224: true where an operand is a NaN. -/
def execCmpNe (t : Nat) (s : State) : Host.Outcome State Fault Refusal := runVec s t 0x0E (vecCmp (fun a b => !a.eqv b))
def execCmpLt (t : Nat) (s : State) : Host.Outcome State Fault Refusal := runVec s t 0x0F (vecCmp FVal.lt)
def execCmpLe (t : Nat) (s : State) : Host.Outcome State Fault Refusal := runVec s t 0x10 (vecCmp (fun a b => a.lt b || a.eqv b))
def execAbs (t : Nat) (s : State) : Host.Outcome State Fault Refusal := runVec s t 0x11 (vec1 (fun a => Ex.exact a.abs))
def execNeg (t : Nat) (s : State) : Host.Outcome State Fault Refusal := runVec s t 0x12 (vec1 (fun a => Ex.exact a.negate))
def execCvt (t : Nat) (s : State) : Host.Outcome State Fault Refusal := runVec s t 0x13 vecCvt
def execCvtFx (t : Nat) (s : State) : Host.Outcome State Fault Refusal := runVec s t 0x14 vecFx
def execIadd (t : Nat) (s : State) : Host.Outcome State Fault Refusal :=
  runVec s t 0x20 (vecCarry (fun a b c => ((a + b + c) % 2 ^ 32, decide (a + b + c ≥ 2 ^ 32))))
def execIsub (t : Nat) (s : State) : Host.Outcome State Fault Refusal :=
  runVec s t 0x21 (vecCarry (fun a b c => ((a + 2 ^ 33 - b - c) % 2 ^ 32, decide (a < b + c))))
def execImulLo (t : Nat) (s : State) : Host.Outcome State Fault Refusal := runVec s t 0x22 (vecInt (fun a b => a * b % 2 ^ 32))
def execImulHi (t : Nat) (s : State) : Host.Outcome State Fault Refusal :=
  runVec s t 0x23 (vecInt (fun a b => ofSigned 64 (toSigned 32 a * toSigned 32 b) / 2 ^ 32))
def execImuluHi (t : Nat) (s : State) : Host.Outcome State Fault Refusal := runVec s t 0x24 (vecInt (fun a b => a * b / 2 ^ 32))
def execShl (t : Nat) (s : State) : Host.Outcome State Fault Refusal := runVec s t 0x25 (vecInt (fun a b => a * 2 ^ (b % 32) % 2 ^ 32))
def execShr (t : Nat) (s : State) : Host.Outcome State Fault Refusal := runVec s t 0x26 (vecInt (fun a b => a / 2 ^ (b % 32)))
def execSra (t : Nat) (s : State) : Host.Outcome State Fault Refusal :=
  runVec s t 0x27 (vecInt (fun a b => ofSigned 32 (Machine.sra (toSigned 32 a) (b % 32))))
def execAnd (t : Nat) (s : State) : Host.Outcome State Fault Refusal := runVec s t 0x28 (vecInt Nat.land)
def execOr (t : Nat) (s : State) : Host.Outcome State Fault Refusal := runVec s t 0x29 (vecInt Nat.lor)
def execXor (t : Nat) (s : State) : Host.Outcome State Fault Refusal := runVec s t 0x2A (vecInt Nat.xor)
def execImin (t : Nat) (s : State) : Host.Outcome State Fault Refusal :=
  runVec s t 0x2B (fun s t d => vecInt (fun a b => if intLt d b a then b else a) s t d)
def execImax (t : Nat) (s : State) : Host.Outcome State Fault Refusal :=
  runVec s t 0x2C (fun s t d => vecInt (fun a b => if intLt d a b then b else a) s t d)
def execIcmp (t : Nat) (s : State) : Host.Outcome State Fault Refusal :=
  runVec s t 0x2D (fun s t d => vecCmp (fun a b => icmpPred d (laneWord a) (laneWord b)) s t d)

/-! ### The DMA engine (R236, R242) -/

/-- R242: what the destination tile answers a packet of the source tile: a refusal's code, or 0. -/
def remoteCode (s : State) (src dst : Nat) : Nat :=
  let pg := Pg.til dst
  let p := pstate s dst
  if dst ≥ tileCount s.cfg ∨ p = PS.RETIRED then Syn.ABSENT
  else if ¬ s.flag pg TIL_JOB_VALID ∨ s.rd pg TIL_JOB_SLOT ≠ s.rd (Pg.til src) TIL_JOB_SLOT then Syn.AUTH
  else if p = PS.PARKED ∨ (p = PS.WAKING ∧ (getTile s dst).depth = PS.PARKED) then Syn.STATE
  else 0

/-- What a peer Hub answers the accesses of a COPY to its tiles: the rows it serves before it refuses, the refusal's code (0: none), the
bytes read. -/
structure PeerAnswer where
  rows : Nat
  code : Nat
  data : List Nat
  poison : Bool
  deriving DecidableEq, Repr

/-- A row read from the space `sp`: `u` the tile of a remote access and `rc` the code it is refused with. -/
def copyReadAt (s : State) (t sp u rc o n : Nat) (p : PeerAnswer) (r : Nat) : State × Nat × List (Nat × Bool) :=
  match sp with
  | 0 => (s, 0, (getTile s t).read o n)
  | 1 => if rc = 0 then (s, 0, (getTile s u).read o n) else (s, rc, [])
  | 2 => let f := hbmFetch s o n; (f.1, 0, f.2)
  | _ =>
    if r < p.rows ∨ p.code = 0 then (s, 0, (List.range n).map (fun i => (p.data.getD (r * n + i) 0 % 256, p.poison)))
    else (s, p.code, [])

/-- Read source row r: the state, the code of a refusal, the bytes with their poison. -/
def copyRead (s : State) (t : Nat) (d : TDesc) (p : PeerAnswer) (r : Nat) : State × Nat × List (Nat × Bool) :=
  copyReadAt s t (cSpace (cAddr d 5)) (cTile (cAddr d 5)) (remoteCode s t (cTile (cAddr d 5))) (cOfs (cAddr d 5) + r * dw d 11) (cRowBytes d) p r

/-- A row written to the space `sp`: of the hub `h`, the tile `u`. -/
def copyWriteAt (s : State) (t sp h u rc o : Nat) (p : PeerAnswer) (r : Nat) (bs : List (Nat × Bool)) : State × Nat :=
  match sp with
  | 0 => (setTile s t ((getTile s t).write o bs), 0)
  | 1 => if rc = 0 then (setTile s u ((getTile s u).write o bs), 0) else (s, rc)
  | 2 => (hbmWriteP s o bs, 0)
  | _ => if r < p.rows ∨ p.code = 0 then (s.send (.peerWrite h u o (bs.map (·.1)) (bs.any (·.2))), 0) else (s, p.code)

/-- Write destination row r: the state and the code of a refusal. -/
def copyWrite (s : State) (t : Nat) (d : TDesc) (p : PeerAnswer) (r : Nat) (bs : List (Nat × Bool)) : State × Nat :=
  copyWriteAt s t (cSpace (cAddr d 7)) (cHub (cAddr d 7)) (cTile (cAddr d 7)) (remoteCode s t (cTile (cAddr d 7))) (cOfs (cAddr d 7) + r * dw d 12)
    p r bs

/-- R236, R238: rows in ascending order; a refusal keeps the rows written, completes with its code and halts the queue. -/
def copyRows (t : Nat) (d : TDesc) (p : PeerAnswer) : Nat → Nat → State → Bool → State × Nat × Nat × Bool
  | 0, r, s, bad => (s, poisonCode bad, r, false)
  | k + 1, r, s, bad =>
    let a := copyRead s t d p r
    let w := copyWrite a.1 t d p r a.2.2
    if a.2.1 ≠ 0 then (a.1, a.2.1, r, true)
    else if w.2 ≠ 0 then (w.1, w.2, r, true)
    else copyRows t d p k (r + 1) w.1 (bad || a.2.2.any (·.2))

/-- R236: the running COPY. -/
def execCopy (t : Nat) (rows code : Nat) (data : List Nat) (poison : Bool) (s : State) : Host.Outcome State Fault Refusal :=
  runDesc s t 3 opCOPY 0 (fun d => copyRows t d { rows, code, data, poison } (cRows d) 0 s false)

/-- R232: a FENCE completes as soon as its dependencies are met. -/
def execFence (t : Nat) (q : BitVec 2) (s : State) : Host.Outcome State Fault Refusal :=
  runDesc s t q.toNat opFENCE 0 (fun _ => (s, 0, 0, false))

end Sys2Proof.Machine
end

