-- ==== Sys2Proof/Machine/Hutch.lean ====
section
/-!
DEFINITION. Sys2Proof/Machine/Hutch.lean: the Hutch engine: ensembles, paths, the exact sum, links, the TREE descriptor (R259–R278, R281;
10_hutch_tree_engine.md), and the start of a descriptor at the head of its queue (R231, R233, R237).
-/
namespace Sys2Proof.Machine
open Reg

/-! ### Ensembles in SRAM (R259–R262) -/

/-- The header of an ensemble (R260). -/
structure Ens where
  magic : Nat
  depth : Nat
  outs : Nat
  lfmt : Nat
  link : Nat
  trees : Nat
  feats : Nat
  stride : Nat
  nseg : Nat
  zero : Bool
  bases : List Nat
  deriving DecidableEq, Repr

/-- An `n`-byte little-endian word of SRAM. -/
def le (x : Tile) (a n : Nat) : Nat := ofLe (memReadN x.sram a n)

def ensAt (x : Tile) (a : Nat) : Ens :=
  { magic := le x a 4, depth := le x (a + 4) 1, outs := le x (a + 5) 1, lfmt := le x (a + 6) 1, link := le x (a + 7) 1,
    trees := le x (a + 8) 4, feats := le x (a + 12) 4, stride := le x (a + 16) 4, nseg := le x (a + 20) 1,
    zero := (memReadN x.sram (a + 21) 11).all (· == 0), bases := (List.range 8).map (fun j => le x (a + 32 + 4 * j) 4) }

/-- R259: leaf width and tree size. -/
def Ens.lb (e : Ens) : Nat := if e.lfmt = 0 then 4 else 2
def Ens.leaves (e : Ens) : Nat := 8 * (2 ^ e.depth - 1)
def Ens.treeSize (e : Ens) : Nat := e.leaves + 2 ^ e.depth * e.outs * e.lb

/-- R270: PWL. -/
def linkPWL : Nat := 4

/-- R260, R274: the header is defined. -/
def Ens.ok (e : Ens) : Bool :=
  e.magic == 0x48435448 && decide (1 ≤ e.depth) && decide (e.depth ≤ 12) && decide (1 ≤ e.outs) && decide (e.outs ≤ 8) &&
  (e.lfmt == 0 || e.lfmt == 2) && decide (e.link ≤ 4) && decide (1 ≤ e.trees) && decide (e.trees ≤ 65536) &&
  decide (1 ≤ e.feats) && decide (e.feats ≤ 65536) && e.stride % 64 == 0 && decide (e.treeSize ≤ e.stride) &&
  (if e.link = linkPWL then decide (1 ≤ e.nseg) && decide (e.nseg ≤ 64) else e.nseg == 0) && e.zero &&
  (e.bases.zipIdx.all (fun b => decide (b.2 < e.outs) || b.1 == 0))

/-- R262: a leaf or base value as a count of 2^-48; none where it is not finite, not below 2^40, or not a multiple of 2^-48. -/
def fixed48 (v : FVal) : Option Int :=
  match v with
  | .num s m e =>
    let k := e + 48
    let (q, r, _) := Machine.splitAt m k 0
    if r = 0 ∧ q < 2 ^ 88 then some (if s then -(q : Int) else q) else none
  | _ => none

/-- R259: the leaf value of a tree. -/
def Ens.leaf (e : Ens) (x : Tile) (tree l j : Nat) : FVal :=
  let w := le x (tree + e.leaves + (l * e.outs + j) * e.lb) e.lb
  if e.lfmt = 0 then FP32.decode w else BF16.decode w

/-! ### Paths (R261, R263, R264) -/

/-- The decision of a node word on a feature row: 0 left, 1 right (R263). -/
def nodeBit (w : Nat) (feature : Nat → Nat) : Nat :=
  if bit w 12 then 0
  else
    let f := feature (bits w 63 48)
    let missing := if bits w 15 14 = 2 then f == 0x80000000 else (FP32.decode f).isNan
    if missing then (if bit w 13 then 0 else 1)
    else
      let left := match bits w 15 14 with
        | 0 => (FP32.decode f).lt (FP32.decode (bits w 47 16))
        | 1 => (FP32.decode f).lt (BF16.decode (bits w 47 32))
        | _ => decide (toSigned 32 f < toSigned 32 (bits w 47 16))
      if left then 0 else 1

/-- R264: the node reached after `levels` decisions. -/
def walk (node : Nat → Nat) (feature : Nat → Nat) : Nat → Nat → Nat
  | 0, n => n
  | k + 1, n => walk node feature k (2 * n + 1 + nodeBit (node n) feature)

/-- R264: the leaf a tree at an address selects for a row. -/
def Ens.leafOf (e : Ens) (x : Tile) (tree : Nat) (feature : Nat → Nat) : Nat :=
  walk (fun n => le x (tree + 8 * n) 8) feature e.depth 0 - (2 ^ e.depth - 1)

/-! ### Sums (R267, R268, R273) -/

/-- A 96-bit accumulator. -/
def wrap96 (v : Int) : Int := toSigned 96 (ofSigned 96 v)

/-- A result rounded to FP32: its value and flags. -/
def r32 (x : Ex) : FVal × Nat :=
  let (b, fl) := x.round FP32
  (FP32.decode b, fl)

/-- R268: the accumulator rounded once to FP32. -/
def scoreOf (v : Int) : FVal × Nat := r32 (Ex.exact (.num (decide (v < 0)) v.natAbs (-48)))

/-- R273: an accumulator slot: the 96-bit value, then four bytes of its sign. -/
def accBytes (v : Int) : List Nat := leBytes 12 (ofSigned 96 v) ++ List.replicate 4 (if v < 0 then 0xFF else 0)

def accAt (x : Tile) (base r j : Nat) : Int × Bool :=
  let a := base + 128 * r + 16 * j
  (toSigned 96 (le x a 12), x.poisoned a 12)

/-! ### Links (R270, R271) -/

/-- L2E of R270. -/
def L2E : FVal := FP32.decode 0x3FB8AA3B

/-- One segment of the PWL table: X, Y, SLOPE. -/
def pwlAt (x : Tile) (base i : Nat) : FVal × FVal × FVal :=
  (FP32.decode (le x (base + 16 * i) 4), FP32.decode (le x (base + 16 * i + 4) 4), FP32.decode (le x (base + 16 * i + 8) 4))

def FVal.finite : FVal → Bool
  | .num _ _ _ => true
  | _ => false

/-- R271: the table is defined. -/
def pwlOk (x : Tile) (base n : Nat) : Bool :=
  (List.range n).all (fun i =>
    let p := pwlAt x base i
    p.1.finite && p.2.1.finite && p.2.2.finite && le x (base + 16 * i + 12) 4 == 0 &&
    (i == 0 || (pwlAt x base (i - 1)).1.lt p.1))

/-- R271: the segment of a score. -/
def pwlSeg (x : Tile) (base n : Nat) (v : FVal) : Nat :=
  ((List.range n).filter (fun i => !v.lt (pwlAt x base i).1)).foldl max 0

/-- R270: the link of one output whose link looks at its own score only. -/
def linkOne (x : Tile) (e : Ens) (pwl : Nat) (v : FVal) : FVal × Nat :=
  match e.link with
  | 1 =>
    let u := r32 (v.negate.mul L2E)
    let ex := r32 u.1.exp2
    let d := r32 ((FVal.num false 1 0).add ex.1)
    let y := r32 d.1.rcp
    (y.1, u.2 ||| ex.2 ||| d.2 ||| y.2)
  | 3 =>
    let u := r32 (v.mul L2E)
    let y := r32 u.1.exp2
    (y.1, u.2 ||| y.2)
  | 4 =>
    let p := pwlAt x pwl (pwlSeg x pwl e.nseg v)
    let u := r32 (v.add p.1.negate)
    let y := r32 (u.1.fma p.2.2 p.2.1)
    (y.1, u.2 ||| y.2)
  | _ => (v, 0)

/-- R270: SOFTMAX over the scores of a row. -/
def softmax (vs : List FVal) : List FVal × Nat :=
  let m := vs.foldl (FVal.minmax true) (.inf true)
  let es := vs.map (fun v =>
    let a := r32 (v.add m.negate)
    let u := r32 (a.1.mul L2E)
    let ex := r32 u.1.exp2
    (ex.1, a.2 ||| u.2 ||| ex.2))
  let z := match es with
    | [] => (FVal.nan, 0)
    | e :: rest => rest.foldl (fun (z x : FVal × Nat) => let y := r32 (z.1.add x.1); (y.1, z.2 ||| y.2)) (e.1, 0)
  let ys := es.map (fun e => r32 (e.1.div z.1))
  (ys.map (·.1), orAll (es.map (·.2)) ||| z.2 ||| orAll (ys.map (·.2)))

/-- R270: the outputs of a row from its scores, and the flags. -/
def linkRow (x : Tile) (e : Ens) (pwl : Nat) (vs : List FVal) : List FVal × Nat :=
  if e.link = 2 then softmax vs
  else
    let ys := vs.map (linkOne x e pwl)
    (ys.map (·.1), orAll (ys.map (·.2)))

/-! ### The TREE descriptor (R272–R278) -/

def tEns (d : TDesc) : Nat := dw d 5
def tFirst (d : TDesc) : Nat := dw d 6
def tTrees (d : TDesc) : Nat := dw d 7
def tFeat (d : TDesc) : Nat := dw d 8
def tRows (d : TDesc) : Nat := bits (dw d 9) 31 16
def tFstride (d : TDesc) : Nat := bits (dw d 9) 15 0 * 64
def tAcc (d : TDesc) : Nat := dw d 10
def tOut (d : TDesc) : Nat := dw d 11
def tPwl (d : TDesc) : Nat := dw d 12
def tAcc2 (d : TDesc) : Nat := dw d 13
def tAccIn (d : TDesc) : Bool := bit (dFlags d) 0
def tBase (d : TDesc) : Bool := bit (dFlags d) 1
def tFinal (d : TDesc) : Bool := bit (dFlags d) 2
def tSum2 (d : TDesc) : Bool := bit (dFlags d) 3

/-- The bytes a raw and a final array of rows span. -/
def rawSpan (e : Ens) (rows : Nat) : Nat := if rows = 0 then 0 else 128 * (rows - 1) + 16 * e.outs
def finalSpan (e : Ens) (rows : Nat) : Nat := if rows = 0 then 0 else 32 * (rows - 1) + 4 * e.outs
def outSpan (e : Ens) (d : TDesc) : Nat := if tFinal d then finalSpan e (tRows d) else rawSpan e (tRows d)

/-- Two spans of bytes meet. -/
def spansMeet (a n b m : Nat) : Bool := decide (0 < n) && decide (0 < m) && decide (a < b + m) && decide (b < a + n)

/-- The spans a TREE descriptor reads beside ACC. -/
def treeSpans (e : Ens) (d : TDesc) : List (Nat × Nat) :=
  [(tEns d, 64), (tEns d + 64 + tFirst d * e.stride, if tTrees d = 0 then 0 else (tTrees d - 1) * e.stride + e.treeSize),
   (tFeat d, if tRows d = 0 then 0 else (tRows d - 1) * tFstride d + 4 * e.feats)] ++
  (if tSum2 d then [(tAcc2 d, rawSpan e (tRows d))] else []) ++
  (if e.link = linkPWL then [(tPwl d, 16 * e.nseg)] else [])

/-- R273, R274: the third check. -/
def treeCheck3 (x : Tile) (d : TDesc) : Bool :=
  let e := ensAt x (tEns d)
  tEns d % 64 == 0 && tFeat d % 64 == 0 && tOut d % 64 == 0 && (!tAccIn d || tAcc d % 64 == 0) && (!tSum2 d || tAcc2 d % 64 == 0) &&
  (tRows d == 0 ||
    (e.ok && (if e.link = linkPWL then tPwl d % 64 == 0 && pwlOk x (tPwl d) e.nseg else tPwl d == 0) &&
     (!tBase d || (e.bases.take e.outs).all (fun b => (fixed48 (FP32.decode b)).isSome)) &&
     (treeSpans e d).all (fun p => !spansMeet (tOut d) (outSpan e d) p.1 p.2) &&
     (!tAccIn d || tOut d == tAcc d || !spansMeet (tOut d) (outSpan e d) (tAcc d) (rawSpan e (tRows d)))))

/-- R274: the fourth check. -/
def treeCheck4 (x : Tile) (d : TDesc) : Bool :=
  let e := ensAt x (tEns d)
  tRows d == 0 ||
    (decide (tFirst d + tTrees d ≤ e.trees) && decide (4 * e.feats ≤ tFstride d) &&
     (treeSpans e d).all (fun p => p.2 == 0 || decide (p.1 + p.2 ≤ sramSize)) &&
     (!tAccIn d || decide (tAcc d + rawSpan e (tRows d) ≤ sramSize)) && decide (tOut d + outSpan e d ≤ sramSize))

/-- R266: trees compared together, and passes of a tree. -/
def groupSize (depth : Nat) : Nat := if depth ≤ 8 then 2 ^ (8 - depth) else 1
def passes (depth : Nat) : Nat := if depth ≤ 8 then 1 else 2 ^ (depth - 8)
/-- R275: rows of a batch. -/
def batchRows (e : Ens) : Nat := min 64 (65536 / e.feats)

/-- Address of tree t of an ensemble. -/
def treeAddr (e : Ens) (d : TDesc) (t : Nat) : Nat := tEns d + 64 + t * e.stride

/-- R276: the first failing item of a tree: (1 NODE, index) or (2 LEAF, leaf × O + output). A poisoned word does not fail (R277). -/
def treeFault (x : Tile) (e : Ens) (a : Nat) : Option (Nat × Nat) :=
  let badNode (n : Nat) : Bool :=
    let w := le x (a + 8 * n) 8
    !x.poisoned (a + 8 * n) 8 && !bit w 12 && (decide (bits w 63 48 ≥ e.feats) || bits w 15 14 == 3 || bits w 11 0 != 0)
  let badLeaf (k : Nat) : Bool :=
    !x.poisoned (a + e.leaves + k * e.lb) e.lb && (fixed48 (e.leaf x a (k / e.outs) (k % e.outs))).isNone
  match (List.range (2 ^ e.depth - 1)).find? badNode with
  | some n => some (1, n)
  | none => ((List.range (2 ^ e.depth * e.outs)).find? badLeaf).map (fun k => (2, k))

/-- The trees a descriptor evaluates. -/
def treeList (d : TDesc) : List Nat := (List.range (tTrees d)).map (fun i => tFirst d + i)

/-- R276: the first failing tree and its item. -/
def firstFault (x : Tile) (e : Ens) (d : TDesc) : Option (Nat × Nat × Nat) :=
  (treeList d).findSome? (fun t => (treeFault x e (treeAddr e d t)).map (fun f => (t, f)))

/-- R267, R272: the accumulator of output j of row r, and whether its ACC or ACC2 slot is poisoned. -/
def treeAcc (x : Tile) (e : Ens) (d : TDesc) (r j : Nat) : Int × Bool :=
  let a := if tAccIn d then accAt x (tAcc d) r j else (0, false)
  let b := if tSum2 d then accAt x (tAcc2 d) r j else (0, false)
  let base := if tBase d then (fixed48 (FP32.decode (e.bases.getD j 0))).getD 0 else 0
  let feature (i : Nat) : Nat := le x (tFeat d + r * tFstride d + 4 * i) 4
  let trees := (treeList d).foldl (fun v t =>
    let ta := treeAddr e d t
    v + (fixed48 (e.leaf x ta (e.leafOf x ta feature) j)).getD 0) 0
  (wrap96 (a.1 + b.1 + base + trees), a.2 || b.2)

/-- R277: poison of the whole descriptor: the header, the PWL table, a node or a leaf. -/
def treePoison (x : Tile) (e : Ens) (d : TDesc) : Bool :=
  x.poisoned (tEns d) 64 || (e.link == linkPWL && x.poisoned (tPwl d) (16 * e.nseg)) ||
  (treeList d).any (fun t => x.poisoned (treeAddr e d t) e.treeSize)

/-- One row: its outputs as bytes with their poison, and its flags. -/
def treeRow (x : Tile) (e : Ens) (d : TDesc) (all : Bool) (r : Nat) : List (List Nat × Bool) × Nat :=
  let accs := (List.range e.outs).map (treeAcc x e d r)
  let rowBad := all || (tTrees d != 0 && x.poisoned (tFeat d + r * tFstride d) (4 * e.feats))
  if tFinal d then
    let sc := accs.map (fun a => scoreOf a.1)
    let ys := linkRow x e (tPwl d) (sc.map (·.1))
    let any := rowBad || accs.any (·.2)
    let bad (a : Int × Bool) : Bool := rowBad || a.2 || (e.link == 2 && any)
    ((ys.1.zip accs).map (fun p => (leBytes 4 (FP32.convert none p.1 false).1, bad p.2)),
     if any then 0 else orAll (sc.map (·.2)) ||| ys.2)
  else (accs.map (fun a => (accBytes a.1, rowBad || a.2)), 0)

/-- Write the outputs of a row (R273). -/
def writeOuts (x : Tile) (d : TDesc) (r : Nat) (os : List (List Nat × Bool)) : Tile :=
  os.zipIdx.foldl (fun x o =>
    x.write (tOut d + (if tFinal d then 32 * r + 4 * o.2 else 128 * r + 16 * o.2)) (o.1.1.map (fun b => (b, o.1.2)))) x

/-- R279: the bound on the cycles of a descriptor. -/
def treeBound (e : Ens) (d : TDesc) : Nat :=
  let b := batchRows e
  let p := groupSize e.depth
  let klink := match e.link with | 0 => 1 | 1 => 24 | 2 => 40 | 3 => 12 | _ => 4
  64 + tRows d * ceilDiv e.feats 512 +
    ceilDiv (tRows d) b * ceilDiv (tTrees d) p * max (b * passes e.depth) (ceilDiv (p * e.stride) 2048) +
    (if tFinal d then tRows d * e.outs * klink else 0)

/-- R280: evaluations and busy cycles; the cycles within the bound are not stated: a free value. -/
def hutCount (s : State) (t n bound : Nat) : State :=
  let s := s.incr (Pg.hut t) HUT_EVAL 0 n
  let (s, v) := s.free
  s.incr (Pg.hut t) HUT_BUSY 0 (v % (bound + 1))

/-- R267–R278: the effect of a TREE descriptor. -/
def tree (s : State) (t : Nat) (d : TDesc) : State × Nat × Nat × Bool :=
  let x := getTile s t
  let e := ensAt x (tEns d)
  if tRows d = 0 then (s, 0, 0, false)
  else match firstFault x e d with
    | some (tr, kind, item) =>
      let before := (tr - tFirst d) / groupSize e.depth * groupSize e.depth
      let s := hutCount s t (before * min (batchRows e) (tRows d)) (treeBound e d)
      let pg := Pg.hut t
      let s := (s.wr pg HUT_FAULT_TREE tr).wr pg HUT_FAULT_ROW 0
      let s := ((s.wr pg HUT_FAULT_INFO_KIND kind).wr pg HUT_FAULT_INFO_TICKET d.ticket).wr pg HUT_FAULT_INFO_ITEM item
      (raise s pg Irq.HUT_EVAL_FAULT, Syn.RANGE, 0, true)
    | none =>
      let all := treePoison x e d
      let rows := (List.range (tRows d)).map (fun r => (r, treeRow x e d all r))
      let y := rows.foldl (fun y r => writeOuts y d r.1 r.2.1) x
      let s := setFlags (setTile s t y) t (orAll (rows.map (fun r => r.2.2)))
      let s := hutCount s t (tTrees d * tRows d) (treeBound e d)
      (s, poisonCode (rows.any (fun r => r.2.1.any (·.2))), tRows d, false)

/-- R272: the running TREE. -/
def execTree (t : Nat) (s : State) : Host.Outcome State Fault Refusal := runDesc s t 2 opTREE 0 (tree s t)

/-! ### The start of a descriptor (R231, R233, R237) -/

/-- R237, R274, R281: the checks at the head of queue q, in order: the code of the first failure, or 0. -/
def headCheck (s : State) (t q : Nat) (d : TDesc) : Nat :=
  let x := getTile s t
  let op := dOp d
  if !check1 d q || !check2 d then Syn.RANGE
  else if op = opTREE ∧ s.rd (Pg.hut t) BLK_CTRL_EN = 0 then Syn.STATE
  else if op = opMATMUL then (if !matmulCheck3 d then Syn.RANGE else if !matmulCheck4 d then Syn.SIZE else 0)
  else if op = opVECTOR then (if !vectorCheck3 d then Syn.RANGE else if !vectorCheck4 d then Syn.SIZE else 0)
  else if op = opTREE then (if !treeCheck3 x d then Syn.RANGE else if !treeCheck4 x d then Syn.SIZE else 0)
  else if op = opCOPY then
    (if !copyCheck3 d then Syn.RANGE else if !copyCheck4 d then Syn.SIZE else if !copyCheck5 s t d then Syn.AUTH else 0)
  else 0

/-- R233: the dependencies are met. -/
def depsMet (s : State) (t : Nat) (d : TDesc) : Bool :=
  (setBits 4 (dDepV d)).all (fun q => ticketDone s t q (dDep d q))

/-- R231, R233, R237: the descriptor at the head of a queue is checked; refused, it halts the queue; it starts when its dependencies are
met. -/
def execDescriptorStart (t : Nat) (q : BitVec 2) (s : State) : Host.Outcome State Fault Refusal :=
  let v := getQ (getTile s t) q.toNat
  match v.run, v.held with
  | .waiting, d :: _ =>
    if tileRuns s t ∧ isHalted s t q.toNat = false then
      let c := headCheck s t q.toNat d
      if c ≠ 0 then .next (haltQueue (putQ s t q.toNat { v with run := .refused c }) t q.toNat c d.ticket)
      else if depsMet s t d then .next (putQ s t q.toNat { v with run := .running })
      else .next s
    else .next s
  | _, _ => .next s

end Sys2Proof.Machine
end

