-- ==== Sys2Proof/Machine/Orders.lean ====
section
/-!
DEFINITION. Sys2Proof/Machine/Orders.lean: the other management operations that make a journal entry (R477): REG_WRITE, FREEZE (R453), SCAN_EXPORT
(R302), CORRELATE (R315), OBS_CLEAR (R350), RETIRE (R254), KEY_INSTALL (R420, R421), IMAGE_WRITE (R469), SWITCHOVER (R473), RESET (R484).
-/
namespace Sys2Proof.Machine
open Reg

/-! ### REG_WRITE -/

/-- Registers of the Hub written from an address on, up to the first refusal: the state, its syndrome, how many were written. -/
def writeHubWords (pg : Page) (off : Nat) : List Nat → State → State × Nat × Nat
  | [], s => (s, 0, 0)
  | v :: vs, s =>
    let r := writeCode s pg off .cabinet v
    if r.2 ≠ 0 then (r.1, r.2, 0)
    else
      let t := writeHubWords pg (off + 4) vs r.1
      (t.1, t.2.1, t.2.2 + 1)

/-- REG_WRITE on the Hub: the entry ends at once (log entry 70: where the write resets the package, the entry is gone with the journal). -/
def writeHub (s : State) (id : Nat) (pg : Page) (off : Nat) (ws : List Nat) : State :=
  let r := writeHubWords pg off ws (startEntry s id (fun e => e))
  if r.2.1 = 0 then endEntry r.1 id Jr.DONE 0 []
  else endEntry r.1 id (if r.2.2 = 0 then Jr.ABORTED else Jr.PARTIAL) r.2.1 []

/-- REG_WRITE on a unit: WRITE commands of at most 64 words. -/
def writeUnit (s : State) (id unit page off : Nat) (ws : List Nat) : State :=
  if !canCommand s then abort s id Syn.STATE
  else advance (startEntry s id (fun e =>
    { e with steps := (chunksOf ws.length).map (fun c => jstep unit 0 (.write page (off + 4 * c.1) ((ws.drop c.1).take c.2))) })) id

def execRegWrite (ses req : Nat) (a : RegAddr) (unit : Nat) (words : List Word) (s : State) : Host.Outcome State Fault Refusal :=
  operation s ses 0x11 req 0 (fun s id =>
    let ws := words.map (·.toNat)
    if ws.length > 256 then abort s id Syn.SIZE
    else match addrPage a with
      | .tally p => writeUnit s id unit p (addrOff a) ws
      | .hub d p => writeHub s id (.hub d p) (addrOff a) ws)

/-! ### FREEZE (R453) -/

/-- The action staged: a release closer to the freeze than the lead is part of it (TIMED, with its length in µs). -/
def freezeAction (lead t : Nat) (release : Option Nat) : Nat × Nat × List Nat :=
  match release with
  | none => (Frz.FREEZE, 0, [])
  | some r => if r < t + lead then (Frz.TIMED, (r - t) / 1000, []) else (Frz.FREEZE, 0, [r])

/-- FREEZE of some units and some dies of the Hub at an instant, and its release. -/
def execFreeze (ses req : Nat) (units dies : List Nat) (t : Nat) (release : Option Nat) (s : State) : Host.Outcome State Fault Refusal :=
  operation s ses 0x30 req 0 (fun s id =>
    let pages := dies.map Pg.hFrz
    let lead := 2000000
    let a := freezeAction lead t release
    if release.any (fun r => decide (r ≤ t)) then abort s id Syn.RANGE
    else if apptCheck s lead [] t ≠ 0 then abort s id (apptCheck s lead [] t)
    else if anyArmed s pages || (!units.isEmpty && !canCommand s) then abort s id Syn.STATE
    else startChange (stageFreeze s pages a.1 a.2.1) id t lead pages [] (fun e =>
      { e with result := a.2.2, steps := units.flatMap (fun u => freezeSteps u a.1 a.2.1 t) }))

/-! ### SCAN_EXPORT (R302) -/

/-- The export sequence under an epoch: the sequence to use, and the state with the next. -/
def takeExport (s : State) (epoch : Nat) : State × Nat :=
  let c := s.hub.cabinet
  let n := if c.exportSeq.1 = epoch then c.exportSeq.2 else 0
  (setCabinet s { c with exportSeq := (epoch, n + 1) }, n)

/-- One block as an export frame set: the index entry, followed by the stored frame unless the block is DAMAGED. -/
def exportBlock (s : State) (m tier epoch : Nat) (ports : List Nat) (e : TEntry) : State :=
  let f := if e.state = Ent.DAMAGED then (s, []) else hbmFetch s (dataBase s.cfg m tier + e.ofs * 64) e.clen
  let x := takeExport f.1 epoch
  x.1.send (.export_ ports (48 + m) epoch x.2 e.seq (e.bytes ++ f.2.map (·.1)))

/-- The RAW scan of one die (R298): the blocks of the span, in SEQ order. -/
def exportDie (tier epoch : Nat) (ports : List Nat) (s : State) (m : Nat) : State :=
  let t := getTap s m
  (List.range (headOf t tier - tailOf t tier)).foldl (fun s i =>
    let seq := tailOf t tier + i
    let e := getEntry s m tier seq
    if e.seq ≠ seq ∨ (e.state ≠ Ent.COMMITTED ∧ e.state ≠ Ent.DAMAGED) then s.bump (tapPg m) TAP_SCAN_SKIP
    else if scanMatches s m e then (exportBlock s m tier epoch ports e).incr (tapPg m) TAP_SCAN_CNT
    else s) s

/-- The settings of the scan on one die. -/
def exportSet (tier job lo hi : Nat) (s : State) (m : Nat) : State :=
  let pg := tapPg m
  let s := ((s.wr pg TAP_SCAN_CTRL_TIER tier).wr pg TAP_SCAN_CTRL_DELIVER 1).wr pg TAP_SCAN_JOB job
  let s := ((s.wr pg TAP_SCAN_FROM_LO (lo % 2 ^ 32)).wr pg TAP_SCAN_FROM_HI (lo / 2 ^ 32)).wr pg TAP_SCAN_TO_LO (hi % 2 ^ 32)
  ((s.wr pg TAP_SCAN_TO_HI (hi / 2 ^ 32)).wr pg TAP_SCAN_CNT 0).wr pg TAP_SCAN_SKIP 0

/-- SCAN_EXPORT: tier, job (0: every job), the span in 125 µs units, the fabric ports; `rate` bounds the speed, which is no part of the model. -/
def execScanExport (ses req tier job lo hi : Nat) (ports : List Nat) (_rate : Nat) (s : State) : Host.Outcome State Fault Refusal :=
  operation s ses 0x31 req job (fun s id =>
    let mds := List.range 8
    if tier > 1 ∨ lo > hi ∨ hi ≥ 2 ^ 64 ∨ ports.isEmpty ∨ ports.any (fun p => decide (p > 9)) then abort s id Syn.RANGE
    else match siteKey (promoteSiteKeys s) 3 with
      | none => abort s id Syn.STATE
      | some k =>
        if mds.any (fun m => (getTap s m).scan.isSome || !(getTap s m).ready || isFrozen s (tapPg m)) then abort s id Syn.STATE
        else
          let s := mds.foldl (exportSet tier job lo hi) (startEntry (promoteSiteKeys s) id (fun e => e))
          let s := mds.foldl (exportDie tier k.epoch ports) s
          endEntry (mds.foldl (fun s m => endScan s m ScanSt.DONE) s) id Jr.DONE 0 [])

/-! ### CORRELATE (R315) -/

/-- A tile in service that no tile set holds. -/
def anyFreeTile (s : State) : Bool :=
  (List.range (tileCount s.cfg)).any (fun t => pstate s t != PS.RETIRED && !s.flag (Pg.til t) TIL_JOB_VALID)

/-- CORRELATE: one field, a span of windows, a threshold. -/
def execCorrelate (ses req : Nat) (field : TField) (lo hi threshold : Nat) (s : State) : Host.Outcome State Fault Refusal :=
  operation s ses 0x32 req 0 (fun s id =>
    let c := s.hub.cabinet
    if fieldCheck field ≠ 0 ∨ lo > hi ∨ threshold ≥ 2 ^ 32 then abort s id Syn.RANGE
    else if !anyFreeTile s then abort s id Syn.SIZE
    else startEntry (setCabinet s { c with searches := c.searches ++ [{ entry := id, field, from_ := lo, to_ := hi, threshold }] }) id (fun e => e))

/-! ### OBS_CLEAR, RETIRE -/

/-- R350: the observation and the quarantine of a unit are cleared. -/
def execObsClear (ses req job unit : Nat) (s : State) : Host.Outcome State Fault Refusal :=
  operation s ses 0x33 req job (fun s id =>
    match hjob s job with
    | none => abort s id Syn.ABSENT
    | some _ =>
      let s := modJob s job (fun j => { j with obs := j.obs.filter (fun o => o.unit != unit) })
      endEntry (startEntry s id (fun e => e)) id Jr.DONE 0 [])

/-- R254: a tile is retired for good. -/
def execRetire (ses req tile : Nat) (s : State) : Host.Outcome State Fault Refusal :=
  operation s ses 0x34 req 0 (fun s id =>
    if tile ≥ tileCount s.cfg then abort s id Syn.ABSENT
    else if pstate s tile = PS.RETIRED then abort s id Syn.STATE
    else endEntry (retireForGood (startEntry s id (fun e => e)) tile) id Jr.DONE 0 [])

/-! ### KEY_INSTALL (R420, R421) -/

/-- R420: the new command key goes to every unit this Hub serves, under the command key in force. -/
def keySteps (s : State) (epoch t key : Nat) : List JStep :=
  if !canCommand s then []
  else
    let units := (s.hub.jobs.flatMap (fun j => ((jobNow s j).map (servedMembers s)).getD [])).map (·.unit)
    units.eraseDups.map (fun u => jstep u 0 (.keyload 2 epoch t key))

/-- The key is installed as NEXT with its appointment. -/
def apptKey (s : State) (slot t : Nat) : State :=
  setHKeys s (s.hub.keys.map (fun k => if k.slot = slot then { k with appt := some t } else k))

/-- R431: the record goes through the engine of the serving die. -/
def installSite (s : State) (id kind epoch t : Nat) (r : List Nat) : State :=
  let s := installRecord s 56 .cabinet r
  let c := s.rd (Pg.sec 56) SEC_LOAD_STAT_CODE
  if c ≠ 0 then abort s id c
  else
    let slot := s.rd (Pg.sec 56) SEC_LOAD_STAT_SLOT
    let key := ((keyAt s slot).map (·.val)).getD 0
    let steps := if kind = 2 then keySteps s epoch t key else []
    advance (startEntry (apptKey s slot t) id (fun e => { e with steps })) id

/-- KEY_INSTALL: kind (2 COMMAND, 3 EXPORT), epoch, the wrapped record of R431, the appointment in ns. -/
def execKeyInstall (ses req kind epoch : Nat) (record : List Byte) (appt : Option Nat) (s : State) : Host.Outcome State Fault Refusal :=
  operation s ses 0x35 req 0 (fun s id =>
    let r := record.map (·.toNat)
    let t := pickAppt s 2000000 [0] appt
    if (kind ≠ 2 ∧ kind ≠ 3) ∨ r.length ≠ 152 ∨ r.headD 0 ≠ kind ∨ ofBe ((r.drop 8).take 4) ≠ epoch ∨ epoch = 0 then abort s id Syn.RANGE
    else if apptCheck s 2000000 [] t ≠ 0 then abort s id (apptCheck s 2000000 [] t)
    else if s.isUnset .hub then abort s id Syn.STATE
    else installSite (promoteSiteKeys s) id kind epoch t r)

/-! ### IMAGE_WRITE (R469) -/

/-- Two copies in board storage. -/
def twoCopies {α : Type} (l : List α) (d : α) : List α := l ++ List.replicate (2 - l.length) d

/-- R465: over the copy that did not boot. -/
def writeCopy (s : State) (version : Nat) (cfg : Option CfgImage) : State :=
  let c := s.hub.cabinet
  match cfg with
  | none => setCabinet s { c with cabImg := (twoCopies c.cabImg ⟨0, false⟩).set (1 - c.bootCopy % 2) ⟨version, true⟩ }
  | some x => setCabinet s { c with cfgImg := (twoCopies c.cfgImg (⟨0, false⟩, x)).set (1 - c.bootCopy / 2 % 2) (⟨version, true⟩, x) }

/-- IMAGE_WRITE: a CABINET image (its version) or a CONFIG image (`cfg`); `ok` says it verifies under R412 and R466. An operator's; in SAFE any
session's. -/
def execImageWrite (ses req version : Nat) (ok : Bool) (cfg : Option CfgImage) (s : State) : Host.Outcome State Fault Refusal :=
  request s ses 0x70 req (!hubSafe s) (fun s x => journalled s x 0x70 req 0 (fun s id =>
    if ok = false then abort s id Syn.AUTH
    else endEntry (writeCopy (startEntry s id (fun e => e)) version cfg) id Jr.DONE 0 []))

/-! ### SWITCHOVER, RESET -/

/-- R473: SWITCHOVER; `back` says that the complex that was ACTIVE returns as STANDBY. -/
def execSwitchover (ses req : Nat) (back : Bool) (s : State) : Host.Outcome State Fault Refusal :=
  operation s ses 0x71 req 0 (fun s id =>
    if (complexIn s Role.STANDBY).isNone then abort s id Syn.STATE
    else takeOver (endEntry (startEntry s id (fun e => e)) id Jr.DONE 0 []) back)

/-- R484: RESET of kind 1 PACKAGE, and the boot that follows. -/
def execReset (ses req kind : Nat) (b : BootIn) (s : State) : Host.Outcome State Fault Refusal :=
  operation s ses 0x72 req 0 (fun s id => if kind ≠ 1 then abort s id Syn.RANGE else runBoot (packageReset s) b)

end Sys2Proof.Machine
end

