-- ==== Sys2Proof/Machine/Spdm.lean ====
section
/-!
DEFINITION. Sys2Proof/Machine/Spdm.lean: the SPDM 1.3 responder (R425), within management sessions (R476).
-/
namespace Sys2Proof.Machine
open Reg

/-- An SPDM request of a session (TYPE 4, OP 0); `opOnly`: the operator's (log entry 71). -/
def spdm (s : State) (ses req : Nat) (opOnly : Bool) (f : State → State × MBody) : Host.Outcome State Fault Refusal :=
  request s ses 0 req opOnly (fun s _ =>
    let r := f s
    replyTo r.1 ses 0 req 0 r.2)

def execGetVersion (ses req : Nat) (s : State) : Host.Outcome State Fault Refusal := spdm s ses req false (fun s => (s, .version))

def execGetCapabilities (ses req : Nat) (s : State) : Host.Outcome State Fault Refusal := spdm s ses req false (fun s => (s, .capabilities))

/-- ECDSA P-384, SHA-384, measurement hash SHA-384; `offered` says the requester offers them. -/
def execNegotiateAlgorithms (ses req : Nat) (offered : Bool) (s : State) : Host.Outcome State Fault Refusal :=
  spdm s ses req false (fun s => (s, if offered then .algorithms else .invalidRequest))

def execGetDigests (ses req : Nat) (s : State) : Host.Outcome State Fault Refusal :=
  spdm s ses req false (fun s => (s, .digests s.hub.cabinet.slot1))

/-- Slot 0 holds the identity chain; slot 1 the operator's certificate, once it is set. -/
def certOf (s : State) (slot : Nat) : Option Nat := if slot = 0 then some 0 else if slot = 1 then s.hub.cabinet.slot1 else none

def execGetCertificate (ses req slot : Nat) (s : State) : Host.Outcome State Fault Refusal :=
  spdm s ses req false (fun s => (s, match certOf s slot with
    | some c => .certificate slot c
    | none => .invalidRequest))

/-- R409: answered with the identity key, which the Hub must have rebuilt. -/
def execChallenge (ses req slot nonce : Nat) (s : State) : Host.Outcome State Fault Refusal :=
  spdm s ses req false (fun s => (s, match certOf s slot with
    | some _ => if s.rd (Pg.sec 56) SEC_STAT_ID = 1 then .challenge slot nonce else .invalidRequest
    | none => .invalidRequest))

/-- The Weaja images loaded, in ascending MODEL_ID. -/
def loadedModels (s : State) : List Weaja :=
  sortLe (fun a b => decide (a.modelId ≤ b.modelId)) (s.hub.jobs.filterMap (fun j => j.image.map (·.img)))

/-- The measurements: one of the five, or all of them (0xFF). -/
def spdmMeasure (s : State) (index : Nat) : MBody :=
  let which := if index = 0xFF then [1, 2, 3, 4, 5] else if 1 ≤ index ∧ index ≤ 5 then [index] else []
  if which.isEmpty then .invalidRequest
  else .measurements which (s.hub.cabinet.cabImg[s.hub.cabinet.bootCopy % 2]?) s.hub.cabinet.config s.hub.retired (loadedModels s)

def execGetMeasurements (ses req index : Nat) (s : State) : Host.Outcome State Fault Refusal :=
  spdm s ses req false (fun s => (s, spdmMeasure s index))

/-- A TLS key is generated in the security engine. -/
def execGetCsr (ses req : Nat) (s : State) : Host.Outcome State Fault Refusal :=
  spdm s ses req true (fun s => (setCabinet s { s.hub.cabinet with tlsKey := true }, .csr))

/-- The operator's TLS certificate (by its hash) goes into slot 1, over the key that was generated. -/
def execSetCertificate (ses req slot cert : Nat) (s : State) : Host.Outcome State Fault Refusal :=
  spdm s ses req true (fun s =>
    if slot = 1 ∧ s.hub.cabinet.tlsKey then (setCabinet s { s.hub.cabinet with slot1 := some cert }, .certificateSet) else (s, .invalidRequest))

end Sys2Proof.Machine
end

