-- ==== Sys2Proof/Machine/Dispatch.lean ====
section
/-!
DEFINITION. Sys2Proof/Machine/Dispatch.lean: the one arm of every command (each arm calls the command's meaning).
-/
namespace Sys2Proof.Machine

def exec (i : Instr) (s : State) : Host.Outcome State Fault Refusal :=
  match i with
  | .registerWrite a ag v => Sys2Proof.Machine.execRegisterWrite a ag v s
  | .synClr pg ag => Sys2Proof.Machine.execSynClr pg ag s
  | .softReset pg ag => Sys2Proof.Machine.execSoftReset pg ag s
  | .apptArm pg ag => Sys2Proof.Machine.execApptArm pg ag s
  | .apptCancel pg ag => Sys2Proof.Machine.execApptCancel pg ag s
  | .apptApply pg => Sys2Proof.Machine.execApptApply pg s
  | .longcaseReset p ag => Sys2Proof.Machine.execLongcaseReset p ag s
  | .lcsStep p ag => Sys2Proof.Machine.execLcsStep p ag s
  | .clrCnt p ag => Sys2Proof.Machine.execClrCnt p ag s
  | .lcsGenWrite p ag gen => Sys2Proof.Machine.execLcsGenWrite p ag gen s
  | .lcsNowRead pg => Sys2Proof.Machine.execLcsNowRead pg s
  | .tbAnnouncement sec ns beats consecutive => Sys2Proof.Machine.execTbAnnouncement sec ns beats consecutive s
  | .tbPulse status => Sys2Proof.Machine.execTbPulse status s
  | .pulseMiss => Sys2Proof.Machine.execPulseMiss s
  | .measurementMissLimit p => Sys2Proof.Machine.execMeasurementMissLimit p s
  | .siteQualExpiry => Sys2Proof.Machine.execSiteQualExpiry s
  | .followerCheck die diff => Sys2Proof.Machine.execFollowerCheck die diff s
  | .ptpMessageRx port domain pos interval body => Sys2Proof.Machine.execPtpMessageRx port domain pos interval body s
  | .ptpMessageTx port => Sys2Proof.Machine.execPtpMessageTx port s
  | .announceTimeout domain => Sys2Proof.Machine.execAnnounceTimeout domain s
  | .sourceStable => Sys2Proof.Machine.execSourceStable s
  | .switchedExpiry => Sys2Proof.Machine.execSwitchedExpiry s
  | .ppsEdge => Sys2Proof.Machine.execPpsEdge s
  | .ttExchangeTx am => Sys2Proof.Machine.execTtExchangeTx am s
  | .ttExchangeDone t2 t3 pos => Sys2Proof.Machine.execTtExchangeDone t2 t3 pos s
  | .pseRise port => Sys2Proof.Machine.execPseRise port s
  | .pseFall port => Sys2Proof.Machine.execPseFall port s
  | .pauseTimeout port => Sys2Proof.Machine.execPauseTimeout port s
  | .tallyPor => Sys2Proof.Machine.execTallyPor s
  | .tallyHrst => Sys2Proof.Machine.execTallyHrst s
  | .chainAddress addr => Sys2Proof.Machine.execChainAddress addr s
  | .tlyUnitWrite ag unit => Sys2Proof.Machine.execTlyUnitWrite ag unit s
  | .fclkRequest => Sys2Proof.Machine.execFclkRequest s
  | .fclkAck => Sys2Proof.Machine.execFclkAck s
  | .windowBoundary => Sys2Proof.Machine.execWindowBoundary s
  | .slowBoundary => Sys2Proof.Machine.execSlowBoundary s
  | .recordSeal => Sys2Proof.Machine.execRecordSeal s
  | .powerSample codeV codeI => Sys2Proof.Machine.execPowerSample codeV codeI s
  | .freqSample => Sys2Proof.Machine.execFreqSample s
  | .gaugeHostWrite ag lo => Sys2Proof.Machine.execGaugeHostWrite ag lo s
  | .cntValRead gauge => Sys2Proof.Machine.execCntValRead gauge s
  | .stepMark ag kind slot id tag => Sys2Proof.Machine.execStepMark ag kind slot id tag s
  | .lockWrite pg ag v => Sys2Proof.Machine.execLockWrite pg ag v s
  | .capCodeWrite ag code => Sys2Proof.Machine.execCapCodeWrite ag code s
  | .capAck => Sys2Proof.Machine.execCapAck s
  | .capAckTimeout => Sys2Proof.Machine.execCapAckTimeout s
  | .stewardStart pg ag => Sys2Proof.Machine.execStewardStart pg ag s
  | .stewardVerifyDone pg ok anchor rebuilt => Sys2Proof.Machine.execStewardVerifyDone pg ok anchor rebuilt s
  | .stewardHalt pg ag => Sys2Proof.Machine.execStewardHalt pg ag s
  | .stewardFault pg cause => Sys2Proof.Machine.execStewardFault pg cause s
  | .stewardLoadWord pg ag w => Sys2Proof.Machine.execStewardLoadWord pg ag w s
  | .shaperRefill => Sys2Proof.Machine.execShaperRefill s
  | .frameStart => Sys2Proof.Machine.execFrameStart s
  | .frameSent => Sys2Proof.Machine.execFrameSent s
  | .gateEntryAdvance => Sys2Proof.Machine.execGateEntryAdvance s
  | .write f page off count data => Sys2Proof.Machine.execWrite f page off count data s
  | .read f page off count => Sys2Proof.Machine.execRead f page off count s
  | .arm f mask appt => Sys2Proof.Machine.execArm f mask appt s
  | .cap f code appt => Sys2Proof.Machine.execCap f code appt s
  | .keyload f kind epoch appt ok key => Sys2Proof.Machine.execKeyload f kind epoch appt ok key s
  | .digest f every first => Sys2Proof.Machine.execDigest f every first s
  | .replay f step id shift epoch => Sys2Proof.Machine.execReplay f step id shift epoch s
  | .observe f endSec endNs testS => Sys2Proof.Machine.execObserve f endSec endNs testS s
  | .bootstrap f kind epoch anchor sigOk ok key => Sys2Proof.Machine.execBootstrap f kind epoch anchor sigOk ok key s
  | .verdictAccept f plain => Sys2Proof.Machine.execVerdictAccept f plain s
  | .prevKeyDiscard slot => Sys2Proof.Machine.execPrevKeyDiscard slot s
  | .cmdKeyOverlapEnd => Sys2Proof.Machine.execCmdKeyOverlapEnd s
  | .qrpFrameRx port pos f => Sys2Proof.Machine.execQrpFrameRx port pos f s
  | .recordRx d poison => Sys2Proof.Machine.execRecordRx d poison s
  | .reasmTimeout d => Sys2Proof.Machine.execReasmTimeout d s
  | .digestReportRx d lanes poison => Sys2Proof.Machine.execDigestReportRx d lanes poison s
  | .responseRx d => Sys2Proof.Machine.execResponseRx d s
  | .sealDeadline slot n mism poison => Sys2Proof.Machine.execSealDeadline slot n mism poison s
  | .hubAggregateIssue slot n mism => Sys2Proof.Machine.execHubAggregateIssue slot n mism s
  | .reReductionDone slot n agree => Sys2Proof.Machine.execReReductionDone slot n agree s
  | .mergeLate slot n => Sys2Proof.Machine.execMergeLate slot n s
  | .lateHorizon slot n mism poison => Sys2Proof.Machine.execLateHorizon slot n mism poison s
  | .aggregateRx d f => Sys2Proof.Machine.execAggregateRx d f s
  | .groupAggregateIssue slot n mism => Sys2Proof.Machine.execGroupAggregateIssue slot n mism s
  | .siteAggregateIssue slot n mism => Sys2Proof.Machine.execSiteAggregateIssue slot n mism s
  | .fleetAggregateIssue slot n mism => Sys2Proof.Machine.execFleetAggregateIssue slot n mism s
  | .aggregateHoldExpiry slot n => Sys2Proof.Machine.execAggregateHoldExpiry slot n s
  | .dpush t rd rs1 q => Sys2Proof.Machine.execDpush t rd rs1 q s
  | .dtry t rd rs1 q => Sys2Proof.Machine.execDtry t rd rs1 q s
  | .dwait t rd rs1 q => Sys2Proof.Machine.execDwait t rd rs1 q s
  | .dpoll t rd q => Sys2Proof.Machine.execDpoll t rd q s
  | .tflagsClear t v => Sys2Proof.Machine.execTflagsClear t v s
  | .tsleep t v => Sys2Proof.Machine.execTsleep t v s
  | .teventClear t v => Sys2Proof.Machine.execTeventClear t v s
  | .tdone t v => Sys2Proof.Machine.execTdone t v s
  | .tmboxOut t v => Sys2Proof.Machine.execTmboxOut t v s
  | .sequencerException t cause pc mtvec => Sys2Proof.Machine.execSequencerException t cause pc mtvec s
  | .descriptorStart t q => Sys2Proof.Machine.execDescriptorStart t q s
  | .matmul t => Sys2Proof.Machine.execMatmul t s
  | .tree t => Sys2Proof.Machine.execTree t s
  | .copy t rows code data poison => Sys2Proof.Machine.execCopy t rows code data poison s
  | .fence t q => Sys2Proof.Machine.execFence t q s
  | .add t => Sys2Proof.Machine.execAdd t s
  | .sub t => Sys2Proof.Machine.execSub t s
  | .mul t => Sys2Proof.Machine.execMul t s
  | .fma t => Sys2Proof.Machine.execFma t s
  | .div t => Sys2Proof.Machine.execDiv t s
  | .sqrt t => Sys2Proof.Machine.execSqrt t s
  | .rcp t => Sys2Proof.Machine.execRcp t s
  | .rsqrt t => Sys2Proof.Machine.execRsqrt t s
  | .exp2 t => Sys2Proof.Machine.execExp2 t s
  | .log2 t => Sys2Proof.Machine.execLog2 t s
  | .min t => Sys2Proof.Machine.execMin t s
  | .max t => Sys2Proof.Machine.execMax t s
  | .cmpEq t => Sys2Proof.Machine.execCmpEq t s
  | .cmpNe t => Sys2Proof.Machine.execCmpNe t s
  | .cmpLt t => Sys2Proof.Machine.execCmpLt t s
  | .cmpLe t => Sys2Proof.Machine.execCmpLe t s
  | .abs t => Sys2Proof.Machine.execAbs t s
  | .neg t => Sys2Proof.Machine.execNeg t s
  | .cvt t => Sys2Proof.Machine.execCvt t s
  | .cvtFx t => Sys2Proof.Machine.execCvtFx t s
  | .iadd t => Sys2Proof.Machine.execIadd t s
  | .isub t => Sys2Proof.Machine.execIsub t s
  | .imulLo t => Sys2Proof.Machine.execImulLo t s
  | .imulHi t => Sys2Proof.Machine.execImulHi t s
  | .imuluHi t => Sys2Proof.Machine.execImuluHi t s
  | .shl t => Sys2Proof.Machine.execShl t s
  | .shr t => Sys2Proof.Machine.execShr t s
  | .sra t => Sys2Proof.Machine.execSra t s
  | .and t => Sys2Proof.Machine.execAnd t s
  | .or t => Sys2Proof.Machine.execOr t s
  | .xor t => Sys2Proof.Machine.execXor t s
  | .imin t => Sys2Proof.Machine.execImin t s
  | .imax t => Sys2Proof.Machine.execImax t s
  | .icmp t => Sys2Proof.Machine.execIcmp t s
  | .descriptorComplete t q => Sys2Proof.Machine.execDescriptorComplete t q s
  | .queueFlush t ag mask => Sys2Proof.Machine.execQueueFlush t ag mask s
  | .wake t ag => Sys2Proof.Machine.execWake t ag s
  | .gate t ag => Sys2Proof.Machine.execGate t ag s
  | .park t ag => Sys2Proof.Machine.execPark t ag s
  | .tileSleepEntered t => Sys2Proof.Machine.execTileSleepEntered t s
  | .tileWakeDone t => Sys2Proof.Machine.execTileWakeDone t s
  | .seqStart t ag => Sys2Proof.Machine.execSeqStart t ag s
  | .seqHalt t ag => Sys2Proof.Machine.execSeqHalt t ag s
  | .tileRetire t ag => Sys2Proof.Machine.execTileRetire t ag s
  | .mboxInWrite t ag v => Sys2Proof.Machine.execMboxInWrite t ag v s
  | .scheduledWake t => Sys2Proof.Machine.execScheduledWake t s
  | .activeInstant t => Sys2Proof.Machine.execActiveInstant t s
  | .verdictAssembly slot n => Sys2Proof.Machine.execVerdictAssembly slot n s
  | .verdictIssue slot n rev scores peers => Sys2Proof.Machine.execVerdictIssue slot n rev scores peers s
  | .verdictAbandon slot n => Sys2Proof.Machine.execVerdictAbandon slot n s
  | .checkWindow slot n regions peer => Sys2Proof.Machine.execCheckWindow slot n regions peer s
  | .selftestChunk t ok => Sys2Proof.Machine.execSelftestChunk t ok s
  | .partitionRecovery job place peer => Sys2Proof.Machine.execPartitionRecovery job place peer s
  | .tapeWindow slot n poison => Sys2Proof.Machine.execTapeWindow slot n poison s
  | .blockCompressDone m b eng frame => Sys2Proof.Machine.execBlockCompressDone m b eng frame s
  | .scanStart m ag v => Sys2Proof.Machine.execScanStart m ag v s
  | .scanAbort m ag v => Sys2Proof.Machine.execScanAbort m ag v s
  | .scanDeliver m eng1 fail1 fail2 => Sys2Proof.Machine.execScanDeliver m eng1 fail1 fail2 s
  | .scanTimeout m => Sys2Proof.Machine.execScanTimeout m s
  | .patrol m corr unc => Sys2Proof.Machine.execPatrol m corr unc s
  | .tapRecoveryDone m => Sys2Proof.Machine.execTapRecoveryDone m s
  | .errorInject m ag v => Sys2Proof.Machine.execErrorInject m ag v s
  | .engineEnableWrite pg ag v => Sys2Proof.Machine.execEngineEnableWrite pg ag v s
  | .correlationDone entry sets => Sys2Proof.Machine.execCorrelationDone entry sets s
  | .digestComplete err mem => Sys2Proof.Machine.execDigestComplete err mem s
  | .rplReady ag => Sys2Proof.Machine.execRplReady ag s
  | .rplDecline ag => Sys2Proof.Machine.execRplDecline ag s
  | .reportWaitExpiry job step => Sys2Proof.Machine.execReportWaitExpiry job step s
  | .dpartialRx d f => Sys2Proof.Machine.execDpartialRx d f s
  | .outcomeWaitExpiry job step => Sys2Proof.Machine.execOutcomeWaitExpiry job step s
  | .replayWaitExpiry job => Sys2Proof.Machine.execReplayWaitExpiry job s
  | .replayExpired job => Sys2Proof.Machine.execReplayExpired job s
  | .observationEnd job unit => Sys2Proof.Machine.execObservationEnd job unit s
  | .reachHelloTx l => Sys2Proof.Machine.execReachHelloTx l s
  | .reachHello l ok sender port tx rx => Sys2Proof.Machine.execReachHello l ok sender port tx rx s
  | .helloLoss l => Sys2Proof.Machine.execHelloLoss l s
  | .dataTx l => Sys2Proof.Machine.execDataTx l s
  | .data l pos f => Sys2Proof.Machine.execData l pos f s
  | .rxDeliver l => Sys2Proof.Machine.execRxDeliver l s
  | .ack l ok a => Sys2Proof.Machine.execAck l ok a s
  | .ackTx l => Sys2Proof.Machine.execAckTx l s
  | .rtoExpiry l seq => Sys2Proof.Machine.execRtoExpiry l seq s
  | .sessionReset l => Sys2Proof.Machine.execSessionReset l s
  | .frameAbandon l => Sys2Proof.Machine.execFrameAbandon l s
  | .gsiUpdate l slot n => Sys2Proof.Machine.execGsiUpdate l slot n s
  | .peerHelloTx p => Sys2Proof.Machine.execPeerHelloTx p s
  | .peerHello p board hub port => Sys2Proof.Machine.execPeerHello p board hub port s
  | .peerHelloLoss p => Sys2Proof.Machine.execPeerHelloLoss p s
  | .powerEstimateSample raw => Sys2Proof.Machine.execPowerEstimateSample raw s
  | .vrAlert k => Sys2Proof.Machine.execVrAlert k s
  | .boardThrottle k => Sys2Proof.Machine.execBoardThrottle k s
  | .ceilingRaise c => Sys2Proof.Machine.execCeilingRaise c s
  | .levelApply => Sys2Proof.Machine.execLevelApply s
  | .pmbusPoll readings => Sys2Proof.Machine.execPmbusPoll readings s
  | .pmbusAlert => Sys2Proof.Machine.execPmbusAlert s
  | .calibration => Sys2Proof.Machine.execCalibration s
  | .thermalReading die temp => Sys2Proof.Machine.execThermalReading die temp s
  | .hubPwrLockWrite ag v => Sys2Proof.Machine.execHubPwrLockWrite ag v s
  | .install d ag => Sys2Proof.Machine.execInstall d ag s
  | .erase d ag slot => Sys2Proof.Machine.execErase d ag slot s
  | .zeroize d ag v => Sys2Proof.Machine.execZeroize d ag v s
  | .keyDiscard slot => Sys2Proof.Machine.execKeyDiscard slot s
  | .keyRoll job => Sys2Proof.Machine.execKeyRoll job s
  | .mgmtSessionOpen port tls chains role cert => Sys2Proof.Machine.execMgmtSessionOpen port tls chains role cert s
  | .sessionIdle ses => Sys2Proof.Machine.execSessionIdle ses s
  | .getVersion ses req => Sys2Proof.Machine.execGetVersion ses req s
  | .getCapabilities ses req => Sys2Proof.Machine.execGetCapabilities ses req s
  | .negotiateAlgorithms ses req offered => Sys2Proof.Machine.execNegotiateAlgorithms ses req offered s
  | .getDigests ses req => Sys2Proof.Machine.execGetDigests ses req s
  | .getCertificate ses req slot => Sys2Proof.Machine.execGetCertificate ses req slot s
  | .challenge ses req slot nonce => Sys2Proof.Machine.execChallenge ses req slot nonce s
  | .getMeasurements ses req index => Sys2Proof.Machine.execGetMeasurements ses req index s
  | .getCsr ses req => Sys2Proof.Machine.execGetCsr ses req s
  | .setCertificate ses req slot cert => Sys2Proof.Machine.execSetCertificate ses req slot cert s
  | .firmwarePost pg ag sev detail => Sys2Proof.Machine.execFirmwarePost pg ag sev detail s
  | .bureauPost p => Sys2Proof.Machine.execBureauPost p s
  | .bureauLookup p ag hi => Sys2Proof.Machine.execBureauLookup p ag hi s
  | .bureauLookupDone p ag => Sys2Proof.Machine.execBureauLookupDone p ag s
  | .traceArm pg ag => Sys2Proof.Machine.execTraceArm pg ag s
  | .traceStop pg ag => Sys2Proof.Machine.execTraceStop pg ag s
  | .traceClear pg ag => Sys2Proof.Machine.execTraceClear pg ag s
  | .traceComparator pg c => Sys2Proof.Machine.execTraceComparator pg c s
  | .traceOverflow pg lost syncs => Sys2Proof.Machine.execTraceOverflow pg lost syncs s
  | .timedRelease pg => Sys2Proof.Machine.execTimedRelease pg s
  | .autoRelease pg => Sys2Proof.Machine.execAutoRelease pg s
  | .hubPor b => Sys2Proof.Machine.execHubPor b s
  | .hubReset b => Sys2Proof.Machine.execHubReset b s
  | .chainFrame index type => Sys2Proof.Machine.execChainFrame index type s
  | .chainEnumTx => Sys2Proof.Machine.execChainEnumTx s
  | .heartbeatTx => Sys2Proof.Machine.execHeartbeatTx s
  | .takeover back => Sys2Proof.Machine.execTakeover back s
  | .cabSwitchover d ag v back => Sys2Proof.Machine.execCabSwitchover d ag v back s
  | .resetPkg d ag v b => Sys2Proof.Machine.execResetPkg d ag v b s
  | .commitPoint id others => Sys2Proof.Machine.execCommitPoint id others s
  | .responseTimeout unit seq => Sys2Proof.Machine.execResponseTimeout unit seq s
  | .hello ses req => Sys2Proof.Machine.execHello ses req s
  | .bootStatus ses req => Sys2Proof.Machine.execBootStatus ses req s
  | .regRead ses req a unit count => Sys2Proof.Machine.execRegRead ses req a unit count s
  | .regWrite ses req a unit words => Sys2Proof.Machine.execRegWrite ses req a unit words s
  | .jobCreate ses req job roster k v d p fields pg md appt => Sys2Proof.Machine.execJobCreate ses req job roster k v d p fields pg md appt s
  | .rosterChange ses req job roster addrs appt => Sys2Proof.Machine.execRosterChange ses req job roster addrs appt s
  | .policySet ses req job v d p appt => Sys2Proof.Machine.execPolicySet ses req job v d p appt s
  | .jobDelete ses req job appt => Sys2Proof.Machine.execJobDelete ses req job appt s
  | .imageLoad ses req job x b place => Sys2Proof.Machine.execImageLoad ses req job x b place s
  | .freeze ses req units dies t release => Sys2Proof.Machine.execFreeze ses req units dies t release s
  | .scanExport ses req tier job lo hi ports rate => Sys2Proof.Machine.execScanExport ses req tier job lo hi ports rate s
  | .correlate ses req field lo hi threshold => Sys2Proof.Machine.execCorrelate ses req field lo hi threshold s
  | .obsClear ses req job unit => Sys2Proof.Machine.execObsClear ses req job unit s
  | .retire ses req tile => Sys2Proof.Machine.execRetire ses req tile s
  | .keyInstall ses req kind epoch record appt => Sys2Proof.Machine.execKeyInstall ses req kind epoch record appt s
  | .journalGet ses req id reqId => Sys2Proof.Machine.execJournalGet ses req id reqId s
  | .journalList ses req st fromId count => Sys2Proof.Machine.execJournalList ses req st fromId count s
  | .verdictsGet ses req job lo hi => Sys2Proof.Machine.execVerdictsGet ses req job lo hi s
  | .summaryGet ses req job lo hi => Sys2Proof.Machine.execSummaryGet ses req job lo hi s
  | .energyGet ses req job lo hi => Sys2Proof.Machine.execEnergyGet ses req job lo hi s
  | .bureauRead ses req fromSeq => Sys2Proof.Machine.execBureauRead ses req fromSeq s
  | .subscribe ses req journal bureau => Sys2Proof.Machine.execSubscribe ses req journal bureau s
  | .imageWrite ses req version ok cfg => Sys2Proof.Machine.execImageWrite ses req version ok cfg s
  | .switchover ses req back => Sys2Proof.Machine.execSwitchover ses req back s
  | .reset ses req kind b => Sys2Proof.Machine.execReset ses req kind b s
  | .tstModeWrite d ag v => Sys2Proof.Machine.execTstModeWrite d ag v s
  | .inject d ag => Sys2Proof.Machine.execInject d ag s
  | .clear d ag => Sys2Proof.Machine.execClear d ag s
  | .halfFail d m half => Sys2Proof.Machine.execHalfFail d m half s
  | .eventLaneCount lanes evCycles cause => Sys2Proof.Machine.execEventLaneCount lanes evCycles cause s
  | .checkerLocked d kind index lane => Sys2Proof.Machine.execCheckerLocked d kind index lane s
  | .lockLost d kind index lane errs => Sys2Proof.Machine.execLockLost d kind index lane errs s
  | .traceLineWrite pg packets => Sys2Proof.Machine.execTraceLineWrite pg packets s
  | .ttExchangeRx port pos am => Sys2Proof.Machine.execTtExchangeRx port pos am s
  | .vrAlertDeassert k => Sys2Proof.Machine.execVrAlertDeassert k s
  | .boardThrottleDeassert k => Sys2Proof.Machine.execBoardThrottleDeassert k s
  | .laneAlignment port up deskew => Sys2Proof.Machine.execLaneAlignment port up deskew s
  | .trackerMissLimit src => Sys2Proof.Machine.execTrackerMissLimit src s
  | .partitionRecoveryDone job => Sys2Proof.Machine.execPartitionRecoveryDone job s
  | .tlyTestMode => Sys2Proof.Machine.execTlyTestMode s

end Sys2Proof.Machine
end

