-- ==== Sys2Proof/Machine/Idle.lean ====
section
/-!
DEFINITION. Sys2Proof/Machine/Idle.lean: the passing of time. With no command waiting, a step is 4 ns of both timebases: one tick
of the Tally's tb_clk and two of the Hub's (R57).
-/
namespace Sys2Proof.Machine

/-- 4 ns pass (log entry 8). -/
def idle (s : State) : State :=
  { s with tally := { s.tally with lcs := s.tally.lcs.tick }, hub := { s.hub with lcs := s.hub.lcs.tick.tick } }

end Sys2Proof.Machine
end

