-- ==== Sys2Proof/Safety.lean ====
section
/-!
DEFINITION. Sys2Proof/Safety.lean: what counts as a safe run: every step answers a next state. The block has no fault, and a
refusal stands only for a command without a meaning. Beside it the terms the statements are made in: the invariants, and what an
operation leaves unchanged.
-/
namespace Sys2Proof.Machine

/-- The step at this state answers a next state. -/
def StepsOn (s : State) : Prop := ∃ t, step s = .next t

/-- Every register field has one home in the register store: no field is listed twice. -/
def RegsOne (c : Cells) : Prop := (c.map (fun x => x.1)).Nodup

/-- The SRAM of every listed tile is in canonical form. -/
def SramsOk (l : List (Nat × Tile)) : Prop := ∀ x ∈ l, Memory.wf x.2.sram = true

/-- R480: the journal IDs of the entries are made of the boot counter and of distinct counts, newest first, each from 1 and below the
next count. -/
def JournalIds (c : Cabinet) : Prop :=
  1 ≤ c.nextId ∧ ∃ ns : List Nat, c.journal.map (fun e => e.id) = ns.map (journalId c.boots) ∧ ns.Pairwise (fun a b => b < a) ∧
    ∀ n ∈ ns, 1 ≤ n ∧ n < c.nextId

/-- From s to t only register fields whose key satisfies `p` may change. -/
def OnlyFields (s t : State) (p : RegKey → Prop) : Prop := ∀ k, ¬ p k → t.cell k = s.cell k

/-- From s to t nothing beside the register fields changes. -/
def OnlyRegs (s t : State) : Prop :=
  t.cfg = s.cfg ∧ t.tally = s.tally ∧ t.hub = s.hub ∧ t.out = s.out ∧ t.trace = s.trace ∧ t.freeCtr = s.freeCtr ∧ t.pending = s.pending

/-- The fields recording a syndrome on a page can write: BLK_SYNDROME, BLK_SYNDROME_INFO and the SYN cause of the page; counters and the drop
cause of its BUR page (R21, R436, R439, R443). -/
def SynFields (pg : Page) (k : RegKey) : Prop :=
  (k.pg = pg ∧ (k.off = 0x018 ∨ k.off = 0x01C ∨ (k.off = 0x010 ∧ k.lo = 0))) ∨
  (k.pg = burPage pg ∧ (k.off = 0x0E0 ∨ k.off = 0x098 ∨ k.off = 0x010))

/-- The fields raising a cause of a page can write: its bit; counters and the drop cause of its BUR page (R18, R436, R439). -/
def RaiseFields (pg : Page) (n : Nat) (k : RegKey) : Prop :=
  (k.pg = pg ∧ k.off = 0x010 ∧ k.lo = n) ∨ (k.pg = burPage pg ∧ (k.off = 0x0E0 ∨ k.off = 0x098 ∨ k.off = 0x010))

/-- What posting an entry leaves unchanged beside registers: only the entries awaiting the Bureau can grow. -/
def PostFrame (s t : State) : Prop :=
  t.cfg = s.cfg ∧ t.out = s.out ∧ t.trace = s.trace ∧ t.freeCtr = s.freeCtr ∧ t.pending = s.pending ∧
  t.tally = { s.tally with burPend := t.tally.burPend } ∧ t.hub = { s.hub with intake := t.hub.intake }

/-- R231, R238: the command c makes the effect f of the descriptor that executes on queue q of tile t where it is of its operation and VOP: one
without work completes with status 0 and has none; the descriptor then stands done with its code and progress. -/
def RunsDescriptor (c : Instr) (t q op vop : Nat) (f : State → TDesc → State × Nat × Nat × Bool) : Prop :=
  ∀ (s : State) (d : TDesc), runningDesc s t q op vop = some d →
    (zeroWork d = true → exec c s = .next (finishDesc s t q 0 0 false)) ∧
    (zeroWork d = false → exec c s = .next (finishDesc (f s d).1 t q (f s d).2.1 (f s d).2.2.1 (f s d).2.2.2))

/-- R184: a field state as it can stand: counts within 32 bits, the histogram's buckets ascending, each count within 32 bits. -/
def FStateOk (x : FState) : Prop :=
  x.count ≤ 0xFFFFFFFF ∧ x.sat ≤ 0xFFFFFFFF ∧ x.under ≤ 0xFFFFFFFF ∧ x.above ≤ 0xFFFFFFFF ∧
  x.hist.Pairwise (fun a b => a.1 < b.1) ∧ ∀ e ∈ x.hist, e.2 ≤ 0xFFFFFFFF

/-- R477, R478: a journalled operation of an operator's session `ses` whose REQ_ID is not a repetition finds room in the journal: `v` is the state
with its entry `id` ACCEPTED and the REPLY sent. -/
def Accepts (s : State) (ses op req job : Nat) (v : State) (id : Nat) : Prop :=
  ∃ x : Session, findSession s ses = some x ∧ x.operator = true ∧ x.anon = false ∧
    repeated (modSession s ses (fun x => { x with last := s.now .hub })) x req = none ∧ s.hub.cabinet.journal.length < 65536 ∧
    id = journalId s.hub.cabinet.boots s.hub.cabinet.nextId ∧
    v = replyTo (enterJournal (modSession s ses (fun x => { x with last := s.now .hub })) op job req x.cert x.id).1 x.id op req 0 (.journalId id)

end Sys2Proof.Machine
end

