-- ==== Sys2Proof/Certificates/Slice0/Obligations.lean ====
section
/-!
DEFINITION. Sys2Proof/Certificates/Slice0/Obligations.lean: the statements for the provers. A clause about a command says the next state
`exec` answers, written with the shared operations, whose own effect the statements FieldWriteChangesOneField, SyndromeRecording,
CausesAndEntries give: so a clause states the result and the frame at once. Log entries are named where a clause rests on
a choice of the model.
-/
section
open Sys2Proof Sys2Proof.Machine Sys2Proof.Machine.Reg

/-! ### The machine -/

/-- The block's step: the command at the front of the queue is executed with the queue's rest; with an empty queue (log entry 8: the model's choice) a
step is 4 ns of both timebases, one tick of the Tally and two of the Hub, and nothing else. -/
def Obligations.FrontCommandIsExecuted : Prop :=
  (∀ (c : Instr) (rest : List Instr) (s : State), step { s with pending := c :: rest } = exec c { s with pending := rest }) ∧
  (∀ s : State, s.pending = [] → step s = .next { s with
    tally := { s.tally with lcs := s.tally.lcs.tick }, hub := { s.hub with lcs := s.hub.lcs.tick.tick } })

/-- Every command on every state answers a next state and leaves the queue as it finds it: commands run first in, first out, and none is
refused. -/
def Obligations.EveryCommandCompletesAndKeepsTheQueue : Prop :=
  ∀ (c : Instr) (s : State), ∃ t, exec c s = .next t ∧ t.pending = s.pending

/-- R57: the Longcase counts nanoseconds with a 32-bit binary fraction; a tick adds the live increment to it and leaves the increment; the nominal
increments are 4 ns on a Tally and 2 ns on a Hub. -/
def Obligations.TimebaseTickAddsIncrement : Prop :=
  (∀ l : Longcase, l.tick.ns * 2 ^ 32 + l.tick.frac = l.ns * 2 ^ 32 + l.frac + l.incr ∧ l.tick.frac < 2 ^ 32 ∧ l.tick.incr = l.incr) ∧
  nominal .tally = 4 * 2 ^ 32 ∧ nominal .hub = 2 * 2 ^ 32

/-- No step makes a register field be listed twice. -/
def Obligations.StepKeepsOneHomePerField : Prop :=
  ∀ s t : State, step s = .next t → RegsOne s.regs → RegsOne t.regs

/-- R480: the journal's IDs stay those of the boot counter with distinct ascending counts, whatever step is taken. -/
def Obligations.StepKeepsJournalIds : Prop :=
  ∀ s t : State, step s = .next t → JournalIds s.hub.cabinet → JournalIds t.hub.cabinet

/-- The HBM and every tile's SRAM keep their canonical form, whatever step is taken. -/
def Obligations.StepKeepsMemoriesCanonical : Prop :=
  ∀ s t : State, step s = .next t → Memory.wf s.hub.hbm = true ∧ SramsOk s.hub.tiles → Memory.wf t.hub.hbm = true ∧ SramsOk t.hub.tiles

/-- The state after reset meets the three invariants. -/
def Obligations.ResetMeetsTheInvariants : Prop :=
  RegsOne State.reset.regs ∧ JournalIds State.reset.hub.cabinet ∧ Memory.wf State.reset.hub.hbm = true ∧ SramsOk State.reset.hub.tiles

/-! ### The shared operations -/

/-- A write of a register field changes that field, to the value modulo its width, and nothing else. -/
def Obligations.FieldWriteChangesOneField : Prop :=
  ∀ (s : State) (pg : Page) (f : Fld) (v i : Nat),
    (s.wr pg f v i).rd pg f i = v % 2 ^ f.w ∧ OnlyFields s (s.wr pg f v i) (fun k => k = f.key pg i) ∧ OnlyRegs s (s.wr pg f v i)

/-- R21: recording a syndrome writes CODE and BLK_SYNDROME_INFO, increments COUNT up to 0xFFFF and sets the SYN cause; beside them only the
die's counters and an entry for its Bureau can follow (R436). -/
def Obligations.SyndromeRecording : Prop :=
  ∀ (s : State) (pg : Page) (code : Nat) (ag : Agent) (st : Bool) (off detail : Nat),
    let t := syn s pg code ag st off detail
    t.rd pg BLK_SYNDROME_CODE = code % 2 ^ 8 ∧ t.rd pg BLK_SYNDROME_COUNT = min (s.rd pg BLK_SYNDROME_COUNT + 1) 0xFFFF ∧
    t.rd pg BLK_SYNDROME_INFO_OFFSET = off % 2 ^ 12 ∧ t.rd pg BLK_SYNDROME_INFO_AGENT = ag.code % 4 ∧
    t.rd pg BLK_SYNDROME_INFO_STAGED = b2n st ∧ t.rd pg BLK_SYNDROME_INFO_DETAIL = detail % 2 ^ 16 ∧
    t.rd pg (BLK_IRQ_STAT Irq.SYN) = 1 ∧ OnlyFields s t (SynFields pg) ∧ PostFrame s t

/-- R18: raising a cause sets its bit in BLK_IRQ_STAT whatever BLK_IRQ_EN holds; beside it only the die's counters and an entry for its Bureau can
follow (R436). R433, R439: a posted entry awaits the Tally's store, or stands in the die's intake; an intake of a die other than XD0 that holds 64
drops it and counts it under its severity. -/
def Obligations.CausesAndEntries : Prop :=
  (∀ (s : State) (pg : Page) (n : Nat) (e : EvInfo), pg ≠ burPage pg ∨ pageBlk s.cfg pg = some .bur →
      (raise s pg n e).rd pg (BLK_IRQ_STAT n) = 1 ∧ OnlyFields s (raise s pg n e) (RaiseFields pg n) ∧ PostFrame s (raise s pg n e)) ∧
  ((∀ (s : State) (p code sev : Nat) (fw host : Bool) (pl : List Nat),
      (post s (.tally p) code sev fw host pl).tally.burPend = s.tally.burPend ++ [mkEntry s (.tally p) code sev fw host pl]) ∧
    (∀ (s : State) (d p code sev : Nat) (fw host : Bool) (pl : List Nat), d = xd0 ∨ intakeCount s d < 64 →
      (post s (.hub d p) code sev fw host pl).hub.intake = s.hub.intake ++ [(d, mkEntry s (.hub d p) code sev fw host pl)]) ∧
    (∀ (s : State) (d p code sev : Nat) (fw host : Bool) (pl : List Nat), d ≠ xd0 → 64 ≤ intakeCount s d →
      (post s (.hub d p) code sev fw host pl).hub.intake = s.hub.intake ∧
      (post s (.hub d p) code sev fw host pl).rd (Pg.hBur d) BUR_CNT_DROPPED sev = min (s.rd (Pg.hBur d) BUR_CNT_DROPPED sev + 1) (2 ^ BUR_CNT_DROPPED.w - 1)))

/-! ### The common page -/

/-- R16: an access to an unassigned page, or to an offset no register occupies, discards the write and is recorded as ABSENT, on the TLY page of a
Tally and on the active Cabinet's CAB page of a Hub. R12, R22: a write of a register of a page: a misaligned write changes nothing but the page's
syndrome, RANGE; the write of a register that keeps what is written takes its fields, or is refused and leaves the register. -/
def Obligations.RegisterAccesses : Prop :=
  (∀ (s : State) (a : RegAddr) (ag : Agent) (v : Word),
      (pageBlk s.cfg (addrPage a) = none →
        exec (.registerWrite a ag v) s = .next (syn s (absentPage s (addrPage a).part) Syn.ABSENT ag (decide (0x840 ≤ addrOff a)) (addrOff a))) ∧
      (∀ b, pageBlk s.cfg (addrPage a) = some b → addrOff a % 4 = 0 → 0x030 ≤ addrOff a → addrOff a < 0x840 →
        findReg s.cfg b (addrPage a) (addrOff a) = none →
        exec (.registerWrite a ag v) s = .next (syn s (absentPage s (addrPage a).part) Syn.ABSENT ag false (addrOff a))) ∧
      (∀ b, pageBlk s.cfg (addrPage a) = some b → addrOff a % 4 = 0 → 0x840 ≤ addrOff a →
        (∀ r, findReg s.cfg b (addrPage a) (addrOff a - 0x800) = some r → r.ty ≠ .rwa) →
        exec (.registerWrite a ag v) s = .next (syn s (absentPage s (addrPage a).part) Syn.ABSENT ag true (addrOff a))) ∧
      absentPage s .tally = Pg.tly ∧
      (s.rd (Pg.cab 56) CAB_STATE_ROLE = 1 → absentPage s .hub = Pg.cab 56) ∧
      (s.rd (Pg.cab 56) CAB_STATE_ROLE ≠ 1 → s.rd (Pg.cab 57) CAB_STATE_ROLE = 1 → absentPage s .hub = Pg.cab 57)) ∧
  (∀ (s : State) (a : RegAddr) (ag : Agent) (v : Word) (b : Blk), pageBlk s.cfg (addrPage a) = some b →
      (addrOff a % 4 ≠ 0 → exec (.registerWrite a ag v) s = .next (syn s (addrPage a) Syn.RANGE ag false (addrOff a))) ∧
      (∀ r, addrOff a % 4 = 0 → 0x030 ≤ addrOff a → addrOff a < 0x840 → findReg s.cfg b (addrPage a) (addrOff a) = some r →
        actWrite s b (addrPage a) (addrOff a) ag v.toNat = none → r.ty ≠ .ro →
        exec (.registerWrite a ag v) s = .next (keepWrite s b (addrPage a) r false ag v.toNat)) ∧
      (∀ r, addrOff a % 4 = 0 → 0x840 ≤ addrOff a → findReg s.cfg b (addrPage a) (addrOff a - 0x800) = some r → r.ty = .rwa →
        exec (.registerWrite a ag v) s = .next (keepWrite s b (addrPage a) r true ag v.toNat)) ∧
      (∀ (pg : Page) (r : RegS) (st : Bool) (w : Nat), keepRefusal s b pg r st ag w ≠ 0 →
        keepWrite s b pg r st ag w = syn s pg (keepRefusal s b pg r st ag w) ag st (r.off + if st then 0x800 else 0)) ∧
      (∀ (pg : Page) (r : RegS) (st : Bool) (w : Nat), keepRefusal s b pg r st ag w = 0 →
        keepWrite s b pg r st ag w = keptHook s (r.flds.foldl (fun u f => keepField u pg (bankIdx s b pg r.off ag) st (r.ty == .rwa && !st)
          (reservedOut s.cfg b pg r.off w) f) s) b pg r st))

/-- R24: while STATE is ARMED, writes of the appointment time, of every staged copy and at the live offset of an RWA register are refused and
change nothing but the syndrome: with STATE where the agent may write there at all. -/
def Obligations.ArmedPageRefusesWrites : Prop :=
  ∀ (s : State) (a : RegAddr) (ag : Agent) (v : Word) (b : Blk), pageBlk s.cfg (addrPage a) = some b →
    isArmed s (addrPage a) = true → addrOff a % 4 = 0 →
    (addrOff a = 0x020 ∨ addrOff a = 0x024 ∨ addrOff a = 0x028 →
      ∃ code, exec (.registerWrite a ag v) s = .next (syn s (addrPage a) code ag false (addrOff a)) ∧
        ((cabinetOnly b (addrPage a) (addrOff a) = false ∨ ag = .cabinet) → apptAuth b ag = true → code = Syn.STATE)) ∧
    (∀ r, 0x840 ≤ addrOff a → findReg s.cfg b (addrPage a) (addrOff a - 0x800) = some r → r.ty = .rwa →
      ∃ code, exec (.registerWrite a ag v) s = .next (syn s (addrPage a) code ag true (r.off + 0x800)) ∧
        (accessCheck s b (addrPage a) r.off ag = 0 → code = Syn.STATE)) ∧
    (∀ r, 0x030 ≤ addrOff a → addrOff a < 0x840 → findReg s.cfg b (addrPage a) (addrOff a) = some r → r.ty = .rwa →
      ∃ code, exec (.registerWrite a ag v) s = .next (syn s (addrPage a) code ag false r.off) ∧
        (accessCheck s b (addrPage a) r.off ag = 0 → code = Syn.STATE))

/-- R18: SYN_CLR clears BLK_SYNDROME and BLK_SYNDROME_INFO of the page and changes nothing else. R20, R67: a soft reset that no rule refuses returns
every register of the page to its reset value, staged copies included, and changes no other page: said for the pages whose chapter keeps nothing and
adds nothing; the other pages are reset as their chapters say, the Longcase by its own reset. A refused one changes nothing but the syndrome. -/
def Obligations.SyndromeClearAndSoftReset : Prop :=
  (∀ (s : State) (pg : Page) (ag : Agent) (b : Blk), pageBlk s.cfg pg = some b → cabinetOnly b pg 0x008 = false ∨ ag = .cabinet →
      ∃ t, exec (.synClr pg ag) s = .next t ∧ t.rd pg BLK_SYNDROME_CODE = 0 ∧ t.rd pg BLK_SYNDROME_COUNT = 0 ∧
        t.rd pg BLK_SYNDROME_INFO_OFFSET = 0 ∧ t.rd pg BLK_SYNDROME_INFO_AGENT = 0 ∧ t.rd pg BLK_SYNDROME_INFO_STAGED = 0 ∧
        t.rd pg BLK_SYNDROME_INFO_DETAIL = 0 ∧ OnlyFields s t (fun k => k.pg = pg ∧ (k.off = 0x018 ∨ k.off = 0x01C)) ∧ OnlyRegs s t) ∧
  ((∀ (s : State) (pg : Page) (ag : Agent) (b : Blk), pageBlk s.cfg pg = some b →
      b ∈ [Blk.hot, .stp, .nrg, .pwrT, .cap, .seal, .dgs, .mem, .gsi] → srstRefusal s b pg ag = 0 →
      ∃ t, exec (.softReset pg ag) s = .next t ∧ (∀ k : RegKey, k.pg = pg → t.cell k = resetVal s.cfg k) ∧
        OnlyFields s t (fun k => k.pg = pg) ∧ t.out = s.out ∧ t.hub.hbm = s.hub.hbm ∧ t.hub.tiles = s.hub.tiles ∧ t.hub.cabinet = s.hub.cabinet ∧
        (∀ p, t.lcs p = s.lcs p)) ∧
    (∀ (s : State) (pg : Page) (ag : Agent) (b : Blk), pageBlk s.cfg pg = some b → srstRefusal s b pg ag = 0 →
      exec (.softReset pg ag) s = .next (if pg.isTally then (if b = .trc then dropTrc s pg else tallySoftReset s b pg) else hubSoftReset s b pg)) ∧
    (∀ (s : State) (pg : Page) (ag : Agent) (b : Blk), pageBlk s.cfg pg = some b → srstRefusal s b pg ag ≠ 0 →
      exec (.softReset pg ag) s = .next (syn s pg (srstRefusal s b pg ag) ag false 0x008)))

/-- R23, R61, R507: the transitions of an appointment at ARM and CANCEL. R23: at the first tick at or after the appointment time the page's
appointment is applied: every staged copy becomes the live value, the other fields of every page stay, STATE is APPLIED, APPLIED_CNT counts and
APPT_APPLIED is set; then the page acts on its new values. On a Tally and on a FRZ page the due pages go in the order of R102 and R26. -/
def Obligations.AppointmentTransitions : Prop :=
  (∀ (s : State) (pg : Page) (ag : Agent) (b : Blk), pageBlk s.cfg pg = some b →
      (apptAccess s pg b ag ≠ 0 →
        exec (.apptArm pg ag) s = .next (syn s pg (apptAccess s pg b ag) ag false 0x02C) ∧
        exec (.apptCancel pg ag) s = .next (syn s pg (apptAccess s pg b ag) ag false 0x02C)) ∧
      (apptAccess s pg b ag = 0 → isArmed s pg = true →
        exec (.apptArm pg ag) s = .next (syn s pg Syn.STATE ag false 0x02C) ∧
        exec (.apptCancel pg ag) s = .next (s.wr pg BLK_APPT_CTRL_STATE Appt.IDLE)) ∧
      (apptAccess s pg b ag = 0 → isArmed s pg = false →
        exec (.apptCancel pg ag) s = .next (syn s pg Syn.STATE ag false 0x02C) ∧
        (s.isUnset pg.part = true → exec (.apptArm pg ag) s = .next (apptRefuse s pg Syn.STATE ag)) ∧
        (s.isUnset pg.part = false → apptTime s pg ≤ s.now pg.part → exec (.apptArm pg ag) s = .next (apptRefuse s pg Syn.LATE ag)) ∧
        (s.isUnset pg.part = false → s.now pg.part < apptTime s pg → armCheck s pg b ≠ 0 →
          exec (.apptArm pg ag) s = .next (apptRefuse s pg (armCheck s pg b) ag)) ∧
        (s.isUnset pg.part = false → s.now pg.part < apptTime s pg → armCheck s pg b = 0 →
          exec (.apptArm pg ag) s = .next (s.wr pg BLK_APPT_CTRL_STATE Appt.ARMED)))) ∧
  ((∀ (s : State) (pg : Page) (b : Blk), pageBlk s.cfg pg = some b → pg.isTally = false → b ≠ .frz → apptDue s pg = true →
      exec (.apptApply pg) s = .next (appliedHook s (raise (((copyStaged s pg b).wr pg BLK_APPT_CTRL_STATE Appt.APPLIED).incr pg
        BLK_APPT_CTRL_APPLIED_CNT) pg Irq.APPT_APPLIED) pg b)) ∧
    (∀ (s : State) (pg : Page), pageBlk s.cfg pg = some .frz → pg.isTally = false → apptDue s pg = true →
      exec (.apptApply pg) s = .next (applyPage ((dueOfUnit s pg).foldl applyPage s) pg)) ∧
    (∀ (s : State) (p : Nat), apptDue s (.tally p) = true → exec (.apptApply (.tally p)) s = .next (tallyInstant s)) ∧
    (∀ (s : State) (pg : Page) (b : Blk) (off i lo : Nat), isRwa b off = true →
      (copyStaged s pg b).cell ⟨pg, off, i, lo⟩ = s.cell ⟨pg, off + 0x800, i, lo⟩) ∧
    (∀ (s : State) (pg : Page) (b : Blk), OnlyFields s (copyStaged s pg b) (fun k => k.pg = pg ∧ isRwa b k.off = true) ∧
      OnlyRegs s (copyStaged s pg b)))


/-! ### The Longcase -/

/-- R67, R59: a Longcase reset is the soft reset of the LCS page of the Tally and of XD0; every other page of the unit whose appointment reads
ARMED moves to REFUSED with STATE and keeps its other registers; the Longcase counts from 0, UNSET, and the time generation rises by 1;
a follower page refuses it with STATE. Power-on resets the Tally's Longcase too. -/
def Obligations.LongcaseResetRefusesArmedPages : Prop :=
  (∀ (s : State) (p : Part) (ag : Agent),
    exec (.longcaseReset p ag) s = .next (longcaseReset s p) ∧
    (let t := longcaseReset s p
     t.isUnset p = true ∧ t.now p = 0 ∧ (t.lcs p).incr = nominal p ∧ tgen t p = (tgen s p + 1) % 2 ^ 16 ∧
     (∀ pg ∈ armedPages s p, pg ≠ lcsPage p → t.rd pg BLK_APPT_CTRL_STATE = Appt.REFUSED ∧ t.rd pg BLK_SYNDROME_CODE = Syn.STATE) ∧
     OnlyFields s t (fun k => k.pg = lcsPage p ∨ (k.pg ∈ armedPages s p ∧ k.off < 0x030) ∨
       (∃ pg ∈ armedPages s p, k.pg = burPage pg ∧ (k.off = 0x0E0 ∨ k.off = 0x098 ∨ k.off = 0x010))))) ∧
  (∀ (s : State) (p : Part) (ag : Agent), pageBlk s.cfg (lcsPage p) = some .lcs → srstRefusal s .lcs (lcsPage p) ag = 0 →
    exec (.softReset (lcsPage p) ag) s = exec (.longcaseReset p ag) s) ∧
  (∀ (s : State) (d : Nat) (ag : Agent), pageBlk s.cfg (Pg.hLcs d) = some .lcs → d ≠ xd0 →
    exec (.softReset (Pg.hLcs d) ag) s = .next (syn s (Pg.hLcs d) Syn.STATE ag false 0x008)) ∧
  (∀ s : State, ∃ t, exec .tallyPor s = .next t ∧ t.lcs .tally = Longcase.reset .tally)

/-- R62, R92: the step. While UNSET with AUTO_STEP = 0 a write of STEP loads the written time; while UNSET with AUTO_STEP = 1 the first
measurement loads the time that makes its offset zero; the integral and the fraction are cleared and the state is ACQUIRE; every other
STEP is refused with STATE. -/
def Obligations.LongcaseStepsOnce : Prop :=
  (∀ (s : State) (p : Part) (ag : Agent), s.isUnset p = true → s.rd (lcsPage p) LCS_CTRL_AUTO_STEP = 0 →
    exec (.lcsStep p ag) s = .next (stepTo s p ((s.rd (lcsPage p) LCS_STEP_SHI * 2 ^ 32 + s.rd (lcsPage p) LCS_STEP_SLO) * 1000000000 +
      s.rd (lcsPage p) LCS_STEP_NS))) ∧
  (∀ (s : State) (p : Part) (ag : Agent), ¬ (s.isUnset p = true ∧ s.rd (lcsPage p) LCS_CTRL_AUTO_STEP = 0) →
    exec (.lcsStep p ag) s = .next (syn s (lcsPage p) Syn.STATE ag false 0x06C)) ∧
  (∀ (s : State) (p : Part) (ns : Nat), 
    let t := stepTo s p ns
    t.now p = ns ∧ (t.lcs p).frac = 0 ∧ (t.lcs p).integ = 0 ∧ (t.lcs p).servo = .acquire ∧ t.rd (lcsPage p) LCS_STATUS_STEP_DONE = 1 ∧
    OnlyFields s t (fun k => k = LCS_STATUS_STEP_DONE.key (lcsPage p) 0 ∨ RaiseFields (lcsPage p) Irq.LCS_STEPPED k)) ∧
  (∀ (s : State) (p : Part) (e : Int) (u v : Nat), s.isUnset p = true → s.rd (lcsPage p) LCS_CTRL_AUTO_STEP = 1 →
    (measure s p e u v).now p = (((s.lcs p).ps - e) / 1000).toNat ∧ ((measure s p e u v).lcs p).servo = .acquire) ∧
  (∀ (s : State) (p : Part) (e : Int) (u v : Nat), s.isUnset p = true → s.rd (lcsPage p) LCS_CTRL_AUTO_STEP = 0 →
    measure s p e u v = (s.wr (lcsPage p) LCS_OFFSET (offsetWord (some e))).setLcs p { s.lcs p with miss := 0 })

/-- R65: one run of the servo: the increment from the error, the gains and the interval; freq_ppb and rate_ppb stay within 500,000 ppb and the
proportional term within SLEW_MAX. R59, R91, R92: CLR_CNT, LCS_GEN and the capture of LCS_NOW. -/
def Obligations.ServoBoundsAndRegisters : Prop :=
  ((∀ (integ e : Int) (ki kp sl u v : Nat), 
      let r := servoCalc integ e ki kp sl u v
      r.freq ≤ 500000 ∧ -500000 ≤ r.freq ∧ r.rate ≤ 500000 ∧ -500000 ≤ r.rate ∧ (r.rate + r.freq).natAbs ≤ sl * 1000) ∧
    (∀ (integ e : Int) (ki kp sl : Nat), 
      let r := servoCalc integ e ki kp sl 1 1
      sra (integ + e) ki < 500000 → -500000 < sra (integ + e) ki → sra e kp < sl * 1000 → -(sl * 1000 : Int) < sra e kp →
      r.integ = integ + e ∧ r.freq = sra (integ + e) ki ∧ r.slew = false ∧
      r.rate = clamp (-500000) 500000 (-(sra (integ + e) ki + sra e kp))) ∧
    (∀ (s : State) (p : Part) (e : Int) (u v : Nat), s.isUnset p = false →
      measure s p e u v =
        (let r := servoCalc (s.lcs p).integ e (s.rd (lcsPage p) LCS_SERVO_KI_SHIFT) (s.rd (lcsPage p) LCS_SERVO_KP_SHIFT)
          (s.rd (lcsPage p) LCS_SERVO_SLEW_MAX) u v
         servoStates (setRate ((s.wr (lcsPage p) LCS_OFFSET (offsetWord (some e))).setLcs p
          { s.lcs p with miss := 0, integ := r.integ, freq := r.freq, slew := r.slew }) p r.rate) p e))) ∧
  ((∀ (s : State) (ag : Agent), exec (.clrCnt .tally ag) s = .next ((s.wr Pg.tLcs LCS_TB_STAT_MISSED 0).wr Pg.tLcs LCS_TB_STAT_BAD_ANN 0)) ∧
    (∀ (s : State) (ag : Agent), exec (.clrCnt .hub ag) s = .next (s.wr Pg.xLcs LCS_SRC_STAT_SWITCHES 0)) ∧
    (∀ (s : State) (p : Part) (ag : Agent) (gen : BitVec 16), s.isUnset p = true → s.rd (lcsPage p) LCS_GEN_LOADED = 0 →
      exec (.lcsGenWrite p ag gen) s = .next ((s.wr (lcsPage p) LCS_GEN_GEN gen.toNat).wr (lcsPage p) LCS_GEN_LOADED 1)) ∧
    (∀ (s : State) (p : Part) (ag : Agent) (gen : BitVec 16), ¬ (s.isUnset p = true ∧ s.rd (lcsPage p) LCS_GEN_LOADED = 0) →
      exec (.lcsGenWrite p ag gen) s = .next (syn s (lcsPage p) Syn.STATE ag false 0x054)) ∧
    (∀ (s : State) (pg : Page), pageBlk s.cfg pg = some .lcs →
      ∃ t, exec (.lcsNowRead pg) s = .next t ∧ t.rd pg LCS_NOW_NS = (s.lcs pg.part).ns % 1000000000 ∧
        t.rd pg LCS_NOW_SLO = (s.lcs pg.part).ns / 1000000000 % 2 ^ 32 ∧
        t.rd pg LCS_NOW_SHI = (s.lcs pg.part).ns / 1000000000 / 2 ^ 32 % 2 ^ 32 ∧ t.rd pg LCS_NOW_FRAC = (s.lcs pg.part).frac % 2 ^ 32 ∧
        OnlyFields s t (fun k => k.pg = pg ∧ (k.off = 0x040 ∨ k.off = 0x044 ∨ k.off = 0x048 ∨ k.off = 0x04C)) ∧ OnlyRegs s t) ∧
    (∀ (s : State) (pg : Page), pageBlk s.cfg pg ≠ some .lcs →
      exec (.lcsNowRead pg) s = .next (syn s (absentPage s pg.part) Syn.ABSENT .block false 0x040)))

/-- R76, R77: the Tally time bus. An announcement counts only if it keeps R76; a pulse whose valid announcement stands 10 µs or more is a
measurement of 1 ms; a pulse without one counts in BAD_ANN and as a missing measurement; a pulse missing for 1 ms + 2 µs counts in MISSED and
raises PULSE_MISS. tb_status is copied at every pulse. -/
def Obligations.TimeBusPulses : Prop :=
  (∀ (s : State) (sec : BitVec 64) (ns : Word) (beats : Nat) (c : Bool), ∃ ok,
    exec (.tbAnnouncement sec ns beats c) s =
      .next { s with tally := { s.tally with ann := some ⟨sec.toNat * 1000000000 + ns.toNat, ok, s.now .tally⟩ } } ∧
    (ok = true ↔ beats = 3 ∧ c = true ∧ ns.toNat % 1000000 = 0 ∧ ns.toNat ≤ 999000000 ∧
      ∀ t, s.tally.pulseAt = some t → 40 ≤ s.now .tally - t)) ∧
  (∀ (s : State) (status : BitVec 2), 
    let u := { s.wr Pg.tLcs LCS_TB_STAT_HOST status.toNat with
        tally := { s.tally with ann := none, pulseAt := some (s.now .tally) } }
    (∀ a, s.tally.ann = some a → a.ok = true → 10000 ≤ s.now .tally - a.at_ →
      exec (.tbPulse status) s = .next (measure (u.wr Pg.tLcs LCS_STATUS_SOURCE 1) .tally (pulseError u a.time) 1 1)) ∧
    ((∀ a, s.tally.ann = some a → ¬ (a.ok = true ∧ 10000 ≤ s.now .tally - a.at_)) →
      exec (.tbPulse status) s = .next ((u.bump Pg.tLcs LCS_TB_STAT_BAD_ANN).setLcs .tally { s.tally.lcs with miss := s.tally.lcs.miss + 1 }))) ∧
  (∀ (s : State) (t : Nat), s.tally.pulseAt = some t → 1002000 < s.now .tally - t →
    exec .pulseMiss s = .next (raise { (s.bump Pg.tLcs LCS_TB_STAT_MISSED) with
      tally := { s.tally with lcs := { s.tally.lcs with miss := s.tally.lcs.miss + 1 }, pulseAt := some (t + 1000000) } } Pg.tLcs
      Irq.LCS_PULSE_MISS)) ∧
  (∀ (s : State) (t : Nat), s.tally.pulseAt = some t → s.now .tally - t ≤ 1002000 → exec .pulseMiss s = .next s)

/-- R66: with more than MISS_LIMIT expected measurements missing, ACQUIRE and LOCKED become HOLDOVER and HOLD_IN is raised; the other states stay.
R60, R79, R87: the follower check, the end of a Tally's site time state, the end of TQ.SWITCHED. -/
def Obligations.HoldoverAndExpiry : Prop :=
  ((∀ s : State, s.rd Pg.tLcs LCS_SERVO_MISS_LIMIT < s.tally.lcs.miss → exec (.measurementMissLimit .tally) s = .next (enterHoldover s .tally)) ∧
    (∀ s : State, s.tally.lcs.miss ≤ s.rd Pg.tLcs LCS_SERVO_MISS_LIMIT → exec (.measurementMissLimit .tally) s = .next s) ∧
    (∀ s : State, (∀ src ∈ prioList s, src < 2 ∨ missedOut s src = true) → exec (.measurementMissLimit .hub) s = .next (enterHoldover s .hub)) ∧
    (∀ (s : State) (p : Part), (s.lcs p).servo = .acquire ∨ (s.lcs p).servo = .locked →
      let t := enterHoldover s p
      (t.lcs p).servo = .holdover ∧ (t.lcs p).ns = (s.lcs p).ns ∧
      (t.lcs p).incr = incrAt p (clamp (-500000) 500000 (-(s.lcs p).freq)) ∧ t.rd (lcsPage p) (BLK_IRQ_STAT Irq.LCS_HOLD_IN) = 1) ∧
    (∀ (s : State) (p : Part), (s.lcs p).servo = .unset ∨ (s.lcs p).servo = .holdover → enterHoldover s p = s)) ∧
  ((∀ (s : State) (die : Nat) (diff : Int), diePresent s.cfg die = true → die ≠ xd0 → 2 ≤ diff.natAbs →
      exec (.followerCheck die diff) s = .next (raise (syn s (Pg.hLcs die) Syn.STATE) (Pg.hLcs die) Irq.LCS_FOLLOWER)) ∧
    (∀ (s : State) (die : Nat) (diff : Int), diff.natAbs < 2 → exec (.followerCheck die diff) s = .next s) ∧
    (∀ (s : State) (i : Nat), i ∈ liveSlots s → 16 ≤ (getSlot s i).verdWins → exec .siteQualExpiry s = .next (s.wr Pg.tLcs LCS_SITE_QUAL 0)) ∧
    (∀ s : State, (∀ i ∈ liveSlots s, (getSlot s i).verdWins < 16) → exec .siteQualExpiry s = .next s) ∧
    (∀ (s : State) (t : Nat), s.hub.switchedAt = some t → t + 1000000000 ≤ s.hub.lcs.ns →
      exec .switchedExpiry s = .next { s with hub := { s.hub with switchedAt := none } }) ∧
    (∀ (s : State) (t : Nat), s.hub.switchedAt = some t → s.hub.lcs.ns < t + 1000000000 → exec .switchedExpiry s = .next s))

/-- R69, R71: the sources of a Hub. A source missing its measurements, or whose announce receipt timeout expires, becomes invalid, and if it was
selected the first valid source of the list follows; a higher source is selected once valid for STABLE_MS; a change between two sources counts,
starts TQ.SWITCHED and raises SRC_SWITCH; with no valid source the state becomes HOLDOVER. R61, R70, R73, R80–R86: PTP messages, the 1PPS edge and
time-transfer exchanges. The delay mechanism is the model's reading of IEEE 1588 (log entry 40). -/
def Obligations.HubTimeSources : Prop :=
  ((∀ (s : State) (src : Nat), 2 ≤ src → src ≤ 5 → (s.tracker src).valid = true → ¬ (src = 5 ∧ s.rd Pg.xLcs LCS_REACH_STAT_TRACKER = 2) →
      (s.tracker src).last + max 1 (s.rd Pg.xLcs LCS_SERVO_MISS_LIMIT) * (s.tracker src).interval < s.hub.lcs.ns →
      exec (.trackerMissLimit src) s = .next (trackerInvalid s src)) ∧
    (∀ (s : State) (dom : Nat), dom = s.rd Pg.xLcs LCS_SRC_CFG_DOM_A →
      exec (.announceTimeout dom) s = .next (trackerInvalid (setTracker s 2 { s.tracker 2 with annOut := true }) 2)) ∧
    (∀ (s : State) (dom : Nat), dom ≠ s.rd Pg.xLcs LCS_SRC_CFG_DOM_A → dom = s.rd Pg.xLcs LCS_SRC_CFG_DOM_B →
      exec (.announceTimeout dom) s = .next (trackerInvalid (setTracker s 3 { s.tracker 3 with annOut := true }) 3)) ∧
    (∀ (s : State) (dom : Nat), dom ≠ s.rd Pg.xLcs LCS_SRC_CFG_DOM_A → dom ≠ s.rd Pg.xLcs LCS_SRC_CFG_DOM_B → dom = s.rd Pg.xLcs LCS_ROLE_DOM_BOARD →
      exec (.announceTimeout dom) s = .next (trackerInvalid (setTracker s 4 { s.tracker 4 with annOut := true }) 4)) ∧
    (∀ (s : State) (src : Nat), 
      let u := setTracker s src { s.tracker src with valid := false, ofs := none }
      trackerInvalid s src = if u.rd Pg.xLcs LCS_STATUS_SOURCE = src then selectSource u (firstValid u) else u) ∧
    (∀ (s : State) (p : Nat), (higherSources s).head? = some p → 2 ≤ p → (s.tracker p).valid = true →
      (s.tracker p).since + s.rd Pg.xLcs LCS_HOLD_STABLE_MS * 1000000 ≤ s.hub.lcs.ns → exec .sourceStable s = .next (selectSource s p)) ∧
    (∀ (s : State) (src : Nat), s.rd Pg.xLcs LCS_STATUS_SOURCE = src → selectSource s src = s) ∧
    (∀ (s : State) (src : Nat), src ≠ 0 → s.rd Pg.xLcs LCS_STATUS_SOURCE ≠ 0 → s.rd Pg.xLcs LCS_STATUS_SOURCE ≠ src →
      selectSource s src = raise { ((s.wr Pg.xLcs LCS_STATUS_SOURCE src).bump Pg.xLcs LCS_SRC_STAT_SWITCHES) with
        hub := { s.hub with switchedAt := some s.hub.lcs.ns } } Pg.xLcs Irq.LCS_SRC_SWITCH) ∧
    (∀ s : State, s.rd Pg.xLcs LCS_STATUS_SOURCE ≠ 0 → selectSource s 0 = enterHoldover (s.wr Pg.xLcs LCS_STATUS_SOURCE 0) .hub)) ∧
  ((∀ (s : State) (port dom pos iv : Nat) (b : PtpBody), ptpSource s port dom ≠ 0 → hubSafe s = false → portTest s port = false →
      exec (.ptpMessageRx port dom pos iv b) s = .next (ptpRx s (ptpSource s port dom) port dom pos iv b)) ∧
    (∀ (s : State) (src port dom pos iv : Nat) (o : Nat) (c : Int),
      ptpRx s src port dom pos iv (.sync false o c) = syncDone s src port dom iv (rxStamp s port pos) o c ∧
      (∀ rx, (s.tracker src).syncRx = some rx → ptpRx s src port dom pos iv (.followUp o c) = syncDone s src port dom iv rx o c)) ∧
    (∀ (s : State) (src port dom iv : Nat) (rx : Int) (o : Nat) (c : Int),
      syncDone s src port dom iv rx o c = sendDelayReq (trackerMeasure (setTracker s src { s.tracker src with
        syncRx := none, fwd := some (rx - (o : Int) * 1000 - c), port }) src (rx - (o : Int) * 1000 - c - (s.tracker src).delay) iv 1) src port dom) ∧
    (∀ (s : State) (port : Nat), s.isUnset .hub = false → (port < 10 ∧ s.rd Pg.xLcs LCS_ROLE_TX_B = 1 ∨
        10 ≤ port ∧ port < 14 ∧ s.rd Pg.xLcs LCS_ROLE_BOARD_LEAD = 1) →
      let dom := if port < 10 then s.rd Pg.xLcs LCS_SRC_CFG_DOM_B else s.rd Pg.xLcs LCS_ROLE_DOM_BOARD
      exec (.ptpMessageTx port) s = .next (sendOn (sendOn (sendOn s port (.ptp port dom 0 (txStamp s port 0) none 0)) port
        (.ptp port dom 8 (txStamp s port 0) none 0)) port (.ptp port dom 11 (txStamp s port 0) none (hubSite s)))) ∧
    (∀ (s : State) (port : Nat), s.isUnset .hub = true → exec (.ptpMessageTx port) s = .next s) ∧
    (∀ s : State, exec .ppsEdge s = .next { s.wr Pg.xLcs LCS_PPS_OFS (offsetWord (some (ppsOffset s.hub.lcs))) with
      hub := { s.hub with ppsAt := some s.hub.lcs.ns } }) ∧
    (∀ (s : State) (am : Nat), s.rd Pg.xLcs LCS_ROLE_TX_B = 1 → (∀ t, s.hub.tt.started = some t → t + 1000000000 / reachDen s ≤ s.hub.lcs.ns) →
      let port := 14 + s.rd Pg.xLcs LCS_REACH_CFG_PORT
      exec (.ttExchangeTx am) s = .next (sendOn { s with hub := { s.hub with
        tt := { s.hub.tt with started := some s.hub.lcs.ns, t1 := some (txStamp s port am) } } } port (.ttFrame port (txStamp s port am) none))) ∧
    (∀ (s : State) (t1 : Int) (t2 t3 pos : Nat), s.hub.tt.t1 = some t1 →
      exec (.ttExchangeDone t2 t3 pos) s = .next (ttDone s t1 ((t2 : Int) * 1000) ((t3 : Int) * 1000)
        (rxStamp s (14 + s.rd Pg.xLcs LCS_REACH_CFG_PORT) pos))) ∧
    (∀ (s : State) (port pos am : Nat), s.rd Pg.xLcs LCS_ROLE_REF_SITE = 1 → port < 2 →
      exec (.ttExchangeRx port pos am) s = .next (sendOn s (14 + port)
        (.ttFrame (14 + port) (txStamp s (14 + port) am) (some (rxStamp s (14 + port) pos))))) ∧
    (∀ (s : State) (t1 t2 t3 t4 : Int), (∀ old, s.hub.tt.rtt = some old →
        ((t2 - t1) + (t4 - t3) - old).natAbs ≤ s.rd Pg.xLcs LCS_REACH_CFG_RTT_JUMP * 8 * 1000) → s.rd Pg.xLcs LCS_REACH_STAT_TRACKER ≠ 2 →
      let u := { s with hub := { s.hub with tt := { s.hub.tt with t1 := none, rtt := some ((t2 - t1) + (t4 - t3)) } } }
      let path := reachPath u ((t2 - t1) + (t4 - t3))
      let w := setPath (u.wr Pg.xLcs LCS_REACH_STAT_TRACKER 1) path
      ttDone s t1 t2 t3 t4 = trackerMeasure w 5 ((reachAsym w path + (t4 - t3) - (t2 - t1)).tdiv 2) 1000 (reachDen w)))


/-! ### Tally: resets, counting, power -/

/-- R35, R95, R97, R98, R503: the resets of a Tally, its chain address, its unit number, TEST MODE (whose contents are free, log entry 2) and its
fast clock. R101–R104: what a Tally does at a boundary. The tick closes the due windows, applies the due appointments, then opens the next windows;
a slow boundary takes its snapshot and moves its cursor. -/
def Obligations.TallyResetsAndBoundaries : Prop :=
  ((∀ s : State, ∃ t, exec .tallyPor s = .next t ∧ t.tally = Tally.reset ∧ (∀ k : RegKey, k.pg.isTally = true → t.cell k = resetVal s.cfg k) ∧
      OnlyFields s t (fun k => k.pg.isTally = true) ∧ t.hub = s.hub ∧ t.out = s.out ∧ t.cfg = s.cfg) ∧
    (∀ s : State, ∃ t, exec .tallyHrst s = .next t ∧ t.lcs .tally = s.lcs .tally ∧ t.tally.slots = Tally.reset.slots ∧
      t.tally.keys = Tally.reset.keys ∧ t.tally.egress = [] ∧
      (∀ k : RegKey, k.pg.isTally = true → hrstKeeps k = false → t.cell k = resetVal s.cfg k) ∧
      OnlyFields s t (fun k => k.pg.isTally = true ∧ hrstKeeps k = false) ∧ t.hub = s.hub ∧ t.out = s.out) ∧
    (∀ (s : State) (a : BitVec 5), s.rd Pg.tly TLY_CHAIN_ADDRESSED ≠ 1 → s.tally.chainDead = false → a.toNat ≤ 15 →
      exec (.chainAddress a) s = .next { ((s.wr Pg.tly TLY_CHAIN_ADDR a.toNat).wr Pg.tly TLY_CHAIN_ADDRESSED 1) with
        tally := { s.tally with tchOut := some (a.toNat + 1) } }) ∧
    (∀ (s : State) (a : BitVec 5), s.rd Pg.tly TLY_CHAIN_ADDRESSED ≠ 1 → s.tally.chainDead = false → 16 ≤ a.toNat →
      exec (.chainAddress a) s = .next { s with tally := { s.tally with chainDead := true } }) ∧
    (∀ (s : State) (a : BitVec 5), s.rd Pg.tly TLY_CHAIN_ADDRESSED = 1 ∨ s.tally.chainDead = true → exec (.chainAddress a) s = .next s) ∧
    (∀ (s : State) (u : BitVec 24), s.rd Pg.tly TLY_UNIT_LOCKED ≠ 1 → u.toNat % 2 ^ 21 < 131072 →
      exec (.tlyUnitWrite .regPort u) s = .next (restartTally ((s.wr Pg.tly TLY_UNIT_UNIT u.toNat).wr Pg.tly TLY_UNIT_LOCKED 1))) ∧
    (∀ (s : State) (u : BitVec 24), s.rd Pg.tly TLY_UNIT_LOCKED = 1 →
      exec (.tlyUnitWrite .regPort u) s = .next (syn s Pg.tly Syn.STATE .regPort false 0x040)) ∧
    (∀ s : State, ∃ t, exec .tlyTestMode s = .next t ∧ t.tally.testMode = true ∧ t.hub = s.hub ∧ t.out = s.out ∧
      OnlyFields s t (fun k => k.pg.isTally = true)) ∧
    (∀ s : State, leadDue s = true ∨ fclkWork s = true → s.tally.fclkReq = false →
      exec .fclkRequest s = .next { s with tally := { s.tally with fclkReq := true, fclkAt := s.now .tally } }) ∧
    (∀ s : State, s.tally.fclkReq = true → s.tally.fclkAck = false → s.now .tally ≤ s.tally.fclkAt + 2000 →
      exec .fclkAck s = .next { s with tally := { s.tally with fclkAck := true } }) ∧
    (∀ s : State, s.tally.fclkReq = true → s.tally.fclkAck = false → s.tally.fclkAt + 2000 < s.now .tally →
      exec .fclkAck s = .next (raise ((syn { s with tally := { s.tally with fclkAck := true } } Pg.tly Syn.TIMEOUT).bump Pg.tly TLY_FCLK_LATE)
        Pg.tly Irq.TLY_FCLK_LATE))) ∧
  ((∀ s : State, dueSlots s ≠ [] → exec .windowBoundary s =
      .next (openWindows (((List.range 16).map Page.tally).foldl applyPage (closeWindows s (dueSlots s))) (dueSlots s))) ∧
    (∀ s : State, dueSlots s = [] → exec .windowBoundary s = .next s) ∧
    (∀ (s : State) (i : Nat), i < s.tally.slots.length → 
      let w := getSlot (openWindow s i true) i
      w.win = s.now .tally / 125000 / 2 ^ slotK s i ∧ w.start = s.now .tally ∧ w.build = true ∧ w.base = counterSnapshot s ∧
      w.epoch = s.rd Pg.sealP (SEAL_EPOCH i)) ∧
    (∀ s : State, s.tally.slowWin < windowIndex (s.rd Pg.hot HOT_SLOW_SLOW_S) (s.now .tally) → mayBuild s = true →
      let w := windowIndex (s.rd Pg.hot HOT_SLOW_SLOW_S) (s.now .tally)
      exec .slowBoundary s = .next { slowSnapshot s (windowStart w (s.rd Pg.hot HOT_SLOW_SLOW_S)) with
        tally := { (slowSnapshot s (windowStart w (s.rd Pg.hot HOT_SLOW_SLOW_S))).tally with slowWin := w } } ∧
      (slowSnapshot s (windowStart w (s.rd Pg.hot HOT_SLOW_SLOW_S))).rd Pg.hot HOT_SLOW_CUR =
        (s.rd Pg.hot HOT_SLOW_CUR + s.rd Pg.hot HOT_SLOW_BATCH) % counterCount s.cfg) ∧
    (∀ s : State, s.tally.fclkAck = true →
      exec .recordSeal s = .next (s.tally.recs.foldl sealRecord { s with tally := { s.tally with recs := [] } })) ∧
    (∀ (s : State) (r : WinRec), keyFor s r.slot r.epoch = none →
      sealRecord s r = raise (syn (setSlot s r.slot { getSlot s r.slot with recDrops := (getSlot s r.slot).recDrops + 1 }) Pg.sealP Syn.STATE)
        Pg.sealP Irq.SEAL_KEY_MISSING { job := r.job, unit := s.rd Pg.tly TLY_UNIT_UNIT, win := r.win }) ∧
    (∀ (s : State) (r : WinRec) (key : Key), keyFor s r.slot r.epoch = some key →
      let u := ((s.bump Pg.hot HOT_STAT_SAT 0 (r.hot.filter (fun d => decide (d > 0xFFFFFFFF))).length).incr Pg.sealP SEAL_RECORDS).incr Pg.tBur
        BUR_AOC 17
      let x := enqueue u (mkFrames u (u.rd Pg.sealP SEAL_CFG_TC_REC) (recordHdr u r) key.val
        (recordPlain s.cfg.lite (s.rd Pg.sealP SEAL_CFG_PACK == 1) r (getSlot s r.slot).recDrops) r.dst (some r.slot))
      sealRecord s r = dropEmptied (setSlot x.1 r.slot { getSlot s r.slot with recDrops := if x.2 then 0 else (getSlot s r.slot).recDrops + 1 })
        r.slot r.epoch))

/-- R99, R100, R107, R111, R122: counting, gauges and samples. A tick adds to every mapped counter what its mode takes from its lane; a capturing
read leaves the upper half; a HOST gauge takes the written sample, another refuses it; a power sample gives p = v × i to the sums and the shown
averages. R113: the supply limiter. A sample that violates a limit takes WATCH to THROTTLE with THR_ON; PWR_HOLD consecutive clean samples take
THROTTLE to WATCH with THR_OFF; OFF evaluates nothing; EN = 1 with a nonzero limit takes OFF to WATCH, anything else is OFF. -/
def Obligations.TallyCountersAndLimiter : Prop :=
  ((∀ (s : State) (lanes : List (Nat × Nat × Nat)) (ev : Nat) (cause : BitVec 3),
      let u := countResidency ((mappedCounters s).foldl (fun u c => u.incr Pg.cnt CNT_VAL c (counterAdd u lanes c)) s) cause.toNat
      let v := if u.tally.fclkAck = true then u.incr Pg.tBur BUR_AOC 16 else u
      exec (.eventLaneCount lanes ev cause) s = .next { v with tally := { v.tally with evCycles := s.tally.evCycles + ev } }) ∧
    (∀ (s : State) (lanes : List (Nat × Nat × Nat)) (c : Nat),
      (s.rd Pg.cnt CNT_MAP_DATA0_MODE c = 1 → counterAdd s lanes c = laneSum lanes (s.rd Pg.cnt CNT_MAP_DATA0_LANE c)) ∧
      (s.rd Pg.cnt CNT_MAP_DATA0_MODE c = 2 → counterAdd s lanes c = laneCycles lanes (s.rd Pg.cnt CNT_MAP_DATA0_LANE c)) ∧
      (s.rd Pg.cnt CNT_MAP_DATA0_MODE c = 0 → counterAdd s lanes c = 0)) ∧
    (∀ s : State, exec (.cntValRead false) s = .next (s.wr Pg.cnt CNT_VAL_HI (s.rd Pg.cnt CNT_VAL (s.rd Pg.cnt CNT_VAL_IDX) / 2 ^ 32)) ∧
      exec (.cntValRead true) s = .next (s.wr Pg.cnt CNT_GAUGE_RHI (s.rd Pg.cnt gaugeFld (s.rd Pg.cnt CNT_GAUGE_IDX) / 2 ^ 32))) ∧
    (∀ (s : State) (ag : Agent) (lo : Word), s.rd Pg.cnt CNT_GAUGE_CFG_SRC (s.rd Pg.cnt CNT_GAUGE_IDX) = 1 →
      exec (.gaugeHostWrite ag lo) s = .next (sampleGauge (s.wr Pg.cnt CNT_GAUGE_WLO lo.toNat) (s.rd Pg.cnt CNT_GAUGE_IDX)
        (toSigned 64 (s.rd Pg.cnt CNT_GAUGE_WHI * 2 ^ 32 + lo.toNat % 2 ^ 32)))) ∧
    (∀ (s : State) (ag : Agent) (lo : Word), s.rd Pg.cnt CNT_GAUGE_CFG_SRC (s.rd Pg.cnt CNT_GAUGE_IDX) ≠ 1 →
      exec (.gaugeHostWrite ag lo) s = .next (syn s Pg.cnt Syn.STATE ag false 0x060)) ∧
    (∀ s : State, s.tally.freqAt + 125000 ≤ s.now .tally →
      let u := sampleSrc s 5 ((s.tally.evCycles * 2 ^ 24 / 125 : Nat) : Int)
      exec .freqSample s = .next { u with tally := { u.tally with evCycles := 0, freqAt := u.now .tally / 125000 * 125000 } }) ∧
    (∀ (s : State) (cv ci : BitVec 16), ∃ t, exec (.powerSample cv ci) s = .next t ∧
      let p := cv.toNat * s.rd Pg.tPwr PWR_V_LSB * (ci.toNat * s.rd Pg.tPwr PWR_I_LSB)
      t.tally.nrgWin = (s.tally.nrgWin + p) % 2 ^ 64 ∧ t.tally.samples = (p :: s.tally.samples).take 10000 ∧
      t.rd Pg.tPwr PWR_NOW = min (p / 1000000) 0xFFFFFFFF ∧
      t.rd Pg.tPwr PWR_AVG1 = min (sumFirst (p :: s.tally.samples) 1000 / 1000 / 1000000) 0xFFFFFFFF ∧
      t.rd Pg.tPwr PWR_AVG10 = min (sumFirst (p :: s.tally.samples) 10000 / 10000 / 1000000) 0xFFFFFFFF)) ∧
  ((∀ s : State, s.rd Pg.tPwr PWR_STAT_STATE = Lim.OFF → limiterEval s = s) ∧
    (∀ s : State, s.rd Pg.tPwr PWR_STAT_STATE = Lim.WATCH →
      let u := { s with tally := { s.tally with limCount := s.tally.limCount + 1 } }
      (violations u = 0 → limiterEval s = u) ∧
      (violations u ≠ 0 → (limiterEval s).rd Pg.tPwr PWR_STAT_STATE = Lim.THROTTLE ∧
        (limiterEval s).rd Pg.tPwr PWR_STAT_CAUSE = violations u % 2 ^ PWR_STAT_CAUSE.w ∧ (limiterEval s).rd Pg.tPwr (BLK_IRQ_STAT Irq.PWR_THR_ON) = 1 ∧
        (s.tally.testMode = false → hostThrottle (limiterEval s) = true))) ∧
    (∀ s : State, s.rd Pg.tPwr PWR_STAT_STATE = Lim.THROTTLE →
      let u := { s with tally := { s.tally with limCount := s.tally.limCount + 1 } }
      (violations u ≠ 0 → limiterEval s = { u with tally := { u.tally with clean := 0 } }) ∧
      (violations u = 0 → s.tally.clean + 1 < s.rd Pg.tPwr PWR_HOLD → limiterEval s = { u with tally := { u.tally with clean := s.tally.clean + 1 } }) ∧
      (violations u = 0 → s.rd Pg.tPwr PWR_HOLD ≤ s.tally.clean + 1 → (limiterEval s).rd Pg.tPwr PWR_STAT_STATE = Lim.WATCH ∧
        (limiterEval s).rd Pg.tPwr (BLK_IRQ_STAT Irq.PWR_THR_OFF) = 1)) ∧
    (∀ s : State, limiterOn s = true → s.rd Pg.tPwr PWR_STAT_STATE = Lim.OFF →
      limiterRefresh s = { s.wr Pg.tPwr PWR_STAT_STATE Lim.WATCH with tally := { s.tally with limCount := 0, clean := 0 } }) ∧
    (∀ s : State, limiterOn s = false → limiterRefresh s = s.wr Pg.tPwr PWR_STAT_STATE Lim.OFF))

/-- R109: a step mark carries its kind, slot, identifier and tag, the slot's step number and the Longcase time; a STEP mark first increments
the step number, the others carry the current value. It is refused with STATE where its slot is not live, the unit number is unlocked or
the Longcase is UNSET, and with AUTH from the command inlet or the steward core. -/
def Obligations.StepMarks : Prop :=
  ∀ (s : State) (slot : BitVec 2) (id : BitVec 12) (tag : BitVec 16),
    (slotLive s slot.toNat = true → mayBuild s = true →
      (∀ kind : BitVec 2, kind = 1 ∨ kind = 2 → exec (.stepMark .regPort kind slot id tag) s = .next (bufferMark s
        { kind := kind.toNat, slot := slot.toNat, id := id.toNat, tag := tag.toNat, step := s.rd Pg.stp (STP_STEP slot.toNat), time := s.now .tally })) ∧
      (let u := s.incr Pg.stp (STP_STEP slot.toNat)
       exec (.stepMark .regPort 0 slot id tag) s = .next (digestMark (bufferMark u
        { kind := 0, slot := slot.toNat, id := id.toNat, tag := tag.toNat, step := u.rd Pg.stp (STP_STEP slot.toNat), time := s.now .tally })
        slot.toNat (u.rd Pg.stp (STP_STEP slot.toNat))) ∧
       u.rd Pg.stp (STP_STEP slot.toNat) = (s.rd Pg.stp (STP_STEP slot.toNat) + 1) % 2 ^ 32)) ∧
    (∀ kind : BitVec 2, kind ≠ 3 → slotLive s slot.toNat = false ∨ s.rd Pg.tly TLY_UNIT_LOCKED ≠ 1 ∨ s.isUnset .tally = true →
      exec (.stepMark .regPort kind slot id tag) s = .next (syn s Pg.stp Syn.STATE .regPort false 0x040)) ∧
    exec (.stepMark .regPort 3 slot id tag) s = .next (syn s Pg.stp Syn.RANGE .regPort false 0x040) ∧
    (∀ (kind : BitVec 2) (ag : Agent), ag ≠ .regPort → exec (.stepMark ag kind slot id tag) s = .next (syn s Pg.stp Syn.AUTH ag false 0x040)) ∧
    (∀ m : Mark, s.tally.marks.length < markCap s.cfg → (bufferMark s m).tally.marks = s.tally.marks ++ [m])

/-- R114–R116, R127: the host locks and the clock cap: a lock once set stays; the staged CAP_CODE is taken within FLOOR, TOP and STEP or refused;
cap_ack within 100 µs shows its latency, a later one or none records TIMEOUT once and raises ACK_TIMEOUT. R117, R128, R485: the steward core of a
Tally or of a Hub die. -/
def Obligations.HostLocksClocksAndStewards : Prop :=
  ((∀ (s : State) (pg : Page) (v : Bool), pg = Pg.tPwr ∨ pg = Pg.cap ∨ pg = Pg.shp →
      (s.rd pg (lockFld pg) ≠ 1 → exec (.lockWrite pg .regPort v) s = .next (s.wr pg (lockFld pg) (b2n v))) ∧
      (s.rd pg (lockFld pg) = 1 → exec (.lockWrite pg .regPort true) s = .next s ∧
        exec (.lockWrite pg .regPort false) s = .next (syn s pg Syn.STATE .regPort false (lockFld pg).off)) ∧
      (∀ ag, ag ≠ .regPort → exec (.lockWrite pg ag v) s = .next (syn s pg Syn.AUTH ag false (lockFld pg).off))) ∧
    (∀ (s : State) (ag : Agent) (code : BitVec 12), ag ≠ .cabinet → isArmed s Pg.cap = false →
      let eff (c : Nat) : Nat := if c = 0xFFF then s.rd Pg.cap CAP_TOP else c
      ((s.rd Pg.cap CAP_FLOOR ≤ code.toNat ∧ (code.toNat ≤ s.rd Pg.cap CAP_TOP ∨ code.toNat = 0xFFF) ∧
          eff code.toNat ≤ eff (s.rd Pg.cap CAP_CODE) + s.rd Pg.cap CAP_STEP) →
        exec (.capCodeWrite ag code) s = .next (s.wr Pg.cap CAP_CODE.staged code.toNat)) ∧
      (code.toNat < s.rd Pg.cap CAP_FLOOR ∨ (s.rd Pg.cap CAP_TOP < code.toNat ∧ code.toNat ≠ 0xFFF) ∨
          eff (s.rd Pg.cap CAP_CODE) + s.rd Pg.cap CAP_STEP < eff code.toNat →
        exec (.capCodeWrite ag code) s = .next (syn s Pg.cap Syn.RANGE ag true 0x040))) ∧
    (∀ (s : State) (t : Nat) (b : Bool), s.tally.capUpd = some (t, b) → s.now .tally - t ≤ 100000 ∨ b = true →
      exec .capAck s = .next (({ s with tally := { s.tally with capUpd := none } }).wr Pg.cap CAP_STAT_ACK_LAT (min 0xFFFF ((s.now .tally - t) / 4)))) ∧
    (∀ (s : State) (t : Nat), s.tally.capUpd = some (t, false) → 100000 < s.now .tally - t →
      exec .capAck s = .next (raise ((syn (({ s with tally := { s.tally with capUpd := none } }).wr Pg.cap CAP_STAT_ACK_LAT
        (min 0xFFFF ((s.now .tally - t) / 4))) Pg.cap Syn.TIMEOUT).bump Pg.cap CAP_STAT_ACK_TO) Pg.cap Irq.CAP_ACK_TIMEOUT)) ∧
    (∀ (s : State) (t : Nat), s.tally.capUpd = some (t, false) → t + 100000 < s.now .tally →
      exec .capAckTimeout s = .next (raise ((syn { s with tally := { s.tally with capUpd := some (t, true) } } Pg.cap Syn.TIMEOUT).bump Pg.cap
        CAP_STAT_ACK_TO) Pg.cap Irq.CAP_ACK_TIMEOUT))) ∧
  (∀ (s : State) (pg : Page) (ag : Agent), pageBlk s.cfg pg = some .stw → isFrozen s pg = false → stwAuth pg ag = true →
      (s.rd pg STW_STAT_STATE = Stw.HALTED → 0 < s.rd pg STW_IMG_LEN → exec (.stewardStart pg ag) s = .next (s.wr pg STW_STAT_STATE Stw.VERIFYING)) ∧
      (s.rd pg STW_STAT_STATE ≠ Stw.HALTED ∨ s.rd pg STW_IMG_LEN = 0 → exec (.stewardStart pg ag) s = .next (syn s pg Syn.STATE ag false 0x040)) ∧
      (s.rd pg STW_STAT_STATE = Stw.RUNNING ∨ s.rd pg STW_STAT_STATE = Stw.FAULT →
        exec (.stewardHalt pg ag) s = .next (s.wr pg STW_STAT_STATE Stw.HALTED)) ∧
      (s.rd pg STW_STAT_STATE = Stw.VERIFYING → ∀ (anchor : Nat) (rebuilt : Bool),
        (∃ t, exec (.stewardVerifyDone pg true anchor rebuilt) s = .next t ∧ t.rd pg STW_STAT_STATE = Stw.RUNNING ∧ t.rd pg STW_PC = 0 ∧
          (pg.isTally = true → t.tally.anchor = some anchor ∧ t.tally.identity = (s.tally.identity || rebuilt)) ∧
          OnlyFields s t (fun k => k = STW_STAT_STATE.key pg 0 ∨ k = STW_PC.key pg 0) ∧ t.hub = s.hub) ∧
        (∃ t, exec (.stewardVerifyDone pg false anchor rebuilt) s = .next t ∧ t.rd pg STW_STAT_STATE = Stw.HALTED ∧
          t.rd pg BLK_SYNDROME_CODE = Syn.AUTH)) ∧
      (s.rd pg STW_STAT_STATE = Stw.RUNNING → ∀ cause : BitVec 16,
        exec (.stewardFault pg cause) s = .next (raise ((s.wr pg STW_STAT_STATE Stw.FAULT).wr pg STW_STAT_CAUSE cause.toNat) pg Irq.STW_FAULT)) ∧
      (s.rd pg STW_STAT_STATE = Stw.HALTED → ∀ w : Word,
        exec (.stewardLoadWord pg ag w) s = .next ((s.wr pg STW_LOAD_DATA w.toNat (s.rd pg STW_LOAD_ADDR)).wr pg STW_LOAD_ADDR
          (if s.rd pg STW_LOAD_ADDR + 1 < stwRam s.cfg pg / 4 then s.rd pg STW_LOAD_ADDR + 1 else 0))) ∧
      (s.rd pg STW_STAT_STATE ≠ Stw.HALTED → ∀ w : Word, exec (.stewardLoadWord pg ag w) s = .next (syn s pg Syn.STATE ag false 0x04C)))


/-! ### Tally: shaper, inlet, digests -/

/-- R143–R149: the shaper and the gates. A refill adds n times the rate to every class, capped at its burst, and the ceiling likewise; a
frame starts only when class, ceiling, calendar and gate allow it, and both buckets are debited; the last beat sends the frame; the
gate list follows the Longcase. -/
def Obligations.ShaperAndGates : Prop :=
  (∀ s : State, s.tally.fclkAck = true → s.tally.refillAt < slotNow s → s.tally.shpPend = false →
    exec .shaperRefill s = .next (placeHeads (refill s (slotNow s - s.tally.refillAt)))) ∧
  (∀ s : State, s.tally.fclkAck = true → s.tally.refillAt < slotNow s → s.tally.shpPend = true →
    let u := shpResetAll s s.tally.gatedRates
    let ceil := min (u.tally.ceilTok + (slotNow s - s.tally.refillAt) * ceilRate u) (u.rd Pg.shp SHP_CEIL_BURST * 1024)
    let v := { u with tally := { u.tally with shpPend := false, refillAt := slotNow u, ceilTok := ceil } }
    exec .shaperRefill s = .next (placeHeads (raise (v.bump Pg.shp SHP_STAT_FALLBACK) Pg.shp Irq.SHP_FALLBACK))) ∧
  (∀ s : State, s.tally.fclkAck = false → exec .shaperRefill s = .next s ∧ exec .frameStart s = .next s) ∧
  (∀ (s : State) (n c : Nat), c < 8 →
    clsTokens (refill s n) c = min (clsTokens s c + n * s.rd Pg.shp SHP_CLS_RATE c) (s.rd Pg.shp SHP_CLS_BURST c * 1024)) ∧
  (∀ (s : State) (n : Nat), (refill s n).tally.ceilTok =
    min (s.tally.ceilTok + n * (s.rd Pg.shp SHP_PORT_RATE * s.rd Pg.shp SHP_CEIL * 32 / 10)) (s.rd Pg.shp SHP_CEIL_BURST * 1024)) ∧
  (∀ (old new burst tokens : Nat), (old < new → shpReset old new burst tokens = burst * 1024) ∧
    (new < old → shpReset old new burst tokens = 0) ∧ (new = old → shpReset old new burst tokens = min tokens (burst * 1024))) ∧
  (∀ (s : State) (i : Nat) (f : EgFrame), s.tally.sending = none → s.tally.fclkAck = true → nextStart s = some i → s.tally.egress[i]? = some f →
    mayStart s f = true ∧ (let u := { s with tally := { s.tally with
        egress := s.tally.egress.eraseIdx i, sending := some f,
        clsTok := s.tally.clsTok.set f.cls (clsTokens s f.cls - counted s f * 1024), ceilTok := s.tally.ceilTok - counted s f * 1024 } }
      exec .frameStart s = .next (placeHeads (u.wr Pg.shp SHP_BUF (frameBytes u.tally.egress))))) ∧
  (∀ (s : State) (f : EgFrame), mayStart s f = true → counted s f * 1024 ≤ clsTokens s f.cls ∧ counted s f * 1024 ≤ s.tally.ceilTok ∧
    s.rd Pg.shp SHP_CLS_RATE f.cls ≠ 0 ∧ gateOpen s f.cls (counted s f) = true) ∧
  (∀ (s : State) (f : EgFrame), s.tally.sending = some f →
    exec .frameSent s = .next (lowerFclk ((State.incr { s with tally := { s.tally with sending := none } } Pg.tBur BUR_AOC 18).send (.egress f)))) ∧
  (∀ s : State, exec .gateEntryAdvance s = .next { s with tally := { s.tally with
    gateEntry := entryAt (gclDurs s (s.rd Pg.shp SHP_GCL_CFG_LEN)) (s.now .tally / 250 % (500 * 2 ^ s.rd Pg.shp SHP_GCL_CFG_CYC)) 0 } })

/-- R147: a record, report or response enters the egress buffer whole or is dropped whole, counted, with DROP raised. -/
def Obligations.EgressBufferIsAllOrNothing : Prop :=
  ∀ (s : State) (fs : List EgFrame),
    (frameBytes s.tally.egress + frameBytes fs ≤ bufCap s.cfg → (enqueue s fs).2 = true ∧
      (enqueue s fs).1.tally.egress.map (fun f => { f with due := none }) = (s.tally.egress ++ fs).map (fun f => { f with due := none })) ∧
    (bufCap s.cfg < frameBytes s.tally.egress + frameBytes fs →
      enqueue s fs = (raise (s.bump Pg.shp SHP_STAT_DROP) Pg.shp Irq.SHP_DROP, false)) ∧
    bufCap { s.cfg with lite := false } = 48 * 1024 ∧ bufCap { s.cfg with lite := true } = 12 * 1024

/-- R137: the command inlet's checks of a COMMAND, in their order, and what each failure leaves. R135, R137, R141, R419, R420: the bootstrap, an
accepted verdict, the ends of previous keys. -/
def Obligations.InletChecksAndBootstrap : Prop :=
  (∀ (s : State) (f : InFrame),
      (f.hdr.ver ≠ 1 ∨ f.hdr.kind ≠ Kind.COMMAND → inletCommand s f = .refuse Syn.RANGE false) ∧
      (f.hdr.ver = 1 → f.hdr.kind = Kind.COMMAND →
        (f.seg ≠ 0 ∨ 2048 < f.hdr.sealedLen ∨ f.bytes ≠ f.hdr.sealedLen → inletCommand s f = .refuse Syn.SIZE false) ∧
        (f.seg = 0 → f.hdr.sealedLen ≤ 2048 → f.bytes = f.hdr.sealedLen →
          (s.rd Pg.tly TLY_UNIT_LOCKED = 0 ∨ f.hdr.unit ≠ s.rd Pg.tly TLY_UNIT_UNIT → inletCommand s f = .miss) ∧
          (s.rd Pg.tly TLY_UNIT_LOCKED ≠ 0 → f.hdr.unit = s.rd Pg.tly TLY_UNIT_UNIT →
            (cmdKeyFor s f.hdr.epoch = none → inletCommand s f = .refuse Syn.AUTH false) ∧
            (∀ k, cmdKeyFor s f.hdr.epoch = some k →
              (f.key ≠ k.val ∨ f.intact = false → inletCommand s f = .refuse Syn.AUTH false) ∧
              (f.key = k.val → f.intact = true → f.hdr.window ≤ s.rd Pg.sealP SEAL_CMD_SEQ → inletCommand s f = .refuse Syn.AUTH true) ∧
              (f.key = k.val → f.intact = true → s.rd Pg.sealP SEAL_CMD_SEQ < f.hdr.window → inletCommand s f = .accept k))))) ∧
      inletRefused s .miss = s.bump Pg.sealP SEAL_INLET_STAT_UNIT_MISS ∧
      inletRefused s (.refuse Syn.AUTH true) =
        ((syn s Pg.sealP Syn.AUTH .cabinet).bump Pg.sealP SEAL_INLET_STAT_AUTH).bump Pg.sealP SEAL_INLET_STAT_REPLAYED) ∧
  ((∀ (s : State) (f : InFrame) (kind : Byte) (epoch : Word) (anchor : Nat) (kv : Nat) (sigOk ok : Bool),
      let u := s.incr Pg.tBur BUR_AOC 19
      (∀ x, bootstrapCheck u f anchor sigOk ok kind.toNat epoch.toNat = .accept x →
        let v := u.wr Pg.sealP SEAL_CMD_SEQ f.hdr.window
        exec (.bootstrap f kind epoch anchor sigOk ok kv) s = .next (respond { v with tally := { v.tally with
          cmd := { cur := some ⟨epoch.toNat, kv⟩, prev := none, next := none } } } f ⟨epoch.toNat, kv⟩ 0x05 0 1 [])) ∧
      (inletHead u f Kind.COMMAND = none → f.hdr.epoch = 0 → u.tally.cmd.cur = none →
        (u.tally.anchor ≠ some anchor ∨ sigOk = false → bootstrapCheck u f anchor sigOk ok kind.toNat epoch.toNat = .refuse Syn.AUTH false) ∧
        (u.tally.anchor = some anchor → sigOk = true → u.tally.identity = true → ok = true → u.rd Pg.sealP SEAL_CMD_SEQ < f.hdr.window →
          kind.toNat = 2 → epoch.toNat ≠ 0 → ∃ x, bootstrapCheck u f anchor sigOk ok kind.toNat epoch.toNat = .accept x))) ∧
    (∀ (s : State) (f : InFrame) (plain : List Byte) (k : Key) (i : Nat),
      inletVerdict (s.incr Pg.tBur BUR_AOC 19) f = .accept k → slotOfJob (s.incr Pg.tBur BUR_AOC 19) f.hdr.job = some i →
      ∃ t, exec (.verdictAccept f plain) s = .next t ∧ t.rd Pg.tLcs LCS_SITE_QUAL = (plain.map (·.toNat)).getD 0 0 % 4 ∧
        t.rd Pg.sealP SEAL_VERD_W = f.hdr.window % 2 ^ SEAL_VERD_W.w ∧ t.rd Pg.sealP SEAL_VERD_INFO_SLOT = i % 4 ∧
        t.rd Pg.sealP SEAL_VERD_INFO_REV = f.hdr.rev % 2 ^ SEAL_VERD_INFO_REV.w ∧ t.rd Pg.sealP (BLK_IRQ_STAT Irq.SEAL_VERDICT) = 1 ∧
        (∀ j < 512, t.rd Pg.sealP SEAL_VBUF_DATA j =
          ofBe ((List.range 4).map (fun b => (plain.map (·.toNat)).getD (4 * j + b) 0)) % 2 ^ SEAL_VBUF_DATA.w) ∧
        t.hub = s.hub ∧ t.out = s.out) ∧
    (∀ (s : State) (f : InFrame) (plain : List Byte) (code : Nat) (b : Bool), inletVerdict (s.incr Pg.tBur BUR_AOC 19) f = .refuse code b →
      exec (.verdictAccept f plain) s = .next (inletRefused (s.incr Pg.tBur BUR_AOC 19) (.refuse code b))) ∧
    (∀ (s : State) (i : Nat), i < 4 → (getKeys s i).prev.isSome = true →
      (getKeys s i).prevEnd + 4 * (125000 * 2 ^ (getKeys s i).prevK) + 1100000 ≤ s.now .tally →
      exec (.prevKeyDiscard i) s = .next (setKeys s i { getKeys s i with prev := none })) ∧
    (∀ (s : State) (i : Nat), s.now .tally < (getKeys s i).prevEnd + 4 * (125000 * 2 ^ (getKeys s i).prevK) + 1100000 →
      exec (.prevKeyDiscard i) s = .next s) ∧
    (∀ (s : State) (k : Key) (t : Nat), (cmdPromote s).tally.cmd.prev = some (k, t) →
      (t ≤ (cmdPromote s).now .tally → exec .cmdKeyOverlapEnd s = .next { cmdPromote s with tally := { (cmdPromote s).tally with
        cmd := { (cmdPromote s).tally.cmd with prev := none } } }) ∧
      ((cmdPromote s).now .tally < t → exec .cmdKeyOverlapEnd s = .next (cmdPromote s))))

/-- R138, R140, R418: an authenticated WRITE, READ, ARM or KEYLOAD has its effect and is answered by one RESPONSE; one that fails a check has none.
The state they act on has the command's sequence as the last accepted one. R418, R420: where KEYLOAD puts a key: a job key in the NEXT place of the
slot whose live or staged job it names, a command key beside its appointment; what it is refused with. -/
def Obligations.InletCommandsAndKeys : Prop :=
  (∀ (s : State) (f : InFrame),
      let u := (cmdPromote s).incr Pg.tBur BUR_AOC 19
      (∀ key, inletCommand u f = .accept key →
        (inletAccepted u f).rd Pg.sealP SEAL_CMD_SEQ = f.hdr.window % 2 ^ SEAL_CMD_SEQ.w ∧
        (∀ (page : BitVec 6) (off : BitVec 12) (n : Byte) (data : List Word), n.toNat ≤ 64 → n.toNat ≤ data.length →
          let r := inletWrites page.toNat off.toNat 0 ((data.take n.toNat).map (·.toNat)) (inletAccepted u f)
          exec (.write f page off n data) s = .next (respond r.1 f key 0x01 r.2.1 r.2.2 [])) ∧
        (∀ (page : BitVec 6) (off : BitVec 12) (n : Byte), n.toNat ≤ 64 →
          let r := inletReads page.toNat off.toNat 0 n.toNat (inletAccepted u f)
          exec (.read f page off n) s = .next (respond r.1 f key 0x02 r.2.1 r.2.2.length (r.2.2.flatMap (beBytes 4)))) ∧
        (∀ (page : BitVec 6) (off : BitVec 12) (n : Byte) (data : List Word), 64 < n.toNat →
          exec (.write f page off n data) s = .next (respond (syn (inletAccepted u f) Pg.sealP Syn.SIZE .cabinet) f key 0x01 Syn.SIZE 0 []) ∧
          exec (.read f page off n) s = .next (respond (syn (inletAccepted u f) Pg.sealP Syn.SIZE .cabinet) f key 0x02 Syn.SIZE 0 [])) ∧
        (∀ (mask : BitVec 64) (appt : BitVec 96),
          let r := armMask (appt.toNat / 2 ^ 32) (appt.toNat % 2 ^ 32) (setBits 64 mask.toNat) (inletAccepted u f)
          exec (.arm f mask appt) s = .next (respond r.1 f key 0x03 r.2.1 r.2.2.1 (beBytes 8 r.2.2.2))) ∧
        (∀ (kind : Byte) (epoch : Word) (appt : BitVec 96) (ok : Bool) (kv : Nat),
          let r := keyload (inletAccepted u f) f.hdr.job kind.toNat epoch.toNat (appt96 appt) ok kv
          exec (.keyload f kind epoch appt ok kv) s = .next (respond r.1 f key 0x05 r.2.1 r.2.2.1 r.2.2.2))) ∧
      (∀ code b, inletCommand u f = .refuse code b → ∀ (page : BitVec 6) (off : BitVec 12) (n : Byte) (data : List Word),
        exec (.write f page off n data) s = .next (inletRefused u (.refuse code b)) ∧
        exec (.read f page off n) s = .next (inletRefused u (.refuse code b)))) ∧
  (∀ (s : State) (job epoch appt key : Nat),
      (∀ kind ok, (kind ≠ 1 ∧ kind ≠ 2) ∨ epoch = 0 → keyload s job kind epoch appt ok key = (syn s Pg.sealP Syn.RANGE .cabinet, Syn.RANGE, 0, [])) ∧
      (∀ kind, kind = 1 ∨ kind = 2 → epoch ≠ 0 →
        keyload s job kind epoch appt false key = (syn s Pg.sealP Syn.AUTH .cabinet, Syn.AUTH, 0, [])) ∧
      (s.tally.identity = true → epoch ≠ 0 →
        keyload s job 2 epoch appt true key =
          (cmdPromote { s with tally := { s.tally with cmd := { s.tally.cmd with next := some (⟨epoch, key⟩, appt) } } }, 0, 1, []) ∧
        (slotForKey s job = none → keyload s job 1 epoch appt true key = (syn s Pg.sealP Syn.ROSTER .cabinet, Syn.ROSTER, 0, [])) ∧
        (∀ i, slotForKey s job = some i → (∀ c, (getKeys s i).cur = some c → c.epoch < epoch) →
          keyload s job 1 epoch appt true key = (setKeys s i { getKeys s i with next := some ⟨epoch, key⟩ }, 0, 1, [])) ∧
        (∀ i c, slotForKey s job = some i → (getKeys s i).cur = some c → epoch ≤ c.epoch →
          keyload s job 1 epoch appt true key = (syn s Pg.sealP Syn.STATE .cabinet, Syn.STATE, 0, []))) ∧
      (∀ k t, s.tally.cmd.next = some (k, t) → t ≤ s.now .tally →
        cmdPromote s = { s with tally := { s.tally with cmd :=
          { cur := some k, prev := s.tally.cmd.cur.map (fun c => (c, t + 10000000000)), next := none } } }))

/-- R139: CAP, DIGEST, REPLAY and OBSERVE: refused with ROSTER where no live slot holds the job, with STATE where the slot has already accepted an
action in its window; else the action counts for the window and has its effect, even where its execution is refused. R115, R116, R138: the CAP
action stages the code and arms the CAP page; it is refused as a write and an ARM of the page are. -/
def Obligations.InletActions : Prop :=
  (∀ (s : State) (f : InFrame) (key : Key),
      let u := inletAccepted ((cmdPromote s).incr Pg.tBur BUR_AOC 19) f
      inletCommand ((cmdPromote s).incr Pg.tBur BUR_AOC 19) f = .accept key →
      (slotOfJob u f.hdr.job = none → ∀ (every : BitVec 16) (first : Word),
        exec (.digest f every first) s = .next (respond (syn (u.bump Pg.sealP SEAL_ACT_STAT_ROSTER) Pg.sealP Syn.ROSTER .cabinet) f key 0x06
          Syn.ROSTER 0 [])) ∧
      (∀ i, slotOfJob u f.hdr.job = some i → (getKeys u i).action = some (getSlot u i).win → ∀ (every : BitVec 16) (first : Word),
        exec (.digest f every first) s = .next (respond (syn (u.bump Pg.sealP SEAL_ACT_STAT_RATE) Pg.sealP Syn.STATE .cabinet) f key 0x06
          Syn.STATE 0 [])) ∧
      (∀ i, slotOfJob u f.hdr.job = some i → (getKeys u i).action ≠ some (getSlot u i).win →
        let v := setKeys u i { getKeys u i with action := some (getSlot u i).win }
        (∀ (every : BitVec 16) (first : Word), exec (.digest f every first) s = .next (respond
          ((v.wr Pg.dgs DGS_CAD_EVERY every.toNat i).wr Pg.dgs DGS_CAD_FIRST first.toNat i) f key 0x06 0 1 [])) ∧
        (∀ (code : BitVec 12) (appt : BitVec 96),
          let r := capAction v code.toNat (appt.toNat / 2 ^ 32) (appt.toNat % 2 ^ 32)
          exec (.cap f code appt) s = .next (respond r.1 f key 0x04 r.2.1 r.2.2.1 r.2.2.2)) ∧
        (∀ (step : Word) (id : BitVec 16) (shift : BitVec 6) (epoch : Word),
          let r := replayAction v i step.toNat id.toNat shift.toNat epoch.toNat
          exec (.replay f step id shift epoch) s = .next (respond r.1 f key 0x07 r.2.1 r.2.2.1 r.2.2.2)) ∧
        (∀ (sec : BitVec 64) (ns : Word) (testS : BitVec 16),
          exec (.observe f sec ns testS) s = .next (respond (raise ((v.wr Pg.dgs DGS_OBS_END sec.toNat).wr Pg.dgs DGS_OBS_CFG testS.toNat) Pg.dgs
            Irq.DGS_OBSERVE { job := slotJob v i, unit := v.rd Pg.tly TLY_UNIT_UNIT }) f key 0x08 0 1 [])))) ∧
  (∀ (s : State) (code sec ns : Nat),
      (isArmed s Pg.cap = true → capAction s code sec ns = (syn s Pg.cap Syn.STATE .cabinet, Syn.STATE, 0, [])) ∧
      (isArmed s Pg.cap = false → capCodeCheck s code ≠ 0 →
        capAction s code sec ns = (syn s Pg.cap (capCodeCheck s code) .cabinet, capCodeCheck s code, 0, [])) ∧
      (isArmed s Pg.cap = false → capCodeCheck s code = 0 → ns < 1000000000 → s.isUnset .tally = false →
        s.now .tally < sec * 1000000000 + ns → sec < 2 ^ 64 →
        (∀ t, s.tally.capLast = some t → t + 10000000 ≤ sec * 1000000000 + ns) →
        capAction s code sec ns = ((setApptTime (s.wr Pg.cap CAP_CODE.staged code) Pg.cap (sec * 1000000000 + ns)).wr Pg.cap BLK_APPT_CTRL_STATE
          Appt.ARMED, 0, 1, [])))

/-- R336–R339, R360: the digest engine of a Tally. A STEP mark that meets the cadence starts a digest; a completed reading sends its report, OK
with both lanes or POISON, and then a held replay waits for the host; RPL_READY starts the replay, RPL_DECLINE ends it with a DECLINED
report; both are refused with STATE outside RPL_WAIT and with AUTH from another agent. -/
def Obligations.DigestEngineTransitions : Prop :=
  (∀ (s : State) (slot step : Nat), dgsState s = Dgs.IDLE →
    (meetsCadence s slot step = true → digestMark s slot step = startDigest s slot step) ∧
    (meetsCadence s slot step = false → digestMark s slot step = s)) ∧
  (∀ (s : State) (slot step : Nat), dgsState s = Dgs.RPL_WAIT ∨ dgsState s = Dgs.REPLAYING →
    digestMark s slot step = if meetsCadence s slot step then busyReport s slot step else s) ∧
  (∀ (s : State) (slot step : Nat), meetsCadence s slot step = true ↔ s.rd Pg.dgs DGS_CAD_EVERY slot ≠ 0 ∧ s.rd Pg.dgs DGS_CAD_FIRST slot ≤ step ∧
    (step - s.rd Pg.dgs DGS_CAD_FIRST slot) % s.rd Pg.dgs DGS_CAD_EVERY slot = 0) ∧
  (∀ (s : State) (r : DigRun) (mem : List (Nat × Byte)), dgsState s = Dgs.RUNNING → s.tally.digRun = some r →
    exec (.digestComplete false mem) s = .next (afterRun (sendReport s {
      slot := r.slot, epoch := r.epoch, step := r.step, status := Dgs.OK,
      exts := r.exts, a := (lanePair r.key (elements mem r.exts 0)).1, b := (lanePair r.key (elements mem r.exts 0)).2,
      elements := (elements mem r.exts 0).length, mark := r.mark, rpl := none, bins := [] })) ∧
    exec (.digestComplete true mem) s = .next (afterRun (sendReport s.free.1 (bareReport r.slot r.epoch r.step Dgs.POISON r.exts s.free.2 r.mark
      none)))) ∧
  (∀ (s : State) (r : DigRpl) (err : Bool) (mem : List (Nat × Byte)), dgsState s = Dgs.REPLAYING → s.tally.digRpl = some r →
    exec (.digestComplete err mem) s = .next (replayComplete s r err mem)) ∧
  (∀ s : State, (s.tally.digRpl = none → dgsState (afterRun s) = Dgs.IDLE) ∧
    (∀ r, s.tally.digRpl = some r → dgsState (afterRun s) = Dgs.RPL_WAIT ∧ (afterRun s).rd Pg.dgs (BLK_IRQ_STAT Irq.DGS_REPLAY) = 1)) ∧
  (∀ (s : State) (r : DigRpl), s.tally.digRpl = some r → dgsState s = Dgs.RPL_WAIT →
    exec (.rplReady .regPort) s = .next (raiseFclk (setDgs { s with tally := { s.tally with digRpl := some { r with ready := s.now .tally } } }
      Dgs.REPLAYING)) ∧
    exec (.rplDecline .regPort) s = .next (afterReplay (sendReport s (bareReport r.slot (s.rd Pg.sealP (SEAL_EPOCH r.slot)) r.step Dgs.DECLINED
      (liveExtents s r.slot) 0 (s.now .tally) (some (r.id, r.shift)))))) ∧
  (∀ s : State, dgsState s ≠ Dgs.RPL_WAIT → exec (.rplReady .regPort) s = .next (syn s Pg.dgs Syn.STATE .regPort false 0x088) ∧
    exec (.rplDecline .regPort) s = .next (syn s Pg.dgs Syn.STATE .regPort false 0x088)) ∧
  (∀ (s : State) (ag : Agent), ag ≠ .regPort → exec (.rplReady ag) s = .next (syn s Pg.dgs Syn.AUTH ag false 0x088) ∧
    exec (.rplDecline ag) s = .next (syn s Pg.dgs Syn.AUTH ag false 0x088))

/-! ### Ingest and the exact reduction -/

/-- R170, R174 checks 1 to 4, R195: a frame on a fabric port. In a frozen die it is held; else the first check of 1 to 3 that fails discards
it, and a frame that passes enters the ingest buffer of its unit's die; a set not complete REASM_US after its first segment is discarded
whole. A duplicate segment is counted; a buffer without room for it raises BUSY. -/
def Obligations.FramesAndReassembly : Prop :=
  (∀ (s : State) (port pos : Nat) (f : QFrame), port < 10 → hubSafe s = false → portTest s port = false → f.fcs = true →
    let d := portDie port
    let t := (rxStamp s port pos / 1000).toNat
    let u := s.incr (Pg.hBur d) BUR_AOC 12
    (isFrozen u (Pg.ing d) = true → exec (.qrpFrameRx port pos f) s = .next (holdFrame u d port t f)) ∧
    (isFrozen u (Pg.ing d) = false → exec (.qrpFrameRx port pos f) s = .next (frameIn (drainHeld u d) d port t f))) ∧
  (∀ (s : State) (port pos : Nat) (f : QFrame), port < 10 → hubSafe s = false → portTest s port = true →
    exec (.qrpFrameRx port pos f) s = .next (discardFrame s port)) ∧
  (∀ (s : State) (d port t : Nat) (f : QFrame),
    (f.fcs = false → frameIn s d port t f = count s d Cnt.NOT_QRP) ∧
    (f.fcs = true → f.udp = s.rd (Pg.ing d) ING_CFG_UDP_PORT →
      (f.hdr.ver ≠ 1 → frameIn s d port t f = ingRefuse s d 2 Syn.RANGE Cnt.HDR) ∧
      (f.hdr.ver = 1 → f.hdr.kind = 1 ∨ f.hdr.kind = 2 ∨ f.hdr.kind = 3 →
        (f.segs ≤ f.seg ∨ 13916 < f.hdr.sealedLen → frameIn s d port t f = ingRefuse s d 3 Syn.SIZE Cnt.SEGMENT) ∧
        (f.seg < f.segs → f.hdr.sealedLen ≤ 13916 → frameIn s d port t f = putSegment s (ingestDie s d f.hdr.unit t) port t f)))) ∧
  (∀ (s : State) (d port t : Nat) (f : QFrame), (getIng s d).reasm.find? (fun r => sameSet r.hdr f.hdr && r.segs == f.segs) = none →
    (4194304 < bufUsed (getIng s d) + f.len → putSegment s d port t f =
      raise (count (syn s (Pg.ing d) Syn.SIZE) d Cnt.BUSY) (Pg.ing d) Irq.ING_BUSY) ∧
    (bufUsed (getIng s d) + f.len ≤ 4194304 → putSegment s d port t f = noteBuf (setIng s d { getIng s d with reasm := (getIng s d).reasm ++
      [{ hdr := f.hdr, segs := f.segs, parts := [(f.seg, f.len, f.body)], tFirst := t, tLast := t, port }] }) d)) ∧
  (∀ (s : State) (d port t : Nat) (f : QFrame) (r : Reasm),
    (getIng s d).reasm.find? (fun r => sameSet r.hdr f.hdr && r.segs == f.segs) = some r → r.holds f.seg = true →
    putSegment s d port t f = count s d Cnt.DUP) ∧
  (∀ (s : State) (d : Nat), isXD d = true → isFrozen s (Pg.ing d) = false →
    let u := drainHeld s d
    let out (r : Reasm) : Bool := !r.complete && decide (r.tFirst + u.rd (Pg.ing d) ING_CFG_REASM_US * 1000 < u.now .hub)
    exec (.reasmTimeout d) s = .next (noteBuf ((List.range ((getIng u d).reasm.filter out).length).foldl
      (fun s _ => ingRefuse s d 4 Syn.TIMEOUT Cnt.REASM) (setIng u d { getIng u d with reasm := (getIng u d).reasm.filter (fun r => !out r) })) d))

/-- R174–R176, R179: the checks of a complete RECORD set in their order, with what each failure leaves, and the acceptance: on time up to the
seal deadline, late after it. A digest report and a response that are complete leave the buffer and are taken. -/
def Obligations.RecordsAreCheckedAndAccepted : Prop :=
  (∀ (s : State) (d : Nat) (poison : Bool) (r : Reasm), isXD d = true → isFrozen s (Pg.ing d) = false →
    firstSet (drainHeld s d) d 1 = some r →
    (∀ check code cnt, checkRecord (drainHeld s d) d r = .refuse check code cnt →
      exec (.recordRx d poison) s = .next (ingRefuse (takeSet (drainHeld s d) d r) d check code cnt)) ∧
    (∀ g body, checkRecord (drainHeld s d) d r = .pass g body →
      exec (.recordRx d poison) s = .next (finishRecord (takeSet (drainHeld s d) d r) d r g body poison))) ∧
  (∀ (s : State) (d : Nat) (r : Reasm) (slot : Nat) (g : JobGen), r.lengthsOk = true → slotOf s d r.hdr.job = some slot →
    genAt s d slot r.hdr.job (windowStart (recWin r.hdr) r.hdr.k) = some g → r.hdr.flags % 2 = 0 →
    (r.tFirst + 100 < windowEnd (recWin r.hdr) r.hdr.k → checkRecord s d r = .refuse 6 Syn.RANGE Cnt.FUTURE) ∧
    (windowEnd (recWin r.hdr) r.hdr.k ≤ r.tFirst + 100 →
      (lateHorizon g (recWin r.hdr) < r.tLast → checkRecord s d r = .refuse 7 Syn.LATE Cnt.STALE) ∧
      (r.tLast ≤ lateHorizon g (recWin r.hdr) →
        (r.hdr.k ≠ g.k → checkRecord s d r = .refuse 8 Syn.RANGE Cnt.KMISMATCH) ∧
        (r.hdr.k = g.k → (∀ m, memberOf s r.hdr.job g.gen r.hdr.unit = some m → m.hub ≠ selfId s) →
          checkRecord s d r = .refuse 9 Syn.ROSTER Cnt.ROSTER) ∧
        (∀ m, r.hdr.k = g.k → memberOf s r.hdr.job g.gen r.hdr.unit = some m → m.hub = selfId s →
          (r.hdr.epoch ≠ g.epoch → checkRecord s d r = .refuse 10 Syn.AUTH Cnt.AUTH) ∧
          (∀ key body, r.hdr.epoch = g.epoch → jobKey s r.hdr.job r.hdr.epoch = some key → r.data = some body →
            (body.intact = false ∨ body.key ≠ key.val → checkRecord s d r = .refuse 11 Syn.AUTH Cnt.AUTH) ∧
            (body.intact = true → body.key = key.val → body.hdr = r.hdr → body.plain.length + 16 = r.hdr.sealedLen →
              checkRecord s d r = .pass g body)))))) ∧
  (∀ (s : State) (d : Nat) (r : Reasm) (g : JobGen) (body : Sealed),
    (∀ (t : TabRec) (poison : Bool), seenRecord (theWin s g (recWin r.hdr)) r.hdr = some t →
      (t.body = body → finishRecord s d r g body poison = count s d Cnt.DUP) ∧
      (t.body ≠ body → finishRecord s d r g body poison = raise (ingRefuse s d 12 Syn.STATE Cnt.CONFLICT) (Pg.ing d) Irq.ING_CONFLICT
        { job := g.job, unit := r.hdr.unit, win := r.hdr.window, detail := t.body.hdr.tgen + r.hdr.tgen * 2 ^ 16 })) ∧
    (seenRecord (theWin s g (recWin r.hdr)) r.hdr = none →
      finishRecord s d r g body true = raise (ingRefuse s d 13 Syn.POISON Cnt.POISON) (Pg.ing d) Irq.POISON ∧
      (readRecord body.plain = none → finishRecord s d r g body false = ingRefuse s d 14 Syn.RANGE Cnt.HDR) ∧
      (∀ v, readRecord body.plain = some v → finishRecord s d r g body false = acceptRecord s d g r body v))) ∧
  (∀ (s : State) (d : Nat) (r : Reasm) (g : JobGen) (body : Sealed) (v : RecView), r.hdr.flags % 2 = 0 → g.fields ≠ [] →
    let w := theWin s g (recWin r.hdr)
    let late := decide (sealDeadline g (recWin r.hdr) < r.tLast)
    let w' := { w with table := w.table ++ [{ body, late, snapshot := false, tLast := r.tLast, die := d }],
                       parts := w.parts.set (d - 56) (addToPartial s g (w.parts.getD (d - 56) (emptyPartial g)) v r.hdr.unit late) }
    acceptRecord s d g r body v =
      count (noteRecord ((putWin s w').incr (Pg.trs d) TRS_BYTES 0 body.plain.length) g r v) d (if late then Cnt.LATE else Cnt.ONTIME)) ∧
  (∀ (s : State) (d lanes : Nat) (poison : Bool) (r : Reasm), isXD d = true → isFrozen s (Pg.ing d) = false →
    (firstSet (drainHeld s d) d 2 = some r →
      exec (.digestReportRx d lanes poison) s = .next (digestSet (takeSet (drainHeld s d) d r) d lanes poison r)) ∧
    (firstSet (drainHeld (promoteSiteKeys s) d) d 3 = some r →
      exec (.responseRx d) s = .next (responseSet (takeSet (drainHeld (promoteSiteKeys s) d) d r) d r)))

/-- R185: adding values and merging states is exact: the order of two values, of two states and of three merges makes no difference, and
states stay as they can stand. -/
def Obligations.ReductionIsOrderIndependent : Prop :=
  (∀ x y z : FState, FStateOk x → FStateOk y → FStateOk z →
    FStateOk (mergeField x y) ∧ mergeField x y = mergeField y x ∧
    mergeField (mergeField x y) z = mergeField x (mergeField y z)) ∧
  (∀ (f : TField) (pg : Nat) (x : FState) (v v' : Int) (sat sat' : Bool) (u u' g g' : Nat), FStateOk x →
    FStateOk (addValue f pg x v sat u g) ∧
    addValue f pg (addValue f pg x v sat u g) v' sat' u' g' = addValue f pg (addValue f pg x v' sat' u' g') v sat u g) ∧
  (∀ src, FStateOk (FState.empty src))

/-- R178–R181, R189, R190, R199: the seal deadline takes the snapshot of revision 0 once, the late horizon that of revision 1 where a
late record was accepted and none else; MERGE_LATE; a re-reduction that agrees takes the failed partials' place, one that does not
withholds the revision. -/
def Obligations.WindowsAreSealed : Prop :=
  (∀ (s : State) (slot n : Nat) (mism poison : List Nat) (g : JobGen), genOfWin (drainAll s) slot n = some g →
    isFrozen (drainAll s) (Pg.trs (homeDie g)) = false →
    let u := drainAll s
    let w := theWin u g n
    (sealDeadline g n ≤ u.now .hub → w.sealed = false → onTimeWaiting u g n = false →
      exec (.sealDeadline slot n mism poison) s = .next (((List.range 8).map (· + 56)).foldl
        (fun s d => s.incr (Pg.ing d) ING_JOB_STAT_SEALED slot) (snapshotWin u { w with sealed := true } 0 mism poison))) ∧
    (u.now .hub < sealDeadline g n ∨ w.sealed = true → exec (.sealDeadline slot n mism poison) s = .next u) ∧
    (lateHorizon g n ≤ u.now .hub → w.sealed = true → w.closed = false →
      ((∃ p ∈ w.parts, 0 < p.late) → exec (.lateHorizon slot n mism poison) s = .next (snapshotWin u { w with closed := true } 1 mism poison)) ∧
      ((∀ p ∈ w.parts, p.late = 0) → exec (.lateHorizon slot n mism poison) s = .next (putWin u { w with closed := true }))) ∧
    (w.closed = true → exec (.lateHorizon slot n mism poison) s = .next u)) ∧
  (∀ (s : State) (w : JobWin) (rev : Nat), snapshotWin s w rev [] [] =
    putWin s { w with snap := some { rev, parts := w.parts, failed := [] }, mergeLate := false }) ∧
  (∀ (s : State) (slot n : Nat) (g : JobGen) (p : Snap), genOfWin s slot n = some g → (theWin s g n).snap = some p → p.failed ≠ [] →
    (sealDeadline g n + 40000 ≤ s.now .hub → (theWin s g n).mergeLate = false →
      exec (.mergeLate slot n) s = .next (raise (putWin s { theWin s g n with mergeLate := true }) (Pg.trs (homeDie g)) Irq.TRS_MERGE_LATE
        { job := (theWin s g n).job, win := n })) ∧
    exec (.reReductionDone slot n true) s = .next (putWin s { theWin s g n with snap := some { p with
      parts := p.failed.foldl (fun l i => l.set i (reReduce s g (theWin s g n) p.rev i)) p.parts, failed := [] } }) ∧
    exec (.reReductionDone slot n false) s = .next (jobLane (putWin s { theWin s g n with
      snap := some { p with failed := [] }, flags := Nat.lor (theWin s g n).flags 2 }) (theWin s g n).job n))

/-- R172, R189, R191–R194: each level's aggregate is issued once at its instant with REV 0, from the contributions held, and withheld where
the merge's lanes differ; a contribution is taken up to the end of HOLD, and refused as duplicate, stale or unauthentic else. -/
def Obligations.AggregatesAreIssuedAndTaken : Prop :=
  (∀ (s : State) (slot n : Nat) (g : JobGen) (p : Snap), genOfWin s slot n = some g → (theWin s g n).snap = some p → p.failed = [] →
    isFrozen s (Pg.trs (homeDie g)) = false → g.fields ≠ [] →
    let w := theWin s g n
    exec (.hubAggregateIssue slot n false) s = .next (reissueFrom (issueAgg s g { w with snap := none } 1 p.rev
      { (if w.flags = 0 then mergeParts g p.parts else emptyAgg g) with expected := scopeCount s g 1, flags := w.flags }) g n [2, 3, 4]) ∧
    exec (.hubAggregateIssue slot n true) s = .next (laneMismatch (putWin s { w with snap := some { p with failed := [g.home] } }) (homeDie g) w)) ∧
  (∀ (s : State) (slot n : Nat) (g : JobGen), genOfWin s slot n = some g → isFrozen s (Pg.trs (homeDie g)) = false → g.fields ≠ [] →
    let w := theWin s g n
    (∀ level, issuedRev w level = none →
      (level = 2 → sealDeadline g n + 60000 ≤ s.now .hub →
        exec (.groupAggregateIssue slot n false) s = .next (issueAgg s g w 2 0 (mergeLevel s g w 2)) ∧
        exec (.groupAggregateIssue slot n true) s = .next (laneMismatch s (homeDie g) w)) ∧
      (level = 3 → isLead s slot n = true → sealDeadline g n + 340000 ≤ s.now .hub →
        exec (.siteAggregateIssue slot n false) s = .next (issueAgg s g w 3 0 (mergeLevel s g w 3))) ∧
      (level = 4 → isLead s slot n = true → sealDeadline g n + 340000 ≤ s.now .hub →
        exec (.fleetAggregateIssue slot n false) s = .next (issueAgg s g w 4 0 (mergeLevel s g w 4)))) ∧
    (∀ r, issuedRev w 2 = some r → exec (.groupAggregateIssue slot n false) s = .next s) ∧
    (holdEnd g n < s.now .hub → exec (.aggregateHoldExpiry slot n) s = .next (putWin s { w with expired := true })) ∧
    (s.now .hub ≤ holdEnd g n → exec (.aggregateHoldExpiry slot n) s = .next s)) ∧
  (∀ (s : State) (g : JobGen) (n level r : Nat) (rest : List Nat), issuedRev (theWin s g n) level = some r →
    (r < 255 → reissueFrom s g n (level :: rest) =
      reissueFrom (issueAgg s g (theWin s g n) level (r + 1) (mergeLevel s g (theWin s g n) level)) g n rest) ∧
    (255 ≤ r → reissueFrom s g n (level :: rest) = s)) ∧
  (∀ (s : State) (d : Nat) (f : AggFrame), isXD d = true → isFrozen s (Pg.ing d) = false →
    (∀ g, aggCheck s d f = none → aggGen s d f = some g → exec (.aggregateRx d f) s = .next (forwardAgg (reissueFrom (count (putWin s
      (putContrib (theWin s g f.window) { level := f.level, contrib := f.contrib, rev := f.rev, agg := f.agg })) d Cnt.AGG) g f.window
      (levelsAbove f.level)) f)) ∧
    (∀ code cnt, aggCheck s d f = some (code, cnt) → code ≠ 0 → exec (.aggregateRx d f) s = .next (count (syn s (Pg.ing d) code) d cnt)) ∧
    (∀ cnt, aggCheck s d f = some (0, cnt) → exec (.aggregateRx d f) s = .next (count s d cnt))) ∧
  (∀ (s : State) (d : Nat) (f : AggFrame) (g : JobGen) (c : Contrib), f.ver = 1 → 1 ≤ f.level → f.level ≤ 4 → aggGen s d f = some g →
    f.epoch = g.epoch → (jobKey s f.job f.epoch).any (fun k => k.val == f.key) = true → f.intact = true → f.k = g.k → f.agg.pg = g.pg →
    f.agg.fields.length = g.fields.length →
    (holdEnd g f.window < s.now .hub → aggCheck s d f = some (0, Cnt.STALE)) ∧
    (s.now .hub ≤ holdEnd g f.window → contribOf (theWin s g f.window) f.level f.contrib = some c → f.rev ≤ c.rev →
      aggCheck s d f = some (0, Cnt.DUP)) ∧
    (s.now .hub ≤ holdEnd g f.window → contribOf (theWin s g f.window) f.level f.contrib = none →
      issuedRev (theWin s g f.window) (f.level + 1) ≠ some 255 → aggCheck s d f = none))

/-! ### Tiles -/

/-- R228–R231: the sequencer's queue instructions. DPUSH and DTRY copy the descriptor at rs1 into the queue and return its ticket; on a full queue
DTRY returns 0xFFFF_FFFF and DPUSH stalls; a misaligned rs1, one beyond the SRAM or poisoned raises the exception; DWAIT stalls until the ticket is
complete and returns its status word, or 0; DPOLL returns the last ticket completed and the number held. A ticket k is complete within the 2^15
tickets up to the last one completed. R228, R230: the custom CSRs and the exception: tflags and tevent clear what is written 1, tsleep requests a
sleeping state, tdone reports a window, tmbox_out raises MBOX; an exception stops the sequencer in FAULT where mtvec is 0, else enters the handler.
-/
def Obligations.SequencerInstructions : Prop :=
  (∀ (s : State) (t : Nat) (rd : BitVec 5) (rs1 : Word) (q : BitVec 2), seqRuns s t = true →
      let x := getTile s t
      let v := getQ x q.toNat
      (rs1.toNat % 64 ≠ 0 → exec (.dpush t rd rs1 q) s = .next (seqTrap s t 4) ∧ exec (.dtry t rd rs1 q) s = .next (seqTrap s t 4)) ∧
      (rs1.toNat % 64 = 0 → 0x400000 < rs1.toNat + 64 ∨ x.poisoned rs1.toNat 64 = true →
        exec (.dpush t rd rs1 q) s = .next (seqTrap s t 5) ∧ exec (.dtry t rd rs1 q) s = .next (seqTrap s t 5)) ∧
      (rs1.toNat % 64 = 0 → rs1.toNat + 64 ≤ 0x400000 → x.poisoned rs1.toNat 64 = false →
        (v.held.length < 16 →
          let u := retireInstr (putQ s t q.toNat { v with
            held := v.held ++ [{ ticket := v.next, words := descAt x rs1.toNat, flushed := false }], next := (v.next + 1) % 65536 }) t rd.toNat v.next
          exec (.dpush t rd rs1 q) s = .next u ∧ exec (.dtry t rd rs1 q) s = .next u) ∧
        (16 ≤ v.held.length → exec (.dpush t rd rs1 q) s = .next s ∧ exec (.dtry t rd rs1 q) s = .next (retireInstr s t rd.toNat 0xFFFFFFFF))) ∧
      (ticketDone s t q.toNat (rs1.toNat % 65536) = true →
        (∀ h, v.hist.find? (fun h => h.1 == rs1.toNat % 65536) = some h → exec (.dwait t rd rs1 q) s = .next (retireInstr s t rd.toNat h.2)) ∧
        (v.hist.find? (fun h => h.1 == rs1.toNat % 65536) = none → exec (.dwait t rd rs1 q) s = .next (retireInstr s t rd.toNat 0))) ∧
      (ticketDone s t q.toNat (rs1.toNat % 65536) = false → exec (.dwait t rd rs1 q) s = .next s) ∧
      exec (.dpoll t rd q) s = .next (retireInstr s t rd.toNat (s.rd (Pg.til t) (TIL_QSTAT_DONE q.toNat) * 65536 + v.held.length))) ∧
  ((∀ (s : State) (t : Nat) (v : Word), seqRuns s t = true →
      let u := retireInstr s t 0 0
      exec (.tflagsClear t v) s = .next (retireInstr ((setBits 5 v.toNat).foldl (fun s n => s.wr (Pg.til t) (flagFld n) 0) s) t 0 0) ∧
      (v = 1 ∨ v = 2 → exec (.tsleep t v) s = .next (sleepTile u t v.toNat)) ∧ (v ≠ 1 → v ≠ 2 → exec (.tsleep t v) s = .next u) ∧
      exec (.teventClear t v) s = .next (setTile u t { getTile u t with
        tevent := (setBits 5 v.toNat).foldl (fun e n => putBit e n false) (getTile u t).tevent }) ∧
      exec (.tdone t v) s = .next (setTile (u.wr (Pg.til t) TIL_WIN v.toNat) t { getTile u t with
        doneWins := (v.toNat :: (getTile u t).doneWins).take 16 }) ∧
      exec (.tmboxOut t v) s = .next (raise (u.wr (Pg.til t) TIL_MBOX_OUT v.toNat) (Pg.til t) Irq.TIL_MBOX)) ∧
    (∀ (s : State) (t : Nat) (cause pc : Word), seqRuns s t = true →
      let u := setTile s t { getTile s t with pc := pc.toNat, mtvec := 0 }
      exec (.sequencerException t cause pc 0) s =
        .next (raise ((u.wr (Pg.til t) TIL_STAT_SEQ Seq.FAULT).wr (Pg.til t) TIL_SEQ_CAUSE cause.toNat) (Pg.til t) Irq.TIL_SEQ_FAULT)) ∧
    (∀ (s : State) (t : Nat) (cause pc mtvec : Word), seqRuns s t = true → mtvec ≠ 0 →
      exec (.sequencerException t cause pc mtvec) s = .next (setTile (setTile s t { getTile s t with pc := pc.toNat, mtvec := mtvec.toNat }) t
        { getTile s t with
          mtvec := mtvec.toNat, mepc := pc.toNat, mcause := cause.toNat, pc := mtvec.toNat / 4 * 4,
          mstatus := putBit (putBit (getTile s t).mstatus 7 (bit (getTile s t).mstatus 3)) 3 false })) ∧
    (∀ (s : State) (t rd v : Nat), getTile (retireInstr s t rd v) t = { getTile s t with
        x := if rd = 0 then (getTile s t).x else (getTile s t).x.set rd v, pc := ((getTile s t).pc + 4) % 2 ^ 32 }) ∧
    (∀ (s : State) (t u : Nat) (x : Tile), getTile (setTile s t x) u = if u = t then x else getTile s u))

/-- R231, R233, R237: a head that fails a check halts its queue with the code; one that passes starts when the tickets it depends on are
complete, whatever the other queues do; a descriptor done completes its ticket; a flush of a halted queue completes the refused head with
its code and the others with STATE. -/
def Obligations.QueueHeadsStartAndComplete : Prop :=
  (∀ (s : State) (t : Nat) (q : BitVec 2) (d : TDesc) (rest : List TDesc),
    (getQ (getTile s t) q.toNat).held = d :: rest → (getQ (getTile s t) q.toNat).run = .waiting → tileRuns s t = true →
    isHalted s t q.toNat = false →
    let v := getQ (getTile s t) q.toNat
    (headCheck s t q.toNat d ≠ 0 → exec (.descriptorStart t q) s = .next (haltQueue (putQ s t q.toNat { v with
      run := .refused (headCheck s t q.toNat d) }) t q.toNat (headCheck s t q.toNat d) d.ticket)) ∧
    (headCheck s t q.toNat d = 0 →
      ((∀ p < 4, bit (dDepV d) p = true → ticketDone s t p (dDep d p) = true) →
        exec (.descriptorStart t q) s = .next (putQ s t q.toNat { v with run := .running })) ∧
      (∀ p < 4, bit (dDepV d) p = true → ticketDone s t p (dDep d p) = false → exec (.descriptorStart t q) s = .next s))) ∧
  (∀ (s : State) (t : Nat) (q : BitVec 2) (d : TDesc) (code progress : Nat),
    (getQ (getTile s t) q.toNat).held = [d] → (getQ (getTile s t) q.toNat).run = .done code progress false → tileRuns s t = true →
    code ≠ Syn.POISON → exec (.descriptorComplete t q) s = .next (serveSleep (completeHead s t q.toNat code progress) t)) ∧
  (∀ (s : State) (t q code progress : Nat) (d : TDesc) (rest : List TDesc), q < 4 → (getQ (getTile s t) q).held = d :: rest →
    (getTile s t).queues.length = 4 → code < 256 →
    let u := completeHead s t q code progress
    u.rd (Pg.til t) (TIL_QSTAT_DONE q) = d.ticket % 65536 ∧ (getQ (getTile u t) q).held = rest ∧
    (getQ (getTile u t) q).hist.head? = some (d.ticket, progress % 2 ^ 24 * 256 + code) ∧
    (code ≠ 0 → u.rd (Pg.til t) (TIL_QSTAT_LAST_ERR q) = code)) ∧
  (∀ (s : State) (t : Nat) (ag : Agent) (mask : BitVec 4), t < tileCount s.cfg → isFrozen s (Pg.til t) = false →
    exec (.queueFlush t ag mask) s = .next ((setBits 4 mask.toNat).foldl (fun s q => flushQueue s t q) s)) ∧
  (∀ (s : State) (t q code : Nat) (d : TDesc), (getQ (getTile s t) q).held = [d] → (getQ (getTile s t) q).run = .refused code →
    let u := completeHead (putQ s t q { getQ (getTile s t) q with held := [d] }) t q code 0
    flushQueue s t q = serveSleep (u.wr (Pg.til t) TIL_STAT_QHALT (putBit (u.rd (Pg.til t) TIL_STAT_QHALT) q false)) t) ∧
  (∀ (s : State) (t q code ticket : Nat), q < 4 → isHalted (haltQueue s t q code ticket) t q = true ∧
    (haltQueue s t q code ticket).rd (Pg.til t) (BLK_IRQ_STAT Irq.TIL_QHALT) = 1)

/-- R218–R225, R234–R236, R272: each operation's command makes the effect of the descriptor executing on its queue: the matrix unit's, the
vector unit's of each VOP, the tree engine's, the DMA engine's, a fence's. -/
def Obligations.DescriptorsRun : Prop :=
  ∀ t : Nat,
    RunsDescriptor (.matmul t) t 0 1 0 (fun s d => Machine.matmul s t d) ∧ RunsDescriptor (.tree t) t 2 3 0 (fun s d => Machine.tree s t d) ∧
    (∀ (rows code : Nat) (data : List Nat) (poison : Bool), RunsDescriptor (.copy t rows code data poison) t 3 4 0
      (fun s d => copyRows t d { rows, code, data, poison } (cRows d) 0 s false)) ∧
    (∀ q : BitVec 2, RunsDescriptor (.fence t q) t q.toNat 5 0 (fun s _ => (s, 0, 0, false))) ∧
    RunsDescriptor (.add t) t 1 2 0x01 (fun s d => vec2 FVal.add s t d) ∧
    RunsDescriptor (.sub t) t 1 2 0x02 (fun s d => vec2 (fun a b => a.add b.negate) s t d) ∧
    RunsDescriptor (.mul t) t 1 2 0x03 (fun s d => vec2 FVal.mul s t d) ∧ RunsDescriptor (.fma t) t 1 2 0x04 (fun s d => vec3 FVal.fma s t d) ∧
    RunsDescriptor (.div t) t 1 2 0x05 (fun s d => vec2 FVal.div s t d) ∧ RunsDescriptor (.sqrt t) t 1 2 0x06 (fun s d => vec1 FVal.sqrt s t d) ∧
    RunsDescriptor (.rcp t) t 1 2 0x07 (fun s d => vec1 FVal.rcp s t d) ∧ RunsDescriptor (.rsqrt t) t 1 2 0x08 (fun s d => vec1 FVal.rsqrt s t d) ∧
    RunsDescriptor (.exp2 t) t 1 2 0x09 (fun s d => vec1 FVal.exp2 s t d) ∧ RunsDescriptor (.log2 t) t 1 2 0x0A (fun s d => vec1 FVal.log2 s t d) ∧
    RunsDescriptor (.min t) t 1 2 0x0B (fun s d => vec2 (fun a b => Ex.exact (FVal.minmax false a b)) s t d) ∧
    RunsDescriptor (.max t) t 1 2 0x0C (fun s d => vec2 (fun a b => Ex.exact (FVal.minmax true a b)) s t d) ∧
    RunsDescriptor (.cmpEq t) t 1 2 0x0D (fun s d => vecCmp FVal.eqv s t d) ∧
    RunsDescriptor (.cmpNe t) t 1 2 0x0E (fun s d => vecCmp (fun a b => !a.eqv b) s t d) ∧
    RunsDescriptor (.cmpLt t) t 1 2 0x0F (fun s d => vecCmp FVal.lt s t d) ∧
    RunsDescriptor (.cmpLe t) t 1 2 0x10 (fun s d => vecCmp (fun a b => a.lt b || a.eqv b) s t d) ∧
    RunsDescriptor (.abs t) t 1 2 0x11 (fun s d => vec1 (fun a => Ex.exact a.abs) s t d) ∧
    RunsDescriptor (.neg t) t 1 2 0x12 (fun s d => vec1 (fun a => Ex.exact a.negate) s t d) ∧
    RunsDescriptor (.cvt t) t 1 2 0x13 (fun s d => vecCvt s t d) ∧ RunsDescriptor (.cvtFx t) t 1 2 0x14 (fun s d => vecFx s t d) ∧
    RunsDescriptor (.iadd t) t 1 2 0x20 (fun s d => vecCarry (fun a b c => ((a + b + c) % 2 ^ 32, decide (2 ^ 32 ≤ a + b + c))) s t d) ∧
    RunsDescriptor (.isub t) t 1 2 0x21 (fun s d => vecCarry (fun a b c => ((a + 2 ^ 33 - b - c) % 2 ^ 32, decide (a < b + c))) s t d) ∧
    RunsDescriptor (.imulLo t) t 1 2 0x22 (fun s d => vecInt (fun a b => a * b % 2 ^ 32) s t d) ∧
    RunsDescriptor (.imulHi t) t 1 2 0x23 (fun s d => vecInt (fun a b => ofSigned 64 (toSigned 32 a * toSigned 32 b) / 2 ^ 32) s t d) ∧
    RunsDescriptor (.imuluHi t) t 1 2 0x24 (fun s d => vecInt (fun a b => a * b / 2 ^ 32) s t d) ∧
    RunsDescriptor (.shl t) t 1 2 0x25 (fun s d => vecInt (fun a b => a * 2 ^ (b % 32) % 2 ^ 32) s t d) ∧
    RunsDescriptor (.shr t) t 1 2 0x26 (fun s d => vecInt (fun a b => a / 2 ^ (b % 32)) s t d) ∧
    RunsDescriptor (.sra t) t 1 2 0x27 (fun s d => vecInt (fun a b => ofSigned 32 (Machine.sra (toSigned 32 a) (b % 32))) s t d) ∧
    RunsDescriptor (.and t) t 1 2 0x28 (fun s d => vecInt Nat.land s t d) ∧ RunsDescriptor (.or t) t 1 2 0x29 (fun s d => vecInt Nat.lor s t d) ∧
    RunsDescriptor (.xor t) t 1 2 0x2A (fun s d => vecInt Nat.xor s t d) ∧
    RunsDescriptor (.imin t) t 1 2 0x2B (fun s d => vecInt (fun a b => if intLt d b a then b else a) s t d) ∧
    RunsDescriptor (.imax t) t 1 2 0x2C (fun s d => vecInt (fun a b => if intLt d a b then b else a) s t d) ∧
    RunsDescriptor (.icmp t) t 1 2 0x2D (fun s d => vecCmp (fun a b => icmpPred d (laneWord a) (laneWord b)) s t d)

/-- R236, R239, R242, R285: what a copied row changes: the bytes of its place in the one memory it goes to, to the bytes carried, and no other byte;
a row refused at the destination changes none; a row read from a memory changes no byte of any. R267, R273: the accumulator takes sums modulo 2^96,
so parts may be added in any order and grouping, and a raw row's slot holds the accumulator in 16 bytes from which reading gives it back, whatever
it is. -/
def Obligations.CopiesAndTreeAccumulator : Prop :=
  ((∀ (x : Tile) (a k : Nat) (bs : List (Nat × Bool)), Memory.wf x.sram = true →
      (k < a ∨ a + bs.length ≤ k → memRead (x.write a bs).sram k = memRead x.sram k) ∧
      (∀ i b, bs[i]? = some b → memRead (x.write a bs).sram (a + i) = BitVec.ofNat 8 b.1)) ∧
    (∀ (s : State) (a k : Nat) (bs : List (Nat × Bool)), Memory.wf s.hub.hbm = true →
      (k < a ∨ a + bs.length ≤ k → memRead (hbmWriteP s a bs).hub.hbm k = memRead s.hub.hbm k) ∧
      (∀ i b, bs[i]? = some b → memRead (hbmWriteP s a bs).hub.hbm (a + i) = BitVec.ofNat 8 b.1) ∧
      (hbmWriteP s a bs).hub.tiles = s.hub.tiles) ∧
    (∀ (s : State) (t h u rc o r : Nat) (p : PeerAnswer) (bs : List (Nat × Bool)),
      copyWriteAt s t 0 h u rc o p r bs = (setTile s t ((getTile s t).write o bs), 0) ∧
      copyWriteAt s t 1 h u 0 o p r bs = (setTile s u ((getTile s u).write o bs), 0) ∧
      (rc ≠ 0 → copyWriteAt s t 1 h u rc o p r bs = (s, rc)) ∧
      copyWriteAt s t 2 h u rc o p r bs = (hbmWriteP s o bs, 0) ∧
      (r < p.rows ∨ p.code = 0 → copyWriteAt s t 3 h u rc o p r bs = (s.send (.peerWrite h u o (bs.map (·.1)) (bs.any (·.2))), 0)) ∧
      (p.rows ≤ r → p.code ≠ 0 → copyWriteAt s t 3 h u rc o p r bs = (s, p.code))) ∧
    (∀ (s : State) (t sp u rc o n r : Nat) (p : PeerAnswer), (copyReadAt s t sp u rc o n p r).1.hub.hbm = s.hub.hbm ∧
      (copyReadAt s t sp u rc o n p r).1.hub.tiles = s.hub.tiles) ∧
    (∀ (s : State) (t k r : Nat) (d : TDesc) (p : PeerAnswer) (bad : Bool), (copyRead s t d p r).2.1 = 0 →
      ((copyWrite (copyRead s t d p r).1 t d p r (copyRead s t d p r).2.2).2 = 0 → copyRows t d p (k + 1) r s bad =
        copyRows t d p k (r + 1) (copyWrite (copyRead s t d p r).1 t d p r (copyRead s t d p r).2.2).1 (bad || (copyRead s t d p r).2.2.any (·.2))) ∧
      ((copyWrite (copyRead s t d p r).1 t d p r (copyRead s t d p r).2.2).2 ≠ 0 →
        copyRows t d p (k + 1) r s bad = ((copyWrite (copyRead s t d p r).1 t d p r (copyRead s t d p r).2.2).1,
          (copyWrite (copyRead s t d p r).1 t d p r (copyRead s t d p r).2.2).2, r, true)))) ∧
  ((∀ u v : Int, wrap96 (wrap96 u + v) = wrap96 (u + v) ∧ wrap96 (u + v) = wrap96 (v + u)) ∧
    (∀ v : Int, -(2 ^ 95) ≤ v → v < 2 ^ 95 → wrap96 v = v) ∧
    (∀ v : Int, (accBytes v).length = 16 ∧ toSigned 96 (ofLe ((accBytes v).take 12)) = wrap96 v) ∧
    (∀ (x : Tile) (base r j : Nat) (v : Int), Memory.wf x.sram = true →
      (accAt (x.write (base + 128 * r + 16 * j) ((accBytes v).map (fun b => (b, false)))) base r j).1 = wrap96 v) ∧
    (∀ (s : State) (t : Nat) (d : TDesc), tRows d = 0 → Machine.tree s t d = (s, 0, 0, false)) ∧
    (∀ (s : State) (t : Nat) (d : TDesc) (tr kind item : Nat), tRows d ≠ 0 →
      firstFault (getTile s t) (ensAt (getTile s t) (tEns d)) d = some (tr, kind, item) →
      (Machine.tree s t d).2 = (Syn.RANGE, 0, true) ∧ (Machine.tree s t d).1.hub.tiles = s.hub.tiles ∧
      (Machine.tree s t d).1.rd (Pg.hut t) HUT_FAULT_TREE = tr % 2 ^ HUT_FAULT_TREE.w))

/-- R162, R163, R228, R249, R251, R254, R257: the power states of a tile and its sequencer's start and halt. A wake takes a sleeping tile to
WAKING and has no effect on an ACTIVE one; a gate or park request with empty queues and no schedule takes it to ENTERING, then to the state; a
retired tile refuses a wake. -/
def Obligations.TilePowerStates : Prop :=
  (∀ (s : State) (t : Nat) (ag : Agent), t < tileCount s.cfg → isFrozen s (Pg.til t) = false →
    (pstate s t = PS.RETIRED → exec (.wake t ag) s = .next (syn s (Pg.til t) Syn.STATE ag false 0x040) ∧
      exec (.gate t ag) s = .next s ∧ exec (.park t ag) s = .next s) ∧
    (pstate s t = PS.ACTIVE → exec (.wake t ag) s = .next s) ∧
    (pstate s t = PS.GATED ∨ pstate s t = PS.PARKED → exec (.wake t ag) s = .next (setTile
      ((s.wr (Pg.til t) TIL_STAT_PSTATE PS.WAKING).incr (Pg.hBur (t / 32)) BUR_AOC 6) t { getTile s t with depth := pstate s t })) ∧
    (pstate s t ≠ PS.RETIRED → exec (.gate t ag) s = .next (sleepTile s t 1) ∧ exec (.park t ag) s = .next (sleepTile s t 2)) ∧
    (pstate s t = PS.PARKED → exec (.gate t ag) s = .next s ∧ exec (.park t ag) s = .next s) ∧
    (pstate s t = PS.GATED → exec (.gate t ag) s = .next s)) ∧
  (∀ (s : State) (t d : Nat), pstate s t = PS.ACTIVE → queuesEmpty (getTile s t) = true → d = 1 ∨ d = 2 → d ≤ s.rd (Pg.til t) TIL_SCHED_SLEEP →
    schedOn s t = false → ∃ u, sleepTile s t d = u ∧ pstate u t = PS.ENTERING ∧ (getTile u t).depth = d ∧ (getTile u t).sleep = none) ∧
  (∀ (s : State) (t : Nat), t < tileCount s.cfg → pstate s t = PS.ENTERING → queuesEmpty (getTile s t) = true → seqState s t = Seq.RUNNING →
    (getTile s t).wakeP = false → (getTile s t).sleep = none → schedOn s t = false → isFrozen s (Pg.til t) = false →
    exec (.tileSleepEntered t) s = .next (setTile ((s.wr (Pg.til t) TIL_STAT_PSTATE (getTile s t).depth).wr (Pg.til t) TIL_STAT_SEQ Seq.ASLEEP) t
      (getTile s t))) ∧
  (∀ (s : State) (t : Nat), t < tileCount s.cfg → pstate s t = PS.WAKING → seqState s t = Seq.ASLEEP → isFrozen s (Pg.til t) = false →
    exec (.tileWakeDone t) s = .next (serveSleep ((s.wr (Pg.til t) TIL_STAT_PSTATE PS.ACTIVE).wr (Pg.til t) TIL_STAT_SEQ Seq.RUNNING) t)) ∧
  (∀ (s : State) (t : Nat) (ag : Agent) (v : Word), t < tileCount s.cfg → isFrozen s (Pg.til t) = false →
    (pstate s t ≠ PS.RETIRED → seqState s t = Seq.HALTED → exec (.seqStart t ag) s = .next (setTile (s.wr (Pg.til t) TIL_STAT_SEQ Seq.RUNNING) t
      { getTile s t with pc := s.rd (Pg.til t) TIL_SEQ_CFG * 4 })) ∧
    (pstate s t = PS.RETIRED ∨ seqState s t ≠ Seq.HALTED → exec (.seqStart t ag) s = .next (syn s (Pg.til t) Syn.STATE ag false 0x040)) ∧
    (seqState s t ≠ Seq.HALTED → exec (.seqHalt t ag) s = .next (flushAll (s.wr (Pg.til t) TIL_STAT_SEQ Seq.HALTED) t)) ∧
    (exec (.mboxInWrite t ag v) s = .next (setTile (s.wr (Pg.til t) TIL_MBOX_IN v.toNat) t { getTile s t with
      tevent := Nat.lor (getTile s t).tevent 16 })) ∧
    (ag ≠ .cabinet → exec (.tileRetire t ag) s = .next (syn s (Pg.til t) Syn.AUTH ag false 0x040)) ∧
    exec (.tileRetire t .cabinet) s = .next (retireForGood s t)) ∧
  (∀ (s : State) (t : Nat), pstate (retireTile s t) t = PS.RETIRED ∧ seqState (retireTile s t) t = Seq.HALTED) ∧
  (∀ (s : State) (t : Nat), t < tileCount s.cfg → isFrozen s (Pg.til t) = false →
    (pstate s t = PS.GATED ∨ pstate s t = PS.PARKED → wakeDue s t (pstate s t) = true → exec (.scheduledWake t) s = .next (wakeTile s t)) ∧
    (∀ n, lastActive s t = some n → schedOn s t = true → pstate s t ≠ PS.RETIRED → (getTile s t).active ≠ some n →
      TReq.active n ∉ (getTile s t).held → exec (.activeInstant t) s = .next (wakeLateRule (activeInstant s t n false) t))) ∧
  (∀ (s : State) (t n : Nat), pstate s t = PS.ACTIVE → activeInstant s t n false = setTile s t { getTile s t with
    twin := n % 2 ^ 32, tevent := Nat.lor (getTile s t).tevent 1, active := some n, wakeRun := 0 })

/-! ### Verdicts, checks, recovery -/

/-- R251, R310–R312, R316, R321, R355: the assembly instant marks each tile of the set that has not reported; the verdict of a window is issued
once, from that instant on and before its abandonment, when every tile of the set is done, header-only where the window is missing or the
partition waits for its recovery; the revision goes to the ring only; a verdict not issued by then is abandoned. The lower median does not
depend on the order of the values. -/
def Obligations.VerdictsAreIssuedOnce : Prop :=
  (∀ (s : State) (slot n : Nat) (j : HJob) (g : JobGen) (p : VPolicy), verdictJob s slot n = some (j, g, p) →
    (asmInstant g n ≤ s.now .hub → j.asm ≤ n → tileSet s slot = [] →
      exec (.verdictAssembly slot n) s = .next (modJob s j.job (fun j => { j with asm := n + 1 }))) ∧
    (∀ t, asmInstant g n ≤ s.now .hub → j.asm ≤ n → tileSet s slot = [t] → isFrozen s (Pg.til t) = false →
      (getTile s t).doneWins.contains (n % 2 ^ 32) = false → (getTile s t).doneRun < 2 →
      let u := setTile (modJob s j.job (fun j => { j with asm := n + 1 })) t { getTile s t with doneRun := (getTile s t).doneRun + 1 }
      exec (.verdictAssembly slot n) s = .next (raise (syn (u.bump (Pg.til t) TIL_LATE_DONE) (Pg.til t) Syn.LATE) (Pg.til t) Irq.TIL_DONE_LATE
        { job := j.job, win := n, detail := t })) ∧
    (s.now .hub < asmInstant g n ∨ n < j.asm → exec (.verdictAssembly slot n) s = .next s) ∧
    (∀ (scores : List Score) (peers : List (Nat × Nat)),
      (inRing j n 0 = false → asmInstant g n ≤ s.now .hub → s.now .hub < abandonAt g n →
        ((j.missing.contains n = true ∨ j.faultWaits = true ∨ j.recovery.isSome = true) →
          exec (.verdictIssue slot n 0 scores peers) s = .next (modJob s j.job (fun x => putRing { x with
            missing := x.missing.filter (fun w => w != n) } (missingRec s j g n 0)))) ∧
        (j.missing.contains n = false → j.faultWaits = false → j.recovery = none →
          (setDone s j g n peers = true → exec (.verdictIssue slot n 0 scores peers) s = .next (issueVerdict s j g p n scores peers)) ∧
          (setDone s j g n peers = false → exec (.verdictIssue slot n 0 scores peers) s = .next s))) ∧
      (inRing j n 0 = true → exec (.verdictIssue slot n 0 scores peers) s = .next s) ∧
      (inRing j n 0 = true → inRing j n 1 = false → issuedRev (theWin s g n) 1 = some 1 → lateHorizon g n ≤ s.now .hub →
        exec (.verdictIssue slot n 1 scores peers) s = .next (reviseVerdict s j g p n scores peers) ∧
        (reviseVerdict s j g p n scores peers).out = s.out)) ∧
    (abandonAt g n ≤ s.now .hub → inRing j n 0 = false →
      exec (.verdictAbandon slot n) s = .next (modJob s j.job (fun x => putRing x (missingRec s j g n 0)))) ∧
    (s.now .hub < abandonAt g n → exec (.verdictAbandon slot n) s = .next s)) ∧
  (∀ (j : HJob) (r : VRec), inRing (putRing j r) r.win r.rev = true) ∧
  (∀ l m : List Int, l.Perm m → lowerMedian l = lowerMedian m) ∧
  (∀ (r : VRec) (m : Member) (ms : List Member), (framePlain r m ms).length ≤ 2032) ∧
  (∀ e : VEntry, e.bytes.length = 24) ∧ (∀ h : VHead, h.bytes.length = 64)

/-- R353–R357: a check window loads the check tile, then compares the two regions: equal, the window is checked; unequal, the tiles are charged
and the partition has a fault. A self-test chunk that is due counts; one that fails retires the tile; a second charge within 24 h retires it.
At most two partitions are in recovery; the response follows the count of faults, and its end is listed. -/
def Obligations.ChecksSelftestsAndRecovery : Prop :=
  (∀ (s : State) (slot n check : Nat) (peer : List Nat) (j : HJob) (im : HImage), hjobAt s slot = some j → j.image = some im →
    im.place.check = some check → n % 64 = slot % 64 → j.checked.contains n = false → windowEnd n j.k ≤ s.now .hub → j.recovery = none →
    exec (.checkWindow slot n none peer) s = .next (tellSet (loadCheck s im check (checkRankOf im n)) slot
      (0xC1 * 2 ^ 24 + checkRankOf im n * 2 ^ 11 + check)) ∧
    (∀ own chk : Nat × Nat, exec (.checkWindow slot n (some (own, chk)) peer) s = .next (compareCheck s j im n check own chk peer))) ∧
  (∀ (s : State) (j : HJob) (im : HImage) (n check t : Nat) (own chk : Nat × Nat) (peer : List Nat) (p : Place),
    rankPlace im (checkRankOf im n) = some p → p.hub = ownIndex s → p.tile = t →
    let u := tellSet s j.slot 0xC2000000
    ((Tile.read (getTile s t) own.1 own.2).map (·.1) = (Tile.read (getTile s check) chk.1 chk.2).map (·.1) →
      compareCheck s j im n check own chk peer = modJob u j.job (fun j => { j with checked := n :: j.checked })) ∧
    ((Tile.read (getTile s t) own.1 own.2).map (·.1) ≠ (Tile.read (getTile s check) chk.1 chk.2).map (·.1) →
      compareCheck s j im n check own chk peer = checkFails u j n (some t) check)) ∧
  (∀ (s : State) (t : Nat), t < tileCount s.cfg → pstate s t ≠ PS.RETIRED → isFrozen s (Pg.til t) = false → testRoom s t = true → testDue s t = true →
    exec (.selftestChunk t false) s = .next (failTile s t) ∧
    ((testOf s t).2.1 < 15 → exec (.selftestChunk t true) s = .next (setTest s t ((testOf s t).1, (testOf s t).2.1 + 1, (testOf s t).2.2))) ∧
    ((testOf s t).2.1 = 15 → exec (.selftestChunk t true) s = .next (setTest s t (s.now .hub, 0, (testOf s t).2.2)))) ∧
  (∀ (s : State) (t : Nat), t < tileCount s.cfg → testDue s t = false → exec (.selftestChunk t true) s = .next s) ∧
  (∀ (s : State) (t : Nat), (isCharged s t = true → chargeTile s t = retireForGood s t) ∧
    (isCharged s t = false → isCharged (chargeTile s t) t = true ∧ (testOf (chargeTile s t) t).2.2 = some (s.now .hub + 86400000000000))) ∧
  (∀ (s : State) (job : Nat) (j : HJob) (im : HImage) (g : JobGen) (place : Option Placement) (peer : Option Nat), hjob s job = some j →
    j.image = some im → jobNow s j = some g → j.faultWaits = true → j.recovery = none →
    (enginesBusy s < 2 → ∀ u, recoverJob s j g im place peer = some u → exec (.partitionRecovery job place peer) s = .next u) ∧
    (2 ≤ enginesBusy s → exec (.partitionRecovery job place peer) s = .next s) ∧
    (3 ≤ j.faults → recoverJob s j g im place peer = resetSet s j g im) ∧
    (j.faults ≤ 1 → ∀ new, placeImage s j g im.img place = .ok new → recoverJob s j g im place peer = replaceSet s j g im new)) ∧
  (∀ (s : State) (job kind : Nat) (j : HJob) (im : HImage) (x : Option Placement), hjob s job = some j → j.recovery = some (kind, x) →
    j.image = some im → (kind = 2 ∨ ∀ y ∈ ownPlaces s im, inPlace s j.slot y = true) →
    exec (.partitionRecoveryDone job) s = .next (modJob (hubFault s job (recoveryFault kind) none (windowIndex j.k j.firstFault)) job
      (fun j => { j with recovery := none }))) ∧
  (∀ (s : State) (job code win : Nat) (tile : Option Nat) (j : HJob), hjob s job = some j →
    hjob (hubFault s job code tile win) job = some { j with pend := j.pend ++ [(0,
      { type := 0x17, code, flags := 0, unit := 0x00FFFFFF, a := s.rd (Pg.cab 56) CAB_STATE_HUB_INDEX * 2 ^ 48 + tile.getD 0x7FF * 2 ^ 32, b := win })] } ∧
    hjob (partitionFault s job) job = some { j with
      faults := j.faults + 1, firstFault := (if j.faults = 0 then s.now .hub else j.firstFault), faultWaits := true })

/-! ### The tape, the digests at the Hub -/

/-- R289, R293–R297, R303, R306: a window is taped once its late horizon has passed, the windows before it first; a frame that matches its content is
committed under the next SEQ, one that does not goes to another engine, a block three engines failed on is lost; an index entry reads back as it
was written, a Raw-block frame as its content. -/
def Obligations.TapeCommitsVerifiedFrames : Prop :=
  (∀ (s : State) (slot n : Nat) (poison : List Nat) (g : JobGen) (j : HJob) (w : JobWin), genOfWin s slot n = some g → findJob s g.job = some j →
    findWin s slot g.job n = some w →
    (w.closed = false ∨ w.taped = true ∨ isFrozen s (tapPg j.tableMd) = true ∨ (getTap s j.tableMd).ready = false →
      exec (.tapeWindow slot n poison) s = .next s) ∧
    (w.closed = true → w.taped = false → isFrozen s (tapPg j.tableMd) = false → (getTap s j.tableMd).ready = true → w.table = [] →
      (∀ v ∈ s.hub.wins, v.slot = slot → v.job = g.job → v.win < n → v.taped = true) →
      let mk := markerEntry s g w
      let u := putWin (tapeEntry mk.1 g.job g.k 0 n mk.2) { w with taped := true }
      exec (.tapeWindow slot n poison) s =
        .next (flushBlock (flushBlock (closeSummaries u g.job g.k n) j.tableMd g.job g.k 0) j.tableMd g.job g.k 1))) ∧
  (∀ (s : State) (m i eng : Nat) (frame : List Nat) (b : TBlock), m < 8 → (getTap s m).work[i]? = some b → isFrozen s (tapPg m) = false →
    isFrozen s (cmpPg m) = false → (enginesIn s m).contains eng = true → b.tries.contains eng = false →
    let u := s.incr (cmpPg m) CMP_CIN 0 b.content.length
    let t := getTap s m
    let out := setTap u m { t with work := t.work.eraseIdx i }
    let good := if 2 ≤ b.tries.length then frame == rawFrame b.content else emitted frame && decodeFrame frame == some b.content
    let bad := raise (u.bump (cmpPg m) CMP_FAIL_VERIFY) (cmpPg m) Irq.CMP_VERIFY_FAIL { job := b.job, win := b.first, detail := eng }
    (good = true → exec (.blockCompressDone m i eng frame) s =
      .next (releaseWins (b.tries.foldl (fun s e => chargeEngine s m e) (commitBlock out m b frame)) b.job)) ∧
    (good = false → b.tries.length < 2 → exec (.blockCompressDone m i eng frame) s =
      .next (setTap bad m { t with work := t.work.set i { b with tries := b.tries ++ [eng] } })) ∧
    (good = false → 2 ≤ b.tries.length → exec (.blockCompressDone m i eng frame) s =
      .next (releaseWins (loseBlock (setTap bad m { t with work := t.work.eraseIdx i }) m b) b.job))) ∧
  (∀ e : TEntry, e.seq < 2 ^ 64 → e.job < 2 ^ 32 → e.k < 256 → e.state < 8 → e.entries < 65536 → e.first < 2 ^ 64 → e.last < 2 ^ 64 →
    e.stream < 2 ^ 64 → e.ofs < 2 ^ 32 → e.clen < 2 ^ 32 → e.ulen < 2 ^ 32 → e.secs < 2 ^ 64 → e.nanos < 2 ^ 32 →
    readEntry e.bytes = e ∧ e.bytes.length = 64) ∧
  (∀ c : List Nat, c.length ≤ 65536 → decodeFrame (rawFrame c) = some c ∧ emitted (rawFrame c) = true) ∧
  (∀ (s : State) (m : Nat), m < 8 → exec (.tapRecoveryDone m) s = .next (setTap s m { getTap s m with ready := true })) ∧
  (∀ (s : State) (m : Nat), m < 8 → m < s.hub.taps.length → (getTap (softTap s m) m).ready = false ∧ (getTap (softTap s m) m).work = [] ∧
    (getTap (softTap s m) m).scan = none)

/-- R298–R300, R305–R307, R286: a scan that may start runs or is DONE at once, one that may not reads ABORTED; each delivery writes the next
block's data, its header, then PRODUCED, waits while the ring is full, and ends the scan with its last block, a CONSUMED beyond PRODUCED or a
silent consumer; a patrol counts its pass; an injection is armed by the Cabinet alone; an engine written 1 returns to service. -/
def Obligations.ScansPatrolAndInjection : Prop :=
  (∀ (s : State) (m : Nat) (ag : Agent) (v : Word), m < 8 → isFrozen s (tapPg m) = false → bit v.toNat 1 = false → bits v.toNat 31 16 ≠ 0 →
    scanState s m ≠ ScanSt.RUNNING → (getTap s m).ready = true →
    exec (.scanStart m ag v) s = .next (Machine.scanStart (((s.wr (tapPg m) TAP_SCAN_CTRL_TIER (bits v.toNat 4 4)).wr (tapPg m) TAP_SCAN_CTRL_DELIVER
      (bits v.toNat 5 5)).wr (tapPg m) TAP_SCAN_CTRL_TIMEOUT (bits v.toNat 31 16)) m ag)) ∧
  (∀ (s : State) (m : Nat) (ag : Agent),
    (scanTo s m < scanFrom s m → Machine.scanStart s m ag = scanRefuse s m Syn.RANGE ag) ∧
    (scanFrom s m ≤ scanTo s m → (HbmRegion.work.span s.cfg).2 < ringSize (ringSlots s m) →
      Machine.scanStart s m ag = scanRefuse s m Syn.SIZE ag) ∧
    (scanRefuse s m Syn.RANGE ag).rd (tapPg m) TAP_SCAN_CTRL_STATE = ScanSt.ABORTED ∧
    (scanFrom s m = scanTo s m → ringSize (ringSlots s m) ≤ (HbmRegion.work.span s.cfg).2 →
      inRegion s.cfg .work (ringBase s m) (ringSize (ringSlots s m)) = true → mdOf s.cfg (ringBase s m) = 48 + m →
      Machine.scanStart s m ag = endScan ((s.wr (tapPg m) TAP_SCAN_CNT 0).wr (tapPg m) TAP_SCAN_SKIP 0) m ScanSt.DONE)) ∧
  (∀ (s : State) (m : Nat) (ag : Agent) (v : Word), m < 8 → isFrozen s (tapPg m) = false → bit v.toNat 0 = false →
    (scanState s m = ScanSt.RUNNING → exec (.scanAbort m ag v) s = .next (endScan s m ScanSt.ABORTED)) ∧
    (scanState s m ≠ ScanSt.RUNNING → bits v.toNat 31 16 ≠ 0 →
      exec (.scanAbort m ag v) s = .next (syn s (tapPg m) Syn.STATE ag false TAP_SCAN_CTRL_STATE.off))) ∧
  (∀ (s : State) (m eng1 : Nat) (f1 f2 : Bool) (sc : Scan), m < 8 → (getTap s m).scan = some sc → isFrozen s (tapPg m) = false →
    let c := noteConsumed s m sc
    let r := scanSeek s m c (c.head - c.next)
    (r.2.produced < r.2.consumed → exec (.scanDeliver m eng1 f1 f2) s =
      .next (syn (endScan r.1 m ScanSt.ABORTED) (tapPg m) Syn.RANGE .block false TAP_SCAN_CTRL_STATE.off)) ∧
    (r.2.consumed ≤ r.2.produced → r.2.head ≤ r.2.next → exec (.scanDeliver m eng1 f1 f2) s = .next (endScan r.1 m ScanSt.DONE)) ∧
    (r.2.consumed ≤ r.2.produced → r.2.next < r.2.head →
      (ringSlots r.1 m ≤ r.2.produced - r.2.consumed →
        exec (.scanDeliver m eng1 f1 f2) s = .next (setTap r.1 m { getTap r.1 m with scan := some r.2 })) ∧
      (r.2.produced - r.2.consumed < ringSlots r.1 m →
        let d := deliverBlock r.1 m eng1 f1 f2 (getEntry r.1 m (scanTier r.1 m) r.2.next)
        let slots := ringSlots r.1 m
        let base := ringBase r.1 m
        let i := r.2.produced % slots
        let a := hbmWriteP d.1 (base + ringData slots + i * 65536) d.2.2
        let b := hbmWrite a (base + 64 + i * 64) d.2.1.bytes
        let e := hbmWrite b base (leBytes 8 (r.2.produced + 1))
        exec (.scanDeliver m eng1 f1 f2) s =
          .next (scanOn (e.incr (tapPg m) TAP_SCAN_CNT) m { r.2 with next := r.2.next + 1, produced := r.2.produced + 1 }))) ∧
    (c.since + s.rd (tapPg m) TAP_SCAN_CTRL_TIMEOUT * 1000000 ≤ s.now .hub → exec (.scanTimeout m) s =
      .next (syn (endScan s m ScanSt.ABORTED) (tapPg m) Syn.TIMEOUT .block false TAP_SCAN_CTRL_STATE.off)) ∧
    (s.now .hub < c.since + s.rd (tapPg m) TAP_SCAN_CTRL_TIMEOUT * 1000000 →
      exec (.scanTimeout m) s = .next (setTap s m { getTap s m with scan := some c }))) ∧
  (∀ (s : State) (m : Nat), m < 8 → s.rd (Pg.mem (48 + m)) MEM_SCRUB_HOURS ≠ 0 →
    (getTap s m).patrol + s.rd (Pg.mem (48 + m)) MEM_SCRUB_HOURS * 3600000000000 ≤ s.now .hub →
    let u := findErrors s (mdBase s.cfg m) (mdSize s.cfg)
    exec (.patrol m [] []) s = .next (raise ((setTap u m { getTap u m with patrol := u.now .hub }).bump (Pg.mem (48 + m)) MEM_SCRUB_PASSES)
      (Pg.mem (48 + m)) Irq.MEM_SCRUB_DONE)) ∧
  (∀ (s : State) (m : Nat) (ag : Agent) (v : Word), m < 8 →
    (ag ≠ .cabinet → exec (.errorInject m ag v) s = .next (syn s (Pg.mem (48 + m)) Syn.AUTH ag false MEM_INJ_CTRL.off)) ∧
    (v.toNat % 4 = 3 → exec (.errorInject m .cabinet v) s = .next (syn s (Pg.mem (48 + m)) Syn.RANGE .cabinet false MEM_INJ_CTRL.off)) ∧
    (v.toNat % 4 ≠ 3 → exec (.errorInject m .cabinet v) s = .next (s.wr (Pg.mem (48 + m)) MEM_INJ_CTRL (v.toNat % 4)))) ∧
  (∀ (s : State) (pg : Page) (ag : Agent) (v : Word), pageBlk s.cfg pg = some .cmp → isFrozen s pg = false →
    exec (.engineEnableWrite pg ag v) s = .next (engineEnable s pg ag v.toNat)) ∧
  (∀ (s : State) (m : Nat) (v : Nat), (engineEnable s (cmpPg m) .cabinet v).rd (cmpPg m) CMP_ENG_EN = v % 65536 ∧
    ∀ e < 16, bit v e = true → bit ((engineEnable s (cmpPg m) .cabinet v).rd (cmpPg m) CMP_ENG_OUT) e = false)

/-- R340–R342, R346–R350, R376: the outcome of a state is the first that applies; a partial leaves when its wait is over, a lead decides when the
partials are in or the wait ends; a replay's waits; the end of an observation; what Reach hands on. -/
def Obligations.DigestOutcomesAndWaits : Prop :=
  (∀ (ps : List DPart) (ms : List Member),
    (outcomeOf ps ms = 3 ↔ (∃ p ∈ ps, ∃ x ∈ p.groups, x.state = 2) ∨ (∃ p ∈ ps, ∃ q ∈ ps, p.epoch ≠ q.epoch)) ∧
    (outcomeOf ps ms = 0 → ∀ g ∈ groupsOf ms, ∃ d, groupDigest ps ms g = some d) ∧
    (outcomeOf ps ms = 0 → ∀ g ∈ groupsOf ms, ∀ h ∈ groupsOf ms, groupDigest ps ms g = groupDigest ps ms h) ∧
    (outcomeOf ps ms = 1 → ∃ g ∈ groupsOf ms, ∃ h ∈ groupsOf ms, ∃ d e, groupDigest ps ms g = some d ∧ groupDigest ps ms h = some e ∧ d ≠ e) ∧
    outcomeOf ps ms ≤ 3) ∧
  (∀ (s : State) (job step : Nat) (j : HJob) (c : DCmp), hjob s job = some j → cmpOf j step 0 = some c → c.decided = none →
    (c.sent = false → c.reports ≠ [] → c.first + reportWait s j ≤ s.now .hub → exec (.reportWaitExpiry job step) s = .next (sendPartial s job step 0)) ∧
    (s.now .hub < c.first + reportWait s j → exec (.reportWaitExpiry job step) s = .next s) ∧
    (c.siteFirst + 2 * reportWait s j ≤ s.now .hub →
      exec (.outcomeWaitExpiry job step) s = .next (tryDecide (sendPartial s job step 0) job step 0 true)) ∧
    (s.now .hub < c.siteFirst + 2 * reportWait s j → exec (.outcomeWaitExpiry job step) s = .next s)) ∧
  (∀ (s : State) (j : HJob) (g : JobGen) (c : DCmp) (step : Nat), hjob s j.job = some j → cmpOf j step 0 = some c → cmpGen s j c = some g →
    leads s g = true → c.decided = none → tryDecide s j.job step 0 true = decideState s j g c) ∧
  (∀ (s : State) (d : Nat) (f : DPart), isXD d = true → isFrozen s (Pg.ing d) = false →
    exec (.dpartialRx d f) s = .next (dpartialIn s d f) ∧
    (f.ver ≠ 1 → dpartialIn s d f = count (syn s (Pg.ing d) Syn.RANGE) d Cnt.HDR) ∧
    (∀ slot j, f.ver = 1 → slotOf s d f.job = some slot → hjob s f.job = some j →
      (liveJobKey s f.job f.epoch).any (fun k => k.val == f.key) = true → f.intact = true → leads s (liveGen s d slot) = true →
      (servingHubs s (liveGen s d slot)).contains f.contrib = true →
      (∀ p, p ∈ (cmpFor s j f).partials → p.contrib = f.contrib → p.rev < f.rev) → (cmpFor s j f).decided = none →
      siteOf f.contrib ≠ siteOf (selfId s) →
      dpartialIn s d f = tryDecide (putCmp (count s d Cnt.AGG) f.job { cmpFor s j f with
        partials := f :: (cmpFor s j f).partials.filter (fun p => p.contrib != f.contrib) }) f.job f.step f.round false)) ∧
  (∀ (s : State) (job : Nat) (j : HJob) (r : Rpl) (c : DCmp) (g : JobGen), hjob s job = some j → j.rpl = some r → r.ordered ≠ 0 →
    (r.waited = false → r.ordered + replayWait s j ≤ s.now .hub → cmpOf j r.step r.id = some c → cmpGen s j c = some g →
      exec (.replayWaitExpiry job) s = .next (sendPartial (modJob (putCmp s job c) job (fun j => { j with rpl := some { r with
        waited := true, named := (partNamed j c (servedMembers s g)).map (fun n => (n.1, n.2, 0xFFFF, 2 ^ 48 - 1)) } })) job r.step r.id)) ∧
    (s.now .hub < r.ordered + replayWait s j → exec (.replayWaitExpiry job) s = .next s) ∧
    ((cmpOf j r.step 0).bind (cmpGen s j) = some g →
      (r.ordered + replayWait s j + 2 * reportWait s j + reachD s g ≤ s.now .hub → exec (.replayExpired job) s = .next (endReplay s j g r 3 [])) ∧
      (s.now .hub < r.ordered + replayWait s j + 2 * reportWait s j + reachD s g → exec (.replayExpired job) s = .next s))) ∧
  (∀ (s : State) (job unit : Nat) (j : HJob) (o : Obs), hjob s job = some j → j.obs.find? (fun o => o.unit == unit) = some o → o.until_ ≠ 0 →
    o.quarantine = none → o.until_ ≤ s.now .hub →
    exec (.observationEnd job unit) s = .next (addPend (modJob s job (fun j => { j with obs := j.obs.filter (fun x => x.unit != unit) })) job (s.now .hub)
      { type := 0x14, code := 3, flags := 0, unit, a := o.until_ / 1000000000, b := o.events })) ∧
  (∀ (s : State) (entry : Nat) (sets : List (List (Nat × Nat))), (∃ x ∈ s.hub.cabinet.searches, x.entry = entry) →
    let big := sets.filter (fun l => decide (2 ≤ l.length))
    let u := setCabinet s { s.hub.cabinet with searches := s.hub.cabinet.searches.filter (fun x => x.entry != entry) }
    let v := (big.zipIdx.flatMap (fun x => corrEntries entry x.2 x.1)).foldl postCorr u
    exec (.correlationDone entry sets) s =
      .next (endEntry (modEntry v entry (fun e => { e with result := big.flatMap (fun l => l.length :: l.map (·.1)) })) entry Jr.DONE 0 []))

/-! ### Reach, the gateway pages -/

/-- R363–R378, R381: a Reach port sends a HELLO every millisecond while aligned; a HELLO of the configured peer that shows the own session takes CONNECT
to UP, any other sender makes the port MISWIRED, silence takes it DOWN; DATA leaves lost frames first, then new ones the window admits; a
frame whose timer runs out is sent again; an ACK below the cumulative one changes nothing, a higher one releases what it covers; received
frames are stored once, in SEQ order, and acknowledged. -/
def Obligations.ReachSessionsAndFrames : Prop :=
  (∀ (s : State) (l : Nat), l < 2 → rchState s l ≠ Rch.DISABLED →
    (s.hub.aligned.getD (14 + l) false = true → (∀ t, (getRch s l).helloTx = some t → t + 1000000 ≤ s.now .hub) →
      exec (.reachHelloTx l) s = .next ((setRch s l { getRch s l with helloTx := some (s.now .hub) }).send
        (.reachHello l (s.rd (Pg.rch l) RCH_SESSION) (getRch s l).rxSession))) ∧
    (∀ sender port tx rx : Nat,
      exec (.reachHello l false sender port tx rx) s = .next (rchCount s l RCnt.RX_BAD) ∧
      (sender = s.rd (Pg.rch l) RCH_PEER_HUB → port = s.rd (Pg.rch l) RCH_PEER_PORT →
        exec (.reachHello l true sender port tx rx) s = .next (helloOk s l tx rx)) ∧
      (sender ≠ s.rd (Pg.rch l) RCH_PEER_HUB → rchState s l ≠ Rch.MISWIRED → exec (.reachHello l true sender port tx rx) s =
        .next (raise (setLink (setRch s l { getRch s l with helloRx := s.now .hub }) l Rch.MISWIRED) (Pg.rch l) Irq.RCH_MISWIRED))) ∧
    (rchState s l = Rch.CONNECT ∨ rchState s l = Rch.UP ∨ rchState s l = Rch.MISWIRED →
      (getRch s l).helloRx + s.rd (Pg.rch l) RCH_RETX_HELLO_LOSS_MS * 1000000 ≤ s.now .hub ∨ s.hub.aligned.getD (14 + l) false = false →
      exec (.helloLoss l) s = .next (setLink s l Rch.DOWN))) ∧
  (∀ (s : State) (l st : Nat), st < 8 → (setLink s l st).rd (Pg.rch l) RCH_STATE_STATE = st ∧
    (rchState s l = Rch.UP → st ≠ Rch.UP → (setLink s l st).rd (Pg.rch l) (BLK_IRQ_STAT Irq.RCH_DOWN) = 1) ∧
    (rchState s l ≠ Rch.UP → st = Rch.UP → (setLink s l st).rd (Pg.rch l) (BLK_IRQ_STAT Irq.RCH_UP) = 1)) ∧
  (∀ (s : State) (l tx rx : Nat), rchState s l = Rch.CONNECT → rx = s.rd (Pg.rch l) RCH_SESSION →
    helloOk s l tx rx = setLink (peerSession (setRch s l { getRch s l with helloRx := s.now .hub }) l tx) l Rch.UP) ∧
  (∀ (s : State) (l : Nat), l < 2 →
    let u := noteLimited (feed s l) l
    (maySend u l = false → exec (.dataTx l) s = .next u) ∧
    (maySend u l = true → (∀ f, nextLost (getRch u l) = some f → exec (.dataTx l) s = .next (noteLimited (sendAgain u l f) l)) ∧
      (nextLost (getRch u l) = none →
        (∀ f, nextNew (getRch u l) = some f →
          (windowOpen u l f = true → exec (.dataTx l) s = .next (noteLimited (sendNew u l f) l)) ∧
          (windowOpen u l f = false → exec (.dataTx l) s = .next u)) ∧
        (nextNew (getRch u l) = none → exec (.dataTx l) s = .next u)))) ∧
  (∀ (s : State) (l seq : Nat) (f : RTx) (t : Nat), l < 2 → (getRch s l).ring.find? (fun f => f.seq == seq) = some f → f.first = some t →
    f.sacked = false → f.lost = false → isFrozen s (Pg.rch l) = false → rchState s l = Rch.UP →
    (f.timer + frameTimer s l f ≤ s.now .hub → (getRch s l).pause = none →
      exec (.rtoExpiry l seq) s = .next (sendAgain (rchCount s l RCnt.RTO_EXPIRIES) l f)) ∧
    (s.now .hub < f.timer + frameTimer s l f → exec (.rtoExpiry l seq) s = .next s)) ∧
  (∀ (s : State) (l : Nat) (a : RAck), l < 2 → rchState s l = Rch.UP →
    (a.blocks.length ≤ 8 → exec (.ack l true a) s = .next (ackIn s l a)) ∧
    exec (.ack l false a) s = .next (rchCount s l RCnt.RX_BAD) ∧
    (a.cum < (getRch s l).cum → ackIn s l a = s)) ∧
  (∀ (s : State) (l pos : Nat) (f : RData), l < 2 → rchState s l ≠ Rch.DISABLED → f.ver = 1 → f.type = 1 → f.lenOk = true → f.cls = 1 ∨ f.cls = 2 →
    let r := getRch s l
    let t := (rxStamp s (14 + l) pos / 1000).toNat
    (f.session ≠ r.rxSession → exec (.data l pos f) s = .next (rchCount s l RCnt.RX_OLD_SESSION)) ∧
    (f.session = r.rxSession → r.rxSession ≠ 0 →
      (f.seq ≤ r.rxCum → exec (.data l pos f) s = .next (rchCount (setRch s l { r with echo := some (f.seq, t), ackNow := true }) l RCnt.RX_DUP_SEQ)) ∧
      (f.seq = r.rxCum + 1 → (∀ g ∈ r.rxOoo, g.seq ≠ f.seq) → exec (.data l pos f) s = .next (storeData s l t f)))) ∧
  (∀ (s : State) (l : Nat), l < 2 → rchState s l = Rch.UP → (getRch s l).ackWait.isSome = true ∨ (getRch s l).ackNow = true →
    exec (.ackTx l) s = .next ((setRch s l { getRch s l with ackWait := none, ackNow := false }).send
      (.reachAck l (s.rd (Pg.rch l) RCH_SESSION) (ackOut s l)))) ∧
  (∀ (s : State) (l : Nat), l < 2 →
    ((∃ f ∈ (getRch s l).ring, f.sacked = false ∧ ∃ t, f.first = some t ∧ t + retxMax s l ≤ s.now .hub) →
      exec (.sessionReset l) s = .next (feed (Machine.sessionReset s l) l)) ∧
    ((∀ f ∈ (getRch s l).ring, f.sacked = true) → exec (.sessionReset l) s = .next s) ∧
    exec (.frameAbandon l) s = .next (feed (rchCount (setRch s l { getRch s l with
      ring := (getRch s l).ring.filter (fun f => f.sacked || decide (s.now .hub < f.born + 2 * retxMax s l)) }) l RCnt.ABANDONED
      ((getRch s l).ring.filter (fun f => !f.sacked && decide (f.born + 2 * retxMax s l ≤ s.now .hub))).length) l)) ∧
  (∀ (s : State) (l : Nat) (f : RRx) (fs : List RRx), l < 2 → isFrozen s (Pg.rch l) = false → (getRch s l).rxQ = f :: fs →
    (f.dest ≠ selfId s → exec (.rxDeliver l) s =
      .next ((rchCount (setRch s l { getRch s l with rxQ := fs }) l RCnt.FWD).send (.forward f.dest f.dest f.seg))) ∧
    (∀ a rest, f.dest = selfId s → isFrozen s (Pg.ing (62 + l)) = false → collect (getRch s l).reasm f.seg = (rest, some (.agg a)) →
      exec (.rxDeliver l) s = .next (aggregateIn (setRch s l { getRch s l with rxQ := fs, reasm := rest }) (62 + l) a)) ∧
    (∀ p rest, f.dest = selfId s → isFrozen s (Pg.ing (62 + l)) = false → collect (getRch s l).reasm f.seg = (rest, some (.dpart p)) →
      exec (.rxDeliver l) s = .next (dpartialIn (setRch s l { getRch s l with rxQ := fs, reasm := rest }) (62 + l) p))) ∧
  (∀ w n : Nat, n ≤ 268435456 → w ≤ ringPlace w n ∧ ringPlace w n % 268435456 + n ≤ 268435456)

/-- R380, R381, R383–R386: an edge of a protection line is timed, counted and raised, and pauses its Reach sender until the falling edge or the
limit; the lines of a GSI page are updated once from each sealed window of the gateway job. -/
def Obligations.GatewayPages : Prop :=
  (∀ (s : State) (l : Nat), l < 2 → s.rd (gsiPg l) GSI_PSE_LEVEL = 0 → (s.rd Pg.xLcs LCS_ROLE_TX_B ≠ 1 ∨ s.rd Pg.xLcs LCS_REACH_CFG_PORT ≠ l) →
    let t := edgeTime s l
    let u := ((s.wr (gsiPg l) GSI_PSE_LEVEL 1).bump (gsiPg l) GSI_PSE_RISES).wr (gsiPg l) GSI_PSE_T (time96 t)
    let v := setRch u l { getRch u l with rises := (getRch u l).rises ++ [t] }
    exec (.pseRise l) s = .next (pauseReach (raise v (gsiPg l) Irq.GSI_PSE_RISE) l t)) ∧
  (∀ (s : State) (l : Nat), l < 2 → s.rd (gsiPg l) GSI_PSE_LEVEL = 1 →
    exec (.pseRise l) s = .next s ∧
    exec (.pseFall l) s = .next (endPause (raise ((s.wr (gsiPg l) GSI_PSE_LEVEL 0).wr (gsiPg l) GSI_PSE_LEN
      (min ((edgeTime s l - ofTime96 (s.rd (gsiPg l) GSI_PSE_T)) / 1000) 0xFFFFFFFF)) (gsiPg l) Irq.GSI_PSE_FALL) l)) ∧
  (∀ (s : State) (l e t : Nat), l < 2 → (getRch s l).pause = some (e, t) → isFrozen s (Pg.rch l) = false →
    (t + s.rd (Pg.rch l) RCH_RTO_PSE_MAX_MS * 1000000 ≤ s.now .hub →
      exec (.pauseTimeout l) s = .next (raise (endPause s l) (gsiPg l) Irq.GSI_PSE_STUCK)) ∧
    (s.now .hub < t + s.rd (Pg.rch l) RCH_RTO_PSE_MAX_MS * 1000000 → exec (.pauseTimeout l) s = .next s)) ∧
  (∀ (s : State) (l t : Nat), l < 2 → l < s.hub.rch.length → rchState s l ≠ Rch.DISABLED → (getRch s l).pause = none →
    (getRch (pauseReach s l t) l).pause = some (t, t) ∧ (pauseReach s l t).rd (Pg.rch l) RCH_STATE_PAUSED = 1 ∧ maySend (pauseReach s l t) l = false) ∧
  (∀ (s : State) (l slot n : Nat) (g : JobGen), l < 2 → genOfWin s slot n = some g → s.rd (gsiPg l) GSI_JOB ≠ 0 → g.job = s.rd (gsiPg l) GSI_JOB →
    (theWin s g n).sealed = true → (∀ m, (getRch s l).gsiWin = some m → m < n) →
    let lines := (List.range 8).filter (fun i => s.rd (gsiPg l) GSI_LINE_CFG_ROLE i != 0)
    let recOf (i : Nat) : Option RecView :=
      ((theWin s g n).table.find? (fun t => t.body.hdr.unit == s.rd (gsiPg l) GSI_LINE_CFG_UNIT i && !t.late && !t.snapshot)).bind
        (fun t => readRecord t.body.plain)
    let upd (s : State) (i : Nat) : State := ((recOf i).map (fun v => lineRecord s l i v)).getD (lineMissing s l i)
    let u := lines.foldl upd s
    let w := setRch u l { getRch u l with gsiWin := some n }
    (∀ i, lines.find? (fun i => s.rd (gsiPg l) GSI_LINE_CFG_ROLE i == 1) = some i →
      exec (.gsiUpdate l slot n) s = .next (crossCheck w l n g.k (((recOf i).map (fun v => hotOf v 5)).getD 0 != 0))) ∧
    (lines.find? (fun i => s.rd (gsiPg l) GSI_LINE_CFG_ROLE i == 1) = none → exec (.gsiUpdate l slot n) s = .next w)) ∧
  (∀ (s : State) (l i : Nat), l < 2 → (lineMissing s l i).rd (gsiPg l) GSI_LINE_STAT_FRAME i = 3)

/-! ### Power of the Hub -/

/-- R393, R396–R403: the level is the lowest of the level requested and the causes' ceilings, broadcast 2 µs ahead; an asserted input or a violated limit
lowers its cause's ceiling, which rises by one a step once it is clear and its interval is over; a trip takes THERM to 0; a class's GAIN moves by at
most 1/64 within its range; the lock is the Cabinet's. -/
def Obligations.HubPowerControl : Prop :=
  (∀ s : State, (∀ c ∈ s.hub.power.causes, targetLevel s ≤ c.ceil) ∧ targetLevel s ≤ s.rd Pg.hPwr HPWR_LEVEL ∧
    (targetLevel s = s.rd Pg.hPwr HPWR_LEVEL ∨ ∃ c ∈ s.hub.power.causes, targetLevel s = c.ceil)) ∧
  (∀ (s : State) (l t : Nat), s.hub.power.bcast = some (l, t) →
    (t ≤ s.now .hub → exec .levelApply s = .next (setLevel (setPower s { s.hub.power with bcast := none }) l)) ∧
    (s.now .hub < t → exec .levelApply s = .next s)) ∧
  (∀ s : State, (targetLevel s ≠ s.rd Pg.hPwr HPWR_STATUS_LEVEL → s.hub.power.bcast = none →
      decideLevel s = setPower s { s.hub.power with bcast := some (targetLevel s, s.now .hub + 2000) }) ∧
    (targetLevel s = s.rd Pg.hPwr HPWR_STATUS_LEVEL →
      decideLevel s = (setPower s { s.hub.power with bcast := none }).wr Pg.hPwr HPWR_STATUS_CAUSE (targetCause s))) ∧
  (∀ (s : State) (k : Nat), k < 8 →
    let u := s.wr Pg.hPwr HPWR_VR_ALERT (putBit (s.rd Pg.hPwr HPWR_VR_ALERT) k true)
    let v := s.wr Pg.hPwr HPWR_VR_ALERT (putBit (s.rd Pg.hPwr HPWR_VR_ALERT) k false)
    (bit s.hub.power.vrEn k = true → exec (.vrAlert k) s = .next (lowerTo u 1 (u.rd Pg.hPwr HPWR_THR_LEVEL))) ∧
    (bit s.hub.power.vrEn k = false → exec (.vrAlert k) s = .next u) ∧
    (vrOn v = true → exec (.vrAlertDeassert k) s = .next v) ∧ (vrOn v = false → exec (.vrAlertDeassert k) s = .next (fastClear v 1))) ∧
  (∀ (s : State) (k : Nat), k < 2 →
    let u := s.wr Pg.hPwr HPWR_VR_BRD (putBit (s.rd Pg.hPwr HPWR_VR_BRD) k true)
    let v := s.wr Pg.hPwr HPWR_VR_BRD (putBit (s.rd Pg.hPwr HPWR_VR_BRD) k false)
    exec (.boardThrottle k) s = .next (lowerTo u 3 (u.rd Pg.hPwr HPWR_THR_LEVEL)) ∧
    (v.rd Pg.hPwr HPWR_VR_BRD ≠ 0 → exec (.boardThrottleDeassert k) s = .next v) ∧
    (v.rd Pg.hPwr HPWR_VR_BRD = 0 → exec (.boardThrottleDeassert k) s = .next (fastClear v 3))) ∧
  (∀ (s : State) (c : Nat), 1 ≤ c → c ≤ 6 →
    (mayRaise s c = true → exec (.ceilingRaise c) s =
      .next (decideLevel (setCause s c { getCause s c with ceil := (getCause s c).ceil + 1, raised := s.now .hub }))) ∧
    (mayRaise s c = false → exec (.ceilingRaise c) s = .next s) ∧
    (mayRaise s c = true → (getCause s c).ceil < 63) ∧
    (c ≤ 3 → mayRaise s c = true → (getCause s c).low + 100000 ≤ s.now .hub ∧ (getCause s c).raised + 10000 ≤ s.now .hub ∧
      (getCause s 1).active = false ∧ (getCause s 2).active = false ∧ (getCause s 3).active = false) ∧
    (c = 4 → mayRaise s c = true → 100 * sum1ms s ≤ 97 * (s.rd Pg.hPwr HPWR_LIM_1MS * 1000000) ∧ (getCause s c).raised + 1000000 ≤ s.now .hub) ∧
    (c = 5 → mayRaise s c = true → (getCause s c).raised + 100000000 ≤ s.now .hub) ∧
    (c = 6 → mayRaise s c = true → s.hub.power.trip = false ∧ (getCause s c).raised + 10000000 ≤ s.now .hub)) ∧
  (∀ (s : State) (die temp : Nat), diePresent s.cfg die = true →
    let u := s.wr Pg.hPwr HPWR_DIE_STAT_TJ (min temp 255) die
    temp < u.rd Pg.hPwr HPWR_TJ_TJ_CRIT → (∀ d < 64, u.rd Pg.hPwr HPWR_DIE_STAT_TJ d < u.rd Pg.hPwr HPWR_TJ_TJ_THR) → mayRaise u 6 = false →
    exec (.thermalReading die temp) s = .next (causeClear u 6)) ∧
  (∀ s : State, s.hub.power.pmb = [] → exec .pmbusAlert s = .next s) ∧
  (∀ (s : State) (a c : Nat), s.hub.power.pmb = [(a, c)] → exec .pmbusAlert s = .next (s.send (.pmbusStatus a))) ∧
  (∀ (s : State) (readings : List (Option (Nat × Nat))), (∀ t, s.hub.power.pollAt = some t → t + 10000000 ≤ s.now .hub) → s.hub.power.pmb = [] →
    exec (.pmbusPoll readings) s = .next ((setPower s { s.hub.power with
      pollAt := some (s.now .hub), regE := s.hub.power.regE.zipIdx.map (fun x => x.1 + 0),
      seen := s.hub.power.seen.zipIdx.map (fun x => x.1 + 0) }).bump Pg.hPwr HPWR_VR_PMB_ERR 0 0)) ∧
  (∀ s : State, (∀ t, s.hub.power.calAt = some t → t + 100000000 ≤ s.now .hub) →
    let u := [0, 1, 2].foldl calibrateClass s
    exec .calibration s = .next (setPower u { u.hub.power with calAt := some (u.now .hub), regE := [0, 0, 0], estE := [0, 0, 0], seen := [0, 0, 0] })) ∧
  (∀ gain reg est : Nat, 32768 ≤ gain → gain ≤ 131072 → 32768 ≤ (gainStep gain reg est).1 ∧ (gainStep gain reg est).1 ≤ 131072 ∧
    (gainStep gain reg est).1 ≤ gain + gain / 64 ∧ gain ≤ (gainStep gain reg est).1 + gain / 64) ∧
  (∀ s : State, ∃ u : State, exec (.powerEstimateSample []) s = .next u ∧ u.rd Pg.hPwr HPWR_NOW = 0 ∧ u.hub.power.samples = (0 :: s.hub.power.samples).take 1000000) ∧
  (∀ (s : State) (die : Nat) (t q raw : Nat),
    (s.rd (Pg.til t) TIL_JOB_VALID = 1 → s.hub.retired.contains t = false → attribute_ s die (some (t, q)) raw =
      (s.incr Pg.hPwr HPWR_EN_TOTAL 0 (scaled s die raw)).incr Pg.hPwr HPWR_EN_JOB (s.rd (Pg.til t) TIL_JOB_SLOT * 8 + q) (scaled s die raw)) ∧
    (s.rd (Pg.til t) TIL_JOB_VALID ≠ 1 → attribute_ s die (some (t, q)) raw =
      (s.incr Pg.hPwr HPWR_EN_TOTAL 0 (scaled s die raw)).incr Pg.hPwr HPWR_EN_UNATTR 0 (scaled s die raw)) ∧
    attribute_ s die none raw = (s.incr Pg.hPwr HPWR_EN_TOTAL 0 (scaled s die raw)).incr Pg.hPwr HPWR_EN_SHARED 0 (scaled s die raw)) ∧
  (∀ (s : State) (ag : Agent) (v : Bool),
    (ag ≠ .cabinet → exec (.hubPwrLockWrite ag v) s = .next (syn s Pg.hPwr Syn.AUTH ag false HPWR_LOCK.off)) ∧
    (hpwrCheck s HPWR_LOCK.off (b2n v) = 0 → exec (.hubPwrLockWrite .cabinet v) s = .next (s.wr Pg.hPwr HPWR_LOCK (b2n v))) ∧
    (s.rd Pg.hPwr HPWR_LOCK = 1 → hpwrCheck s HPWR_LIM_FAST.off (b2n v) = Syn.STATE))

/-! ### Keys, the Bureau, trace, freeze -/

/-- R417, R420, R421, R430–R432: INSTALL puts the key of a record that unwraps into the slot of its kind, as NEXT, and refuses every other with the
syndrome stated; ERASE empties a slot; the code word zeroizes; another agent than the Cabinet is refused; a PREVIOUS key is discarded once
its overlap is over. -/
def Obligations.KeyStoreOperations : Prop :=
  (∀ (s : State) (d : Nat), isXD d = true →
    let f := hbmFetch s (secAddr s d) 152
    let r := f.2.map (·.1)
    exec (.install d .cabinet) s = .next (installRecord f.1 d .cabinet r) ∧
    (∀ slot : BitVec 12, slot.toNat ≤ 2063 → exec (.erase d .cabinet slot) s =
      .next (secResult (setHKeys s (s.hub.keys.filter (fun k => k.slot != slot.toNat))) d 0 slot.toNat .cabinet)) ∧
    (∀ slot : BitVec 12, 2063 < slot.toNat →
      exec (.erase d .cabinet slot) s = .next (syn s (Pg.sec d) Syn.RANGE .cabinet false SEC_LOAD_CTRL_OP.off)) ∧
    exec (.zeroize d .cabinet 0x5A45524F) s = .next (raise (setHKeys s []) (Pg.sec d) Irq.SEC_ZEROIZED) ∧
    (∀ v : Word, v ≠ 0x5A45524F → exec (.zeroize d .cabinet v) s = .next (syn s (Pg.sec d) Syn.RANGE .cabinet false SEC_ZEROIZE.off)) ∧
    (∀ ag, ag ≠ .cabinet → exec (.install d ag) s = .next (syn s (Pg.sec d) Syn.AUTH ag false SEC_LOAD_CTRL_OP.off) ∧
      (∀ slot, exec (.erase d ag slot) s = .next (syn s (Pg.sec d) Syn.AUTH ag false SEC_LOAD_CTRL_OP.off)) ∧
      ∀ v, exec (.zeroize d ag v) s = .next (syn s (Pg.sec d) Syn.AUTH ag false SEC_ZEROIZE.off))) ∧
  (∀ (s : State) (d : Nat) (r : List Nat),
    let kind := r.headD 0
    let job := ofBe ((r.drop 4).take 4)
    let epoch := ofBe ((r.drop 8).take 4)
    (s.rd (Pg.sec d) SEC_STAT_ID ≠ 1 → installRecord s d .cabinet r = secResult s d Syn.AUTH 0 .cabinet) ∧
    (s.rd (Pg.sec d) SEC_STAT_ID = 1 → 1 ≤ kind → kind ≤ 3 → installRecord s d .cabinet r = (Config.unwrap r).elim
      (raise (secResult (s.bump (Pg.sec d) SEC_CNT_UNWRAP_FAIL) d Syn.AUTH 0 .cabinet) (Pg.sec d) Irq.SEC_UNWRAP_FAIL { job, detail := epoch })
      (fun v => match keyPlace s kind job epoch with
        | .error c => secResult s d c 0 .cabinet
        | .ok (i, js) => secResult (addKey s i kind js (if kind = 1 then job else 0) epoch v.toNat) d 0 i .cabinet))) ∧
  (∀ (s : State) (i kind js job epoch val : Nat), keyAt s i = none → ∃ k, keyAt (addKey s i kind js job epoch val) i = some k ∧ k.state = KSt.NEXT ∧
    k.kind = kind ∧ k.job = job ∧ k.epoch = epoch ∧ k.val = val ∧ (addKey s i kind js job epoch val).hub.keys.length = s.hub.keys.length + 1) ∧
  (∀ (s : State) (kind job epoch i js : Nat), keyPlace s kind job epoch = .ok (i, js) →
    keyAt s i = none ∧ (∀ k ∈ s.hub.keys, k.kind = kind → (kind = 1 → k.job = job) → k.epoch < epoch) ∧
    (kind = 1 → js * 8 ≤ i ∧ i < js * 8 + 8) ∧ (kind ≠ 1 → 2048 ≤ i ∧ i < 2064)) ∧
  (∀ (s : State) (slot : Nat) (k : HKey), keyAt s slot = some k → k.state = KSt.PREVIOUS →
    (k.until_ ≤ s.now .hub → exec (.keyDiscard slot) s = .next (setHKeys s (s.hub.keys.filter (fun x => x.slot != slot)))) ∧
    (s.now .hub < k.until_ → exec (.keyDiscard slot) s = .next s))

/-- R436, R438, R441: a firmware post enters its die's Bureau with the payload of BUR_POST; an entry that reaches the store is placed under the next
SEQ where there is room, displaces the oldest entry of equal or lower severity, or is dropped and counted; a lookup captures the lowest SEQ at
or above the one asked for, for its agent alone. -/
def Obligations.BureauStoreAndLookups : Prop :=
  (∀ (s : State) (pg : Page) (ag : Agent) (sev : BitVec 3) (detail : BitVec 12), pageBlk s.cfg pg = some .bur →
    (ag = .steward → 5 < sev.toNat → exec (.firmwarePost pg ag sev detail) s = .next (syn s pg Syn.AUTH ag false 0x0A4)) ∧
    (ag ≠ .steward ∨ sev.toNat ≤ 5 → exec (.firmwarePost pg ag sev detail) s =
      .next (post s pg (0x3000 + detail.toNat) sev.toNat true (pg.isTally && ag == .regPort)
        ((List.range 6).flatMap (fun n => leBytes 4 (s.rd pg (BUR_POST_P n))))))) ∧
  (∀ (s : State) (p : Part), nextPost s p = none → exec (.bureauPost p) s = .next s) ∧
  (∀ (s u : State) (p : Part) (e : BurEntry), nextPost s p = some (e, u) →
    ((burStore u p).length < storeCap u.cfg p → exec (.bureauPost p) s = .next (place u p e)) ∧
    (storeCap u.cfg p ≤ (burStore u p).length →
      ((∀ v ∈ burStore u p, e.sev < v.sev) →
        exec (.bureauPost p) s = .next (raise (u.bump (storePage p) BUR_CNT_DROPPED e.sev) (storePage p) Irq.BUR_DROP)) ∧
      (∀ v, (burStore u p).find? (fun v => v.sev ≤ e.sev) = some v →
        exec (.bureauPost p) s = .next (place (setStore (u.bump (storePage p) BUR_CNT_EVICTED v.sev) p ((burStore u p).erase v)) p e)))) ∧
  (∀ (s : State) (p : Part) (e : BurEntry), ∃ x, burStore (place s p e) p = burStore s p ++ [x] ∧ x.seq = s.rd (storePage p) BUR_HEAD ∧
    x.sev = e.sev ∧ x.code = e.code ∧ x.payload = e.payload ∧ x.sec = e.sec ∧ x.ns = e.ns) ∧
  (∀ (s : State) (p : Part) (ag : Agent) (hi : Word),
    exec (.bureauLookup p ag hi) s =
      .next ((s.wr (storePage p) BUR_RD_SEQ_HI hi.toNat ag.code).wr (storePage p) BUR_RD_STAT_BUSY 1 ag.code)) ∧
  (∀ (s : State) (p : Part) (ag : Agent), s.rd (storePage p) BUR_RD_STAT_BUSY ag.code = 1 →
    let q := s.rd (storePage p) BUR_RD_SEQ_HI ag.code * 2 ^ 32 + s.rd (storePage p) BUR_RD_SEQ_LO ag.code
    let u := s.wr (storePage p) BUR_RD_STAT_BUSY 0 ag.code
    (∀ e, (burStore s p).find? (fun e => q ≤ e.seq) = some e →
      exec (.bureauLookupDone p ag) s = .next (captureEntry (u.wr (storePage p) BUR_RD_STAT_FOUND 1 ag.code) (storePage p) ag e.bytes)) ∧
    ((∀ e ∈ burStore s p, e.seq < q) → exec (.bureauLookupDone p ag) s = .next (u.wr (storePage p) BUR_RD_STAT_FOUND 0 ag.code))) ∧
  (∀ (s : State) (p : Part) (ag : Agent), s.rd (storePage p) BUR_RD_STAT_BUSY ag.code ≠ 1 → exec (.bureauLookupDone p ag) s = .next s)

/-- R449–R452: a trace unit moves between its states by ARM, STOP and CLEAR and by its comparators as the table says, any other such write being
refused with STATE; in RUN it records the packets of the selected sources and an overflow's OVERFLOW and SYNC packets; entering HOLD raises HOLD.
R453: a freeze that is TIMED ends FRZ_DUR µs after its instant, any freeze FRZ_LIMIT ms after it; the unit then runs, with RELEASED or AUTO_REL
raised. -/
def Obligations.TraceUnitsAndFreezes : Prop :=
  ((∀ (s : State) (pg : Page) (ag : Agent), isTrc s pg = true →
      (trcState s pg = TrcSt.IDLE → s.rd pg BLK_CTRL_EN ≠ 0 → trcBytes s pg = 0 ∨ pg.isTally = true ∨ inRegion s.cfg .chest (trcBase s pg) (trcBytes s pg) = true →
        s.rd pg TRC_POST * 1024 ≤ trcBytes s pg → (∀ i < 32, bit (s.rd pg TRC_SRC_LO) i = true → i < sourcesOf pg) →
        let u := ((s.wr pg TRC_WPTR 0).wr pg TRC_STAT_WRAPPED 0).wr pg TRC_STAT_TRIGGERED 0
        let v := setTrc (u.wr pg TRC_STAT_TRIG_CMP 0) pg Trc.reset
        (trcHas v pg 0 = true → exec (.traceArm pg ag) s = .next (v.wr pg TRC_STAT_STATE TrcSt.ARMED)) ∧
        (trcHas v pg 0 = false → trcBytes v pg ≠ 0 → exec (.traceArm pg ag) s = .next (v.wr pg TRC_STAT_STATE TrcSt.RUN))) ∧
      (trcState s pg ≠ TrcSt.IDLE → exec (.traceArm pg ag) s = .next (syn s pg Syn.STATE ag false TRC_CTRL_ARM.off)) ∧
      (trcState s pg = TrcSt.ARMED ∨ trcState s pg = TrcSt.RUN → exec (.traceStop pg ag) s = .next (trcHold (trcFlush s pg).1 pg)) ∧
      (trcState s pg = TrcSt.IDLE ∨ trcState s pg = TrcSt.HOLD → exec (.traceStop pg ag) s = .next (syn s pg Syn.STATE ag false TRC_CTRL_ARM.off)) ∧
      (trcState s pg = TrcSt.HOLD → exec (.traceClear pg ag) s = .next (setTrc (s.wr pg TRC_STAT_STATE TrcSt.IDLE) pg Trc.reset)) ∧
      (trcState s pg ≠ TrcSt.HOLD → exec (.traceClear pg ag) s = .next (syn s pg Syn.STATE ag false TRC_CTRL_ARM.off))) ∧
    (∀ (s : State) (pg : Page) (i : BitVec 3), isTrc s pg = true → trcMeets s pg i.toNat = true →
      (s.rd pg TRC_CMP_CFG_ACTION i.toNat = 0 → trcState s pg = TrcSt.ARMED → trcBytes (s.wr pg TRC_STAT_STATE TrcSt.RUN) pg ≠ 0 →
        exec (.traceComparator pg i) s = .next (s.wr pg TRC_STAT_STATE TrcSt.RUN)) ∧
      (s.rd pg TRC_CMP_CFG_ACTION i.toNat = 1 → trcState s pg = TrcSt.RUN →
        exec (.traceComparator pg i) s = .next (s.wr pg TRC_STAT_STATE TrcSt.ARMED)) ∧
      (s.rd pg TRC_CMP_CFG_ACTION i.toNat = 2 → trcState s pg = TrcSt.RUN →
        exec (.traceComparator pg i) s = .next (trcTrigger s pg i.toNat)) ∧
      (s.flag pg TRC_STAT_TRIGGERED = true → trcTrigger s pg i.toNat = s)) ∧
    (∀ (s : State) (pg : Page), isTrc s pg = true → trcState s pg = TrcSt.RUN →
      (∀ packets : List TPacket, exec (.traceLineWrite pg packets) s =
        .next (trcLines s pg (packLines ((packets.filter (fun p => decide (1 ≤ p.type) && decide (p.type ≤ 6) && trcSource s pg p.source &&
          packetLen p.type p.low == some p.payload.length)).map TPacket.bytes) []))) ∧
      (∀ (lost : Nat) (syncs : List (Nat × Word)), lost ≠ 0 →
        let u := s.bump pg TRC_LOST 0 lost
        let n := min lost 0xFFFFFFFF
        let sy := (syncs.filter (fun x => trcSource u pg x.1)).map (fun x => [0x40, x.1] ++ leBytes 4 x.2.toNat ++ trcTime u pg)
        exec (.traceOverflow pg lost syncs) s =
          .next (traceEntry (raise (trcLines u pg (packLines (([0x70, 0xFF] ++ leBytes 4 n) :: sy) [])) pg Irq.TRC_OVERFLOW) pg 3 n))) ∧
    (∀ (s : State) (pg : Page), trcState s pg ≠ TrcSt.RUN →
      (∀ packets, exec (.traceLineWrite pg packets) s = .next s) ∧ ∀ lost syncs, exec (.traceOverflow pg lost syncs) s = .next s) ∧
    (∀ (s : State) (pg : Page), trcState (trcHold s pg) pg = TrcSt.HOLD ∧ (trcHold s pg).rd pg (BLK_IRQ_STAT Irq.TRC_HOLD) = 1) ∧
    (∀ (ps : List (List Nat)) (l : List Nat), (∀ p ∈ ps, p.length ≤ 64) → l ∈ packLines ps [] → l.length ≤ 64)) ∧
  ((∀ (s : State) (pg : Page), pageBlk s.cfg pg = some .frz → s.rd pg FRZ_STAT_FROZEN = 1 →
      let t0 := ofTime96 (s.rd pg FRZ_T)
      (s.rd pg FRZ_CTRL = Frz.TIMED → t0 + s.rd pg FRZ_DUR * 1000 ≤ s.now pg.part →
        exec (.timedRelease pg) s = .next (raise (releaseUnit s pg false 2 5) pg Irq.FRZ_RELEASED)) ∧
      (s.rd pg FRZ_CTRL ≠ Frz.TIMED ∨ s.now pg.part < t0 + s.rd pg FRZ_DUR * 1000 → exec (.timedRelease pg) s = .next s) ∧
      (t0 + s.rd pg FRZ_LIMIT * 1000000 ≤ s.now pg.part →
        exec (.autoRelease pg) s = .next (raise ((releaseUnit s pg true 3 6).bump pg FRZ_COUNT_AUTO) pg Irq.FRZ_AUTO_REL)) ∧
      (s.now pg.part < t0 + s.rd pg FRZ_LIMIT * 1000000 → exec (.autoRelease pg) s = .next s)) ∧
    (∀ (s : State) (pg : Page), s.rd pg FRZ_STAT_FROZEN = 0 → exec (.timedRelease pg) s = .next s ∧ exec (.autoRelease pg) s = .next s) ∧
    (∀ (s : State) (pg : Page) (auto : Bool) (detail sev : Nat), (releaseUnit s pg auto detail sev).rd pg FRZ_STAT_FROZEN = 0) ∧
    (∀ (s : State) (pg : Page), (freezeUnit s pg).rd pg FRZ_STAT_FROZEN = 1))


/-! ### Resets, boot, the two complexes, the peer ports -/

/-- R468, R469, R484: power-on reset and package reset keep what the table says and run the boot; the boot counter counts; a Hub whose identity is not
rebuilt enters SAFE with failure IDENTITY on both complexes. -/
def Obligations.ResetsOfTheHub : Prop :=
  (∀ (s : State) (b : BootIn), exec (.hubPor b) s = .next (runBoot (powerOn s) b) ∧ exec (.hubReset b) s = .next (runBoot (packageReset s) b)) ∧
  (∀ (s : State) (k : RegKey),
    (k.pg.isTally = true → (packageReset s).cell k = s.cell k ∧ (powerOn s).cell k = s.cell k) ∧
    (k.pg.isTally = false → (powerOn s).cell k = resetVal s.cfg k ∧
      (packageKeeps k = true → (packageReset s).cell k = s.cell k) ∧
      (packageKeeps k = false → (packageReset s).cell k = resetVal s.cfg k))) ∧
  (∀ s : State, (packageReset s).tally = s.tally ∧ (powerOn s).tally = s.tally ∧ (packageReset s).hub.lcs = s.hub.lcs ∧
    (packageReset s).hub.burStore = s.hub.burStore ∧ (packageReset s).hub.jobs = [] ∧ (packageReset s).hub.keys = [] ∧
    (packageReset s).hub.cabinet.journal = [] ∧ (packageReset s).hub.tiles = [] ∧ (packageReset s).hub.hbm = [] ∧
    (powerOn s).hub.lcs = Hub.reset.lcs ∧ (powerOn s).hub.burStore = [] ∧
    (powerOn s).hub.cabinet.boots = s.hub.cabinet.boots ∧ (packageReset s).hub.cabinet.boots = s.hub.cabinet.boots ∧
    (powerOn s).hub.retired = s.hub.retired ∧ (packageReset s).hub.retired = s.hub.retired) ∧
  (∀ (s : State) (b : BootIn), b.identity.getD 0 false = false → b.identity.getD 1 false = false →
    cabRole (runBoot s b) 56 = Role.SAFE ∧ cabRole (runBoot s b) 57 = Role.SAFE ∧
    (runBoot s b).rd (Pg.cab 56) CAB_STATE_FAIL = BFail.IDENTITY ∧ (runBoot s b).rd (Pg.cab 57) CAB_STATE_FAIL = BFail.IDENTITY ∧
    (runBoot s b).hub.cabinet.boots = (s.hub.cabinet.boots + 1) % 2 ^ 16)

/-- R471, R473, R484, R486, R487: the chain gives a booting Hub the index after the one its frame names, a later frame of another index raises CHAIN;
an indexed Hub sends ENUM and the ACTIVE complex heartbeats once a millisecond; the STANDBY complex takes over after ten missed heartbeats or by
SWITCHOVER, refused with STATE where none is STANDBY; CAB_CTRL is the Cabinet's. -/
def Obligations.ChainAndComplexes : Prop :=
  (∀ (s : State) (index type : BitVec 4), type ≠ 1 → exec (.chainFrame index type) s = .next s) ∧
  (∀ (s : State) (index : BitVec 4) (b : BootIn) (d : Nat), s.hub.cabinet.boot = some b → complexIn s Role.BOOTING = some d →
    exec (.chainFrame index 1) s = .next (takeIndex s d (index.toNat + 1) b)) ∧
  (∀ (s : State) (index : BitVec 4), s.hub.cabinet.boot = none →
    (s.rd (Pg.cab 56) CAB_STATE_INDEXED = 1 → index.toNat + 1 ≠ s.rd (Pg.cab 56) CAB_STATE_HUB_INDEX →
      exec (.chainFrame index 1) s = .next (raise s (absentPage s .hub) Irq.CAB_CHAIN { detail := index.toNat })) ∧
    (index.toNat + 1 = s.rd (Pg.cab 56) CAB_STATE_HUB_INDEX → exec (.chainFrame index 1) s = .next s)) ∧
  (∀ s : State, s.rd (Pg.cab 56) CAB_STATE_INDEXED = 1 → (∀ t, s.hub.cabinet.chainTx = some t → t + 1000000 ≤ s.now .hub) →
    exec .chainEnumTx s = .next ((setCabinet s { s.hub.cabinet with chainTx := some (s.now .hub) }).send
      (.chainEnum (s.rd (Pg.cab 56) CAB_STATE_HUB_INDEX)))) ∧
  (∀ s : State, (complexIn s Role.ACTIVE).isSome = true → (∀ t, s.hub.cabinet.hbAt = some t → t + 1000000 ≤ s.now .hub) →
    exec .heartbeatTx s = .next ((setCabinet s { s.hub.cabinet with hbAt := some (s.now .hub) }).send .heartbeat)) ∧
  (∀ (s : State) (back : Bool) (t : Nat), s.hub.cabinet.hbAt = some t →
    (t + 10000001 ≤ s.now .hub → exec (.takeover back) s = .next (takeOver s back)) ∧
    (s.now .hub ≤ t + 10000000 → exec (.takeover back) s = .next s)) ∧
  (∀ (s : State) (back : Bool), complexIn s Role.STANDBY = none → takeOver s back = s) ∧
  (∀ (s : State) (d : Nat), complexIn s Role.STANDBY = some d → ∃ u : State, takeOver s true = resumeJournal u ∧
    cabRole u d = Role.ACTIVE ∧ cabRole u (113 - d) = Role.STANDBY ∧ u.hub.cabinet.sessions = [] ∧ u.rd (Pg.cab d) (BLK_IRQ_STAT Irq.CAB_TAKEOVER) = 1) ∧
  (∀ (s : State) (d : Nat) (v : Word) (back : Bool) (b : BootIn), d = 56 ∨ d = 57 →
    (∀ ag, ag ≠ .cabinet → exec (.cabSwitchover d ag v back) s = .next (syn s (Pg.cab d) Syn.AUTH ag false 0x064) ∧
      exec (.resetPkg d ag v b) s = .next (syn s (Pg.cab d) Syn.AUTH ag false 0x064)) ∧
    ((complexIn s Role.STANDBY).isSome = true → exec (.cabSwitchover d .cabinet 0x51530001 back) s = .next (takeOver s back)) ∧
    (complexIn s Role.STANDBY = none →
      exec (.cabSwitchover d .cabinet 0x51530001 back) s = .next (syn s (Pg.cab d) Syn.STATE .cabinet false 0x064)) ∧
    exec (.cabSwitchover d .cabinet 0x51530002 back) s = .next (syn s (Pg.cab d) Syn.RANGE .cabinet false 0x064) ∧
    exec (.resetPkg d .cabinet 0x51530002 b) s = .next (runBoot (packageReset s) b) ∧
    (∀ ag, exec (.cabSwitchover 58 ag v back) s = .next (syn s (absentPage s .hub) Syn.ABSENT ag false 0x064)))

/-- R166: a peer port sends a hello every millisecond, is UP by the hello of the peer it expects, MISWIRED by any other (with an entry when it
becomes so), and down after 4 ms without one. -/
def Obligations.PeerPortsFollowHellos : Prop :=
  (∀ (s : State) (p : Nat) (x : PeerPort), s.hub.peers[p]? = some x → hubSafe s = false →
    (p ≠ ownIndex s → s.hub.aligned.getD (10 + p) false = true → (∀ t, x.tx = some t → t + 1000000 ≤ s.now .hub) →
      exec (.peerHelloTx p) s = .next (sendOn (setPeer s p { x with tx := some (s.now .hub) }) (10 + p)
        (.peerHello p (s.rd (Pg.cab 56) CAB_BOARD_BOARD_ID) (ownIndex s)))) ∧
    (portTest s (10 + p) = false → p ≠ ownIndex s →
      exec (.peerHello p (s.rd (Pg.cab 56) CAB_BOARD_BOARD_ID) p (ownIndex s)) s = .next (setPeer s p { x with st := 1, rx := s.now .hub }) ∧
      ∀ board hub port, board ≠ s.rd (Pg.cab 56) CAB_BOARD_BOARD_ID ∨ hub ≠ p ∨ port ≠ ownIndex s →
        let u := setPeer s p { x with st := 2, rx := s.now .hub }
        (x.st = 2 → exec (.peerHello p board hub port) s = .next u) ∧
        (x.st = 0 → exec (.peerHello p board hub port) s = .next (cabEntry u 4 6 { unit := hub, detail := port })) ∧
        (x.st = 1 → exec (.peerHello p board hub port) s = .next (peerLost (cabEntry u 4 6 { unit := hub, detail := port }) p)))) ∧
  (∀ (s : State) (p : Nat) (x : PeerPort), s.hub.peers[p]? = some x →
    (x.rx + 4000000 ≤ s.now .hub → x.st = 2 → exec (.peerHelloLoss p) s = .next (setPeer s p { x with st := 0 })) ∧
    (x.rx + 4000000 ≤ s.now .hub → x.st = 1 → exec (.peerHelloLoss p) s = .next (peerLost (setPeer s p { x with st := 0 }) p)) ∧
    (s.now .hub < x.rx + 4000000 → exec (.peerHelloLoss p) s = .next s))

/-! ### Test pages, lane alignment -/

/-- R81, R497–R502, R505: TST_MODE, the generators and the checkers of a TST page act on the selection, for the Cabinet alone; a checker counts from
lock to loss of lock, which is raised; a UCIe module that loses a half runs on the other, with HALF_WIDTH raised at both ends. -/
def Obligations.ElectricalTest : Prop :=
  (∀ (s : State) (d : Nat), pageBlk s.cfg (Pg.tst d) = some .tst →
    (∀ (ag : Agent) (v : Word), ag ≠ .cabinet → exec (.tstModeWrite d ag v) s = .next (syn s (Pg.tst d) Syn.AUTH ag false TST_MODE_LOOP.off) ∧
      exec (.inject d ag) s = .next (syn s (Pg.tst d) Syn.AUTH ag false TST_GEN_PATTERN.off) ∧
      exec (.clear d ag) s = .next (syn s (Pg.tst d) Syn.AUTH ag false TST_CHK_PATTERN.off)) ∧
    (∀ v : Word, exec (.tstModeWrite d .cabinet v) s = .next (tstModeWrite s d .cabinet v.toNat)) ∧
    (tstHolds s.cfg d (tstSel s d) = true →
      let k := laneKey (tstSel s d)
      (s.rd (Pg.tst d) TST_GEN_PATTERN k = 0 → exec (.inject d .cabinet) s = .next s) ∧
      (s.rd (Pg.tst d) TST_GEN_PATTERN k ≠ 0 → exec (.inject d .cabinet) s = .next (s.send (.injectBit d k))) ∧
      exec (.clear d .cabinet) s = .next (((foldBits s d k).wr (Pg.tst d) TST_BITS 0 k).wr (Pg.tst d) TST_ERR 0 k)) ∧
    (tstHolds s.cfg d (tstSel s d) = false →
      exec (.inject d .cabinet) s = .next (syn s (Pg.tst d) Syn.ABSENT .cabinet false TST_GEN_PATTERN.off) ∧
      exec (.clear d .cabinet) s = .next (syn s (Pg.tst d) Syn.ABSENT .cabinet false TST_CHK_PATTERN.off))) ∧
  (∀ (s : State) (d v : Nat), tstModeRefusal s d .cabinet v = 0 →
    let k := unitKey (tstSel s d)
    let u := tstModeWrite s d .cabinet v
    u.rd (Pg.tst d) TST_MODE_LOOP k = bits v 1 0 ∧ u.rd (Pg.tst d) TST_MODE_HALF k = bits v 9 8 ∧ u.rd (Pg.tst d) TST_MODE_TEST k = bits v 31 31) ∧
  (∀ (s : State) (d kind index lane : Nat), tstHolds s.cfg d (kind, index, lane) = true →
    let k := tstKey kind index lane
    (s.rd (Pg.tst d) TST_CHK_PATTERN k ≠ 0 → s.rd (Pg.tst d) TST_CHK_LOCKED k = 0 → exec (.checkerLocked d kind index lane) s =
      .next (setLockedAt (s.wr (Pg.tst d) TST_CHK_LOCKED 1 k) d k (some s.hub.lcs.ticks))) ∧
    (∀ errs, s.rd (Pg.tst d) TST_CHK_LOCKED k ≠ 0 → exec (.lockLost d kind index lane errs) s =
      .next (raise ((unlockChecker s d k).bump (Pg.tst d) TST_ERR k errs) (Pg.tst d) Irq.TST_LOCK_LOST)) ∧
    (∀ errs, s.rd (Pg.tst d) TST_CHK_LOCKED k = 0 → exec (.lockLost d kind index lane errs) s = .next s)) ∧
  (∀ (s : State) (d m half : Nat), (across s.cfg d m).isSome = true → half ≤ 1 → halfFailed s d m half = false →
    exec (.halfFail d m half) s = .next (halfFail s d m half) ∧
    (halfFailed s d m (1 - half) = false → linkWidth s d m = 0 → ∀ e ∈ linkEnds s.cfg d m,
      linkWidth (halfFail s d m half) e.1 e.2 = 2 - half ∧ (halfFail s d m half).rd (Pg.tst e.1) (BLK_IRQ_STAT Irq.TST_HALF_WIDTH) = 1)) ∧
  (∀ (s : State) (port deskew : Nat) (up : Bool), port < 18 →
    let u : State := { s with hub := { s.hub with aligned := s.hub.aligned.set port up } }
    let v := u.wr (Pg.tst (portDie port)) TST_LINK_UP (b2n up) (portKey port)
    (port < 16 → up = true → exec (.laneAlignment port up deskew) s = .next (v.wr Pg.xLcs (LCS_TSC_STAT_DESKEW port) deskew)) ∧
    (port < 16 → up = false → exec (.laneAlignment port up deskew) s = .next v) ∧
    (port = 16 → exec (.laneAlignment port up deskew) s = .next (v.wr (Pg.cab 56) CAB_MGMT_MA_UP (b2n up))) ∧
    (port = 17 → exec (.laneAlignment port up deskew) s = .next (v.wr (Pg.cab 57) CAB_MGMT_MB_UP (b2n up))))

/-! ### Management sessions, their reads, SPDM -/

/-- R424, R426, R469, R475: a handshake within the settings of R424 opens a session where there is room for its kind; in SAFE a session without client
identity; an idle session closes after 300 s; a tenant is refused with AUTH and counted what is an operator's or another job's; a session in
SAFE all but HELLO, BOOT_STATUS and IMAGE_WRITE. -/
def Obligations.ManagementSessions : Prop :=
  (∀ (s : State) (port cert : Nat), port < 2 → s.hub.aligned.getD (16 + port) false = true → portTest s (16 + port) = false →
    (hubSafe s = false → (complexIn s Role.ACTIVE).isSome = true →
      (sessionRoom s true = true → exec (.mgmtSessionOpen port true true none cert) s = .next (addSession s port true false [] cert)) ∧
      (sessionRoom s true = false → exec (.mgmtSessionOpen port true true none cert) s = .next s) ∧
      (∀ jobs : List Nat, jobs.length ≤ 16 →
        (sessionRoom s false = true → exec (.mgmtSessionOpen port true true (some jobs) cert) s = .next (addSession s port false false jobs cert)) ∧
        (sessionRoom s false = false → exec (.mgmtSessionOpen port true true (some jobs) cert) s = .next s)) ∧
      (∀ role, exec (.mgmtSessionOpen port true false role cert) s = .next s)) ∧
    (hubSafe s = true → s.rd (Pg.sec 56) SEC_STAT_ID = 1 → sessionRoom s false = true → ∀ chains role,
      exec (.mgmtSessionOpen port true chains role cert) s = .next (addSession s port false true [] 0)) ∧
    (∀ chains role, exec (.mgmtSessionOpen port false chains role cert) s = .next s)) ∧
  (∀ s : State, (sessionRoom s true = true ↔ (s.hub.cabinet.sessions.filter (fun x => x.operator)).length < 8) ∧
    (sessionRoom s false = true ↔ (s.hub.cabinet.sessions.filter (fun x => !x.operator)).length < 56)) ∧
  (∀ (s : State) (ses : Nat) (x : Session), findSession s ses = some x →
    (x.last + 300000000000 ≤ s.now .hub →
      exec (.sessionIdle ses) s = .next (setSessions s (s.hub.cabinet.sessions.filter (fun y => y.id != ses)))) ∧
    (s.now .hub < x.last + 300000000000 → exec (.sessionIdle ses) s = .next s)) ∧
  (∀ (s : State) (ses : Nat), findSession s ses = none → exec (.sessionIdle ses) s = .next s ∧
    (∀ req, exec (.hello ses req) s = .next s) ∧ ∀ req job appt, exec (.jobDelete ses req job appt) s = .next s) ∧
  (∀ (s : State) (ses req : Nat) (x : Session), findSession s ses = some x → x.operator = false →
    let u := modSession s ses (fun x => { x with last := s.now .hub })
    let refuse (op : Nat) : State := (setCabinet u { u.hub.cabinet with denied := u.hub.cabinet.denied + 1 }).send (.reply x.id op req Syn.AUTH .empty)
    let refuseAnon (op : Nat) : State := u.send (.reply x.id op req Syn.AUTH .empty)
    (x.anon = false →
      (∀ a unit count, exec (.regRead ses req a unit count) s = .next (refuse 0x10)) ∧
      (∀ from_, exec (.bureauRead ses req from_) s = .next (refuse 0x60)) ∧
      (∀ job appt, exec (.jobDelete ses req job appt) s = .next (refuse 0x23)) ∧
      (∀ tile, exec (.retire ses req tile) s = .next (refuse 0x34)) ∧
      (∀ journal t, exec (.subscribe ses req journal (some t)) s = .next (refuse 0x61)) ∧
      (∀ job lo hi, x.jobs.contains job = false → exec (.verdictsGet ses req job lo hi) s = .next (refuse 0x50) ∧
        exec (.summaryGet ses req job lo hi) s = .next (refuse 0x51) ∧ exec (.energyGet ses req job lo hi) s = .next (refuse 0x52))) ∧
    (x.anon = true →
      (∀ a unit count, exec (.regRead ses req a unit count) s = .next (refuseAnon 0x10)) ∧
      (∀ journal bureau, exec (.subscribe ses req journal bureau) s = .next (refuseAnon 0x61)) ∧
      (∀ job lo hi, exec (.verdictsGet ses req job lo hi) s = .next (refuseAnon 0x50)) ∧
      (∀ tile, exec (.retire ses req tile) s = .next (refuseAnon 0x34))))

/-- R424–R426, R442, R476, R477: the operations without a journal entry and the SPDM requests, for an operator's session: the REPLY each is answered
with, the session's time of last use renewed. -/
def Obligations.ManagementReadsAndSpdm : Prop :=
  (∀ (s : State) (ses req : Nat) (x : Session), findSession s ses = some x → x.operator = true → x.anon = false →
    let u := modSession s ses (fun x => { x with last := s.now .hub })
    let rep (op st : Nat) (b : MBody) : Host.Outcome State Fault Refusal := .next (u.send (.reply ses op req st b))
    exec (.hello ses req) s =
      rep 0x01 0 (.hello Config.deviceId.toNat u.cfg.qh40 (cabRole u (servingDie u)) (ownIndex u) u.hub.cabinet.boots) ∧
    (let r := busRead u (Pg.cab (servingDie u)) CAB_STATE_ROLE.off .cabinet
     exec (.bootStatus ses req) s = .next (r.1.send (.reply ses 0x02 req 0 (.words [r.2])))) ∧
    (∀ a unit count, 256 < count → exec (.regRead ses req a unit count) s = rep 0x10 Syn.SIZE .empty) ∧
    (∀ a unit count d p, count ≤ 256 → addrPage a = .hub d p →
      let r := readHubWords (.hub d p) (addrOff a) count u
      exec (.regRead ses req a unit count) s = .next (r.1.send (.reply ses 0x10 req r.2.1 (.words r.2.2)))) ∧
    (∀ a unit count p, count ≤ 256 → addrPage a = .tally p → canCommand u = false → exec (.regRead ses req a unit count) s = rep 0x10 Syn.STATE .empty) ∧
    (∀ id e reqId, jentry u id = some e → exec (.journalGet ses req (some id) reqId) s = rep 0x40 0 (.entry e)) ∧
    (∀ id reqId, jentry u id = none → exec (.journalGet ses req (some id) reqId) s = rep 0x40 Syn.ABSENT .empty) ∧
    (∀ st from_ count, count ≤ 1024 → st ≤ 4 → exec (.journalList ses req st from_ count) s =
      rep 0x41 0 (.entries ((u.hub.cabinet.journal.reverse.filter (fun e => e.st == st && decide (e.id ≥ from_))).take count))) ∧
    (∀ job j lo hi, job ≠ 0 → hjob u job = some j →
      exec (.verdictsGet ses req job lo hi) s =
        rep 0x50 0 (.verdicts (j.ring.filter (fun r => decide (lo ≤ r.win) && decide (r.win ≤ hi))).reverse) ∧
      exec (.summaryGet ses req job lo hi) s = rep 0x51 0 (.summaries (t1Summaries u job lo hi))) ∧
    (∀ job lo hi a b, job ≠ 0 → lo % 100000000 = 0 → hi % 100000000 = 0 → lo < hi → energyAt u job lo = some a → energyAt u job hi = some b →
      exec (.energyGet ses req job lo hi) s = rep 0x52 0 (.power (powerOf (b - a) (hi - lo)))) ∧
    (∀ job lo hi, job ≠ 0 → lo % 100000000 ≠ 0 ∨ hi % 100000000 ≠ 0 ∨ hi ≤ lo → exec (.energyGet ses req job lo hi) s = rep 0x52 Syn.RANGE .empty) ∧
    (∀ from_,
      let l := (List.range (u.rd (Pg.hBur 56) BUR_HEAD - from_)).map (fun i => burEntry u (from_ + i))
      let got := l.filterMap (fun x => x)
      exec (.bureauRead ses req from_) s = rep 0x60 0 (.bureau got (l.length - got.length) (u.rd (Pg.hBur 56) BUR_HEAD))) ∧
    (∀ journal bureau, (∀ t, bureau = some t → t ≤ 7) → exec (.subscribe ses req journal bureau) s =
      .next ((modSession u ses (fun x => { x with journal, bureau })).send (.reply ses 0x61 req 0 .empty))) ∧
    exec (.getVersion ses req) s = rep 0 0 .version ∧
    exec (.getCapabilities ses req) s = rep 0 0 .capabilities ∧
    (∀ offered, exec (.negotiateAlgorithms ses req offered) s = rep 0 0 (if offered then .algorithms else .invalidRequest)) ∧
    exec (.getDigests ses req) s = rep 0 0 (.digests u.hub.cabinet.slot1) ∧
    (∀ slot c, certOf u slot = some c → exec (.getCertificate ses req slot) s = rep 0 0 (.certificate slot c) ∧
      (u.rd (Pg.sec 56) SEC_STAT_ID = 1 → ∀ nonce, exec (.challenge ses req slot nonce) s = rep 0 0 (.challenge slot nonce))) ∧
    (∀ slot nonce, certOf u slot = none → exec (.getCertificate ses req slot) s = rep 0 0 .invalidRequest ∧
      exec (.challenge ses req slot nonce) s = rep 0 0 .invalidRequest) ∧
    (∀ index, 1 ≤ index → index ≤ 5 → exec (.getMeasurements ses req index) s = rep 0 0 (.measurements [index]
      (u.hub.cabinet.cabImg[u.hub.cabinet.bootCopy % 2]?) u.hub.cabinet.config u.hub.retired (loadedModels u))) ∧
    exec (.getCsr ses req) s = .next ((setCabinet u { u.hub.cabinet with tlsKey := true }).send (.reply ses 0 req 0 .csr)) ∧
    (∀ slot cert, (slot = 1 → u.hub.cabinet.tlsKey = true → exec (.setCertificate ses req slot cert) s =
        .next ((setCabinet u { u.hub.cabinet with slot1 := some cert }).send (.reply ses 0 req 0 .certificateSet))) ∧
      (slot ≠ 1 ∨ u.hub.cabinet.tlsKey = false → exec (.setCertificate ses req slot cert) s = rep 0 0 .invalidRequest))) ∧
  (∀ nj d : Nat, powerOf nj d % 10 = 0 ∧ (0 < d → powerOf nj d * d ≤ nj))

/-! ### The command journal and its operations -/

/-- R47, R474, R478, R480–R483, R508: an accepted operation's entry, what checks that fail and checks that pass make of it; a repeated REQ_ID is answered
with the existing entry; the commit point commits a change whose pages all stand ARMED and cancels any other; a command without an answer is
followed up by READs, then bootstraps, then given up. -/
def Obligations.JournalEntriesAndCommitPoint : Prop :=
  (∀ (s v : State) (ses op req job id : Nat), Accepts s ses op req job v id → JournalIds s.hub.cabinet →
    ∃ e, jentry v id = some e ∧ e.op = op ∧ e.req = req ∧ e.job = job ∧ e.st = 0 ∧ e.accepted = s.now .hub ∧ e.steps = [] ∧
      v.hub.cabinet.nextId = s.hub.cabinet.nextId + 1 ∧ v.hub.cabinet.journal = e :: s.hub.cabinet.journal ∧ v.regs = s.regs) ∧
  (∀ (s : State) (id code : Nat) (e : JEntry), jentry s id = some e →
    jentry (abort s id code) id = some { e with st := Jr.ABORTED, syn := code, ended := s.now .hub, units := [] } ∧
    jentry (startEntry s id (fun e => e)) id = some { e with st := Jr.STARTED, started := s.now .hub }) ∧
  (∀ (s : State) (ses req job unit : Nat) (x : Session) (e : JEntry), findSession s ses = some x → x.operator = true → x.anon = false →
    let u := modSession s ses (fun x => { x with last := s.now .hub })
    (repeated u x req = some e → exec (.obsClear ses req job unit) s = .next (u.send (.reply x.id 0x33 req 0 (.entry e)))) ∧
    (repeated u x req = none → journalRoom u = none →
      exec (.obsClear ses req job unit) s =
        .next ((raise u (Pg.cab (servingDie u)) Irq.CAB_JRNL_FULL).send (.reply x.id 0x33 req Syn.SIZE .empty)))) ∧
  (∀ (s : State) (id : Nat), jentry s id = none → ∀ others, exec (.commitPoint id others) s = .next s) ∧
  (∀ (s : State) (id : Nat) (e : JEntry) (others : Bool), jentry s id = some e →
    let u := promoteSiteKeys s
    (e.final = true ∨ e.appt = 0 ∨ e.cancelled = true → exec (.commitPoint id others) s = .next u) ∧
    (e.final = false → e.appt ≠ 0 → e.cancelled = false → e.committed = false →
      (s.now .hub + e.lead < e.appt → exec (.commitPoint id others) s = .next u) ∧
      (e.appt ≤ s.now .hub + e.lead →
        (allArmed u e = true → others = true → exec (.commitPoint id others) s = .next (putJEntry (commitHook u e) { e with committed := true })) ∧
        (allArmed u e = false ∨ others = false →
          exec (.commitPoint id others) s = .next (cancelChange u e (firstSyn e Syn.TIMEOUT))))) ∧
    (e.final = false → e.cancelled = false → e.committed = true →
      (s.now .hub < e.appt → exec (.commitPoint id others) s = .next u) ∧
      (e.appt ≤ s.now .hub → e.appt ≠ 0 → (∀ pg ∈ e.pages, isArmed u pg = false) → exec (.commitPoint id others) s = .next (readBack u e)))) ∧
  (∀ (s : State) (unit seq : Nat) (c : CmdOut),
    let u := promoteSiteKeys s
    findCmd u unit seq = some c → c.primary = true →
    (s.now .hub < c.last + 5000000 → exec (.responseTimeout unit seq) s = .next u) ∧
    (c.last + 5000000 ≤ s.now .hub → canCommand u = true →
      (c.rounds < 3 → exec (.responseTimeout unit seq) s = .next (sendRound u c)) ∧
      (3 ≤ c.rounds → c.boots < 3 → exec (.responseTimeout unit seq) s = .next (sendBoot u c)) ∧
      (3 ≤ c.rounds → 3 ≤ c.boots → exec (.responseTimeout unit seq) s =
        .next (resolveCmd (forgetRounds u c.unit c.seq) c 3 Syn.TIMEOUT []))))

/-- R34, R37, R38, R45–R48, R247, R308, R415, R416, R477, R479: the changes of a job: once their entry is accepted (state v, entry id) and their checks
pass they go, with the appointment chosen, to the operation that stages, arms and starts the change; a check that fails ends the entry with its
syndrome; an appointment passes where it is a boundary of every length, to come, and at the minimum lead. -/
def Obligations.ChangesOfAJob : Prop :=
  (∀ (s v : State) (ses req job id k pg md slot : Nat) (roster : Roster) (vp : VPolicy) (dp : DPolicy) (kp : KPolicy) (fields : List TField)
      (appt : Option Nat), Accepts s ses 0x20 req job v id →
    let r := { roster with job, k, gen := 1, epoch := 1 }
    let lead := leadOfHubs v job (r.members.map (·.hub))
    let ks := k :: sharedKs v job (appt.getD (v.now .hub + lead)) (r.members.map (·.unit))
    let t := pickAppt v lead ks appt
    freeJobSlot v = some slot →
    let c := createCheck v r (otherRosters v job t) vp dp kp fields pg md slot
    (c ≠ 0 → exec (.jobCreate ses req job roster k vp dp kp fields pg md appt) s = .next (abort v id c)) ∧
    (c = 0 → apptCheck v lead ks t ≠ 0 → exec (.jobCreate ses req job roster k vp dp kp fields pg md appt) s = .next (abort v id (apptCheck v lead ks t))) ∧
    (c = 0 → apptCheck v lead ks t = 0 → canCommand v = true → anyArmed v jobPages = false →
      exec (.jobCreate ses req job roster k vp dp kp fields pg md appt) s = .next (createJob v id slot t lead r vp dp kp fields pg md))) ∧
  (∀ (s v : State) (ses req job id : Nat) (roster : Roster) (addrs : List (Nat × List Nat)) (appt : Option Nat) (j : HJob) (g : JobGen),
    Accepts s ses 0x21 req job v id → hjob v job = some j → jobNow v j = some g →
    let r := { roster with job, gen := g.gen + 1, epoch := g.epoch + 1 }
    let old := winMembers v g
    let lead := leadOfHubs v job ((old ++ r.members).map (·.hub))
    let ks := g.k :: r.k :: sharedKs v job (appt.getD (v.now .hub + lead)) ((old ++ r.members).map (·.unit))
    let t := pickAppt v lead ks appt
    (rosterCheck r (otherRosters v job t) ≠ 0 →
      exec (.rosterChange ses req job roster addrs appt) s = .next (abort v id (rosterCheck r (otherRosters v job t)))) ∧
    (rosterCheck r (otherRosters v job t) = 0 → r.epoch < 2 ^ 32 → r.gen < 2 ^ 32 → addrsGiven v old r.members addrs = true →
      (∀ p, polAt j.kpol (v.now .hub) = some p → kpolCheck v p { g with k := r.k } = true) → apptCheck v lead ks t = 0 → canCommand v = true →
      anyArmed v jobPages = false → exec (.rosterChange ses req job roster addrs appt) s = .next (changeRoster v id t lead j g old r addrs))) ∧
  (∀ (s v : State) (ses req job id : Nat) (vp : Option VPolicy) (dp : Option DPolicy) (kp : Option KPolicy) (appt : Option Nat) (j : HJob) (g : JobGen),
    Accepts s ses 0x22 req job v id → hjob v job = some j → jobNow v j = some g →
    let hubs := otherHubs v (winMembers v g)
    let lead := leadOfHubs v job hubs
    let t := pickAppt v lead [g.k] appt
    (∀ x, vp = some x → vpolCheck x = true ∧ vpolFloor x j ((servedMembers v g).map (·.unit)) = true) → (∀ x, dp = some x → dpolCheck x = true) →
    (∀ x, kp = some x → kpolCheck v x g = true) →
    (apptCheck v lead [g.k] t ≠ 0 → exec (.policySet ses req job vp dp kp appt) s = .next (abort v id (apptCheck v lead [g.k] t))) ∧
    (apptCheck v lead [g.k] t = 0 → exec (.policySet ses req job vp dp kp appt) s = .next (startChange v id t lead [] hubs (fun e =>
      { e with newJob := some { j with vpol := (vp.map (fun x => (t, x))).toList, dpol := (dp.map (fun x => (t, x))).toList,
                                       kpol := (kp.map (fun x => (t, x))).toList } })))) ∧
  (∀ (s v : State) (ses req job id : Nat) (appt : Option Nat) (j : HJob) (g : JobGen),
    Accepts s ses 0x23 req job v id → hjob v job = some j → jobNow v j = some g →
    let ms := winMembers v g
    let lead := leadOfHubs v job (ms.map (·.hub))
    let ks := g.k :: sharedKs v job (appt.getD (v.now .hub + lead)) (ms.map (·.unit))
    let t := pickAppt v lead ks appt
    apptCheck v lead ks t = 0 → canCommand v = true → anyArmed v (jobPages ++ (tileSet v j.slot).map Pg.til) = false →
    exec (.jobDelete ses req job appt) s = .next (deleteJob v id t lead j g)) ∧
  (∀ (s v : State) (ses req job id : Nat) (x : Weaja) (b : Option BindSet) (place : Option Placement) (j : HJob) (g : JobGen),
    Accepts s ses 0x24 req job v id → hjob v job = some j → jobNow v j = some g →
    let w := (b.map (installBind v)).getD v
    (∀ y, b = some y → bindCheck y ≠ 0 → exec (.imageLoad ses req job x b place) s = .next (abort v id (bindCheck y))) ∧
    ((∀ y, b = some y → bindCheck y = 0) →
      (imageCheck w x ≠ 0 → exec (.imageLoad ses req job x b place) s = .next (abort w id (imageCheck w x))) ∧
      (imageCheck w x = 0 → j.recovery = none → j.faultWaits = false →
        (∀ c, placeImage w j g x place = .error c → exec (.imageLoad ses req job x b place) s = .next (abort w id c)) ∧
        (∀ im, placeImage w j g x place = .ok im → exec (.imageLoad ses req job x b place) s = .next (loadImage w id j g im))))) ∧
  (∀ (s v : State) (ses req job id : Nat), Accepts s ses 0x23 req job v id → hjob v job = none → ∀ appt,
    exec (.jobDelete ses req job appt) s = .next (abort v id Syn.ABSENT)) ∧
  (∀ (s : State) (job : Nat) (j : HJob) (g : JobGen), hjob s job = some j → jobNow s j = some g →
    let every := ((polAt j.kpol (s.now .hub)).map (fun (p : KPolicy) => p.rollS)).getD 0 * 1000000000
    let last := ((s.hub.cabinet.rolls.find? (fun x => x.1 == job)).map (·.2)).getD 0
    (every ≠ 0 → last + every ≤ s.now .hub → rolling s job = false → exec (.keyRoll job) s = .next (rollJob s j g)) ∧
    (every = 0 ∨ s.now .hub < last + every ∨ rolling s job = true → exec (.keyRoll job) s = .next s)) ∧
  (∀ (s : State) (lead t : Nat) (ks : List Nat), apptCheck s lead ks t = 0 ↔
    (∀ k ∈ ks, isBoundary k t = true) ∧ s.now .hub < t ∧ s.now .hub + lead ≤ t)

/-- R254, R302, R315, R350, R420, R421, R453, R469, R473, R477, R484: the other journalled operations, once accepted (state v, entry id): their effect,
and the entry's end with DONE or with the syndrome of the check that failed. -/
def Obligations.JournalledOrders : Prop :=
  (∀ (s v : State) (ses req id unit : Nat) (a : RegAddr) (words : List Word), Accepts s ses 0x11 req 0 v id →
    (256 < words.length → exec (.regWrite ses req a unit words) s = .next (abort v id Syn.SIZE)) ∧
    (∀ d p, words.length ≤ 256 → addrPage a = .hub d p →
      let r := writeHubWords (.hub d p) (addrOff a) (words.map (·.toNat)) (startEntry v id (fun e => e))
      (r.2.1 = 0 → exec (.regWrite ses req a unit words) s = .next (endEntry r.1 id Jr.DONE 0 [])) ∧
      (r.2.1 ≠ 0 → r.2.2 = 0 → exec (.regWrite ses req a unit words) s = .next (endEntry r.1 id Jr.ABORTED r.2.1 [])) ∧
      (r.2.1 ≠ 0 → r.2.2 ≠ 0 → exec (.regWrite ses req a unit words) s = .next (endEntry r.1 id Jr.PARTIAL r.2.1 []))) ∧
    (∀ p, words.length ≤ 256 → addrPage a = .tally p → canCommand v = true →
      exec (.regWrite ses req a unit words) s = .next (advance (startEntry v id (fun e =>
        { e with steps := (chunksOf words.length).map (fun c =>
          jstep unit 0 (.write p (addrOff a + 4 * c.1) (((words.map (·.toNat)).drop c.1).take c.2))) })) id))) ∧
  (∀ (s v : State) (ses req id t : Nat) (units dies : List Nat) (release : Option Nat), Accepts s ses 0x30 req 0 v id →
    let pages := dies.map Pg.hFrz
    let a := freezeAction 2000000 t release
    ((∃ r, release = some r ∧ r ≤ t) → exec (.freeze ses req units dies t release) s = .next (abort v id Syn.RANGE)) ∧
    ((∀ r, release = some r → t < r) → t < v.now .hub + 2000000 →
      exec (.freeze ses req units dies t release) s = .next (abort v id Syn.LATE)) ∧
    ((∀ r, release = some r → t < r) → v.now .hub + 2000000 ≤ t → anyArmed v pages = false → units = [] ∨ canCommand v = true →
      exec (.freeze ses req units dies t release) s = .next (startChange (stageFreeze v pages a.1 a.2.1) id t 2000000 pages [] (fun e =>
        { e with result := a.2.2, steps := units.flatMap (fun u => freezeSteps u a.1 a.2.1 t) })))) ∧
  (∀ (s v : State) (ses req id tier job lo hi rate : Nat) (ports : List Nat), Accepts s ses 0x31 req job v id →
    tier ≤ 1 → lo ≤ hi → hi < 2 ^ 64 → ports ≠ [] → (∀ p ∈ ports, p ≤ 9) →
    (siteKey (promoteSiteKeys v) 3 = none → exec (.scanExport ses req tier job lo hi ports rate) s = .next (abort v id Syn.STATE)) ∧
    (∀ k, siteKey (promoteSiteKeys v) 3 = some k →
      (∀ m < 8, (getTap v m).scan = none ∧ (getTap v m).ready = true ∧ isFrozen v (tapPg m) = false) →
      let u := (List.range 8).foldl (exportSet tier job lo hi) (startEntry (promoteSiteKeys v) id (fun e => e))
      let w := (List.range 8).foldl (exportDie tier k.epoch ports) u
      exec (.scanExport ses req tier job lo hi ports rate) s =
        .next (endEntry ((List.range 8).foldl (fun s m => endScan s m ScanSt.DONE) w) id Jr.DONE 0 []))) ∧
  (∀ (s v : State) (ses req id lo hi threshold : Nat) (field : TField), Accepts s ses 0x32 req 0 v id →
    fieldCheck field = 0 → lo ≤ hi → threshold < 2 ^ 32 →
    (anyFreeTile v = true → exec (.correlate ses req field lo hi threshold) s = .next (startEntry (setCabinet v { v.hub.cabinet with
      searches := v.hub.cabinet.searches ++ [{ entry := id, field, from_ := lo, to_ := hi, threshold }] }) id (fun e => e))) ∧
    (anyFreeTile v = false → exec (.correlate ses req field lo hi threshold) s = .next (abort v id Syn.SIZE))) ∧
  (∀ (s v : State) (ses req id job unit : Nat), Accepts s ses 0x33 req job v id →
    (hjob v job = none → exec (.obsClear ses req job unit) s = .next (abort v id Syn.ABSENT)) ∧
    (∀ j, hjob v job = some j → exec (.obsClear ses req job unit) s =
      .next (endEntry (startEntry (modJob v job (fun j => { j with obs := j.obs.filter (fun o => o.unit != unit) })) id (fun e => e)) id Jr.DONE 0 []))) ∧
  (∀ (s v : State) (ses req id tile : Nat), Accepts s ses 0x34 req 0 v id →
    (tileCount v.cfg ≤ tile → exec (.retire ses req tile) s = .next (abort v id Syn.ABSENT)) ∧
    (tile < tileCount v.cfg → pstate v tile = PS.RETIRED → exec (.retire ses req tile) s = .next (abort v id Syn.STATE)) ∧
    (tile < tileCount v.cfg → pstate v tile ≠ PS.RETIRED → exec (.retire ses req tile) s =
      .next (endEntry (retireForGood (startEntry v id (fun e => e)) tile) id Jr.DONE 0 []))) ∧
  (∀ (s v : State) (ses req id kind epoch : Nat) (record : List Byte) (appt : Option Nat), Accepts s ses 0x35 req 0 v id →
    let r := record.map (·.toNat)
    let t := pickAppt v 2000000 [0] appt
    (kind ≠ 2 → kind ≠ 3 → exec (.keyInstall ses req kind epoch record appt) s = .next (abort v id Syn.RANGE)) ∧
    (kind = 2 ∨ kind = 3 → r.length = 152 → r.headD 0 = kind → ofBe ((r.drop 8).take 4) = epoch → epoch ≠ 0 →
      (apptCheck v 2000000 [] t ≠ 0 → exec (.keyInstall ses req kind epoch record appt) s = .next (abort v id (apptCheck v 2000000 [] t))) ∧
      (apptCheck v 2000000 [] t = 0 → v.isUnset .hub = false →
        exec (.keyInstall ses req kind epoch record appt) s = .next (installSite (promoteSiteKeys v) id kind epoch t r)))) ∧
  (∀ (s v : State) (ses req id version : Nat) (cfg : Option CfgImage), Accepts s ses 0x70 req 0 v id →
    exec (.imageWrite ses req version false cfg) s = .next (abort v id Syn.AUTH) ∧
    exec (.imageWrite ses req version true cfg) s =
      .next (endEntry (writeCopy (startEntry v id (fun e => e)) version cfg) id Jr.DONE 0 [])) ∧
  (∀ (s : State) (ses req version : Nat) (cfg : Option CfgImage) (x : Session), findSession s ses = some x → x.anon = true →
    let u := modSession s ses (fun x => { x with last := s.now .hub })
    let r := enterJournal u 0x70 0 req x.cert x.id
    repeated u x req = none → u.hub.cabinet.journal.length < 65536 →
    exec (.imageWrite ses req version true cfg) s = .next (endEntry (writeCopy (startEntry (r.1.send (.reply x.id 0x70 req 0 (.journalId r.2))) r.2
      (fun e => e)) version cfg) r.2 Jr.DONE 0 [])) ∧
  (∀ (s v : State) (ses req id : Nat) (back : Bool), Accepts s ses 0x71 req 0 v id →
    (complexIn v Role.STANDBY = none → exec (.switchover ses req back) s = .next (abort v id Syn.STATE)) ∧
    (complexIn v Role.STANDBY ≠ none → exec (.switchover ses req back) s =
      .next (takeOver (endEntry (startEntry v id (fun e => e)) id Jr.DONE 0 []) back))) ∧
  (∀ (s v : State) (ses req id kind : Nat) (b : BootIn), Accepts s ses 0x72 req 0 v id →
    (kind = 1 → exec (.reset ses req kind b) s = .next (runBoot (packageReset v) b)) ∧
    (kind ≠ 1 → exec (.reset ses req kind b) s = .next (abort v id Syn.RANGE)))

end
end

