-- ==== Sys2Proof/Laws/Exec.lean ====
section
/-!
SUPPORT. Sys2Proof/Laws/Exec.lean: which meaning each command has: one equation per arm of exec, so that no proof unfolds the whole match.
-/
namespace Sys2Proof.Laws
open Sys2Proof.Machine

theorem exec_registerWrite (a : RegAddr) (ag : Agent) (v : Word) (s : State) : exec (.registerWrite a ag v) s = execRegisterWrite a ag v s := rfl
theorem exec_synClr (pg : Page) (ag : Agent) (s : State) : exec (.synClr pg ag) s = execSynClr pg ag s := rfl
theorem exec_softReset (pg : Page) (ag : Agent) (s : State) : exec (.softReset pg ag) s = execSoftReset pg ag s := rfl
theorem exec_apptArm (pg : Page) (ag : Agent) (s : State) : exec (.apptArm pg ag) s = execApptArm pg ag s := rfl
theorem exec_apptCancel (pg : Page) (ag : Agent) (s : State) : exec (.apptCancel pg ag) s = execApptCancel pg ag s := rfl
theorem exec_apptApply (pg : Page) (s : State) : exec (.apptApply pg) s = execApptApply pg s := rfl
theorem exec_longcaseReset (p : Part) (ag : Agent) (s : State) : exec (.longcaseReset p ag) s = execLongcaseReset p ag s := rfl
theorem exec_lcsStep (p : Part) (ag : Agent) (s : State) : exec (.lcsStep p ag) s = execLcsStep p ag s := rfl
theorem exec_clrCnt (p : Part) (ag : Agent) (s : State) : exec (.clrCnt p ag) s = execClrCnt p ag s := rfl
theorem exec_lcsGenWrite (p : Part) (ag : Agent) (gen : BitVec 16) (s : State) : exec (.lcsGenWrite p ag gen) s = execLcsGenWrite p ag gen s := rfl
theorem exec_lcsNowRead (pg : Page) (s : State) : exec (.lcsNowRead pg) s = execLcsNowRead pg s := rfl
theorem exec_tbAnnouncement (sec : BitVec 64) (ns : Word) (beats : Nat) (consecutive : Bool) (s : State) : exec (.tbAnnouncement sec ns beats consecutive) s = execTbAnnouncement sec ns beats consecutive s := rfl
theorem exec_tbPulse (status : BitVec 2) (s : State) : exec (.tbPulse status) s = execTbPulse status s := rfl
theorem exec_pulseMiss (s : State) : exec (.pulseMiss) s = execPulseMiss s := rfl
theorem exec_measurementMissLimit (p : Part) (s : State) : exec (.measurementMissLimit p) s = execMeasurementMissLimit p s := rfl
theorem exec_siteQualExpiry (s : State) : exec (.siteQualExpiry) s = execSiteQualExpiry s := rfl
theorem exec_followerCheck (die : Nat) (diff : Int) (s : State) : exec (.followerCheck die diff) s = execFollowerCheck die diff s := rfl
theorem exec_ptpMessageRx (port : Nat) (domain : Nat) (pos : Nat) (interval : Nat) (body : PtpBody) (s : State) : exec (.ptpMessageRx port domain pos interval body) s = execPtpMessageRx port domain pos interval body s := rfl
theorem exec_ptpMessageTx (port : Nat) (s : State) : exec (.ptpMessageTx port) s = execPtpMessageTx port s := rfl
theorem exec_announceTimeout (domain : Nat) (s : State) : exec (.announceTimeout domain) s = execAnnounceTimeout domain s := rfl
theorem exec_sourceStable (s : State) : exec (.sourceStable) s = execSourceStable s := rfl
theorem exec_switchedExpiry (s : State) : exec (.switchedExpiry) s = execSwitchedExpiry s := rfl
theorem exec_ppsEdge (s : State) : exec (.ppsEdge) s = execPpsEdge s := rfl
theorem exec_ttExchangeTx (am : Nat) (s : State) : exec (.ttExchangeTx am) s = execTtExchangeTx am s := rfl
theorem exec_ttExchangeDone (t2 t3 : Nat) (pos : Nat) (s : State) : exec (.ttExchangeDone t2 t3 pos) s = execTtExchangeDone t2 t3 pos s := rfl
theorem exec_pseRise (port : Nat) (s : State) : exec (.pseRise port) s = execPseRise port s := rfl
theorem exec_pseFall (port : Nat) (s : State) : exec (.pseFall port) s = execPseFall port s := rfl
theorem exec_pauseTimeout (port : Nat) (s : State) : exec (.pauseTimeout port) s = execPauseTimeout port s := rfl
theorem exec_tallyPor (s : State) : exec (.tallyPor) s = execTallyPor s := rfl
theorem exec_tallyHrst (s : State) : exec (.tallyHrst) s = execTallyHrst s := rfl
theorem exec_chainAddress (addr : BitVec 5) (s : State) : exec (.chainAddress addr) s = execChainAddress addr s := rfl
theorem exec_tlyUnitWrite (ag : Agent) (unit : BitVec 24) (s : State) : exec (.tlyUnitWrite ag unit) s = execTlyUnitWrite ag unit s := rfl
theorem exec_fclkRequest (s : State) : exec (.fclkRequest) s = execFclkRequest s := rfl
theorem exec_fclkAck (s : State) : exec (.fclkAck) s = execFclkAck s := rfl
theorem exec_windowBoundary (s : State) : exec (.windowBoundary) s = execWindowBoundary s := rfl
theorem exec_slowBoundary (s : State) : exec (.slowBoundary) s = execSlowBoundary s := rfl
theorem exec_recordSeal (s : State) : exec (.recordSeal) s = execRecordSeal s := rfl
theorem exec_powerSample (codeV codeI : BitVec 16) (s : State) : exec (.powerSample codeV codeI) s = execPowerSample codeV codeI s := rfl
theorem exec_freqSample (s : State) : exec (.freqSample) s = execFreqSample s := rfl
theorem exec_gaugeHostWrite (ag : Agent) (lo : Word) (s : State) : exec (.gaugeHostWrite ag lo) s = execGaugeHostWrite ag lo s := rfl
theorem exec_cntValRead (gauge : Bool) (s : State) : exec (.cntValRead gauge) s = execCntValRead gauge s := rfl
theorem exec_stepMark (ag : Agent) (kind : BitVec 2) (slot : BitVec 2) (id : BitVec 12) (tag : BitVec 16) (s : State) : exec (.stepMark ag kind slot id tag) s = execStepMark ag kind slot id tag s := rfl
theorem exec_lockWrite (pg : Page) (ag : Agent) (v : Bool) (s : State) : exec (.lockWrite pg ag v) s = execLockWrite pg ag v s := rfl
theorem exec_capCodeWrite (ag : Agent) (code : BitVec 12) (s : State) : exec (.capCodeWrite ag code) s = execCapCodeWrite ag code s := rfl
theorem exec_capAck (s : State) : exec (.capAck) s = execCapAck s := rfl
theorem exec_capAckTimeout (s : State) : exec (.capAckTimeout) s = execCapAckTimeout s := rfl
theorem exec_stewardStart (pg : Page) (ag : Agent) (s : State) : exec (.stewardStart pg ag) s = execStewardStart pg ag s := rfl
theorem exec_stewardVerifyDone (pg : Page) (ok : Bool) (anchor : Nat) (rebuilt : Bool) (s : State) : exec (.stewardVerifyDone pg ok anchor rebuilt) s = execStewardVerifyDone pg ok anchor rebuilt s := rfl
theorem exec_stewardHalt (pg : Page) (ag : Agent) (s : State) : exec (.stewardHalt pg ag) s = execStewardHalt pg ag s := rfl
theorem exec_stewardFault (pg : Page) (cause : BitVec 16) (s : State) : exec (.stewardFault pg cause) s = execStewardFault pg cause s := rfl
theorem exec_stewardLoadWord (pg : Page) (ag : Agent) (w : Word) (s : State) : exec (.stewardLoadWord pg ag w) s = execStewardLoadWord pg ag w s := rfl
theorem exec_shaperRefill (s : State) : exec (.shaperRefill) s = execShaperRefill s := rfl
theorem exec_frameStart (s : State) : exec (.frameStart) s = execFrameStart s := rfl
theorem exec_frameSent (s : State) : exec (.frameSent) s = execFrameSent s := rfl
theorem exec_gateEntryAdvance (s : State) : exec (.gateEntryAdvance) s = execGateEntryAdvance s := rfl
theorem exec_write (f : InFrame) (page : BitVec 6) (off : BitVec 12) (count : Byte) (data : List Word) (s : State) : exec (.write f page off count data) s = execWrite f page off count data s := rfl
theorem exec_read (f : InFrame) (page : BitVec 6) (off : BitVec 12) (count : Byte) (s : State) : exec (.read f page off count) s = execRead f page off count s := rfl
theorem exec_arm (f : InFrame) (mask : BitVec 64) (appt : BitVec 96) (s : State) : exec (.arm f mask appt) s = execArm f mask appt s := rfl
theorem exec_cap (f : InFrame) (code : BitVec 12) (appt : BitVec 96) (s : State) : exec (.cap f code appt) s = execCap f code appt s := rfl
theorem exec_keyload (f : InFrame) (kind : Byte) (epoch : Word) (appt : BitVec 96) (ok : Bool) (key : Nat) (s : State) : exec (.keyload f kind epoch appt ok key) s = execKeyload f kind epoch appt ok key s := rfl
theorem exec_digest (f : InFrame) (every : BitVec 16) (first : Word) (s : State) : exec (.digest f every first) s = execDigest f every first s := rfl
theorem exec_replay (f : InFrame) (step : Word) (id : BitVec 16) (shift : BitVec 6) (epoch : Word) (s : State) : exec (.replay f step id shift epoch) s = execReplay f step id shift epoch s := rfl
theorem exec_observe (f : InFrame) (endSec : BitVec 64) (endNs : Word) (testS : BitVec 16) (s : State) : exec (.observe f endSec endNs testS) s = execObserve f endSec endNs testS s := rfl
theorem exec_bootstrap (f : InFrame) (kind : Byte) (epoch : Word) (anchor : Nat) (sigOk : Bool) (ok : Bool) (key : Nat) (s : State) : exec (.bootstrap f kind epoch anchor sigOk ok key) s = execBootstrap f kind epoch anchor sigOk ok key s := rfl
theorem exec_verdictAccept (f : InFrame) (plain : List Byte) (s : State) : exec (.verdictAccept f plain) s = execVerdictAccept f plain s := rfl
theorem exec_prevKeyDiscard (slot : Nat) (s : State) : exec (.prevKeyDiscard slot) s = execPrevKeyDiscard slot s := rfl
theorem exec_cmdKeyOverlapEnd (s : State) : exec (.cmdKeyOverlapEnd) s = execCmdKeyOverlapEnd s := rfl
theorem exec_qrpFrameRx (port : Nat) (pos : Nat) (f : QFrame) (s : State) : exec (.qrpFrameRx port pos f) s = execQrpFrameRx port pos f s := rfl
theorem exec_recordRx (d : Nat) (poison : Bool) (s : State) : exec (.recordRx d poison) s = execRecordRx d poison s := rfl
theorem exec_reasmTimeout (d : Nat) (s : State) : exec (.reasmTimeout d) s = execReasmTimeout d s := rfl
theorem exec_digestReportRx (d lanes : Nat) (poison : Bool) (s : State) : exec (.digestReportRx d lanes poison) s = execDigestReportRx d lanes poison s := rfl
theorem exec_responseRx (d : Nat) (s : State) : exec (.responseRx d) s = execResponseRx d s := rfl
theorem exec_sealDeadline (slot : Nat) (n : Nat) (mism : List Nat) (poison : List Nat) (s : State) : exec (.sealDeadline slot n mism poison) s = execSealDeadline slot n mism poison s := rfl
theorem exec_hubAggregateIssue (slot : Nat) (n : Nat) (mism : Bool) (s : State) : exec (.hubAggregateIssue slot n mism) s = execHubAggregateIssue slot n mism s := rfl
theorem exec_reReductionDone (slot : Nat) (n : Nat) (agree : Bool) (s : State) : exec (.reReductionDone slot n agree) s = execReReductionDone slot n agree s := rfl
theorem exec_mergeLate (slot : Nat) (n : Nat) (s : State) : exec (.mergeLate slot n) s = execMergeLate slot n s := rfl
theorem exec_lateHorizon (slot : Nat) (n : Nat) (mism : List Nat) (poison : List Nat) (s : State) : exec (.lateHorizon slot n mism poison) s = execLateHorizon slot n mism poison s := rfl
theorem exec_aggregateRx (d : Nat) (f : AggFrame) (s : State) : exec (.aggregateRx d f) s = execAggregateRx d f s := rfl
theorem exec_groupAggregateIssue (slot : Nat) (n : Nat) (mism : Bool) (s : State) : exec (.groupAggregateIssue slot n mism) s = execGroupAggregateIssue slot n mism s := rfl
theorem exec_siteAggregateIssue (slot : Nat) (n : Nat) (mism : Bool) (s : State) : exec (.siteAggregateIssue slot n mism) s = execSiteAggregateIssue slot n mism s := rfl
theorem exec_fleetAggregateIssue (slot : Nat) (n : Nat) (mism : Bool) (s : State) : exec (.fleetAggregateIssue slot n mism) s = execFleetAggregateIssue slot n mism s := rfl
theorem exec_aggregateHoldExpiry (slot : Nat) (n : Nat) (s : State) : exec (.aggregateHoldExpiry slot n) s = execAggregateHoldExpiry slot n s := rfl
theorem exec_dpush (t : Nat) (rd : BitVec 5) (rs1 : Word) (q : BitVec 2) (s : State) : exec (.dpush t rd rs1 q) s = execDpush t rd rs1 q s := rfl
theorem exec_dtry (t : Nat) (rd : BitVec 5) (rs1 : Word) (q : BitVec 2) (s : State) : exec (.dtry t rd rs1 q) s = execDtry t rd rs1 q s := rfl
theorem exec_dwait (t : Nat) (rd : BitVec 5) (rs1 : Word) (q : BitVec 2) (s : State) : exec (.dwait t rd rs1 q) s = execDwait t rd rs1 q s := rfl
theorem exec_dpoll (t : Nat) (rd : BitVec 5) (q : BitVec 2) (s : State) : exec (.dpoll t rd q) s = execDpoll t rd q s := rfl
theorem exec_tflagsClear (t : Nat) (v : Word) (s : State) : exec (.tflagsClear t v) s = execTflagsClear t v s := rfl
theorem exec_tsleep (t : Nat) (v : Word) (s : State) : exec (.tsleep t v) s = execTsleep t v s := rfl
theorem exec_teventClear (t : Nat) (v : Word) (s : State) : exec (.teventClear t v) s = execTeventClear t v s := rfl
theorem exec_tdone (t : Nat) (v : Word) (s : State) : exec (.tdone t v) s = execTdone t v s := rfl
theorem exec_tmboxOut (t : Nat) (v : Word) (s : State) : exec (.tmboxOut t v) s = execTmboxOut t v s := rfl
theorem exec_sequencerException (t : Nat) (cause : Word) (pc : Word) (mtvec : Word) (s : State) : exec (.sequencerException t cause pc mtvec) s = execSequencerException t cause pc mtvec s := rfl
theorem exec_descriptorStart (t : Nat) (q : BitVec 2) (s : State) : exec (.descriptorStart t q) s = execDescriptorStart t q s := rfl
theorem exec_matmul (t : Nat) (s : State) : exec (.matmul t) s = execMatmul t s := rfl
theorem exec_tree (t : Nat) (s : State) : exec (.tree t) s = execTree t s := rfl
theorem exec_copy (t : Nat) (rows code : Nat) (data : List Nat) (poison : Bool) (s : State) : exec (.copy t rows code data poison) s = execCopy t rows code data poison s := rfl
theorem exec_fence (t : Nat) (q : BitVec 2) (s : State) : exec (.fence t q) s = execFence t q s := rfl
theorem exec_add (t : Nat) (s : State) : exec (.add t) s = execAdd t s := rfl
theorem exec_sub (t : Nat) (s : State) : exec (.sub t) s = execSub t s := rfl
theorem exec_mul (t : Nat) (s : State) : exec (.mul t) s = execMul t s := rfl
theorem exec_fma (t : Nat) (s : State) : exec (.fma t) s = execFma t s := rfl
theorem exec_div (t : Nat) (s : State) : exec (.div t) s = execDiv t s := rfl
theorem exec_sqrt (t : Nat) (s : State) : exec (.sqrt t) s = execSqrt t s := rfl
theorem exec_rcp (t : Nat) (s : State) : exec (.rcp t) s = execRcp t s := rfl
theorem exec_rsqrt (t : Nat) (s : State) : exec (.rsqrt t) s = execRsqrt t s := rfl
theorem exec_exp2 (t : Nat) (s : State) : exec (.exp2 t) s = execExp2 t s := rfl
theorem exec_log2 (t : Nat) (s : State) : exec (.log2 t) s = execLog2 t s := rfl
theorem exec_min (t : Nat) (s : State) : exec (.min t) s = execMin t s := rfl
theorem exec_max (t : Nat) (s : State) : exec (.max t) s = execMax t s := rfl
theorem exec_cmpEq (t : Nat) (s : State) : exec (.cmpEq t) s = execCmpEq t s := rfl
theorem exec_cmpNe (t : Nat) (s : State) : exec (.cmpNe t) s = execCmpNe t s := rfl
theorem exec_cmpLt (t : Nat) (s : State) : exec (.cmpLt t) s = execCmpLt t s := rfl
theorem exec_cmpLe (t : Nat) (s : State) : exec (.cmpLe t) s = execCmpLe t s := rfl
theorem exec_abs (t : Nat) (s : State) : exec (.abs t) s = execAbs t s := rfl
theorem exec_neg (t : Nat) (s : State) : exec (.neg t) s = execNeg t s := rfl
theorem exec_cvt (t : Nat) (s : State) : exec (.cvt t) s = execCvt t s := rfl
theorem exec_cvtFx (t : Nat) (s : State) : exec (.cvtFx t) s = execCvtFx t s := rfl
theorem exec_iadd (t : Nat) (s : State) : exec (.iadd t) s = execIadd t s := rfl
theorem exec_isub (t : Nat) (s : State) : exec (.isub t) s = execIsub t s := rfl
theorem exec_imulLo (t : Nat) (s : State) : exec (.imulLo t) s = execImulLo t s := rfl
theorem exec_imulHi (t : Nat) (s : State) : exec (.imulHi t) s = execImulHi t s := rfl
theorem exec_imuluHi (t : Nat) (s : State) : exec (.imuluHi t) s = execImuluHi t s := rfl
theorem exec_shl (t : Nat) (s : State) : exec (.shl t) s = execShl t s := rfl
theorem exec_shr (t : Nat) (s : State) : exec (.shr t) s = execShr t s := rfl
theorem exec_sra (t : Nat) (s : State) : exec (.sra t) s = execSra t s := rfl
theorem exec_and (t : Nat) (s : State) : exec (.and t) s = execAnd t s := rfl
theorem exec_or (t : Nat) (s : State) : exec (.or t) s = execOr t s := rfl
theorem exec_xor (t : Nat) (s : State) : exec (.xor t) s = execXor t s := rfl
theorem exec_imin (t : Nat) (s : State) : exec (.imin t) s = execImin t s := rfl
theorem exec_imax (t : Nat) (s : State) : exec (.imax t) s = execImax t s := rfl
theorem exec_icmp (t : Nat) (s : State) : exec (.icmp t) s = execIcmp t s := rfl
theorem exec_descriptorComplete (t : Nat) (q : BitVec 2) (s : State) : exec (.descriptorComplete t q) s = execDescriptorComplete t q s := rfl
theorem exec_queueFlush (t : Nat) (ag : Agent) (mask : BitVec 4) (s : State) : exec (.queueFlush t ag mask) s = execQueueFlush t ag mask s := rfl
theorem exec_wake (t : Nat) (ag : Agent) (s : State) : exec (.wake t ag) s = execWake t ag s := rfl
theorem exec_gate (t : Nat) (ag : Agent) (s : State) : exec (.gate t ag) s = execGate t ag s := rfl
theorem exec_park (t : Nat) (ag : Agent) (s : State) : exec (.park t ag) s = execPark t ag s := rfl
theorem exec_tileSleepEntered (t : Nat) (s : State) : exec (.tileSleepEntered t) s = execTileSleepEntered t s := rfl
theorem exec_tileWakeDone (t : Nat) (s : State) : exec (.tileWakeDone t) s = execTileWakeDone t s := rfl
theorem exec_seqStart (t : Nat) (ag : Agent) (s : State) : exec (.seqStart t ag) s = execSeqStart t ag s := rfl
theorem exec_seqHalt (t : Nat) (ag : Agent) (s : State) : exec (.seqHalt t ag) s = execSeqHalt t ag s := rfl
theorem exec_tileRetire (t : Nat) (ag : Agent) (s : State) : exec (.tileRetire t ag) s = execTileRetire t ag s := rfl
theorem exec_mboxInWrite (t : Nat) (ag : Agent) (v : Word) (s : State) : exec (.mboxInWrite t ag v) s = execMboxInWrite t ag v s := rfl
theorem exec_scheduledWake (t : Nat) (s : State) : exec (.scheduledWake t) s = execScheduledWake t s := rfl
theorem exec_activeInstant (t : Nat) (s : State) : exec (.activeInstant t) s = execActiveInstant t s := rfl
theorem exec_verdictAssembly (slot n : Nat) (s : State) : exec (.verdictAssembly slot n) s = execVerdictAssembly slot n s := rfl
theorem exec_verdictIssue (slot n rev : Nat) (scores : List Score) (peers : List (Nat × Nat)) (s : State) : exec (.verdictIssue slot n rev scores peers) s = execVerdictIssue slot n rev scores peers s := rfl
theorem exec_verdictAbandon (slot n : Nat) (s : State) : exec (.verdictAbandon slot n) s = execVerdictAbandon slot n s := rfl
theorem exec_checkWindow (slot n : Nat) (regions : Option ((Nat × Nat) × (Nat × Nat))) (peer : List Nat) (s : State) : exec (.checkWindow slot n regions peer) s = execCheckWindow slot n regions peer s := rfl
theorem exec_selftestChunk (t : Nat) (ok : Bool) (s : State) : exec (.selftestChunk t ok) s = execSelftestChunk t ok s := rfl
theorem exec_partitionRecovery (job : Nat) (place : Option Placement) (peer : Option Nat) (s : State) : exec (.partitionRecovery job place peer) s = execPartitionRecovery job place peer s := rfl
theorem exec_tapeWindow (slot n : Nat) (poison : List Nat) (s : State) : exec (.tapeWindow slot n poison) s = execTapeWindow slot n poison s := rfl
theorem exec_blockCompressDone (m b eng : Nat) (frame : List Nat) (s : State) : exec (.blockCompressDone m b eng frame) s = execBlockCompressDone m b eng frame s := rfl
theorem exec_scanStart (m : Nat) (ag : Agent) (v : Word) (s : State) : exec (.scanStart m ag v) s = execScanStart m ag v s := rfl
theorem exec_scanAbort (m : Nat) (ag : Agent) (v : Word) (s : State) : exec (.scanAbort m ag v) s = execScanAbort m ag v s := rfl
theorem exec_scanDeliver (m eng1 : Nat) (fail1 fail2 : Bool) (s : State) : exec (.scanDeliver m eng1 fail1 fail2) s = execScanDeliver m eng1 fail1 fail2 s := rfl
theorem exec_scanTimeout (m : Nat) (s : State) : exec (.scanTimeout m) s = execScanTimeout m s := rfl
theorem exec_patrol (m : Nat) (corr unc : List Nat) (s : State) : exec (.patrol m corr unc) s = execPatrol m corr unc s := rfl
theorem exec_tapRecoveryDone (m : Nat) (s : State) : exec (.tapRecoveryDone m) s = execTapRecoveryDone m s := rfl
theorem exec_errorInject (m : Nat) (ag : Agent) (v : Word) (s : State) : exec (.errorInject m ag v) s = execErrorInject m ag v s := rfl
theorem exec_engineEnableWrite (pg : Page) (ag : Agent) (v : Word) (s : State) : exec (.engineEnableWrite pg ag v) s = execEngineEnableWrite pg ag v s := rfl
theorem exec_correlationDone (entry : Nat) (sets : List (List (Nat × Nat))) (s : State) : exec (.correlationDone entry sets) s = execCorrelationDone entry sets s := rfl
theorem exec_digestComplete (err : Bool) (mem : List (Nat × Byte)) (s : State) : exec (.digestComplete err mem) s = execDigestComplete err mem s := rfl
theorem exec_rplReady (ag : Agent) (s : State) : exec (.rplReady ag) s = execRplReady ag s := rfl
theorem exec_rplDecline (ag : Agent) (s : State) : exec (.rplDecline ag) s = execRplDecline ag s := rfl
theorem exec_reportWaitExpiry (job step : Nat) (s : State) : exec (.reportWaitExpiry job step) s = execReportWaitExpiry job step s := rfl
theorem exec_dpartialRx (d : Nat) (f : DPart) (s : State) : exec (.dpartialRx d f) s = execDpartialRx d f s := rfl
theorem exec_outcomeWaitExpiry (job step : Nat) (s : State) : exec (.outcomeWaitExpiry job step) s = execOutcomeWaitExpiry job step s := rfl
theorem exec_replayWaitExpiry (job : Nat) (s : State) : exec (.replayWaitExpiry job) s = execReplayWaitExpiry job s := rfl
theorem exec_replayExpired (job : Nat) (s : State) : exec (.replayExpired job) s = execReplayExpired job s := rfl
theorem exec_observationEnd (job unit : Nat) (s : State) : exec (.observationEnd job unit) s = execObservationEnd job unit s := rfl
theorem exec_reachHelloTx (l : Nat) (s : State) : exec (.reachHelloTx l) s = execReachHelloTx l s := rfl
theorem exec_reachHello (l : Nat) (ok : Bool) (sender port tx rx : Nat) (s : State) : exec (.reachHello l ok sender port tx rx) s = execReachHello l ok sender port tx rx s := rfl
theorem exec_helloLoss (l : Nat) (s : State) : exec (.helloLoss l) s = execHelloLoss l s := rfl
theorem exec_dataTx (l : Nat) (s : State) : exec (.dataTx l) s = execDataTx l s := rfl
theorem exec_data (l pos : Nat) (f : RData) (s : State) : exec (.data l pos f) s = execData l pos f s := rfl
theorem exec_rxDeliver (l : Nat) (s : State) : exec (.rxDeliver l) s = execRxDeliver l s := rfl
theorem exec_ack (l : Nat) (ok : Bool) (a : RAck) (s : State) : exec (.ack l ok a) s = execAck l ok a s := rfl
theorem exec_ackTx (l : Nat) (s : State) : exec (.ackTx l) s = execAckTx l s := rfl
theorem exec_rtoExpiry (l seq : Nat) (s : State) : exec (.rtoExpiry l seq) s = execRtoExpiry l seq s := rfl
theorem exec_sessionReset (l : Nat) (s : State) : exec (.sessionReset l) s = execSessionReset l s := rfl
theorem exec_frameAbandon (l : Nat) (s : State) : exec (.frameAbandon l) s = execFrameAbandon l s := rfl
theorem exec_gsiUpdate (l slot n : Nat) (s : State) : exec (.gsiUpdate l slot n) s = execGsiUpdate l slot n s := rfl
theorem exec_peerHelloTx (p : Nat) (s : State) : exec (.peerHelloTx p) s = execPeerHelloTx p s := rfl
theorem exec_peerHello (p board hub port : Nat) (s : State) : exec (.peerHello p board hub port) s = execPeerHello p board hub port s := rfl
theorem exec_peerHelloLoss (p : Nat) (s : State) : exec (.peerHelloLoss p) s = execPeerHelloLoss p s := rfl
theorem exec_powerEstimateSample (raw : List (Nat × Option (Nat × Nat) × Nat)) (s : State) : exec (.powerEstimateSample raw) s = execPowerEstimateSample raw s := rfl
theorem exec_vrAlert (k : Nat) (s : State) : exec (.vrAlert k) s = execVrAlert k s := rfl
theorem exec_boardThrottle (k : Nat) (s : State) : exec (.boardThrottle k) s = execBoardThrottle k s := rfl
theorem exec_ceilingRaise (c : Nat) (s : State) : exec (.ceilingRaise c) s = execCeilingRaise c s := rfl
theorem exec_levelApply (s : State) : exec (.levelApply) s = execLevelApply s := rfl
theorem exec_pmbusPoll (readings : List (Option (Nat × Nat))) (s : State) : exec (.pmbusPoll readings) s = execPmbusPoll readings s := rfl
theorem exec_pmbusAlert (s : State) : exec (.pmbusAlert) s = execPmbusAlert s := rfl
theorem exec_calibration (s : State) : exec (.calibration) s = execCalibration s := rfl
theorem exec_thermalReading (die temp : Nat) (s : State) : exec (.thermalReading die temp) s = execThermalReading die temp s := rfl
theorem exec_hubPwrLockWrite (ag : Agent) (v : Bool) (s : State) : exec (.hubPwrLockWrite ag v) s = execHubPwrLockWrite ag v s := rfl
theorem exec_install (d : Nat) (ag : Agent) (s : State) : exec (.install d ag) s = execInstall d ag s := rfl
theorem exec_erase (d : Nat) (ag : Agent) (slot : BitVec 12) (s : State) : exec (.erase d ag slot) s = execErase d ag slot s := rfl
theorem exec_zeroize (d : Nat) (ag : Agent) (v : Word) (s : State) : exec (.zeroize d ag v) s = execZeroize d ag v s := rfl
theorem exec_keyDiscard (slot : Nat) (s : State) : exec (.keyDiscard slot) s = execKeyDiscard slot s := rfl
theorem exec_keyRoll (job : Nat) (s : State) : exec (.keyRoll job) s = execKeyRoll job s := rfl
theorem exec_mgmtSessionOpen (port : Nat) (tls chains : Bool) (role : Option (List Nat)) (cert : Nat) (s : State) : exec (.mgmtSessionOpen port tls chains role cert) s = execMgmtSessionOpen port tls chains role cert s := rfl
theorem exec_sessionIdle (ses : Nat) (s : State) : exec (.sessionIdle ses) s = execSessionIdle ses s := rfl
theorem exec_getVersion (ses req : Nat) (s : State) : exec (.getVersion ses req) s = execGetVersion ses req s := rfl
theorem exec_getCapabilities (ses req : Nat) (s : State) : exec (.getCapabilities ses req) s = execGetCapabilities ses req s := rfl
theorem exec_negotiateAlgorithms (ses req : Nat) (offered : Bool) (s : State) : exec (.negotiateAlgorithms ses req offered) s = execNegotiateAlgorithms ses req offered s := rfl
theorem exec_getDigests (ses req : Nat) (s : State) : exec (.getDigests ses req) s = execGetDigests ses req s := rfl
theorem exec_getCertificate (ses req slot : Nat) (s : State) : exec (.getCertificate ses req slot) s = execGetCertificate ses req slot s := rfl
theorem exec_challenge (ses req slot nonce : Nat) (s : State) : exec (.challenge ses req slot nonce) s = execChallenge ses req slot nonce s := rfl
theorem exec_getMeasurements (ses req index : Nat) (s : State) : exec (.getMeasurements ses req index) s = execGetMeasurements ses req index s := rfl
theorem exec_getCsr (ses req : Nat) (s : State) : exec (.getCsr ses req) s = execGetCsr ses req s := rfl
theorem exec_setCertificate (ses req slot cert : Nat) (s : State) : exec (.setCertificate ses req slot cert) s = execSetCertificate ses req slot cert s := rfl
theorem exec_firmwarePost (pg : Page) (ag : Agent) (sev : BitVec 3) (detail : BitVec 12) (s : State) : exec (.firmwarePost pg ag sev detail) s = execFirmwarePost pg ag sev detail s := rfl
theorem exec_bureauPost (p : Part) (s : State) : exec (.bureauPost p) s = execBureauPost p s := rfl
theorem exec_bureauLookup (p : Part) (ag : Agent) (hi : Word) (s : State) : exec (.bureauLookup p ag hi) s = execBureauLookup p ag hi s := rfl
theorem exec_bureauLookupDone (p : Part) (ag : Agent) (s : State) : exec (.bureauLookupDone p ag) s = execBureauLookupDone p ag s := rfl
theorem exec_traceArm (pg : Page) (ag : Agent) (s : State) : exec (.traceArm pg ag) s = execTraceArm pg ag s := rfl
theorem exec_traceStop (pg : Page) (ag : Agent) (s : State) : exec (.traceStop pg ag) s = execTraceStop pg ag s := rfl
theorem exec_traceClear (pg : Page) (ag : Agent) (s : State) : exec (.traceClear pg ag) s = execTraceClear pg ag s := rfl
theorem exec_traceComparator (pg : Page) (c : BitVec 3) (s : State) : exec (.traceComparator pg c) s = execTraceComparator pg c s := rfl
theorem exec_traceOverflow (pg : Page) (lost : Nat) (syncs : List (Nat × Word)) (s : State) : exec (.traceOverflow pg lost syncs) s = execTraceOverflow pg lost syncs s := rfl
theorem exec_timedRelease (pg : Page) (s : State) : exec (.timedRelease pg) s = execTimedRelease pg s := rfl
theorem exec_autoRelease (pg : Page) (s : State) : exec (.autoRelease pg) s = execAutoRelease pg s := rfl
theorem exec_hubPor (b : BootIn) (s : State) : exec (.hubPor b) s = execHubPor b s := rfl
theorem exec_hubReset (b : BootIn) (s : State) : exec (.hubReset b) s = execHubReset b s := rfl
theorem exec_chainFrame (index type : BitVec 4) (s : State) : exec (.chainFrame index type) s = execChainFrame index type s := rfl
theorem exec_chainEnumTx (s : State) : exec (.chainEnumTx) s = execChainEnumTx s := rfl
theorem exec_heartbeatTx (s : State) : exec (.heartbeatTx) s = execHeartbeatTx s := rfl
theorem exec_takeover (back : Bool) (s : State) : exec (.takeover back) s = execTakeover back s := rfl
theorem exec_cabSwitchover (d : Nat) (ag : Agent) (v : Word) (back : Bool) (s : State) : exec (.cabSwitchover d ag v back) s = execCabSwitchover d ag v back s := rfl
theorem exec_resetPkg (d : Nat) (ag : Agent) (v : Word) (b : BootIn) (s : State) : exec (.resetPkg d ag v b) s = execResetPkg d ag v b s := rfl
theorem exec_commitPoint (id : Nat) (others : Bool) (s : State) : exec (.commitPoint id others) s = execCommitPoint id others s := rfl
theorem exec_responseTimeout (unit seq : Nat) (s : State) : exec (.responseTimeout unit seq) s = execResponseTimeout unit seq s := rfl
theorem exec_hello (ses req : Nat) (s : State) : exec (.hello ses req) s = execHello ses req s := rfl
theorem exec_bootStatus (ses req : Nat) (s : State) : exec (.bootStatus ses req) s = execBootStatus ses req s := rfl
theorem exec_regRead (ses req : Nat) (a : RegAddr) (unit count : Nat) (s : State) : exec (.regRead ses req a unit count) s = execRegRead ses req a unit count s := rfl
theorem exec_regWrite (ses req : Nat) (a : RegAddr) (unit : Nat) (words : List Word) (s : State) : exec (.regWrite ses req a unit words) s = execRegWrite ses req a unit words s := rfl
theorem exec_jobCreate (ses req job : Nat) (roster : Roster) (k : Nat) (v : VPolicy) (d : DPolicy) (p : KPolicy) (fields : List TField) (pg md : Nat) (appt : Option Nat) (s : State) : exec (.jobCreate ses req job roster k v d p fields pg md appt) s = execJobCreate ses req job roster k v d p fields pg md appt s := rfl
theorem exec_rosterChange (ses req job : Nat) (roster : Roster) (addrs : List (Nat × List Nat)) (appt : Option Nat) (s : State) : exec (.rosterChange ses req job roster addrs appt) s = execRosterChange ses req job roster addrs appt s := rfl
theorem exec_policySet (ses req job : Nat) (v : Option VPolicy) (d : Option DPolicy) (p : Option KPolicy) (appt : Option Nat) (s : State) : exec (.policySet ses req job v d p appt) s = execPolicySet ses req job v d p appt s := rfl
theorem exec_jobDelete (ses req job : Nat) (appt : Option Nat) (s : State) : exec (.jobDelete ses req job appt) s = execJobDelete ses req job appt s := rfl
theorem exec_imageLoad (ses req job : Nat) (x : Weaja) (b : Option BindSet) (place : Option Placement) (s : State) : exec (.imageLoad ses req job x b place) s = execImageLoad ses req job x b place s := rfl
theorem exec_freeze (ses req : Nat) (units dies : List Nat) (t : Nat) (release : Option Nat) (s : State) : exec (.freeze ses req units dies t release) s = execFreeze ses req units dies t release s := rfl
theorem exec_scanExport (ses req tier job lo hi : Nat) (ports : List Nat) (rate : Nat) (s : State) : exec (.scanExport ses req tier job lo hi ports rate) s = execScanExport ses req tier job lo hi ports rate s := rfl
theorem exec_correlate (ses req : Nat) (field : TField) (lo hi threshold : Nat) (s : State) : exec (.correlate ses req field lo hi threshold) s = execCorrelate ses req field lo hi threshold s := rfl
theorem exec_obsClear (ses req job unit : Nat) (s : State) : exec (.obsClear ses req job unit) s = execObsClear ses req job unit s := rfl
theorem exec_retire (ses req tile : Nat) (s : State) : exec (.retire ses req tile) s = execRetire ses req tile s := rfl
theorem exec_keyInstall (ses req kind epoch : Nat) (record : List Byte) (appt : Option Nat) (s : State) : exec (.keyInstall ses req kind epoch record appt) s = execKeyInstall ses req kind epoch record appt s := rfl
theorem exec_journalGet (ses req : Nat) (id : Option Nat) (reqId : Nat) (s : State) : exec (.journalGet ses req id reqId) s = execJournalGet ses req id reqId s := rfl
theorem exec_journalList (ses req st fromId count : Nat) (s : State) : exec (.journalList ses req st fromId count) s = execJournalList ses req st fromId count s := rfl
theorem exec_verdictsGet (ses req job lo hi : Nat) (s : State) : exec (.verdictsGet ses req job lo hi) s = execVerdictsGet ses req job lo hi s := rfl
theorem exec_summaryGet (ses req job lo hi : Nat) (s : State) : exec (.summaryGet ses req job lo hi) s = execSummaryGet ses req job lo hi s := rfl
theorem exec_energyGet (ses req job lo hi : Nat) (s : State) : exec (.energyGet ses req job lo hi) s = execEnergyGet ses req job lo hi s := rfl
theorem exec_bureauRead (ses req fromSeq : Nat) (s : State) : exec (.bureauRead ses req fromSeq) s = execBureauRead ses req fromSeq s := rfl
theorem exec_subscribe (ses req : Nat) (journal : Bool) (bureau : Option Nat) (s : State) : exec (.subscribe ses req journal bureau) s = execSubscribe ses req journal bureau s := rfl
theorem exec_imageWrite (ses req version : Nat) (ok : Bool) (cfg : Option CfgImage) (s : State) : exec (.imageWrite ses req version ok cfg) s = execImageWrite ses req version ok cfg s := rfl
theorem exec_switchover (ses req : Nat) (back : Bool) (s : State) : exec (.switchover ses req back) s = execSwitchover ses req back s := rfl
theorem exec_reset (ses req kind : Nat) (b : BootIn) (s : State) : exec (.reset ses req kind b) s = execReset ses req kind b s := rfl
theorem exec_tstModeWrite (d : Nat) (ag : Agent) (v : Word) (s : State) : exec (.tstModeWrite d ag v) s = execTstModeWrite d ag v s := rfl
theorem exec_inject (d : Nat) (ag : Agent) (s : State) : exec (.inject d ag) s = execInject d ag s := rfl
theorem exec_clear (d : Nat) (ag : Agent) (s : State) : exec (.clear d ag) s = execClear d ag s := rfl
theorem exec_halfFail (d m half : Nat) (s : State) : exec (.halfFail d m half) s = execHalfFail d m half s := rfl
theorem exec_eventLaneCount (lanes : List (Nat × Nat × Nat)) (evCycles : Nat) (cause : BitVec 3) (s : State) : exec (.eventLaneCount lanes evCycles cause) s = execEventLaneCount lanes evCycles cause s := rfl
theorem exec_checkerLocked (d kind index lane : Nat) (s : State) : exec (.checkerLocked d kind index lane) s = execCheckerLocked d kind index lane s := rfl
theorem exec_lockLost (d kind index lane errs : Nat) (s : State) : exec (.lockLost d kind index lane errs) s = execLockLost d kind index lane errs s := rfl
theorem exec_traceLineWrite (pg : Page) (packets : List TPacket) (s : State) : exec (.traceLineWrite pg packets) s = execTraceLineWrite pg packets s := rfl
theorem exec_ttExchangeRx (port : Nat) (pos : Nat) (am : Nat) (s : State) : exec (.ttExchangeRx port pos am) s = execTtExchangeRx port pos am s := rfl
theorem exec_vrAlertDeassert (k : Nat) (s : State) : exec (.vrAlertDeassert k) s = execVrAlertDeassert k s := rfl
theorem exec_boardThrottleDeassert (k : Nat) (s : State) : exec (.boardThrottleDeassert k) s = execBoardThrottleDeassert k s := rfl
theorem exec_laneAlignment (port : Nat) (up : Bool) (deskew : Nat) (s : State) : exec (.laneAlignment port up deskew) s = execLaneAlignment port up deskew s := rfl
theorem exec_trackerMissLimit (src : Nat) (s : State) : exec (.trackerMissLimit src) s = execTrackerMissLimit src s := rfl
theorem exec_partitionRecoveryDone (job : Nat) (s : State) : exec (.partitionRecoveryDone job) s = execPartitionRecoveryDone job s := rfl
theorem exec_tlyTestMode (s : State) : exec (.tlyTestMode) s = execTlyTestMode s := rfl

end Sys2Proof.Laws
end

