-- ==== Sys2Proof/Laws/Memory.lean ====
section
/-!
SUPPORT. Sys2Proof/Laws/Memory.lean: reading after writing, and the canonical form, of the addressed memories.
-/
namespace Sys2Proof.Machine

theorem memWfFrom_mono {m : List Host.Cell} {a b : Nat} (hab : a ≤ b) (h : memWfFrom b m = true) : memWfFrom a m = true := by
  cases m with
  | nil => rfl
  | cons c t =>
    simp only [memWfFrom, Bool.and_eq_true, decide_eq_true_eq] at h ⊢
    exact ⟨⟨Nat.le_trans hab h.1.1, h.1.2⟩, h.2⟩

/-- Below the first address nothing is listed. -/
theorem memRead_low {m : List Host.Cell} {lo x : Nat} (h : memWfFrom lo m = true) (hx : x < lo) : memRead m x = 0 := by
  induction m generalizing lo with
  | nil => rfl
  | cons c t ih =>
    simp only [memWfFrom, Bool.and_eq_true, decide_eq_true_eq] at h
    unfold memRead
    rw [if_neg (by omega)]
    exact ih h.2 (by omega)

theorem memErase_wf {m : List Host.Cell} {lo : Nat} (x : Nat) (h : memWfFrom lo m = true) : memWfFrom lo (memErase m x) = true := by
  induction m generalizing lo with
  | nil => rfl
  | cons c t ih =>
    simp only [memWfFrom, Bool.and_eq_true, decide_eq_true_eq] at h
    unfold memErase
    split
    · exact memWfFrom_mono (by omega) h.2
    · simp only [memWfFrom, Bool.and_eq_true, decide_eq_true_eq]
      exact ⟨h.1, ih h.2⟩

theorem memInsert_wf {m : List Host.Cell} {lo x : Nat} {v : Byte} (hx : lo ≤ x) (hv : v ≠ 0) (h : memWfFrom lo m = true) :
    memWfFrom lo (memInsert m x v) = true := by
  induction m generalizing lo with
  | nil =>
    simp only [memInsert, memWfFrom, Bool.and_eq_true, decide_eq_true_eq, bne_iff_ne]
    exact ⟨⟨hx, hv⟩, trivial⟩
  | cons c t ih =>
    simp only [memWfFrom, Bool.and_eq_true, decide_eq_true_eq] at h
    unfold memInsert
    split
    · simp only [memWfFrom, Bool.and_eq_true, decide_eq_true_eq, bne_iff_ne]
      exact ⟨⟨hx, hv⟩, ⟨by omega, by simpa using h.1.2⟩, h.2⟩
    · split
      · rename_i e
        simp only [memWfFrom, Bool.and_eq_true, decide_eq_true_eq, bne_iff_ne]
        exact ⟨⟨hx, hv⟩, e ▸ h.2⟩
      · simp only [memWfFrom, Bool.and_eq_true, decide_eq_true_eq]
        exact ⟨h.1, ih (by omega) h.2⟩

/-- A write of one byte keeps the canonical form. -/
theorem memWrite_wf {m : List Host.Cell} (x : Nat) (v : Byte) (h : Memory.wf m = true) : Memory.wf (memWrite m x v) = true := by
  unfold memWrite
  split
  · exact memErase_wf x h
  · exact memInsert_wf (Nat.zero_le x) (by assumption) h

/-- A write of bytes keeps the canonical form. -/
theorem memWriteN_wf {m : List Host.Cell} (a : Nat) (bs : List Nat) (h : Memory.wf m = true) : Memory.wf (memWriteN m a bs) = true := by
  induction bs generalizing m a with
  | nil => exact h
  | cons b bs ih => exact ih (a + 1) (memWrite_wf a _ h)

theorem writePoisoned_wf {m : List Host.Cell} {p : List Nat} (g a : Nat) (bs : List (Nat × Bool)) (h : Memory.wf m = true) :
    Memory.wf (writePoisoned m p g a bs).1 = true := memWriteN_wf a _ h

theorem Tile.write_wf {x : Tile} (a : Nat) (bs : List (Nat × Bool)) (h : Memory.wf x.sram = true) : Memory.wf (x.write a bs).sram = true :=
  writePoisoned_wf (p := x.poison) 8 a bs h

/-- A byte written reads back. -/
theorem memRead_write_same {m : List Host.Cell} {x : Nat} {v : Byte} (h : Memory.wf m = true) : memRead (memWrite m x v) x = v := by
  suffices H : ∀ lo, memWfFrom lo m = true → memRead (memWrite m x v) x = v from H 0 h
  intro lo h
  unfold memWrite
  split
  · rename_i hv
    subst hv
    induction m generalizing lo with
    | nil => rfl
    | cons c t ih =>
      simp only [memWfFrom, Bool.and_eq_true, decide_eq_true_eq] at h
      unfold memErase
      split
      · rename_i e
        exact memRead_low h.2 (by omega)
      · rename_i e
        unfold memRead
        rw [if_neg e]
        exact ih (memWfFrom_mono (Nat.zero_le _) h.2) _ h.2
  · induction m generalizing lo with
    | nil => simp [memInsert, memRead]
    | cons c t ih =>
      simp only [memWfFrom, Bool.and_eq_true, decide_eq_true_eq] at h
      unfold memInsert
      split
      · simp [memRead]
      · split
        · simp [memRead]
        · rename_i e
          unfold memRead
          rw [if_neg e]
          exact ih (memWfFrom_mono (Nat.zero_le _) h.2) _ h.2

/-- Every other byte reads as before. -/
theorem memRead_write_other {m : List Host.Cell} {x y : Nat} {v : Byte} (hy : y ≠ x) : memRead (memWrite m x v) y = memRead m y := by
  unfold memWrite
  split
  · induction m with
    | nil => rfl
    | cons c t ih =>
      unfold memErase
      split
      · rename_i e
        rw [memRead, if_neg (by omega)]
      · simp only [memRead, ih]
  · induction m with
    | nil => simp [memInsert, memRead, Ne.symm hy]
    | cons c t ih =>
      unfold memInsert
      split
      · rw [memRead, if_neg (Ne.symm hy)]
      · split
        · rename_i e
          rw [memRead, if_neg (Ne.symm hy), memRead, if_neg (by omega)]
        · simp only [memRead, ih]

theorem memRead_writeN_other {m : List Host.Cell} {a y : Nat} {bs : List Nat} (hy : y < a ∨ a + bs.length ≤ y) :
    memRead (memWriteN m a bs) y = memRead m y := by
  induction bs generalizing m a with
  | nil => rfl
  | cons b bs ih =>
    simp only [List.length_cons] at hy
    rw [memWriteN, ih (by omega), memRead_write_other (by omega)]

theorem memRead_writeN_same {m : List Host.Cell} {a : Nat} {bs : List Nat} (h : Memory.wf m = true) (i : Nat) (hi : i < bs.length) :
    memRead (memWriteN m a bs) (a + i) = BitVec.ofNat 8 (bs.getD i 0) := by
  induction bs generalizing m a i with
  | nil => simp at hi
  | cons b bs ih =>
    rw [memWriteN]
    cases i with
    | zero => rw [memRead_writeN_other (by omega), Nat.add_zero, memRead_write_same h]; rfl
    | succ i =>
      simp only [List.length_cons] at hi
      have := ih (a := a + 1) (memWrite_wf a (BitVec.ofNat 8 b) h) i (by omega)
      rw [show a + (i + 1) = a + 1 + i by omega, this]
      rfl

theorem putTile_mem {l : List (Nat × Tile)} {t : Nat} {x : Tile} {y : Nat × Tile} (h : y ∈ putTile l t x) : y = (t, x) ∨ y ∈ l := by
  induction l with
  | nil => left; simpa [putTile] using h
  | cons a l ih =>
    unfold putTile at h
    split at h
    · rcases List.mem_cons.mp h with h | h
      · exact Or.inl h
      · exact Or.inr (List.mem_cons_of_mem _ h)
    · rcases List.mem_cons.mp h with h | h
      · exact Or.inr (h ▸ List.mem_cons_self)
      · rcases ih h with h | h
        · exact Or.inl h
        · exact Or.inr (List.mem_cons_of_mem _ h)

end Sys2Proof.Machine
end

