-- ==== Sys2Proof/Laws/Keeps.lean ====
section
/-!
SUPPORT. Sys2Proof/Laws/Keeps.lean: what every operation of the model keeps, as one relation between the state before and the state after:
the queue of waiting commands, one home for every register field, the journal's IDs and the canonical form of the memories; and how the
relation composes.
-/
namespace Sys2Proof.Machine

/-- From b to t the queue stays, and RegsOne, JournalIds and the canonical form of HBM and of the SRAMs pass on. -/
structure Keeps (b t : State) : Prop where
  pending : t.pending = b.pending
  regs : RegsOne b.regs → RegsOne t.regs
  journal : JournalIds b.hub.cabinet → JournalIds t.hub.cabinet
  hbm : Memory.wf b.hub.hbm = true → Memory.wf t.hub.hbm = true
  srams : SramsOk b.hub.tiles → SramsOk t.hub.tiles

theorem Keeps.rfl {s : State} : Keeps s s := ⟨Eq.refl _, id, id, id, id⟩

theorem Keeps.trans {a b c : State} (h : Keeps a b) (k : Keeps b c) : Keeps a c :=
  ⟨k.pending.trans h.pending, fun r => k.regs (h.regs r), fun j => k.journal (h.journal j), fun m => k.hbm (h.hbm m), fun m => k.srams (h.srams m)⟩

/-- A step that writes neither the registers nor the queue nor the journal nor a memory. -/
theorem Keeps.plain {b s t : State} (hp : t.pending = s.pending) (hr : t.regs = s.regs) (hj : t.hub.cabinet.journal = s.hub.cabinet.journal)
    (hn : t.hub.cabinet.nextId = s.hub.cabinet.nextId) (hb : t.hub.cabinet.boots = s.hub.cabinet.boots) (hm : t.hub.hbm = s.hub.hbm)
    (ht : t.hub.tiles = s.hub.tiles) (hk : Keeps b s) : Keeps b t :=
  hk.trans ⟨hp, fun h => hr ▸ h, fun h => by unfold JournalIds at *; rw [hj, hn, hb]; exact h, fun h => hm ▸ h, fun h => ht ▸ h⟩

/-- The same for a state written out. -/
theorem Keeps.lit {b s : State} {cf : Parts} {ta : Tally} {hu : Hub} {rg : Cells} {ou : List Out} {tr : List (Page × Trc)} {fc : Nat}
    {pe : List Instr} (hp : pe = s.pending) (hr : rg = s.regs) (hj : hu.cabinet.journal = s.hub.cabinet.journal)
    (hn : hu.cabinet.nextId = s.hub.cabinet.nextId) (hb : hu.cabinet.boots = s.hub.cabinet.boots) (hm : hu.hbm = s.hub.hbm)
    (ht : hu.tiles = s.hub.tiles) (hk : Keeps b s) : Keeps b ⟨cf, ta, hu, rg, ou, tr, fc, pe⟩ := Keeps.plain hp hr hj hn hb hm ht hk

theorem Keeps.next {b a t : State} (h : Host.Outcome.next (φ := Fault) (ρ := Refusal) a = .next t) (hk : Keeps b a) : Keeps b t :=
  Host.Outcome.next.inj h ▸ hk

theorem Keeps.some {b a t : State} (h : Option.some a = some t) (hk : Keeps b a) : Keeps b t := Option.some.inj h ▸ hk

theorem Keeps.ite {b s t : State} {c : Prop} [Decidable c] (h : Keeps b s) (k : Keeps b t) : Keeps b (if c then s else t) := by
  split <;> assumption

/-- A choice between a state and one built over it. -/
theorem Keeps.iteOver {b s t : State} {c : Prop} [Decidable c] (h : Keeps t s) (k : Keeps b t) : Keeps b (if c then s else t) :=
  Keeps.ite (k.trans h) k

theorem Keeps.iteUnder {b s t : State} {c : Prop} [Decidable c] (h : Keeps s t) (k : Keeps b s) : Keeps b (if c then s else t) :=
  Keeps.ite k (k.trans h)

theorem Keeps.foldl {α : Type} {f : State → α → State} {b : State} {l : List α} {s : State} (hf : ∀ t a, Keeps t (f t a)) (hk : Keeps b s) :
    Keeps b (l.foldl f s) := by
  induction l generalizing s with
  | nil => exact hk
  | cons a l ih => exact ih (hk.trans (hf s a))

theorem Keeps.foldl₂ {α β : Type} {f : State × β → α → State × β} {b : State} {l : List α} {p : State × β}
    (hf : ∀ t a, Keeps t.1 (f t a).1) (hk : Keeps b p.1) : Keeps b (l.foldl f p).1 := by
  induction l generalizing p with
  | nil => exact hk
  | cons a l ih => exact ih (hk.trans (hf p a))

theorem putCell_keys (c : Cells) (k : RegKey) (v : Nat) :
    (putCell c k v).map (fun x => x.1) = if k ∈ c.map (fun x => x.1) then c.map (fun x => x.1) else c.map (fun x => x.1) ++ [k] := by
  induction c with
  | nil => simp [putCell]
  | cons a c ih =>
    unfold putCell
    by_cases h : a.1 = k
    · simp [h]
    · have h' : ¬ k = a.1 := fun e => h e.symm
      simp only [h, if_false, List.map_cons, ih, List.mem_cons, h', false_or]
      split <;> simp

theorem RegsOne.putCell {c : Cells} (h : RegsOne c) (k : RegKey) (v : Nat) : RegsOne (putCell c k v) := by
  unfold RegsOne at *
  rw [putCell_keys]
  split
  · exact h
  · rename_i hn
    exact List.nodup_append.mpr ⟨h, by simp, by simp; intro a y hy e; exact hn (by simpa using ⟨y, e ▸ hy⟩)⟩

theorem RegsOne.filter {c : Cells} (h : RegsOne c) (p : RegKey × Nat → Bool) : RegsOne (c.filter p) :=
  List.Nodup.sublist (List.Sublist.map _ List.filter_sublist) h

/-- An empty journal whose next count is 1. -/
theorem JournalIds.fresh {c : Cabinet} (hj : c.journal = []) (hn : c.nextId = 1) : JournalIds c :=
  ⟨Nat.le_of_eq hn.symm, [], by simp [hj], List.Pairwise.nil, by simp⟩

/-- Entries rewritten with their IDs kept. -/
theorem JournalIds.map {c : Cabinet} (h : JournalIds c) (f : JEntry → JEntry) (hf : ∀ e, (f e).id = e.id) :
    JournalIds { c with journal := c.journal.map f } := by
  obtain ⟨hn, ns, e, p, r⟩ := h
  exact ⟨hn, ns, by simpa [Function.comp_def, hf] using e, p, r⟩

/-- Entries taken out. -/
theorem JournalIds.filter {c : Cabinet} (h : JournalIds c) (p : JEntry → Bool) : JournalIds { c with journal := c.journal.filter p } := by
  obtain ⟨hn, ns, e, w, r⟩ := h
  suffices H : ∀ (l : List JEntry) (ns : List Nat), l.map (fun e => e.id) = ns.map (journalId c.boots) →
      ∃ ms : List Nat, ms.Sublist ns ∧ (l.filter p).map (fun e => e.id) = ms.map (journalId c.boots) by
    obtain ⟨ms, hs, he⟩ := H _ _ e
    exact ⟨hn, ms, he, w.sublist hs, fun n hn => r n (hs.subset hn)⟩
  intro l
  induction l with
  | nil => intro ns _; exact ⟨[], List.nil_sublist _, by simp⟩
  | cons a l ih =>
    intro ns e
    cases ns with
    | nil => simp at e
    | cons n ns =>
      simp only [List.map_cons, List.cons.injEq] at e
      obtain ⟨ms, hs, he⟩ := ih ns e.2
      by_cases hp : p a
      · exact ⟨n :: ms, hs.cons_cons n, by simp [List.filter, hp, he, e.1]⟩
      · exact ⟨ms, hs.cons n, by simp [List.filter, hp, he]⟩

/-- The next entry. -/
theorem JournalIds.cons {c : Cabinet} (h : JournalIds c) (e : JEntry) (he : e.id = journalId c.boots c.nextId) :
    JournalIds { c with nextId := c.nextId + 1, journal := e :: c.journal } := by
  obtain ⟨hn, ns, hm, hp, hr⟩ := h
  exact ⟨Nat.le_succ_of_le hn, c.nextId :: ns, by simp [he, hm], List.pairwise_cons.mpr ⟨fun a ha => (hr a ha).2, hp⟩,
    fun n hn' => by
      rcases List.mem_cons.mp hn' with rfl | h'
      · exact ⟨hn, Nat.lt_succ_self _⟩
      · exact ⟨(hr n h').1, Nat.lt_succ_of_lt (hr n h').2⟩⟩

theorem getTile_wf {s : State} (h : SramsOk s.hub.tiles) (t : Nat) : Memory.wf (getTile s t).sram = true := by
  unfold getTile
  cases e : s.hub.tiles.find? (fun x => x.1 == t) with
  | none => rfl
  | some y => exact h y (List.mem_of_find?_eq_some e)

theorem SramsOk.putTile {l : List (Nat × Tile)} {t : Nat} {x : Tile} (h : SramsOk l) (hx : Memory.wf x.sram = true) : SramsOk (putTile l t x) := by
  intro y hy
  rcases putTile_mem hy with rfl | hy
  · exact hx
  · exact h y hy

theorem storeRow_wf {x : Tile} {c base sc : Nat} {r : List (Nat × Bool) × List (Nat × Bool) × Nat} (h : Memory.wf x.sram = true) :
    Memory.wf (storeRow x c base sc r).sram = true := Tile.write_wf sc r.2.1 (Tile.write_wf base _ h)

theorem writeMask_wf {x : Tile} {base : Nat} {ms : List (Bool × Bool)} (h : Memory.wf x.sram = true) :
    Memory.wf (writeMask x base ms).sram = true := Tile.write_wf base _ h

theorem tileFold_wf {α : Type} {f : Tile → α → Tile} (hf : ∀ y r, Memory.wf y.sram = true → Memory.wf (f y r).sram = true) {l : List α} {x : Tile}
    (h : Memory.wf x.sram = true) : Memory.wf (l.foldl f x).sram = true := by
  induction l generalizing x with
  | nil => exact h
  | cons a l ih => exact ih (hf x a h)

theorem writeOuts_wf {x : Tile} {d : TDesc} {r : Nat} {os : List (List Nat × Bool)} (h : Memory.wf x.sram = true) :
    Memory.wf (writeOuts x d r os).sram = true := tileFold_wf (fun _ _ hy => Tile.write_wf _ _ hy) h

end Sys2Proof.Machine
end

