-- ==== Sys2Proof/Laws/KeepsOps.lean ====
section
/-!
SUPPORT. Sys2Proof/Laws/KeepsOps.lean: what every operation of Machine/Ops, Machine/Window, Machine/TallyCount, Machine/TallyPower, Machine/Steward, Machine/Egress, Machine/Inlet, Machine/Memory, Machine/Digest, Machine/Ports, Machine/Jobs keeps (Laws/Keeps.lean).
-/
set_option linter.all false
namespace Sys2Proof.Machine

/-! ### Machine/Ops -/

theorem State.setCell_keeps {b s : State} {x1 : RegKey} {x2 : Nat} (hk : Keeps b s) : Keeps b (s.setCell x1 x2) :=
  hk.trans ⟨Eq.refl _, fun h => h.putCell _ _, id, id, id⟩

theorem State.wr_keeps {b : State} {s : State} {x1 : _} {x2 : _} {x3 : _} {x4 : _} (hk : Keeps b s) : Keeps b (State.wr s x1 x2 x3 x4) := by
  unfold State.wr; try (conv => zeta)
  repeat' (first | with_reducible exact hk | with_reducible refine State.setCell_keeps ?_ | split)

theorem State.bump_keeps {b : State} {s : State} {x1 : _} {x2 : _} {x3 : _} {x4 : _} (hk : Keeps b s) : Keeps b (State.bump s x1 x2 x3 x4) := by
  unfold State.bump; try (conv => zeta)
  repeat' (first | with_reducible exact hk | with_reducible refine State.wr_keeps ?_ | split)

theorem State.incr_keeps {b : State} {s : State} {x1 : _} {x2 : _} {x3 : _} {x4 : _} (hk : Keeps b s) : Keeps b (State.incr s x1 x2 x3 x4) := by
  unfold State.incr; try (conv => zeta)
  repeat' (first | with_reducible exact hk | with_reducible refine State.wr_keeps ?_ | split)

theorem State.setLcs_keeps {b : State} {s : State} {x1 : _} {x2 : _} (hk : Keeps b s) : Keeps b (State.setLcs s x1 x2) := by
  unfold State.setLcs; try (conv => zeta)
  repeat' (first | with_reducible exact hk | split | (fail_if_no_progress with_reducible refine Keeps.lit rfl rfl rfl rfl rfl rfl rfl ?_))

theorem post_keeps {b : State} {s : State} {x1 : _} {x2 : _} {x3 : _} {x4 : _} {x5 : _} {x6 : _} (hk : Keeps b s) : Keeps b (post s x1 x2 x3 x4 x5 x6) := by
  unfold post; try (conv => zeta)
  repeat' (first | with_reducible exact hk | with_reducible refine State.incr_keeps ?_ | with_reducible refine State.wr_keeps ?_ | with_reducible refine State.bump_keeps ?_ | split | (fail_if_no_progress with_reducible refine Keeps.lit rfl rfl rfl rfl rfl rfl rfl ?_))

theorem raise_keeps {b : State} {s : State} {x1 : _} {x2 : _} {x3 : _} (hk : Keeps b s) : Keeps b (raise s x1 x2 x3) := by
  unfold raise; try (conv => zeta)
  repeat' (first | with_reducible exact hk | with_reducible refine State.wr_keeps ?_ | with_reducible refine post_keeps ?_ | split)

theorem syn_keeps {b : State} {s : State} {x1 : _} {x2 : _} {x3 : _} {x4 : _} {x5 : _} {x6 : _} (hk : Keeps b s) : Keeps b (syn s x1 x2 x3 x4 x5 x6) := by
  unfold syn; try (conv => zeta)
  repeat' (first | with_reducible exact hk | with_reducible refine State.wr_keeps ?_ | with_reducible refine State.bump_keeps ?_ | with_reducible refine State.incr_keeps ?_ | with_reducible refine post_keeps ?_ | split)

theorem clearSyn_keeps {b : State} {s : State} {x1 : _} (hk : Keeps b s) : Keeps b (clearSyn s x1) := by
  unfold clearSyn; try (conv => zeta)
  repeat' (first | with_reducible exact hk | with_reducible refine State.wr_keeps ?_ | split)

theorem resetCells_keeps {b s : State} {x1 : RegKey → Bool} (hk : Keeps b s) : Keeps b (resetCells s x1) :=
  hk.trans ⟨Eq.refl _, fun h => h.filter _, id, id, id⟩

theorem apptRefuse_keeps {b : State} {s : State} {x1 : _} {x2 : _} {x3 : _} (hk : Keeps b s) : Keeps b (apptRefuse s x1 x2 x3) := by
  unfold apptRefuse; try (conv => zeta)
  repeat' (first | with_reducible exact hk | with_reducible refine raise_keeps ?_ | with_reducible refine syn_keeps ?_ | with_reducible refine State.wr_keeps ?_ | split)

theorem State.free_keeps {b : State} {s : State} (hk : Keeps b s) : Keeps b (State.free s).1 := by
  unfold State.free; try (conv => zeta)
  repeat' (first | with_reducible exact hk | split | (fail_if_no_progress with_reducible refine Keeps.lit rfl rfl rfl rfl rfl rfl rfl ?_))

theorem State.send_keeps {b : State} {s : State} {x1 : _} (hk : Keeps b s) : Keeps b (State.send s x1) := by
  unfold State.send; try (conv => zeta)
  repeat' (first | with_reducible exact hk | split | (fail_if_no_progress with_reducible refine Keeps.lit rfl rfl rfl rfl rfl rfl rfl ?_))

/-! ### Machine/Window -/

theorem setSlot_keeps {b : State} {s : State} {x1 : _} {x2 : _} (hk : Keeps b s) : Keeps b (setSlot s x1 x2) := by
  unfold setSlot; try (conv => zeta)
  repeat' (first | with_reducible exact hk | split | (fail_if_no_progress with_reducible refine Keeps.lit rfl rfl rfl rfl rfl rfl rfl ?_))

theorem openWindow_keeps {b : State} {s : State} {x1 : _} {x2 : _} (hk : Keeps b s) : Keeps b (openWindow s x1 x2) := by
  unfold openWindow; try (conv => zeta)
  repeat' (first | with_reducible exact hk | with_reducible refine setSlot_keeps ?_ | split)

theorem restartSlots_keeps {b : State} {s : State} (hk : Keeps b s) : Keeps b (restartSlots s) := by
  unfold restartSlots; try (conv => zeta)
  repeat' (first | with_reducible exact hk | with_reducible exact Keeps.rfl | with_reducible refine openWindow_keeps ?_ | with_reducible refine Keeps.foldl ?_ ?_ | with_reducible refine Keeps.foldl₂ ?_ ?_ | (intro; intros) | split | (fail_if_no_progress with_reducible refine Keeps.lit rfl rfl rfl rfl rfl rfl rfl ?_))

theorem restartTally_keeps {b : State} {s : State} (hk : Keeps b s) : Keeps b (restartTally s) := by
  unfold restartTally; try (conv => zeta)
  repeat' (first | with_reducible exact hk | with_reducible refine restartSlots_keeps ?_ | split | (fail_if_no_progress with_reducible refine Keeps.lit rfl rfl rfl rfl rfl rfl rfl ?_))

/-! ### Machine/TallyCount -/

theorem countResidency_keeps {b : State} {s : State} {x1 : _} (hk : Keeps b s) : Keeps b (countResidency s x1) := by
  unfold countResidency; try (conv => zeta)
  repeat' (first | with_reducible exact hk | with_reducible refine State.incr_keeps ?_ | split)

theorem execEventLaneCount_keeps {b : State} {x0 : _} {x1 : _} {x2 : _} {s : State} {t : State} (h : execEventLaneCount x0 x1 x2 s = .next t) (hk : Keeps b s) : Keeps b t := by
  unfold execEventLaneCount at h; try (conv at h => zeta)
  repeat' (first | (with_reducible refine Keeps.next h ?_; clear h) | split at h)
  all_goals repeat' (first | with_reducible exact hk | with_reducible exact Keeps.rfl | with_reducible refine State.incr_keeps ?_ | with_reducible refine countResidency_keeps ?_ | with_reducible refine Keeps.foldl ?_ ?_ | with_reducible refine Keeps.foldl₂ ?_ ?_ | (intro; intros) | split | (fail_if_no_progress with_reducible refine Keeps.lit rfl rfl rfl rfl rfl rfl rfl ?_))

theorem captureHi_keeps {b : State} {s : State} {x1 : _} {x2 : _} {x3 : _} {x4 : _} (hk : Keeps b s) : Keeps b (captureHi s x1 x2 x3 x4) := by
  unfold captureHi; try (conv => zeta)
  repeat' (first | with_reducible exact hk | with_reducible refine State.wr_keeps ?_ | split)

theorem execCntValRead_keeps {b : State} {x0 : _} {s : State} {t : State} (h : execCntValRead x0 s = .next t) (hk : Keeps b s) : Keeps b t := by
  unfold execCntValRead at h; try (conv at h => zeta)
  repeat' (first | (with_reducible refine Keeps.next h ?_; clear h) | split at h)
  all_goals repeat' (first | with_reducible exact hk | with_reducible refine State.wr_keeps ?_ | with_reducible refine captureHi_keeps ?_ | split)

theorem sampleGauge_keeps {b : State} {s : State} {x1 : _} {x2 : _} (hk : Keeps b s) : Keeps b (sampleGauge s x1 x2) := by
  unfold sampleGauge; try (conv => zeta)
  repeat' (first | with_reducible exact hk | with_reducible exact Keeps.rfl | with_reducible refine State.wr_keeps ?_ | with_reducible refine setSlot_keeps ?_ | with_reducible refine Keeps.foldl ?_ ?_ | with_reducible refine Keeps.foldl₂ ?_ ?_ | (intro; intros) | split | (fail_if_no_progress with_reducible refine Keeps.lit rfl rfl rfl rfl rfl rfl rfl ?_))

theorem sampleSrc_keeps {b : State} {s : State} {x1 : _} {x2 : _} (hk : Keeps b s) : Keeps b (sampleSrc s x1 x2) := by
  unfold sampleSrc; try (conv => zeta)
  repeat' (first | with_reducible exact hk | with_reducible exact Keeps.rfl | with_reducible refine sampleGauge_keeps ?_ | with_reducible refine Keeps.foldl ?_ ?_ | with_reducible refine Keeps.foldl₂ ?_ ?_ | (intro; intros) | split | (fail_if_no_progress with_reducible refine Keeps.lit rfl rfl rfl rfl rfl rfl rfl ?_))

theorem execFreqSample_keeps {b : State} {s : State} {t : State} (h : execFreqSample s = .next t) (hk : Keeps b s) : Keeps b t := by
  unfold execFreqSample at h; try (conv at h => zeta)
  repeat' (first | (with_reducible refine Keeps.next h ?_; clear h) | split at h)
  all_goals repeat' (first | with_reducible exact hk | with_reducible refine sampleSrc_keeps ?_ | split | (fail_if_no_progress with_reducible refine Keeps.lit rfl rfl rfl rfl rfl rfl rfl ?_))

theorem gaugeHostWrite_keeps {b : State} {s : State} {x1 : _} {x2 : _} (hk : Keeps b s) : Keeps b (gaugeHostWrite s x1 x2) := by
  unfold gaugeHostWrite; try (conv => zeta)
  repeat' (first | with_reducible exact hk | with_reducible refine sampleGauge_keeps ?_ | with_reducible refine State.wr_keeps ?_ | with_reducible refine syn_keeps ?_ | split)

theorem execGaugeHostWrite_keeps {b : State} {x0 : _} {x1 : _} {s : State} {t : State} (h : execGaugeHostWrite x0 x1 s = .next t) (hk : Keeps b s) : Keeps b t := by
  unfold execGaugeHostWrite at h; try (conv at h => zeta)
  repeat' (first | (with_reducible refine Keeps.next h ?_; clear h) | split at h)
  all_goals repeat' (first | with_reducible exact hk | with_reducible refine gaugeHostWrite_keeps ?_ | split)

theorem bufferMark_keeps {b : State} {s : State} {x1 : _} (hk : Keeps b s) : Keeps b (bufferMark s x1) := by
  unfold bufferMark; try (conv => zeta)
  repeat' (first | with_reducible exact hk | with_reducible refine State.wr_keeps ?_ | with_reducible refine State.bump_keeps ?_ | with_reducible refine setSlot_keeps ?_ | split | (fail_if_no_progress with_reducible refine Keeps.lit rfl rfl rfl rfl rfl rfl rfl ?_))

theorem acceptMark_keeps {b : State} {s : State} {x1 : _} {x2 : _} {x3 : _} {x4 : _} (hk : Keeps b s) : Keeps b (acceptMark s x1 x2 x3 x4) := by
  unfold acceptMark; try (conv => zeta)
  repeat' (first | with_reducible exact hk | with_reducible refine State.incr_keeps ?_ | with_reducible refine bufferMark_keeps ?_ | split)

theorem splitEnd_keeps {b : State} {s : State} (hk : Keeps b s) : Keeps b (splitEnd s) := by
  unfold splitEnd; try (conv => zeta)
  repeat' (first | with_reducible exact hk | with_reducible exact Keeps.rfl | with_reducible refine State.incr_keeps ?_ | with_reducible refine State.wr_keeps ?_ | with_reducible refine setSlot_keeps ?_ | with_reducible refine Keeps.foldl ?_ ?_ | with_reducible refine Keeps.foldl₂ ?_ ?_ | (intro; intros) | split | (fail_if_no_progress with_reducible refine Keeps.lit rfl rfl rfl rfl rfl rfl rfl ?_))

theorem splitOnce_keeps {b : State} {s : State} (hk : Keeps b s) : Keeps b (splitOnce s) := by
  unfold splitOnce; try (conv => zeta)
  repeat' (first | with_reducible exact hk | with_reducible refine splitEnd_keeps ?_ | split)

theorem slowSnapshot_keeps {b : State} {s : State} {x1 : _} (hk : Keeps b s) : Keeps b (slowSnapshot s x1) := by
  unfold slowSnapshot; try (conv => zeta)
  repeat' (first | with_reducible exact hk | with_reducible refine State.wr_keeps ?_ | split | (fail_if_no_progress with_reducible refine Keeps.lit rfl rfl rfl rfl rfl rfl rfl ?_))

theorem execSlowBoundary_keeps {b : State} {s : State} {t : State} (h : execSlowBoundary s = .next t) (hk : Keeps b s) : Keeps b t := by
  unfold execSlowBoundary at h; try (conv at h => zeta)
  repeat' (first | (with_reducible refine Keeps.next h ?_; clear h) | split at h)
  all_goals repeat' (first | with_reducible exact hk | with_reducible refine slowSnapshot_keeps ?_ | split | (fail_if_no_progress with_reducible refine Keeps.lit rfl rfl rfl rfl rfl rfl rfl ?_))

theorem setKeys_keeps {b : State} {s : State} {x1 : _} {x2 : _} (hk : Keeps b s) : Keeps b (setKeys s x1 x2) := by
  unfold setKeys; try (conv => zeta)
  repeat' (first | with_reducible exact hk | split | (fail_if_no_progress with_reducible refine Keeps.lit rfl rfl rfl rfl rfl rfl rfl ?_))

theorem takeMarks_keeps {b : State} {s : State} {x1 : _} {x2 : _} (hk : Keeps b s) : Keeps b (takeMarks s x1 x2) := by
  unfold takeMarks; try (conv => zeta)
  repeat' (first | with_reducible exact hk | with_reducible refine State.wr_keeps ?_ | split | (fail_if_no_progress with_reducible refine Keeps.lit rfl rfl rfl rfl rfl rfl rfl ?_))

theorem queueRecord_keeps {b : State} {s : State} {x1 : _} {x2 : _} {x3 : _} (hk : Keeps b s) : Keeps b (queueRecord s x1 x2 x3) := by
  unfold queueRecord; try (conv => zeta)
  repeat' (first | with_reducible exact hk | with_reducible refine syn_keeps ?_ | with_reducible refine raise_keeps ?_ | with_reducible refine setSlot_keeps ?_ | split | (fail_if_no_progress with_reducible refine Keeps.lit rfl rfl rfl rfl rfl rfl rfl ?_))

theorem closeWindow_keeps {b : State} {s : State} {x1 : _} {x2 : _} (hk : Keeps b s) : Keeps b (closeWindow s x1 x2) := by
  unfold closeWindow; try (conv => zeta)
  repeat' (first | with_reducible exact hk | with_reducible refine State.incr_keeps ?_ | with_reducible refine queueRecord_keeps ?_ | with_reducible refine setSlot_keeps ?_ | with_reducible refine takeMarks_keeps ?_ | split)

theorem closeWindows_keeps {b : State} {s : State} {x1 : _} (hk : Keeps b s) : Keeps b (closeWindows s x1) := by
  unfold closeWindows; try (conv => zeta)
  repeat' (first | with_reducible exact hk | with_reducible exact Keeps.rfl | with_reducible refine closeWindow_keeps ?_ | with_reducible refine splitOnce_keeps ?_ | with_reducible refine Keeps.foldl ?_ ?_ | with_reducible refine Keeps.foldl₂ ?_ ?_ | (intro; intros) | split | (fail_if_no_progress with_reducible refine Keeps.lit rfl rfl rfl rfl rfl rfl rfl ?_))

theorem openWindows_keeps {b : State} {s : State} {x1 : _} (hk : Keeps b s) : Keeps b (openWindows s x1) := by
  unfold openWindows; try (conv => zeta)
  repeat' (first | with_reducible exact hk | with_reducible exact Keeps.rfl | with_reducible refine openWindow_keeps ?_ | with_reducible refine Keeps.foldl ?_ ?_ | with_reducible refine Keeps.foldl₂ ?_ ?_ | (intro; intros) | split | (fail_if_no_progress with_reducible refine Keeps.lit rfl rfl rfl rfl rfl rfl rfl ?_))

theorem tlyUnitWrite_keeps {b : State} {s : State} {x1 : _} {x2 : _} (hk : Keeps b s) : Keeps b (tlyUnitWrite s x1 x2) := by
  unfold tlyUnitWrite; try (conv => zeta)
  repeat' (first | with_reducible exact hk | with_reducible refine syn_keeps ?_ | with_reducible refine restartTally_keeps ?_ | with_reducible refine State.wr_keeps ?_ | split)

theorem execTlyUnitWrite_keeps {b : State} {x0 : _} {x1 : _} {s : State} {t : State} (h : execTlyUnitWrite x0 x1 s = .next t) (hk : Keeps b s) : Keeps b t := by
  unfold execTlyUnitWrite at h; try (conv at h => zeta)
  repeat' (first | (with_reducible refine Keeps.next h ?_; clear h) | split at h)
  all_goals repeat' (first | with_reducible exact hk | with_reducible refine tlyUnitWrite_keeps ?_ | split)

theorem execChainAddress_keeps {b : State} {x0 : _} {s : State} {t : State} (h : execChainAddress x0 s = .next t) (hk : Keeps b s) : Keeps b t := by
  unfold execChainAddress at h; try (conv at h => zeta)
  repeat' (first | (with_reducible refine Keeps.next h ?_; clear h) | split at h)
  all_goals repeat' (first | with_reducible exact hk | with_reducible refine State.wr_keeps ?_ | split | (fail_if_no_progress with_reducible refine Keeps.lit rfl rfl rfl rfl rfl rfl rfl ?_))

theorem raiseFclk_keeps {b : State} {s : State} (hk : Keeps b s) : Keeps b (raiseFclk s) := by
  unfold raiseFclk; try (conv => zeta)
  repeat' (first | with_reducible exact hk | split | (fail_if_no_progress with_reducible refine Keeps.lit rfl rfl rfl rfl rfl rfl rfl ?_))

theorem execFclkRequest_keeps {b : State} {s : State} {t : State} (h : execFclkRequest s = .next t) (hk : Keeps b s) : Keeps b t := by
  unfold execFclkRequest at h; try (conv at h => zeta)
  repeat' (first | (with_reducible refine Keeps.next h ?_; clear h) | split at h)
  all_goals repeat' (first | with_reducible exact hk | with_reducible refine raiseFclk_keeps ?_ | split)

theorem execFclkAck_keeps {b : State} {s : State} {t : State} (h : execFclkAck s = .next t) (hk : Keeps b s) : Keeps b t := by
  unfold execFclkAck at h; try (conv at h => zeta)
  repeat' (first | (with_reducible refine Keeps.next h ?_; clear h) | split at h)
  all_goals repeat' (first | with_reducible exact hk | with_reducible exact Keeps.rfl | with_reducible refine raise_keeps ?_ | with_reducible refine State.bump_keeps ?_ | with_reducible refine syn_keeps ?_ | with_reducible refine Keeps.foldl ?_ ?_ | with_reducible refine Keeps.foldl₂ ?_ ?_ | ((with_reducible refine Keeps.iteOver ?_ ?_); focus (simp only [Keeps.rfl, ↓raise_keeps, ↓State.bump_keeps, ↓syn_keeps]; done)) | ((with_reducible refine Keeps.iteUnder ?_ ?_); focus (simp only [Keeps.rfl, ↓raise_keeps, ↓State.bump_keeps, ↓syn_keeps]; done)) | with_reducible refine Keeps.ite ?_ ?_ | (intro; intros) | (split <;> (rename_i heq; with_reducible have e := congrArg Prod.fst heq; with_reducible dsimp only at e; with_reducible subst e)) | split | (fail_if_no_progress with_reducible refine Keeps.lit rfl rfl rfl rfl rfl rfl rfl ?_))

theorem lowerFclk_keeps {b : State} {s : State} (hk : Keeps b s) : Keeps b (lowerFclk s) := by
  unfold lowerFclk; try (conv => zeta)
  repeat' (first | with_reducible exact hk | split | (fail_if_no_progress with_reducible refine Keeps.lit rfl rfl rfl rfl rfl rfl rfl ?_))

/-! ### Machine/TallyPower -/

theorem limiterRefresh_keeps {b : State} {s : State} (hk : Keeps b s) : Keeps b (limiterRefresh s) := by
  unfold limiterRefresh; try (conv => zeta)
  repeat' (first | with_reducible exact hk | with_reducible refine State.wr_keeps ?_ | split | (fail_if_no_progress with_reducible refine Keeps.lit rfl rfl rfl rfl rfl rfl rfl ?_))

theorem limiterEval_keeps {b : State} {s : State} (hk : Keeps b s) : Keeps b (limiterEval s) := by
  unfold limiterEval; try (conv => zeta)
  repeat' (first | with_reducible exact hk | with_reducible refine State.wr_keeps ?_ | with_reducible refine raise_keeps ?_ | with_reducible refine State.bump_keeps ?_ | split | (fail_if_no_progress with_reducible refine Keeps.lit rfl rfl rfl rfl rfl rfl rfl ?_))

theorem execPowerSample_keeps {b : State} {x0 : _} {x1 : _} {s : State} {t : State} (h : execPowerSample x0 x1 s = .next t) (hk : Keeps b s) : Keeps b t := by
  unfold execPowerSample at h; try (conv at h => zeta)
  repeat' (first | (with_reducible refine Keeps.next h ?_; clear h) | split at h)
  all_goals repeat' (first | with_reducible exact hk | with_reducible refine sampleSrc_keeps ?_ | with_reducible refine State.wr_keeps ?_ | with_reducible refine limiterEval_keeps ?_ | split | (fail_if_no_progress with_reducible refine Keeps.lit rfl rfl rfl rfl rfl rfl rfl ?_))

theorem lockWrite_keeps {b : State} {s : State} {x1 : _} {x2 : _} {x3 : _} (hk : Keeps b s) : Keeps b (lockWrite s x1 x2 x3) := by
  unfold lockWrite; try (conv => zeta)
  repeat' (first | with_reducible exact hk | with_reducible refine syn_keeps ?_ | with_reducible refine State.wr_keeps ?_ | split)

theorem execLockWrite_keeps {b : State} {x0 : _} {x1 : _} {x2 : _} {s : State} {t : State} (h : execLockWrite x0 x1 x2 s = .next t) (hk : Keeps b s) : Keeps b t := by
  unfold execLockWrite at h; try (conv at h => zeta)
  repeat' (first | (with_reducible refine Keeps.next h ?_; clear h) | split at h)
  all_goals repeat' (first | with_reducible exact hk | with_reducible refine lockWrite_keeps ?_ | split)

theorem capCodeWrite_keeps {b : State} {s : State} {x1 : _} {x2 : _} (hk : Keeps b s) : Keeps b (capCodeWrite s x1 x2) := by
  unfold capCodeWrite; try (conv => zeta)
  repeat' (first | with_reducible exact hk | with_reducible refine syn_keeps ?_ | with_reducible refine State.wr_keeps ?_ | split)

theorem execCapCodeWrite_keeps {b : State} {x0 : _} {x1 : _} {s : State} {t : State} (h : execCapCodeWrite x0 x1 s = .next t) (hk : Keeps b s) : Keeps b t := by
  unfold execCapCodeWrite at h; try (conv at h => zeta)
  repeat' (first | (with_reducible refine Keeps.next h ?_; clear h) | split at h)
  all_goals repeat' (first | with_reducible exact hk | with_reducible refine capCodeWrite_keeps ?_ | split)

theorem capApplied_keeps {b : State} {s : State} (hk : Keeps b s) : Keeps b (capApplied s) := by
  unfold capApplied; try (conv => zeta)
  repeat' (first | with_reducible exact hk | split | (fail_if_no_progress with_reducible refine Keeps.lit rfl rfl rfl rfl rfl rfl rfl ?_))

theorem execCapAck_keeps {b : State} {s : State} {t : State} (h : execCapAck s = .next t) (hk : Keeps b s) : Keeps b t := by
  unfold execCapAck at h; try (conv at h => zeta)
  repeat' (first | (with_reducible refine Keeps.next h ?_; clear h) | split at h)
  all_goals repeat' (first | with_reducible exact hk | with_reducible exact Keeps.rfl | with_reducible refine State.wr_keeps ?_ | with_reducible refine raise_keeps ?_ | with_reducible refine State.bump_keeps ?_ | with_reducible refine syn_keeps ?_ | with_reducible refine Keeps.foldl ?_ ?_ | with_reducible refine Keeps.foldl₂ ?_ ?_ | ((with_reducible refine Keeps.iteOver ?_ ?_); focus (simp only [Keeps.rfl, ↓State.wr_keeps, ↓raise_keeps, ↓State.bump_keeps, ↓syn_keeps]; done)) | ((with_reducible refine Keeps.iteUnder ?_ ?_); focus (simp only [Keeps.rfl, ↓State.wr_keeps, ↓raise_keeps, ↓State.bump_keeps, ↓syn_keeps]; done)) | with_reducible refine Keeps.ite ?_ ?_ | (intro; intros) | (split <;> (rename_i heq; with_reducible have e := congrArg Prod.fst heq; with_reducible dsimp only at e; with_reducible subst e)) | split | (fail_if_no_progress with_reducible refine Keeps.lit rfl rfl rfl rfl rfl rfl rfl ?_))

theorem execCapAckTimeout_keeps {b : State} {s : State} {t : State} (h : execCapAckTimeout s = .next t) (hk : Keeps b s) : Keeps b t := by
  unfold execCapAckTimeout at h; try (conv at h => zeta)
  repeat' (first | (with_reducible refine Keeps.next h ?_; clear h) | split at h)
  all_goals repeat' (first | with_reducible exact hk | with_reducible exact Keeps.rfl | with_reducible refine raise_keeps ?_ | with_reducible refine State.bump_keeps ?_ | with_reducible refine syn_keeps ?_ | with_reducible refine Keeps.foldl ?_ ?_ | with_reducible refine Keeps.foldl₂ ?_ ?_ | ((with_reducible refine Keeps.iteOver ?_ ?_); focus (simp only [Keeps.rfl, ↓raise_keeps, ↓State.bump_keeps, ↓syn_keeps]; done)) | ((with_reducible refine Keeps.iteUnder ?_ ?_); focus (simp only [Keeps.rfl, ↓raise_keeps, ↓State.bump_keeps, ↓syn_keeps]; done)) | with_reducible refine Keeps.ite ?_ ?_ | (intro; intros) | (split <;> (rename_i heq; with_reducible have e := congrArg Prod.fst heq; with_reducible dsimp only at e; with_reducible subst e)) | split | (fail_if_no_progress with_reducible refine Keeps.lit rfl rfl rfl rfl rfl rfl rfl ?_))

/-! ### Machine/Steward -/

theorem stwStart_keeps {b : State} {s : State} {x1 : _} {x2 : _} (hk : Keeps b s) : Keeps b (stwStart s x1 x2) := by
  unfold stwStart; try (conv => zeta)
  repeat' (first | with_reducible exact hk | with_reducible refine syn_keeps ?_ | with_reducible refine State.wr_keeps ?_ | split)

theorem execStewardStart_keeps {b : State} {x0 : _} {x1 : _} {s : State} {t : State} (h : execStewardStart x0 x1 s = .next t) (hk : Keeps b s) : Keeps b t := by
  unfold execStewardStart at h; try (conv at h => zeta)
  repeat' (first | (with_reducible refine Keeps.next h ?_; clear h) | split at h)
  all_goals repeat' (first | with_reducible exact hk | with_reducible refine stwStart_keeps ?_ | with_reducible refine syn_keeps ?_ | split)

theorem stwVerified_keeps {b : State} {s : State} {x1 : _} {x2 : _} {x3 : _} {x4 : _} (hk : Keeps b s) : Keeps b (stwVerified s x1 x2 x3 x4) := by
  unfold stwVerified; try (conv => zeta)
  repeat' (first | with_reducible exact hk | with_reducible refine State.wr_keeps ?_ | with_reducible refine syn_keeps ?_ | split | (fail_if_no_progress with_reducible refine Keeps.lit rfl rfl rfl rfl rfl rfl rfl ?_))

theorem execStewardVerifyDone_keeps {b : State} {x0 : _} {x1 : _} {x2 : _} {x3 : _} {s : State} {t : State} (h : execStewardVerifyDone x0 x1 x2 x3 s = .next t) (hk : Keeps b s) : Keeps b t := by
  unfold execStewardVerifyDone at h; try (conv at h => zeta)
  repeat' (first | (with_reducible refine Keeps.next h ?_; clear h) | split at h)
  all_goals repeat' (first | with_reducible exact hk | with_reducible refine stwVerified_keeps ?_ | split)

theorem stwHalt_keeps {b : State} {s : State} {x1 : _} {x2 : _} (hk : Keeps b s) : Keeps b (stwHalt s x1 x2) := by
  unfold stwHalt; try (conv => zeta)
  repeat' (first | with_reducible exact hk | with_reducible refine syn_keeps ?_ | with_reducible refine State.wr_keeps ?_ | split)

theorem execStewardHalt_keeps {b : State} {x0 : _} {x1 : _} {s : State} {t : State} (h : execStewardHalt x0 x1 s = .next t) (hk : Keeps b s) : Keeps b t := by
  unfold execStewardHalt at h; try (conv at h => zeta)
  repeat' (first | (with_reducible refine Keeps.next h ?_; clear h) | split at h)
  all_goals repeat' (first | with_reducible exact hk | with_reducible refine stwHalt_keeps ?_ | with_reducible refine syn_keeps ?_ | split)

theorem execStewardFault_keeps {b : State} {x0 : _} {x1 : _} {s : State} {t : State} (h : execStewardFault x0 x1 s = .next t) (hk : Keeps b s) : Keeps b t := by
  unfold execStewardFault at h; try (conv at h => zeta)
  repeat' (first | (with_reducible refine Keeps.next h ?_; clear h) | split at h)
  all_goals repeat' (first | with_reducible exact hk | with_reducible refine raise_keeps ?_ | with_reducible refine State.wr_keeps ?_ | split)

theorem stwLoad_keeps {b : State} {s : State} {x1 : _} {x2 : _} {x3 : _} (hk : Keeps b s) : Keeps b (stwLoad s x1 x2 x3) := by
  unfold stwLoad; try (conv => zeta)
  repeat' (first | with_reducible exact hk | with_reducible refine syn_keeps ?_ | with_reducible refine State.wr_keeps ?_ | split)

theorem execStewardLoadWord_keeps {b : State} {x0 : _} {x1 : _} {x2 : _} {s : State} {t : State} (h : execStewardLoadWord x0 x1 x2 s = .next t) (hk : Keeps b s) : Keeps b t := by
  unfold execStewardLoadWord at h; try (conv at h => zeta)
  repeat' (first | (with_reducible refine Keeps.next h ?_; clear h) | split at h)
  all_goals repeat' (first | with_reducible exact hk | with_reducible refine stwLoad_keeps ?_ | with_reducible refine syn_keeps ?_ | split)

/-! ### Machine/Egress -/

theorem placeHeads_keeps {b : State} {s : State} (hk : Keeps b s) : Keeps b (placeHeads s) := by
  unfold placeHeads; try (conv => zeta)
  repeat' (first | with_reducible exact hk | split | (fail_if_no_progress with_reducible refine Keeps.lit rfl rfl rfl rfl rfl rfl rfl ?_))

theorem enqueue_keeps {b : State} {s : State} {x1 : _} (hk : Keeps b s) : Keeps b (enqueue s x1).1 := by
  unfold enqueue; try (conv => zeta)
  repeat' (first | with_reducible exact hk | with_reducible refine placeHeads_keeps ?_ | with_reducible refine State.wr_keeps ?_ | with_reducible refine raise_keeps ?_ | with_reducible refine State.bump_keeps ?_ | split | (fail_if_no_progress with_reducible refine Keeps.lit rfl rfl rfl rfl rfl rfl rfl ?_))

theorem dropEmptied_keeps {b : State} {s : State} {x1 : _} {x2 : _} (hk : Keeps b s) : Keeps b (dropEmptied s x1 x2) := by
  unfold dropEmptied; try (conv => zeta)
  repeat' (first | with_reducible exact hk | with_reducible refine setKeys_keeps ?_ | split)

theorem sealRecord_keeps {b : State} {s : State} {x1 : _} (hk : Keeps b s) : Keeps b (sealRecord s x1) := by
  unfold sealRecord; try (conv => zeta)
  repeat' (first | with_reducible exact hk | with_reducible refine raise_keeps ?_ | with_reducible refine syn_keeps ?_ | with_reducible refine setSlot_keeps ?_ | with_reducible refine State.bump_keeps ?_ | with_reducible refine State.incr_keeps ?_ | with_reducible refine enqueue_keeps ?_ | with_reducible refine dropEmptied_keeps ?_ | split)

theorem execRecordSeal_keeps {b : State} {s : State} {t : State} (h : execRecordSeal s = .next t) (hk : Keeps b s) : Keeps b t := by
  unfold execRecordSeal at h; try (conv at h => zeta)
  repeat' (first | (with_reducible refine Keeps.next h ?_; clear h) | split at h)
  all_goals repeat' (first | with_reducible exact hk | with_reducible exact Keeps.rfl | with_reducible refine sealRecord_keeps ?_ | with_reducible refine Keeps.foldl ?_ ?_ | with_reducible refine Keeps.foldl₂ ?_ ?_ | (intro; intros) | split | (fail_if_no_progress with_reducible refine Keeps.lit rfl rfl rfl rfl rfl rfl rfl ?_))

theorem epochChanged_keeps {b : State} {s : State} {x1 : _} {x2 : _} (hk : Keeps b s) : Keeps b (epochChanged s x1 x2) := by
  unfold epochChanged; try (conv => zeta)
  repeat' (first | with_reducible exact hk | with_reducible refine setKeys_keeps ?_ | split)

theorem execPrevKeyDiscard_keeps {b : State} {x0 : _} {s : State} {t : State} (h : execPrevKeyDiscard x0 s = .next t) (hk : Keeps b s) : Keeps b t := by
  unfold execPrevKeyDiscard at h; try (conv at h => zeta)
  repeat' (first | (with_reducible refine Keeps.next h ?_; clear h) | split at h)
  all_goals repeat' (first | with_reducible exact hk | with_reducible refine setKeys_keeps ?_ | split)

theorem shpResetAll_keeps {b : State} {s : State} {x1 : _} (hk : Keeps b s) : Keeps b (shpResetAll s x1) := by
  unfold shpResetAll; try (conv => zeta)
  repeat' (first | with_reducible exact hk | split | (fail_if_no_progress with_reducible refine Keeps.lit rfl rfl rfl rfl rfl rfl rfl ?_))

theorem shpApplied_keeps {b : State} {s : State} {x1 : _} (hk : Keeps b s) : Keeps b (shpApplied s x1) := by
  unfold shpApplied; try (conv => zeta)
  repeat' (first | with_reducible exact hk | with_reducible refine placeHeads_keeps ?_ | with_reducible refine shpResetAll_keeps ?_ | split | (fail_if_no_progress with_reducible refine Keeps.lit rfl rfl rfl rfl rfl rfl rfl ?_))

theorem refill_keeps {b : State} {s : State} {x1 : _} (hk : Keeps b s) : Keeps b (refill s x1) := by
  unfold refill; try (conv => zeta)
  repeat' (first | with_reducible exact hk | split | (fail_if_no_progress with_reducible refine Keeps.lit rfl rfl rfl rfl rfl rfl rfl ?_))

theorem execShaperRefill_keeps {b : State} {s : State} {t : State} (h : execShaperRefill s = .next t) (hk : Keeps b s) : Keeps b t := by
  unfold execShaperRefill at h; try (conv at h => zeta)
  repeat' (first | (with_reducible refine Keeps.next h ?_; clear h) | split at h)
  all_goals repeat' (first | with_reducible exact hk | with_reducible refine shpResetAll_keeps ?_ | with_reducible refine placeHeads_keeps ?_ | with_reducible refine raise_keeps ?_ | with_reducible refine State.bump_keeps ?_ | with_reducible refine refill_keeps ?_ | split | (fail_if_no_progress with_reducible refine Keeps.lit rfl rfl rfl rfl rfl rfl rfl ?_))

theorem execGateEntryAdvance_keeps {b : State} {s : State} {t : State} (h : execGateEntryAdvance s = .next t) (hk : Keeps b s) : Keeps b t := by
  unfold execGateEntryAdvance at h; try (conv at h => zeta)
  repeat' (first | (with_reducible refine Keeps.next h ?_; clear h) | split at h)
  all_goals repeat' (first | with_reducible exact hk | split | (fail_if_no_progress with_reducible refine Keeps.lit rfl rfl rfl rfl rfl rfl rfl ?_))

theorem execFrameStart_keeps {b : State} {s : State} {t : State} (h : execFrameStart s = .next t) (hk : Keeps b s) : Keeps b t := by
  unfold execFrameStart at h; try (conv at h => zeta)
  repeat' (first | (with_reducible refine Keeps.next h ?_; clear h) | split at h)
  all_goals repeat' (first | with_reducible exact hk | with_reducible refine placeHeads_keeps ?_ | with_reducible refine State.wr_keeps ?_ | split | (fail_if_no_progress with_reducible refine Keeps.lit rfl rfl rfl rfl rfl rfl rfl ?_))

theorem execFrameSent_keeps {b : State} {s : State} {t : State} (h : execFrameSent s = .next t) (hk : Keeps b s) : Keeps b t := by
  unfold execFrameSent at h; try (conv at h => zeta)
  repeat' (first | (with_reducible refine Keeps.next h ?_; clear h) | split at h)
  all_goals repeat' (first | with_reducible exact hk | with_reducible refine lowerFclk_keeps ?_ | with_reducible refine State.send_keeps ?_ | with_reducible refine State.incr_keeps ?_ | split | (fail_if_no_progress with_reducible refine Keeps.lit rfl rfl rfl rfl rfl rfl rfl ?_))

theorem clipCeil_keeps {b : State} {s : State} (hk : Keeps b s) : Keeps b (clipCeil s) := by
  unfold clipCeil; try (conv => zeta)
  repeat' (first | with_reducible exact hk | split | (fail_if_no_progress with_reducible refine Keeps.lit rfl rfl rfl rfl rfl rfl rfl ?_))

/-! ### Machine/Inlet -/

theorem cmdPromote_keeps {b : State} {s : State} (hk : Keeps b s) : Keeps b (cmdPromote s) := by
  unfold cmdPromote; try (conv => zeta)
  repeat' (first | with_reducible exact hk | split | (fail_if_no_progress with_reducible refine Keeps.lit rfl rfl rfl rfl rfl rfl rfl ?_))

theorem inletRefused_keeps {b : State} {s : State} {x1 : _} (hk : Keeps b s) : Keeps b (inletRefused s x1) := by
  unfold inletRefused; try (conv => zeta)
  repeat' (first | with_reducible exact hk | with_reducible refine State.bump_keeps ?_ | with_reducible refine syn_keeps ?_ | split)

theorem inletAccepted_keeps {b : State} {s : State} {x1 : _} (hk : Keeps b s) : Keeps b (inletAccepted s x1) := by
  unfold inletAccepted; try (conv => zeta)
  repeat' (first | with_reducible exact hk | with_reducible refine State.wr_keeps ?_ | split | (fail_if_no_progress with_reducible refine Keeps.lit rfl rfl rfl rfl rfl rfl rfl ?_))

theorem respond_keeps {b : State} {s : State} {x1 : _} {x2 : _} {x3 : _} {x4 : _} {x5 : _} {x6 : _} (hk : Keeps b s) : Keeps b (respond s x1 x2 x3 x4 x5 x6) := by
  unfold respond; try (conv => zeta)
  repeat' (first | with_reducible exact hk | with_reducible refine raise_keeps ?_ | with_reducible refine enqueue_keeps ?_ | split)

theorem runCommand_keeps {b : State} {s : State} {x1 : _} {x2 : _} {x3 : _} (hx3 : ∀ y0, Keeps y0 (x3 y0).1) (hk : Keeps b s) : Keeps b (runCommand s x1 x2 x3) := by
  unfold runCommand; try (conv => zeta)
  repeat' (first | with_reducible exact hk | with_reducible exact Keeps.rfl | with_reducible refine State.incr_keeps ?_ | with_reducible refine cmdPromote_keeps ?_ | with_reducible refine inletAccepted_keeps ?_ | with_reducible refine respond_keeps ?_ | with_reducible refine inletRefused_keeps ?_ | with_reducible refine Keeps.foldl ?_ ?_ | with_reducible refine Keeps.foldl₂ ?_ ?_ | ((with_reducible refine Keeps.iteOver ?_ ?_); focus (simp only [Keeps.rfl, ↓State.incr_keeps, ↓cmdPromote_keeps, ↓inletAccepted_keeps, ↓respond_keeps, ↓inletRefused_keeps]; done)) | ((with_reducible refine Keeps.iteUnder ?_ ?_); focus (simp only [Keeps.rfl, ↓State.incr_keeps, ↓cmdPromote_keeps, ↓inletAccepted_keeps, ↓respond_keeps, ↓inletRefused_keeps]; done)) | with_reducible refine Keeps.ite ?_ ?_ | (intro; intros) | with_reducible exact hx3 _  | with_reducible refine (Keeps.trans ?_ (hx3 _ )) | (split <;> (rename_i heq; with_reducible have e := congrArg Prod.fst heq; with_reducible dsimp only at e; with_reducible subst e)) | split | (fail_if_no_progress with_reducible refine Keeps.lit rfl rfl rfl rfl rfl rfl rfl ?_))

theorem cmdRefuse_keeps {b : State} {s : State} {x1 : _} {x2 : _} (hk : Keeps b s) : Keeps b (cmdRefuse s x1 x2).1 := by
  unfold cmdRefuse; try (conv => zeta)
  repeat' (first | with_reducible exact hk | with_reducible refine syn_keeps ?_ | split)

theorem runAction_keeps {b : State} {s : State} {x1 : _} {x2 : _} (hx2 : ∀ y0 y1, Keeps y1 (x2 y0 y1).1) (hk : Keeps b s) : Keeps b (runAction s x1 x2).1 := by
  unfold runAction; try (conv => zeta)
  repeat' (first | with_reducible exact hk | with_reducible exact Keeps.rfl | with_reducible refine cmdRefuse_keeps ?_ | with_reducible refine State.bump_keeps ?_ | with_reducible refine setKeys_keeps ?_ | with_reducible refine Keeps.foldl ?_ ?_ | with_reducible refine Keeps.foldl₂ ?_ ?_ | ((with_reducible refine Keeps.iteOver ?_ ?_); focus (simp only [Keeps.rfl, ↓cmdRefuse_keeps, ↓State.bump_keeps, ↓setKeys_keeps]; done)) | ((with_reducible refine Keeps.iteUnder ?_ ?_); focus (simp only [Keeps.rfl, ↓cmdRefuse_keeps, ↓State.bump_keeps, ↓setKeys_keeps]; done)) | with_reducible refine Keeps.ite ?_ ?_ | (intro; intros) | with_reducible exact hx2 _ _  | with_reducible refine (Keeps.trans ?_ (hx2 _ _ )) | (split <;> (rename_i heq; with_reducible have e := congrArg Prod.fst heq; with_reducible dsimp only at e; with_reducible subst e)) | split | (fail_if_no_progress with_reducible refine Keeps.lit rfl rfl rfl rfl rfl rfl rfl ?_))

theorem keyload_keeps {b : State} {s : State} {x1 : _} {x2 : _} {x3 : _} {x4 : _} {x5 : _} {x6 : _} (hk : Keeps b s) : Keeps b (keyload s x1 x2 x3 x4 x5 x6).1 := by
  unfold keyload; try (conv => zeta)
  repeat' (first | with_reducible exact hk | with_reducible refine cmdRefuse_keeps ?_ | with_reducible refine cmdPromote_keeps ?_ | with_reducible refine setKeys_keeps ?_ | split | (fail_if_no_progress with_reducible refine Keeps.lit rfl rfl rfl rfl rfl rfl rfl ?_))

theorem execKeyload_keeps {b : State} {x0 : _} {x1 : _} {x2 : _} {x3 : _} {x4 : _} {x5 : _} {s : State} {t : State} (h : execKeyload x0 x1 x2 x3 x4 x5 s = .next t) (hk : Keeps b s) : Keeps b t := by
  unfold execKeyload at h; try (conv at h => zeta)
  repeat' (first | (with_reducible refine Keeps.next h ?_; clear h) | split at h)
  all_goals repeat' (first | with_reducible exact hk | with_reducible exact Keeps.rfl | with_reducible refine runCommand_keeps ?_ ?_ | with_reducible refine keyload_keeps ?_ | with_reducible refine Keeps.foldl ?_ ?_ | with_reducible refine Keeps.foldl₂ ?_ ?_ | (intro; intros) | split | (fail_if_no_progress with_reducible refine Keeps.lit rfl rfl rfl rfl rfl rfl rfl ?_))

theorem execBootstrap_keeps {b : State} {x0 : _} {x1 : _} {x2 : _} {x3 : _} {x4 : _} {x5 : _} {x6 : _} {s : State} {t : State} (h : execBootstrap x0 x1 x2 x3 x4 x5 x6 s = .next t) (hk : Keeps b s) : Keeps b t := by
  unfold execBootstrap at h; try (conv at h => zeta)
  repeat' (first | (with_reducible refine Keeps.next h ?_; clear h) | split at h)
  all_goals repeat' (first | with_reducible exact hk | with_reducible refine State.incr_keeps ?_ | with_reducible refine State.wr_keeps ?_ | with_reducible refine respond_keeps ?_ | with_reducible refine inletRefused_keeps ?_ | split | (fail_if_no_progress with_reducible refine Keeps.lit rfl rfl rfl rfl rfl rfl rfl ?_))

theorem execCmdKeyOverlapEnd_keeps {b : State} {s : State} {t : State} (h : execCmdKeyOverlapEnd s = .next t) (hk : Keeps b s) : Keeps b t := by
  unfold execCmdKeyOverlapEnd at h; try (conv at h => zeta)
  repeat' (first | (with_reducible refine Keeps.next h ?_; clear h) | split at h)
  all_goals repeat' (first | with_reducible exact hk | with_reducible refine cmdPromote_keeps ?_ | split | (fail_if_no_progress with_reducible refine Keeps.lit rfl rfl rfl rfl rfl rfl rfl ?_))

theorem verdictBuffer_keeps {b : State} {s : State} {x1 : _} (hk : Keeps b s) : Keeps b (verdictBuffer s x1) := by
  unfold verdictBuffer; try (conv => zeta)
  repeat' (first | with_reducible exact hk | with_reducible exact Keeps.rfl | with_reducible refine State.wr_keeps ?_ | with_reducible refine Keeps.foldl ?_ ?_ | with_reducible refine Keeps.foldl₂ ?_ ?_ | (intro; intros) | split | (fail_if_no_progress with_reducible refine Keeps.lit rfl rfl rfl rfl rfl rfl rfl ?_))

theorem verdictAccepted_keeps {b : State} {s : State} {x1 : _} {x2 : _} {x3 : _} (hk : Keeps b s) : Keeps b (verdictAccepted s x1 x2 x3) := by
  unfold verdictAccepted; try (conv => zeta)
  repeat' (first | with_reducible exact hk | with_reducible refine State.wr_keeps ?_ | with_reducible refine setKeys_keeps ?_ | with_reducible refine raise_keeps ?_ | with_reducible refine verdictBuffer_keeps ?_ | split | (fail_if_no_progress with_reducible refine Keeps.lit rfl rfl rfl rfl rfl rfl rfl ?_))

theorem execVerdictAccept_keeps {b : State} {x0 : _} {x1 : _} {s : State} {t : State} (h : execVerdictAccept x0 x1 s = .next t) (hk : Keeps b s) : Keeps b t := by
  unfold execVerdictAccept at h; try (conv at h => zeta)
  repeat' (first | (with_reducible refine Keeps.next h ?_; clear h) | split at h)
  all_goals repeat' (first | with_reducible exact hk | with_reducible exact Keeps.rfl | with_reducible refine State.incr_keeps ?_ | with_reducible refine verdictAccepted_keeps ?_ | with_reducible refine inletRefused_keeps ?_ | with_reducible refine Keeps.foldl ?_ ?_ | with_reducible refine Keeps.foldl₂ ?_ ?_ | ((with_reducible refine Keeps.iteOver ?_ ?_); focus (simp only [Keeps.rfl, ↓State.incr_keeps, ↓verdictAccepted_keeps, ↓inletRefused_keeps]; done)) | ((with_reducible refine Keeps.iteUnder ?_ ?_); focus (simp only [Keeps.rfl, ↓State.incr_keeps, ↓verdictAccepted_keeps, ↓inletRefused_keeps]; done)) | with_reducible refine Keeps.ite ?_ ?_ | (intro; intros) | (split <;> (rename_i heq; with_reducible have e := congrArg Prod.fst heq; with_reducible dsimp only at e; with_reducible subst e)) | split | (fail_if_no_progress with_reducible refine Keeps.lit rfl rfl rfl rfl rfl rfl rfl ?_))

/-! ### Machine/Memory -/

theorem inject_keeps {b : State} {s : State} {x1 : _} {x2 : _} (hk : Keeps b s) : Keeps b (inject s x1 x2) := by
  unfold inject; try (conv => zeta)
  repeat' (first | with_reducible exact hk | with_reducible refine State.wr_keeps ?_ | split | (fail_if_no_progress with_reducible refine Keeps.lit rfl rfl rfl rfl rfl rfl rfl ?_))

theorem findErrors_keeps {b : State} {s : State} {x1 : _} {x2 : _} (hk : Keeps b s) : Keeps b (findErrors s x1 x2) := by
  unfold findErrors; try (conv => zeta)
  repeat' (first | with_reducible exact hk | with_reducible exact Keeps.rfl | with_reducible refine State.incr_keeps ?_ | with_reducible refine State.bump_keeps ?_ | with_reducible refine State.wr_keeps ?_ | with_reducible refine raise_keeps ?_ | with_reducible refine Keeps.foldl ?_ ?_ | with_reducible refine Keeps.foldl₂ ?_ ?_ | (intro; intros) | split | (fail_if_no_progress with_reducible refine Keeps.lit rfl rfl rfl rfl rfl rfl rfl ?_))

theorem hbmWriteP_keeps {b s : State} {x1 : Nat} {x2 : List (Nat × Bool)} (hk : Keeps b s) : Keeps b (hbmWriteP s x1 x2) := by
  unfold hbmWriteP
  extract_lets n whole w u v r
  have h0 : Keeps b u := Keeps.plain (s := s) (Eq.refl _) (Eq.refl _) (Eq.refl _) (Eq.refl _) (Eq.refl _) (Eq.refl _) (Eq.refl _) hk
  have h1 : Keeps b v := findErrors_keeps h0
  clear_value v
  exact inject_keeps (h1.trans ⟨Eq.refl _, id, id, fun h => writePoisoned_wf (p := v.hub.hbmPoison) 32 x1 x2 h, id⟩)

theorem hbmWrite_keeps {b : State} {s : State} {x1 : _} {x2 : _} (hk : Keeps b s) : Keeps b (hbmWrite s x1 x2) := by
  unfold hbmWrite; try (conv => zeta)
  repeat' (first | with_reducible exact hk | with_reducible refine hbmWriteP_keeps ?_ | split)

theorem hbmFetch_keeps {b : State} {s : State} {x1 : _} {x2 : _} (hk : Keeps b s) : Keeps b (hbmFetch s x1 x2).1 := by
  unfold hbmFetch; try (conv => zeta)
  repeat' (first | with_reducible exact hk | with_reducible refine findErrors_keeps ?_ | split)

/-! ### Machine/Digest -/

theorem setDgs_keeps {b : State} {s : State} {x1 : _} (hk : Keeps b s) : Keeps b (setDgs s x1) := by
  unfold setDgs; try (conv => zeta)
  repeat' (first | with_reducible exact hk | with_reducible refine State.wr_keeps ?_ | split)

theorem bumpDigSeq_keeps {b : State} {s : State} {x1 : _} {x2 : _} (hk : Keeps b s) : Keeps b (bumpDigSeq s x1 x2) := by
  unfold bumpDigSeq; try (conv => zeta)
  repeat' (first | with_reducible exact hk | split | (fail_if_no_progress with_reducible refine Keeps.lit rfl rfl rfl rfl rfl rfl rfl ?_))

theorem sendReport_keeps {b : State} {s : State} {x1 : _} (hk : Keeps b s) : Keeps b (sendReport s x1) := by
  unfold sendReport; try (conv => zeta)
  repeat' (first | with_reducible exact hk | with_reducible refine State.bump_keeps ?_ | with_reducible refine enqueue_keeps ?_ | with_reducible refine bumpDigSeq_keeps ?_ | with_reducible refine State.wr_keeps ?_ | with_reducible refine raise_keeps ?_ | split)

theorem startDigest_keeps {b : State} {s : State} {x1 : _} {x2 : _} (hk : Keeps b s) : Keeps b (startDigest s x1 x2) := by
  unfold startDigest; try (conv => zeta)
  repeat' (first | with_reducible exact hk | with_reducible refine raiseFclk_keeps ?_ | with_reducible refine setDgs_keeps ?_ | split | (fail_if_no_progress with_reducible refine Keeps.lit rfl rfl rfl rfl rfl rfl rfl ?_))

theorem busyReport_keeps {b : State} {s : State} {x1 : _} {x2 : _} (hk : Keeps b s) : Keeps b (busyReport s x1 x2) := by
  unfold busyReport; try (conv => zeta)
  repeat' (first | with_reducible exact hk | with_reducible refine sendReport_keeps ?_ | split)

theorem afterRun_keeps {b : State} {s : State} (hk : Keeps b s) : Keeps b (afterRun s) := by
  unfold afterRun; try (conv => zeta)
  repeat' (first | with_reducible exact hk | with_reducible refine raise_keeps ?_ | with_reducible refine setDgs_keeps ?_ | split | (fail_if_no_progress with_reducible refine Keeps.lit rfl rfl rfl rfl rfl rfl rfl ?_))

theorem digestMark_keeps {b : State} {s : State} {x1 : _} {x2 : _} (hk : Keeps b s) : Keeps b (digestMark s x1 x2) := by
  unfold digestMark; try (conv => zeta)
  repeat' (first | with_reducible exact hk | with_reducible refine startDigest_keeps ?_ | with_reducible refine State.free_keeps ?_ | with_reducible refine sendReport_keeps ?_ | with_reducible refine afterRun_keeps ?_ | with_reducible refine busyReport_keeps ?_ | split)

theorem stepMark_keeps {b : State} {s : State} {x1 : _} {x2 : _} {x3 : _} {x4 : _} {x5 : _} (hk : Keeps b s) : Keeps b (stepMark s x1 x2 x3 x4 x5) := by
  unfold stepMark; try (conv => zeta)
  repeat' (first | with_reducible exact hk | with_reducible refine syn_keeps ?_ | with_reducible refine acceptMark_keeps ?_ | with_reducible refine digestMark_keeps ?_ | split)

theorem execStepMark_keeps {b : State} {x0 : _} {x1 : _} {x2 : _} {x3 : _} {x4 : _} {s : State} {t : State} (h : execStepMark x0 x1 x2 x3 x4 s = .next t) (hk : Keeps b s) : Keeps b t := by
  unfold execStepMark at h; try (conv at h => zeta)
  repeat' (first | (with_reducible refine Keeps.next h ?_; clear h) | split at h)
  all_goals repeat' (first | with_reducible exact hk | with_reducible refine stepMark_keeps ?_ | split)

theorem runComplete_keeps {b : State} {s : State} {x1 : _} {x2 : _} {x3 : _} (hk : Keeps b s) : Keeps b (runComplete s x1 x2 x3) := by
  unfold runComplete; try (conv => zeta)
  repeat' (first | with_reducible exact hk | with_reducible refine State.free_keeps ?_ | with_reducible refine afterRun_keeps ?_ | with_reducible refine sendReport_keeps ?_ | split)

theorem afterReplay_keeps {b : State} {s : State} (hk : Keeps b s) : Keeps b (afterReplay s) := by
  unfold afterReplay; try (conv => zeta)
  repeat' (first | with_reducible exact hk | with_reducible refine setDgs_keeps ?_ | split | (fail_if_no_progress with_reducible refine Keeps.lit rfl rfl rfl rfl rfl rfl rfl ?_))

theorem replayComplete_keeps {b : State} {s : State} {x1 : _} {x2 : _} {x3 : _} (hk : Keeps b s) : Keeps b (replayComplete s x1 x2 x3) := by
  unfold replayComplete; try (conv => zeta)
  repeat' (first | with_reducible exact hk | with_reducible refine State.free_keeps ?_ | with_reducible refine afterReplay_keeps ?_ | with_reducible refine sendReport_keeps ?_ | split)

theorem execDigestComplete_keeps {b : State} {x0 : _} {x1 : _} {s : State} {t : State} (h : execDigestComplete x0 x1 s = .next t) (hk : Keeps b s) : Keeps b t := by
  unfold execDigestComplete at h; try (conv at h => zeta)
  repeat' (first | (with_reducible refine Keeps.next h ?_; clear h) | split at h)
  all_goals repeat' (first | with_reducible exact hk | with_reducible refine runComplete_keeps ?_ | with_reducible refine replayComplete_keeps ?_ | split)

theorem rplReady_keeps {b : State} {s : State} {x1 : _} (hk : Keeps b s) : Keeps b (rplReady s x1) := by
  unfold rplReady; try (conv => zeta)
  repeat' (first | with_reducible exact hk | with_reducible refine syn_keeps ?_ | with_reducible refine raiseFclk_keeps ?_ | with_reducible refine setDgs_keeps ?_ | split | (fail_if_no_progress with_reducible refine Keeps.lit rfl rfl rfl rfl rfl rfl rfl ?_))

theorem execRplReady_keeps {b : State} {x0 : _} {s : State} {t : State} (h : execRplReady x0 s = .next t) (hk : Keeps b s) : Keeps b t := by
  unfold execRplReady at h; try (conv at h => zeta)
  repeat' (first | (with_reducible refine Keeps.next h ?_; clear h) | split at h)
  all_goals repeat' (first | with_reducible exact hk | with_reducible refine rplReady_keeps ?_ | split)

theorem rplDecline_keeps {b : State} {s : State} {x1 : _} (hk : Keeps b s) : Keeps b (rplDecline s x1) := by
  unfold rplDecline; try (conv => zeta)
  repeat' (first | with_reducible exact hk | with_reducible refine syn_keeps ?_ | with_reducible refine afterReplay_keeps ?_ | with_reducible refine sendReport_keeps ?_ | split)

theorem execRplDecline_keeps {b : State} {x0 : _} {s : State} {t : State} (h : execRplDecline x0 s = .next t) (hk : Keeps b s) : Keeps b t := by
  unfold execRplDecline at h; try (conv at h => zeta)
  repeat' (first | (with_reducible refine Keeps.next h ?_; clear h) | split at h)
  all_goals repeat' (first | with_reducible exact hk | with_reducible refine rplDecline_keeps ?_ | split)

theorem execDigest_keeps {b : State} {x0 : _} {x1 : _} {x2 : _} {s : State} {t : State} (h : execDigest x0 x1 x2 s = .next t) (hk : Keeps b s) : Keeps b t := by
  unfold execDigest at h; try (conv at h => zeta)
  repeat' (first | (with_reducible refine Keeps.next h ?_; clear h) | split at h)
  all_goals repeat' (first | with_reducible exact hk | with_reducible exact Keeps.rfl | with_reducible refine runCommand_keeps ?_ ?_ | with_reducible refine runAction_keeps ?_ ?_ | with_reducible refine State.wr_keeps ?_ | with_reducible refine Keeps.foldl ?_ ?_ | with_reducible refine Keeps.foldl₂ ?_ ?_ | (intro; intros) | split | (fail_if_no_progress with_reducible refine Keeps.lit rfl rfl rfl rfl rfl rfl rfl ?_))

theorem replayAction_keeps {b : State} {s : State} {x1 : _} {x2 : _} {x3 : _} {x4 : _} {x5 : _} (hk : Keeps b s) : Keeps b (replayAction s x1 x2 x3 x4 x5).1 := by
  unfold replayAction; try (conv => zeta)
  repeat' (first | with_reducible exact hk | with_reducible refine cmdRefuse_keeps ?_ | with_reducible refine sendReport_keeps ?_ | with_reducible refine State.wr_keeps ?_ | with_reducible refine raise_keeps ?_ | with_reducible refine setDgs_keeps ?_ | split | (fail_if_no_progress with_reducible refine Keeps.lit rfl rfl rfl rfl rfl rfl rfl ?_))

theorem execReplay_keeps {b : State} {x0 : _} {x1 : _} {x2 : _} {x3 : _} {x4 : _} {s : State} {t : State} (h : execReplay x0 x1 x2 x3 x4 s = .next t) (hk : Keeps b s) : Keeps b t := by
  unfold execReplay at h; try (conv at h => zeta)
  repeat' (first | (with_reducible refine Keeps.next h ?_; clear h) | split at h)
  all_goals repeat' (first | with_reducible exact hk | with_reducible exact Keeps.rfl | with_reducible refine runCommand_keeps ?_ ?_ | with_reducible refine runAction_keeps ?_ ?_ | with_reducible refine replayAction_keeps ?_ | with_reducible refine Keeps.foldl ?_ ?_ | with_reducible refine Keeps.foldl₂ ?_ ?_ | (intro; intros) | split | (fail_if_no_progress with_reducible refine Keeps.lit rfl rfl rfl rfl rfl rfl rfl ?_))

theorem execObserve_keeps {b : State} {x0 : _} {x1 : _} {x2 : _} {x3 : _} {s : State} {t : State} (h : execObserve x0 x1 x2 x3 s = .next t) (hk : Keeps b s) : Keeps b t := by
  unfold execObserve at h; try (conv at h => zeta)
  repeat' (first | (with_reducible refine Keeps.next h ?_; clear h) | split at h)
  all_goals repeat' (first | with_reducible exact hk | with_reducible exact Keeps.rfl | with_reducible refine runCommand_keeps ?_ ?_ | with_reducible refine runAction_keeps ?_ ?_ | with_reducible refine State.wr_keeps ?_ | with_reducible refine raise_keeps ?_ | with_reducible refine Keeps.foldl ?_ ?_ | with_reducible refine Keeps.foldl₂ ?_ ?_ | (intro; intros) | split | (fail_if_no_progress with_reducible refine Keeps.lit rfl rfl rfl rfl rfl rfl rfl ?_))

/-! ### Machine/Ports -/

theorem discardFrame_keeps {b : State} {s : State} {x1 : _} (hk : Keeps b s) : Keeps b (discardFrame s x1) := by
  unfold discardFrame; try (conv => zeta)
  repeat' (first | with_reducible exact hk | split | (fail_if_no_progress with_reducible refine Keeps.lit rfl rfl rfl rfl rfl rfl rfl ?_))

theorem sendOn_keeps {b : State} {s : State} {x1 : _} {x2 : _} (hk : Keeps b s) : Keeps b (sendOn s x1 x2) := by
  unfold sendOn; try (conv => zeta)
  repeat' (first | with_reducible exact hk | with_reducible refine discardFrame_keeps ?_ | with_reducible refine State.send_keeps ?_ | split)

/-! ### Machine/Jobs -/

theorem modJob_keeps {b : State} {s : State} {x1 : _} {x2 : _} (hk : Keeps b s) : Keeps b (modJob s x1 x2) := by
  unfold modJob; try (conv => zeta)
  repeat' (first | with_reducible exact hk | split | (fail_if_no_progress with_reducible refine Keeps.lit rfl rfl rfl rfl rfl rfl rfl ?_))

theorem addPend_keeps {b : State} {s : State} {x1 : _} {x2 : _} {x3 : _} (hk : Keeps b s) : Keeps b (addPend s x1 x2 x3) := by
  unfold addPend; try (conv => zeta)
  repeat' (first | with_reducible exact hk | with_reducible refine modJob_keeps ?_ | split)

theorem hubFault_keeps {b : State} {s : State} {x1 : _} {x2 : _} {x3 : _} {x4 : _} (hk : Keeps b s) : Keeps b (hubFault s x1 x2 x3 x4) := by
  unfold hubFault; try (conv => zeta)
  repeat' (first | with_reducible exact hk | with_reducible refine addPend_keeps ?_ | split)

theorem partitionFault_keeps {b : State} {s : State} {x1 : _} (hk : Keeps b s) : Keeps b (partitionFault s x1) := by
  unfold partitionFault; try (conv => zeta)
  repeat' (first | with_reducible exact hk | with_reducible refine modJob_keeps ?_ | split)

theorem jobPoison_keeps {b : State} {s : State} {x1 : _} {x2 : _} {x3 : _} (hk : Keeps b s) : Keeps b (jobPoison s x1 x2 x3) := by
  unfold jobPoison; try (conv => zeta)
  repeat' (first | with_reducible exact hk | with_reducible refine partitionFault_keeps ?_ | with_reducible refine hubFault_keeps ?_ | with_reducible refine modJob_keeps ?_ | split)

theorem jobLane_keeps {b : State} {s : State} {x1 : _} {x2 : _} (hk : Keeps b s) : Keeps b (jobLane s x1 x2) := by
  unfold jobLane; try (conv => zeta)
  repeat' (first | with_reducible exact hk | with_reducible refine partitionFault_keeps ?_ | with_reducible refine hubFault_keeps ?_ | split)

theorem tileJobFault_keeps {b : State} {s : State} {x1 : _} (hk : Keeps b s) : Keeps b (tileJobFault s x1) := by
  unfold tileJobFault; try (conv => zeta)
  repeat' (first | with_reducible exact hk | with_reducible refine partitionFault_keeps ?_ | split)

theorem tilePoison_keeps {b : State} {s : State} {x1 : _} {x2 : _} (hk : Keeps b s) : Keeps b (tilePoison s x1 x2) := by
  unfold tilePoison; try (conv => zeta)
  repeat' (first | with_reducible exact hk | with_reducible refine jobPoison_keeps ?_ | split)

theorem cabEntry_keeps {b : State} {s : State} {x1 : _} {x2 : _} {x3 : _} (hk : Keeps b s) : Keeps b (cabEntry s x1 x2 x3) := by
  unfold cabEntry; try (conv => zeta)
  repeat' (first | with_reducible exact hk | with_reducible refine post_keeps ?_ | split)

end Sys2Proof.Machine
end

