-- ==== Sys2Proof/Laws/KeepsTile.lean ====
section
/-!
SUPPORT. Sys2Proof/Laws/KeepsTile.lean: what every operation of Machine/Tile, Machine/Freeze, Machine/Longcase, Machine/TallyReset keeps (Laws/Keeps.lean).
-/
set_option linter.all false
namespace Sys2Proof.Machine

/-! ### Machine/Tile -/

theorem setTile_keeps {b s : State} {t : Nat} {x : Tile} (hx : SramsOk s.hub.tiles → Memory.wf x.sram = true) (hk : Keeps b s) :
    Keeps b (setTile s t x) := hk.trans ⟨Eq.refl _, id, id, id, fun h => h.putTile (hx h)⟩

theorem putQ_keeps {b : State} {s : State} {x1 : _} {x2 : _} {x3 : _} (hk : Keeps b s) : Keeps b (putQ s x1 x2 x3) := by
  unfold putQ; try (conv => zeta)
  repeat' (first | with_reducible exact hk | with_reducible exact Keeps.rfl | with_reducible refine State.wr_keeps ?_ | ((with_reducible refine setTile_keeps ?_ ?_); focus (intro h; first | exact getTile_wf h _ | with_reducible exact Tile.write_wf _ _ (getTile_wf h _) | exact storeRow_wf (getTile_wf h _) | exact writeMask_wf (getTile_wf h _) | exact tileFold_wf (fun _ _ hy => storeRow_wf hy) (getTile_wf h _) | exact tileFold_wf (fun _ _ hy => writeOuts_wf hy) (getTile_wf h _))) | with_reducible refine Keeps.foldl ?_ ?_ | with_reducible refine Keeps.foldl₂ ?_ ?_ | ((with_reducible refine Keeps.iteOver ?_ ?_); focus (simp only [Keeps.rfl, ↓State.wr_keeps, ↓setTile_keeps]; done)) | ((with_reducible refine Keeps.iteUnder ?_ ?_); focus (simp only [Keeps.rfl, ↓State.wr_keeps, ↓setTile_keeps]; done)) | with_reducible refine Keeps.ite ?_ ?_ | (intro; intros) | (split <;> (rename_i heq; with_reducible have e := congrArg Prod.fst heq; with_reducible dsimp only at e; with_reducible subst e)) | split | (fail_if_no_progress with_reducible refine Keeps.lit rfl rfl rfl rfl rfl rfl rfl ?_))

theorem serveSleep_keeps {b : State} {s : State} {x1 : _} (hk : Keeps b s) : Keeps b (serveSleep s x1) := by
  unfold serveSleep; try (conv => zeta)
  repeat' (first | with_reducible exact hk | with_reducible exact Keeps.rfl | ((with_reducible refine setTile_keeps ?_ ?_); focus (intro h; first | exact getTile_wf h _ | with_reducible exact Tile.write_wf _ _ (getTile_wf h _) | exact storeRow_wf (getTile_wf h _) | exact writeMask_wf (getTile_wf h _) | exact tileFold_wf (fun _ _ hy => storeRow_wf hy) (getTile_wf h _) | exact tileFold_wf (fun _ _ hy => writeOuts_wf hy) (getTile_wf h _))) | with_reducible refine State.wr_keeps ?_ | with_reducible refine Keeps.foldl ?_ ?_ | with_reducible refine Keeps.foldl₂ ?_ ?_ | ((with_reducible refine Keeps.iteOver ?_ ?_); focus (simp only [Keeps.rfl, ↓setTile_keeps, ↓State.wr_keeps]; done)) | ((with_reducible refine Keeps.iteUnder ?_ ?_); focus (simp only [Keeps.rfl, ↓setTile_keeps, ↓State.wr_keeps]; done)) | with_reducible refine Keeps.ite ?_ ?_ | (intro; intros) | (split <;> (rename_i heq; with_reducible have e := congrArg Prod.fst heq; with_reducible dsimp only at e; with_reducible subst e)) | split | (fail_if_no_progress with_reducible refine Keeps.lit rfl rfl rfl rfl rfl rfl rfl ?_))

theorem wakeTile_keeps {b : State} {s : State} {x1 : _} (hk : Keeps b s) : Keeps b (wakeTile s x1) := by
  unfold wakeTile; try (conv => zeta)
  repeat' (first | with_reducible exact hk | with_reducible exact Keeps.rfl | ((with_reducible refine setTile_keeps ?_ ?_); focus (intro h; first | exact getTile_wf h _ | with_reducible exact Tile.write_wf _ _ (getTile_wf h _) | exact storeRow_wf (getTile_wf h _) | exact writeMask_wf (getTile_wf h _) | exact tileFold_wf (fun _ _ hy => storeRow_wf hy) (getTile_wf h _) | exact tileFold_wf (fun _ _ hy => writeOuts_wf hy) (getTile_wf h _))) | with_reducible refine State.incr_keeps ?_ | with_reducible refine State.wr_keeps ?_ | with_reducible refine Keeps.foldl ?_ ?_ | with_reducible refine Keeps.foldl₂ ?_ ?_ | ((with_reducible refine Keeps.iteOver ?_ ?_); focus (simp only [Keeps.rfl, ↓setTile_keeps, ↓State.incr_keeps, ↓State.wr_keeps]; done)) | ((with_reducible refine Keeps.iteUnder ?_ ?_); focus (simp only [Keeps.rfl, ↓setTile_keeps, ↓State.incr_keeps, ↓State.wr_keeps]; done)) | with_reducible refine Keeps.ite ?_ ?_ | (intro; intros) | (split <;> (rename_i heq; with_reducible have e := congrArg Prod.fst heq; with_reducible dsimp only at e; with_reducible subst e)) | split | (fail_if_no_progress with_reducible refine Keeps.lit rfl rfl rfl rfl rfl rfl rfl ?_))

theorem sleepTile_keeps {b : State} {s : State} {x1 : _} {x2 : _} (hk : Keeps b s) : Keeps b (sleepTile s x1 x2) := by
  unfold sleepTile; try (conv => zeta)
  repeat' (first | with_reducible exact hk | with_reducible exact Keeps.rfl | ((with_reducible refine setTile_keeps ?_ ?_); focus (intro h; first | exact getTile_wf h _ | with_reducible exact Tile.write_wf _ _ (getTile_wf h _) | exact storeRow_wf (getTile_wf h _) | exact writeMask_wf (getTile_wf h _) | exact tileFold_wf (fun _ _ hy => storeRow_wf hy) (getTile_wf h _) | exact tileFold_wf (fun _ _ hy => writeOuts_wf hy) (getTile_wf h _))) | with_reducible refine State.wr_keeps ?_ | with_reducible refine serveSleep_keeps ?_ | with_reducible refine Keeps.foldl ?_ ?_ | with_reducible refine Keeps.foldl₂ ?_ ?_ | ((with_reducible refine Keeps.iteOver ?_ ?_); focus (simp only [Keeps.rfl, ↓setTile_keeps, ↓State.wr_keeps, ↓serveSleep_keeps]; done)) | ((with_reducible refine Keeps.iteUnder ?_ ?_); focus (simp only [Keeps.rfl, ↓setTile_keeps, ↓State.wr_keeps, ↓serveSleep_keeps]; done)) | with_reducible refine Keeps.ite ?_ ?_ | (intro; intros) | (split <;> (rename_i heq; with_reducible have e := congrArg Prod.fst heq; with_reducible dsimp only at e; with_reducible subst e)) | split | (fail_if_no_progress with_reducible refine Keeps.lit rfl rfl rfl rfl rfl rfl rfl ?_))

theorem activeInstant_keeps {b : State} {s : State} {x1 : _} {x2 : _} {x3 : _} (hk : Keeps b s) : Keeps b (activeInstant s x1 x2 x3) := by
  unfold activeInstant; try (conv => zeta)
  repeat' (first | with_reducible exact hk | ((with_reducible refine setTile_keeps ?_ ?_); focus (intro h; first | exact getTile_wf h _ | with_reducible exact Tile.write_wf _ _ (getTile_wf h _) | exact storeRow_wf (getTile_wf h _) | exact writeMask_wf (getTile_wf h _) | exact tileFold_wf (fun _ _ hy => storeRow_wf hy) (getTile_wf h _) | exact tileFold_wf (fun _ _ hy => writeOuts_wf hy) (getTile_wf h _))) | with_reducible refine raise_keeps ?_ | with_reducible refine syn_keeps ?_ | with_reducible refine State.bump_keeps ?_ | split)

theorem serveHeld_keeps {b : State} {s : State} {x1 : _} (hk : Keeps b s) : Keeps b (serveHeld s x1) := by
  unfold serveHeld; try (conv => zeta)
  repeat' (first | with_reducible exact hk | with_reducible exact Keeps.rfl | with_reducible refine wakeTile_keeps ?_ | with_reducible refine sleepTile_keeps ?_ | with_reducible refine activeInstant_keeps ?_ | ((with_reducible refine setTile_keeps ?_ ?_); focus (intro h; first | exact getTile_wf h _ | with_reducible exact Tile.write_wf _ _ (getTile_wf h _) | exact storeRow_wf (getTile_wf h _) | exact writeMask_wf (getTile_wf h _) | exact tileFold_wf (fun _ _ hy => storeRow_wf hy) (getTile_wf h _) | exact tileFold_wf (fun _ _ hy => writeOuts_wf hy) (getTile_wf h _))) | with_reducible refine Keeps.foldl ?_ ?_ | with_reducible refine Keeps.foldl₂ ?_ ?_ | (intro; intros) | split | (fail_if_no_progress with_reducible refine Keeps.lit rfl rfl rfl rfl rfl rfl rfl ?_))

theorem tileRequest_keeps {b : State} {s : State} {x1 : _} {x2 : _} (hk : Keeps b s) : Keeps b (tileRequest s x1 x2) := by
  unfold tileRequest; try (conv => zeta)
  repeat' (first | with_reducible exact hk | ((with_reducible refine setTile_keeps ?_ ?_); focus (intro h; first | exact getTile_wf h _ | with_reducible exact Tile.write_wf _ _ (getTile_wf h _) | exact storeRow_wf (getTile_wf h _) | exact writeMask_wf (getTile_wf h _) | exact tileFold_wf (fun _ _ hy => storeRow_wf hy) (getTile_wf h _) | exact tileFold_wf (fun _ _ hy => writeOuts_wf hy) (getTile_wf h _))) | with_reducible refine wakeTile_keeps ?_ | with_reducible refine sleepTile_keeps ?_ | with_reducible refine activeInstant_keeps ?_ | split)

theorem completeHead_keeps {b : State} {s : State} {x1 : _} {x2 : _} {x3 : _} {x4 : _} (hk : Keeps b s) : Keeps b (completeHead s x1 x2 x3 x4) := by
  unfold completeHead; try (conv => zeta)
  repeat' (first | with_reducible exact hk | with_reducible refine putQ_keeps ?_ | with_reducible refine State.wr_keeps ?_ | split)

theorem dropFlushed_keeps {b s : State} {x1 x2 : Nat} {x3 : List TDesc} (hk : Keeps b s) : Keeps b (dropFlushed s x1 x2 x3) := by
  induction x3 generalizing s with
  | nil => exact hk
  | cons d l ih => unfold dropFlushed; split; exact ih (completeHead_keeps hk); exact hk

theorem haltQueue_keeps {b : State} {s : State} {x1 : _} {x2 : _} {x3 : _} {x4 : _} (hk : Keeps b s) : Keeps b (haltQueue s x1 x2 x3 x4) := by
  unfold haltQueue; try (conv => zeta)
  repeat' (first | with_reducible exact hk | with_reducible refine syn_keeps ?_ | with_reducible refine raise_keeps ?_ | with_reducible refine State.wr_keeps ?_ | split)

theorem flushQueue_keeps {b : State} {s : State} {x1 : _} {x2 : _} (hk : Keeps b s) : Keeps b (flushQueue s x1 x2) := by
  unfold flushQueue; try (conv => zeta)
  repeat' (first | with_reducible exact hk | with_reducible refine putQ_keeps ?_ | with_reducible refine dropFlushed_keeps ?_ | with_reducible refine completeHead_keeps ?_ | with_reducible refine serveSleep_keeps ?_ | with_reducible refine State.wr_keeps ?_ | split)

theorem flushAll_keeps {b : State} {s : State} {x1 : _} (hk : Keeps b s) : Keeps b (flushAll s x1) := by
  unfold flushAll; try (conv => zeta)
  repeat' (first | with_reducible exact hk | with_reducible exact Keeps.rfl | with_reducible refine flushQueue_keeps ?_ | with_reducible refine Keeps.foldl ?_ ?_ | with_reducible refine Keeps.foldl₂ ?_ ?_ | (intro; intros) | split | (fail_if_no_progress with_reducible refine Keeps.lit rfl rfl rfl rfl rfl rfl rfl ?_))

theorem execDescriptorComplete_keeps {b : State} {x0 : _} {x1 : _} {s : State} {t : State} (h : execDescriptorComplete x0 x1 s = .next t) (hk : Keeps b s) : Keeps b t := by
  unfold execDescriptorComplete at h; try (conv at h => zeta)
  repeat' (first | (with_reducible refine Keeps.next h ?_; clear h) | split at h)
  all_goals repeat' (first | with_reducible exact hk | with_reducible refine completeHead_keeps ?_ | with_reducible refine tilePoison_keeps ?_ | with_reducible refine raise_keeps ?_ | with_reducible refine haltQueue_keeps ?_ | with_reducible refine serveSleep_keeps ?_ | with_reducible refine dropFlushed_keeps ?_ | split)

theorem tilWrite_keeps {b : State} {s : State} {x1 : _} {x2 : _} {x3 : _} {x4 : _} (hx4 : ∀ y0, Keeps y0 (x4 y0)) (hk : Keeps b s) : Keeps b (tilWrite s x1 x2 x3 x4) := by
  unfold tilWrite; try (conv => zeta)
  repeat' (first | with_reducible exact hk | with_reducible exact Keeps.rfl | with_reducible refine syn_keeps ?_ | with_reducible refine Keeps.foldl ?_ ?_ | with_reducible refine Keeps.foldl₂ ?_ ?_ | ((with_reducible refine Keeps.iteOver ?_ ?_); focus (simp only [Keeps.rfl, ↓syn_keeps]; done)) | ((with_reducible refine Keeps.iteUnder ?_ ?_); focus (simp only [Keeps.rfl, ↓syn_keeps]; done)) | with_reducible refine Keeps.ite ?_ ?_ | (intro; intros) | with_reducible exact hx4 _  | with_reducible refine (Keeps.trans ?_ (hx4 _ )) | (split <;> (rename_i heq; with_reducible have e := congrArg Prod.fst heq; with_reducible dsimp only at e; with_reducible subst e)) | split | (fail_if_no_progress with_reducible refine Keeps.lit rfl rfl rfl rfl rfl rfl rfl ?_))

theorem tilRequest_keeps {b : State} {s : State} {x1 : _} {x2 : _} {x3 : _} (hk : Keeps b s) : Keeps b (tilRequest s x1 x2 x3) := by
  unfold tilRequest; try (conv => zeta)
  repeat' (first | with_reducible exact hk | with_reducible refine syn_keeps ?_ | with_reducible refine tileRequest_keeps ?_ | split)

theorem execQueueFlush_keeps {b : State} {x0 : _} {x1 : _} {x2 : _} {s : State} {t : State} (h : execQueueFlush x0 x1 x2 s = .next t) (hk : Keeps b s) : Keeps b t := by
  unfold execQueueFlush at h; try (conv at h => zeta)
  repeat' (first | (with_reducible refine Keeps.next h ?_; clear h) | split at h)
  all_goals repeat' (first | with_reducible exact hk | with_reducible exact Keeps.rfl | with_reducible refine tilWrite_keeps ?_ ?_ | with_reducible refine flushQueue_keeps ?_ | with_reducible refine Keeps.foldl ?_ ?_ | with_reducible refine Keeps.foldl₂ ?_ ?_ | (intro; intros) | split | (fail_if_no_progress with_reducible refine Keeps.lit rfl rfl rfl rfl rfl rfl rfl ?_))

theorem execWake_keeps {b : State} {x0 : _} {x1 : _} {s : State} {t : State} (h : execWake x0 x1 s = .next t) (hk : Keeps b s) : Keeps b t := by
  unfold execWake at h; try (conv at h => zeta)
  repeat' (first | (with_reducible refine Keeps.next h ?_; clear h) | split at h)
  all_goals repeat' (first | with_reducible exact hk | with_reducible refine tilRequest_keeps ?_ | split)

theorem execGate_keeps {b : State} {x0 : _} {x1 : _} {s : State} {t : State} (h : execGate x0 x1 s = .next t) (hk : Keeps b s) : Keeps b t := by
  unfold execGate at h; try (conv at h => zeta)
  repeat' (first | (with_reducible refine Keeps.next h ?_; clear h) | split at h)
  all_goals repeat' (first | with_reducible exact hk | with_reducible refine tilRequest_keeps ?_ | split)

theorem execPark_keeps {b : State} {x0 : _} {x1 : _} {s : State} {t : State} (h : execPark x0 x1 s = .next t) (hk : Keeps b s) : Keeps b t := by
  unfold execPark at h; try (conv at h => zeta)
  repeat' (first | (with_reducible refine Keeps.next h ?_; clear h) | split at h)
  all_goals repeat' (first | with_reducible exact hk | with_reducible refine tilRequest_keeps ?_ | split)

theorem execTileSleepEntered_keeps {b : State} {x0 : _} {s : State} {t : State} (h : execTileSleepEntered x0 s = .next t) (hk : Keeps b s) : Keeps b t := by
  unfold execTileSleepEntered at h; try (conv at h => zeta)
  repeat' (first | (with_reducible refine Keeps.next h ?_; clear h) | split at h)
  all_goals repeat' (first | with_reducible exact hk | with_reducible exact Keeps.rfl | with_reducible refine State.wr_keeps ?_ | ((with_reducible refine setTile_keeps ?_ ?_); focus (intro h; first | exact getTile_wf h _ | with_reducible exact Tile.write_wf _ _ (getTile_wf h _) | exact storeRow_wf (getTile_wf h _) | exact writeMask_wf (getTile_wf h _) | exact tileFold_wf (fun _ _ hy => storeRow_wf hy) (getTile_wf h _) | exact tileFold_wf (fun _ _ hy => writeOuts_wf hy) (getTile_wf h _))) | with_reducible refine sleepTile_keeps ?_ | with_reducible refine tileRequest_keeps ?_ | with_reducible refine Keeps.foldl ?_ ?_ | with_reducible refine Keeps.foldl₂ ?_ ?_ | ((with_reducible refine Keeps.iteOver ?_ ?_); focus (simp only [Keeps.rfl, ↓State.wr_keeps, ↓setTile_keeps, ↓sleepTile_keeps, ↓tileRequest_keeps]; done)) | ((with_reducible refine Keeps.iteUnder ?_ ?_); focus (simp only [Keeps.rfl, ↓State.wr_keeps, ↓setTile_keeps, ↓sleepTile_keeps, ↓tileRequest_keeps]; done)) | with_reducible refine Keeps.ite ?_ ?_ | (intro; intros) | (split <;> (rename_i heq; with_reducible have e := congrArg Prod.fst heq; with_reducible dsimp only at e; with_reducible subst e)) | split | (fail_if_no_progress with_reducible refine Keeps.lit rfl rfl rfl rfl rfl rfl rfl ?_))

theorem execTileWakeDone_keeps {b : State} {x0 : _} {s : State} {t : State} (h : execTileWakeDone x0 s = .next t) (hk : Keeps b s) : Keeps b t := by
  unfold execTileWakeDone at h; try (conv at h => zeta)
  repeat' (first | (with_reducible refine Keeps.next h ?_; clear h) | split at h)
  all_goals repeat' (first | with_reducible exact hk | with_reducible refine State.wr_keeps ?_ | with_reducible refine serveSleep_keeps ?_ | split)

theorem seqStart_keeps {b : State} {s : State} {x1 : _} {x2 : _} (hk : Keeps b s) : Keeps b (seqStart s x1 x2) := by
  unfold seqStart; try (conv => zeta)
  repeat' (first | with_reducible exact hk | with_reducible exact Keeps.rfl | with_reducible refine syn_keeps ?_ | ((with_reducible refine setTile_keeps ?_ ?_); focus (intro h; first | exact getTile_wf h _ | with_reducible exact Tile.write_wf _ _ (getTile_wf h _) | exact storeRow_wf (getTile_wf h _) | exact writeMask_wf (getTile_wf h _) | exact tileFold_wf (fun _ _ hy => storeRow_wf hy) (getTile_wf h _) | exact tileFold_wf (fun _ _ hy => writeOuts_wf hy) (getTile_wf h _))) | with_reducible refine State.wr_keeps ?_ | with_reducible refine Keeps.foldl ?_ ?_ | with_reducible refine Keeps.foldl₂ ?_ ?_ | ((with_reducible refine Keeps.iteOver ?_ ?_); focus (simp only [Keeps.rfl, ↓syn_keeps, ↓setTile_keeps, ↓State.wr_keeps]; done)) | ((with_reducible refine Keeps.iteUnder ?_ ?_); focus (simp only [Keeps.rfl, ↓syn_keeps, ↓setTile_keeps, ↓State.wr_keeps]; done)) | with_reducible refine Keeps.ite ?_ ?_ | (intro; intros) | (split <;> (rename_i heq; with_reducible have e := congrArg Prod.fst heq; with_reducible dsimp only at e; with_reducible subst e)) | split | (fail_if_no_progress with_reducible refine Keeps.lit rfl rfl rfl rfl rfl rfl rfl ?_))

theorem execSeqStart_keeps {b : State} {x0 : _} {x1 : _} {s : State} {t : State} (h : execSeqStart x0 x1 s = .next t) (hk : Keeps b s) : Keeps b t := by
  unfold execSeqStart at h; try (conv at h => zeta)
  repeat' (first | (with_reducible refine Keeps.next h ?_; clear h) | split at h)
  all_goals repeat' (first | with_reducible exact hk | with_reducible exact Keeps.rfl | with_reducible refine tilWrite_keeps ?_ ?_ | with_reducible refine seqStart_keeps ?_ | with_reducible refine Keeps.foldl ?_ ?_ | with_reducible refine Keeps.foldl₂ ?_ ?_ | (intro; intros) | split | (fail_if_no_progress with_reducible refine Keeps.lit rfl rfl rfl rfl rfl rfl rfl ?_))

theorem seqHalt_keeps {b : State} {s : State} {x1 : _} (hk : Keeps b s) : Keeps b (seqHalt s x1) := by
  unfold seqHalt; try (conv => zeta)
  repeat' (first | with_reducible exact hk | with_reducible refine flushAll_keeps ?_ | with_reducible refine State.wr_keeps ?_ | split)

theorem execSeqHalt_keeps {b : State} {x0 : _} {x1 : _} {s : State} {t : State} (h : execSeqHalt x0 x1 s = .next t) (hk : Keeps b s) : Keeps b t := by
  unfold execSeqHalt at h; try (conv at h => zeta)
  repeat' (first | (with_reducible refine Keeps.next h ?_; clear h) | split at h)
  all_goals repeat' (first | with_reducible exact hk | with_reducible exact Keeps.rfl | with_reducible refine tilWrite_keeps ?_ ?_ | with_reducible refine seqHalt_keeps ?_ | with_reducible refine Keeps.foldl ?_ ?_ | with_reducible refine Keeps.foldl₂ ?_ ?_ | (intro; intros) | split | (fail_if_no_progress with_reducible refine Keeps.lit rfl rfl rfl rfl rfl rfl rfl ?_))

theorem retireTile_keeps {b : State} {s : State} {x1 : _} (hk : Keeps b s) : Keeps b (retireTile s x1) := by
  unfold retireTile; try (conv => zeta)
  repeat' (first | with_reducible exact hk | with_reducible exact Keeps.rfl | ((with_reducible refine setTile_keeps ?_ ?_); focus (intro h; first | exact getTile_wf h _ | with_reducible exact Tile.write_wf _ _ (getTile_wf h _) | exact storeRow_wf (getTile_wf h _) | exact writeMask_wf (getTile_wf h _) | exact tileFold_wf (fun _ _ hy => storeRow_wf hy) (getTile_wf h _) | exact tileFold_wf (fun _ _ hy => writeOuts_wf hy) (getTile_wf h _))) | with_reducible refine State.wr_keeps ?_ | with_reducible refine Keeps.foldl ?_ ?_ | with_reducible refine Keeps.foldl₂ ?_ ?_ | (intro; intros) | split | (fail_if_no_progress with_reducible refine Keeps.lit rfl rfl rfl rfl rfl rfl rfl ?_))

theorem retireForGood_keeps {b : State} {s : State} {x1 : _} (hk : Keeps b s) : Keeps b (retireForGood s x1) := by
  unfold retireForGood; try (conv => zeta)
  repeat' (first | with_reducible exact hk | with_reducible refine tileJobFault_keeps ?_ | with_reducible refine retireTile_keeps ?_ | split | (fail_if_no_progress with_reducible refine Keeps.lit rfl rfl rfl rfl rfl rfl rfl ?_))

theorem execTileRetire_keeps {b : State} {x0 : _} {x1 : _} {s : State} {t : State} (h : execTileRetire x0 x1 s = .next t) (hk : Keeps b s) : Keeps b t := by
  unfold execTileRetire at h; try (conv at h => zeta)
  repeat' (first | (with_reducible refine Keeps.next h ?_; clear h) | split at h)
  all_goals repeat' (first | with_reducible exact hk | with_reducible exact Keeps.rfl | with_reducible refine tilWrite_keeps ?_ ?_ | with_reducible refine syn_keeps ?_ | with_reducible refine retireForGood_keeps ?_ | with_reducible refine Keeps.foldl ?_ ?_ | with_reducible refine Keeps.foldl₂ ?_ ?_ | (intro; intros) | split | (fail_if_no_progress with_reducible refine Keeps.lit rfl rfl rfl rfl rfl rfl rfl ?_))

theorem execMboxInWrite_keeps {b : State} {x0 : _} {x1 : _} {x2 : _} {s : State} {t : State} (h : execMboxInWrite x0 x1 x2 s = .next t) (hk : Keeps b s) : Keeps b t := by
  unfold execMboxInWrite at h; try (conv at h => zeta)
  repeat' (first | (with_reducible refine Keeps.next h ?_; clear h) | split at h)
  all_goals repeat' (first | with_reducible exact hk | with_reducible exact Keeps.rfl | with_reducible refine tilWrite_keeps ?_ ?_ | ((with_reducible refine setTile_keeps ?_ ?_); focus (intro h; first | exact getTile_wf h _ | with_reducible exact Tile.write_wf _ _ (getTile_wf h _) | exact storeRow_wf (getTile_wf h _) | exact writeMask_wf (getTile_wf h _) | exact tileFold_wf (fun _ _ hy => storeRow_wf hy) (getTile_wf h _) | exact tileFold_wf (fun _ _ hy => writeOuts_wf hy) (getTile_wf h _))) | with_reducible refine State.wr_keeps ?_ | with_reducible refine Keeps.foldl ?_ ?_ | with_reducible refine Keeps.foldl₂ ?_ ?_ | ((with_reducible refine Keeps.iteOver ?_ ?_); focus (simp only [Keeps.rfl, ↓setTile_keeps, ↓State.wr_keeps]; done)) | ((with_reducible refine Keeps.iteUnder ?_ ?_); focus (simp only [Keeps.rfl, ↓setTile_keeps, ↓State.wr_keeps]; done)) | with_reducible refine Keeps.ite ?_ ?_ | (intro; intros) | (split <;> (rename_i heq; with_reducible have e := congrArg Prod.fst heq; with_reducible dsimp only at e; with_reducible subst e)) | split | (fail_if_no_progress with_reducible refine Keeps.lit rfl rfl rfl rfl rfl rfl rfl ?_))

theorem seqTrap_keeps {b : State} {s : State} {x1 : _} {x2 : _} (hk : Keeps b s) : Keeps b (seqTrap s x1 x2) := by
  unfold seqTrap; try (conv => zeta)
  repeat' (first | with_reducible exact hk | with_reducible refine raise_keeps ?_ | with_reducible refine State.wr_keeps ?_ | ((with_reducible refine setTile_keeps ?_ ?_); focus (intro h; first | exact getTile_wf h _ | with_reducible exact Tile.write_wf _ _ (getTile_wf h _) | exact storeRow_wf (getTile_wf h _) | exact writeMask_wf (getTile_wf h _) | exact tileFold_wf (fun _ _ hy => storeRow_wf hy) (getTile_wf h _) | exact tileFold_wf (fun _ _ hy => writeOuts_wf hy) (getTile_wf h _))) | split)

theorem execSequencerException_keeps {b : State} {x0 : _} {x1 : _} {x2 : _} {x3 : _} {s : State} {t : State} (h : execSequencerException x0 x1 x2 x3 s = .next t) (hk : Keeps b s) : Keeps b t := by
  unfold execSequencerException at h; try (conv at h => zeta)
  repeat' (first | (with_reducible refine Keeps.next h ?_; clear h) | split at h)
  all_goals repeat' (first | with_reducible exact hk | with_reducible refine seqTrap_keeps ?_ | ((with_reducible refine setTile_keeps ?_ ?_); focus (intro h; first | exact getTile_wf h _ | with_reducible exact Tile.write_wf _ _ (getTile_wf h _) | exact storeRow_wf (getTile_wf h _) | exact writeMask_wf (getTile_wf h _) | exact tileFold_wf (fun _ _ hy => storeRow_wf hy) (getTile_wf h _) | exact tileFold_wf (fun _ _ hy => writeOuts_wf hy) (getTile_wf h _))) | split)

theorem retireInstr_keeps {b : State} {s : State} {x1 : _} {x2 : _} {x3 : _} (hk : Keeps b s) : Keeps b (retireInstr s x1 x2 x3) := by
  unfold retireInstr; try (conv => zeta)
  repeat' (first | with_reducible exact hk | ((with_reducible refine setTile_keeps ?_ ?_); focus (intro h; first | exact getTile_wf h _ | with_reducible exact Tile.write_wf _ _ (getTile_wf h _) | exact storeRow_wf (getTile_wf h _) | exact writeMask_wf (getTile_wf h _) | exact tileFold_wf (fun _ _ hy => storeRow_wf hy) (getTile_wf h _) | exact tileFold_wf (fun _ _ hy => writeOuts_wf hy) (getTile_wf h _))) | split)

theorem pushDesc_keeps {b : State} {s : State} {x1 : _} {x2 : _} {x3 : _} {x4 : _} (hk : Keeps b s) : Keeps b (pushDesc s x1 x2 x3 x4) := by
  unfold pushDesc; try (conv => zeta)
  repeat' (first | with_reducible exact hk | with_reducible refine putQ_keeps ?_ | with_reducible refine retireInstr_keeps ?_ | split)

theorem execDpush_keeps {b : State} {x0 : _} {x1 : _} {x2 : _} {x3 : _} {s : State} {t : State} (h : execDpush x0 x1 x2 x3 s = .next t) (hk : Keeps b s) : Keeps b t := by
  unfold execDpush at h; try (conv at h => zeta)
  repeat' (first | (with_reducible refine Keeps.next h ?_; clear h) | split at h)
  all_goals repeat' (first | with_reducible exact hk | with_reducible refine seqTrap_keeps ?_ | with_reducible refine pushDesc_keeps ?_ | split)

theorem execDtry_keeps {b : State} {x0 : _} {x1 : _} {x2 : _} {x3 : _} {s : State} {t : State} (h : execDtry x0 x1 x2 x3 s = .next t) (hk : Keeps b s) : Keeps b t := by
  unfold execDtry at h; try (conv at h => zeta)
  repeat' (first | (with_reducible refine Keeps.next h ?_; clear h) | split at h)
  all_goals repeat' (first | with_reducible exact hk | with_reducible refine seqTrap_keeps ?_ | with_reducible refine pushDesc_keeps ?_ | with_reducible refine retireInstr_keeps ?_ | split)

theorem execDwait_keeps {b : State} {x0 : _} {x1 : _} {x2 : _} {x3 : _} {s : State} {t : State} (h : execDwait x0 x1 x2 x3 s = .next t) (hk : Keeps b s) : Keeps b t := by
  unfold execDwait at h; try (conv at h => zeta)
  repeat' (first | (with_reducible refine Keeps.next h ?_; clear h) | split at h)
  all_goals repeat' (first | with_reducible exact hk | with_reducible refine retireInstr_keeps ?_ | split)

theorem execDpoll_keeps {b : State} {x0 : _} {x1 : _} {x2 : _} {s : State} {t : State} (h : execDpoll x0 x1 x2 s = .next t) (hk : Keeps b s) : Keeps b t := by
  unfold execDpoll at h; try (conv at h => zeta)
  repeat' (first | (with_reducible refine Keeps.next h ?_; clear h) | split at h)
  all_goals repeat' (first | with_reducible exact hk | with_reducible refine retireInstr_keeps ?_ | split)

theorem setFlags_keeps {b : State} {s : State} {x1 : _} {x2 : _} (hk : Keeps b s) : Keeps b (setFlags s x1 x2) := by
  unfold setFlags; try (conv => zeta)
  repeat' (first | with_reducible exact hk | with_reducible exact Keeps.rfl | with_reducible refine State.wr_keeps ?_ | with_reducible refine Keeps.foldl ?_ ?_ | with_reducible refine Keeps.foldl₂ ?_ ?_ | (intro; intros) | split | (fail_if_no_progress with_reducible refine Keeps.lit rfl rfl rfl rfl rfl rfl rfl ?_))

theorem execTflagsClear_keeps {b : State} {x0 : _} {x1 : _} {s : State} {t : State} (h : execTflagsClear x0 x1 s = .next t) (hk : Keeps b s) : Keeps b t := by
  unfold execTflagsClear at h; try (conv at h => zeta)
  repeat' (first | (with_reducible refine Keeps.next h ?_; clear h) | split at h)
  all_goals repeat' (first | with_reducible exact hk | with_reducible exact Keeps.rfl | with_reducible refine retireInstr_keeps ?_ | with_reducible refine State.wr_keeps ?_ | with_reducible refine Keeps.foldl ?_ ?_ | with_reducible refine Keeps.foldl₂ ?_ ?_ | (intro; intros) | split | (fail_if_no_progress with_reducible refine Keeps.lit rfl rfl rfl rfl rfl rfl rfl ?_))

theorem execTsleep_keeps {b : State} {x0 : _} {x1 : _} {s : State} {t : State} (h : execTsleep x0 x1 s = .next t) (hk : Keeps b s) : Keeps b t := by
  unfold execTsleep at h; try (conv at h => zeta)
  repeat' (first | (with_reducible refine Keeps.next h ?_; clear h) | split at h)
  all_goals repeat' (first | with_reducible exact hk | with_reducible refine retireInstr_keeps ?_ | with_reducible refine sleepTile_keeps ?_ | split)

theorem execTeventClear_keeps {b : State} {x0 : _} {x1 : _} {s : State} {t : State} (h : execTeventClear x0 x1 s = .next t) (hk : Keeps b s) : Keeps b t := by
  unfold execTeventClear at h; try (conv at h => zeta)
  repeat' (first | (with_reducible refine Keeps.next h ?_; clear h) | split at h)
  all_goals repeat' (first | with_reducible exact hk | with_reducible refine retireInstr_keeps ?_ | ((with_reducible refine setTile_keeps ?_ ?_); focus (intro h; first | exact getTile_wf h _ | with_reducible exact Tile.write_wf _ _ (getTile_wf h _) | exact storeRow_wf (getTile_wf h _) | exact writeMask_wf (getTile_wf h _) | exact tileFold_wf (fun _ _ hy => storeRow_wf hy) (getTile_wf h _) | exact tileFold_wf (fun _ _ hy => writeOuts_wf hy) (getTile_wf h _))) | split)

theorem execTdone_keeps {b : State} {x0 : _} {x1 : _} {s : State} {t : State} (h : execTdone x0 x1 s = .next t) (hk : Keeps b s) : Keeps b t := by
  unfold execTdone at h; try (conv at h => zeta)
  repeat' (first | (with_reducible refine Keeps.next h ?_; clear h) | split at h)
  all_goals repeat' (first | with_reducible exact hk | with_reducible exact Keeps.rfl | with_reducible refine retireInstr_keeps ?_ | ((with_reducible refine setTile_keeps ?_ ?_); focus (intro h; first | exact getTile_wf h _ | with_reducible exact Tile.write_wf _ _ (getTile_wf h _) | exact storeRow_wf (getTile_wf h _) | exact writeMask_wf (getTile_wf h _) | exact tileFold_wf (fun _ _ hy => storeRow_wf hy) (getTile_wf h _) | exact tileFold_wf (fun _ _ hy => writeOuts_wf hy) (getTile_wf h _))) | with_reducible refine State.wr_keeps ?_ | with_reducible refine Keeps.foldl ?_ ?_ | with_reducible refine Keeps.foldl₂ ?_ ?_ | ((with_reducible refine Keeps.iteOver ?_ ?_); focus (simp only [Keeps.rfl, ↓retireInstr_keeps, ↓setTile_keeps, ↓State.wr_keeps]; done)) | ((with_reducible refine Keeps.iteUnder ?_ ?_); focus (simp only [Keeps.rfl, ↓retireInstr_keeps, ↓setTile_keeps, ↓State.wr_keeps]; done)) | with_reducible refine Keeps.ite ?_ ?_ | (intro; intros) | (split <;> (rename_i heq; with_reducible have e := congrArg Prod.fst heq; with_reducible dsimp only at e; with_reducible subst e)) | split | (fail_if_no_progress with_reducible refine Keeps.lit rfl rfl rfl rfl rfl rfl rfl ?_))

theorem execTmboxOut_keeps {b : State} {x0 : _} {x1 : _} {s : State} {t : State} (h : execTmboxOut x0 x1 s = .next t) (hk : Keeps b s) : Keeps b t := by
  unfold execTmboxOut at h; try (conv at h => zeta)
  repeat' (first | (with_reducible refine Keeps.next h ?_; clear h) | split at h)
  all_goals repeat' (first | with_reducible exact hk | with_reducible refine raise_keeps ?_ | with_reducible refine State.wr_keeps ?_ | with_reducible refine retireInstr_keeps ?_ | split)

theorem setEvent_keeps {b : State} {s : State} {x1 : _} {x2 : _} (hk : Keeps b s) : Keeps b (setEvent s x1 x2) := by
  unfold setEvent; try (conv => zeta)
  repeat' (first | with_reducible exact hk | with_reducible exact Keeps.rfl | ((with_reducible refine setTile_keeps ?_ ?_); focus (intro h; first | exact getTile_wf h _ | with_reducible exact Tile.write_wf _ _ (getTile_wf h _) | exact storeRow_wf (getTile_wf h _) | exact writeMask_wf (getTile_wf h _) | exact tileFold_wf (fun _ _ hy => storeRow_wf hy) (getTile_wf h _) | exact tileFold_wf (fun _ _ hy => writeOuts_wf hy) (getTile_wf h _))) | with_reducible refine Keeps.foldl ?_ ?_ | with_reducible refine Keeps.foldl₂ ?_ ?_ | (intro; intros) | split | (fail_if_no_progress with_reducible refine Keeps.lit rfl rfl rfl rfl rfl rfl rfl ?_))

theorem tilApplied_keeps {b : State} {s : State} {x1 : _} {x2 : _} (hk : Keeps b s) : Keeps b (tilApplied s x1 x2) := by
  unfold tilApplied; try (conv => zeta)
  repeat' (first | with_reducible exact hk | with_reducible refine flushAll_keeps ?_ | split)

theorem softTil_keeps {b : State} {s : State} {x1 : _} {x2 : _} (hk : Keeps b s) : Keeps b (softTil s x1 x2) := by
  unfold softTil; try (conv => zeta)
  repeat' (first | with_reducible exact hk | with_reducible refine State.wr_keeps ?_ | ((with_reducible refine setTile_keeps ?_ ?_); focus (intro h; first | exact getTile_wf h _ | with_reducible exact Tile.write_wf _ _ (getTile_wf h _) | exact storeRow_wf (getTile_wf h _) | exact writeMask_wf (getTile_wf h _) | exact tileFold_wf (fun _ _ hy => storeRow_wf hy) (getTile_wf h _) | exact tileFold_wf (fun _ _ hy => writeOuts_wf hy) (getTile_wf h _))) | split)

theorem execScheduledWake_keeps {b : State} {x0 : _} {s : State} {t : State} (h : execScheduledWake x0 s = .next t) (hk : Keeps b s) : Keeps b t := by
  unfold execScheduledWake at h; try (conv at h => zeta)
  repeat' (first | (with_reducible refine Keeps.next h ?_; clear h) | split at h)
  all_goals repeat' (first | with_reducible exact hk | with_reducible refine tileRequest_keeps ?_ | split)

theorem wakeLateRule_keeps {b : State} {s : State} {x1 : _} (hk : Keeps b s) : Keeps b (wakeLateRule s x1) := by
  unfold wakeLateRule; try (conv => zeta)
  repeat' (first | with_reducible exact hk | with_reducible exact Keeps.rfl | ((with_reducible refine setTile_keeps ?_ ?_); focus (intro h; first | exact getTile_wf h _ | with_reducible exact Tile.write_wf _ _ (getTile_wf h _) | exact storeRow_wf (getTile_wf h _) | exact writeMask_wf (getTile_wf h _) | exact tileFold_wf (fun _ _ hy => storeRow_wf hy) (getTile_wf h _) | exact tileFold_wf (fun _ _ hy => writeOuts_wf hy) (getTile_wf h _))) | with_reducible refine retireForGood_keeps ?_ | with_reducible refine State.wr_keeps ?_ | with_reducible refine Keeps.foldl ?_ ?_ | with_reducible refine Keeps.foldl₂ ?_ ?_ | (intro; intros) | split | (fail_if_no_progress with_reducible refine Keeps.lit rfl rfl rfl rfl rfl rfl rfl ?_))

theorem execActiveInstant_keeps {b : State} {x0 : _} {s : State} {t : State} (h : execActiveInstant x0 s = .next t) (hk : Keeps b s) : Keeps b t := by
  unfold execActiveInstant at h; try (conv at h => zeta)
  repeat' (first | (with_reducible refine Keeps.next h ?_; clear h) | split at h)
  all_goals repeat' (first | with_reducible exact hk | with_reducible refine tileRequest_keeps ?_ | with_reducible refine wakeLateRule_keeps ?_ | with_reducible refine activeInstant_keeps ?_ | split)

/-! ### Machine/Freeze -/

theorem freezeEntry_keeps {b : State} {s : State} {x1 : _} {x2 : _} {x3 : _} (hk : Keeps b s) : Keeps b (freezeEntry s x1 x2 x3) := by
  unfold freezeEntry; try (conv => zeta)
  repeat' (first | with_reducible exact hk | with_reducible refine post_keeps ?_ | split)

theorem snapshotSlot_keeps {b : State} {s : State} {x1 : _} (hk : Keeps b s) : Keeps b (snapshotSlot s x1) := by
  unfold snapshotSlot; try (conv => zeta)
  repeat' (first | with_reducible exact hk | with_reducible refine queueRecord_keeps ?_ | split | (fail_if_no_progress with_reducible refine Keeps.lit rfl rfl rfl rfl rfl rfl rfl ?_))

theorem snapshots_keeps {b : State} {s : State} (hk : Keeps b s) : Keeps b (snapshots s) := by
  unfold snapshots; try (conv => zeta)
  repeat' (first | with_reducible exact hk | with_reducible exact Keeps.rfl | with_reducible refine snapshotSlot_keeps ?_ | with_reducible refine Keeps.foldl ?_ ?_ | with_reducible refine Keeps.foldl₂ ?_ ?_ | (intro; intros) | split | (fail_if_no_progress with_reducible refine Keeps.lit rfl rfl rfl rfl rfl rfl rfl ?_))

theorem freezeUnit_keeps {b : State} {s : State} {x1 : _} (hk : Keeps b s) : Keeps b (freezeUnit s x1) := by
  unfold freezeUnit; try (conv => zeta)
  repeat' (first | with_reducible exact hk | with_reducible exact Keeps.rfl | with_reducible refine State.wr_keeps ?_ | with_reducible refine State.bump_keeps ?_ | with_reducible refine raise_keeps ?_ | with_reducible refine snapshots_keeps ?_ | with_reducible refine freezeEntry_keeps ?_ | with_reducible refine Keeps.foldl ?_ ?_ | with_reducible refine Keeps.foldl₂ ?_ ?_ | (intro; intros) | split | (fail_if_no_progress with_reducible refine Keeps.lit rfl rfl rfl rfl rfl rfl rfl ?_))

theorem releaseTile_keeps {b : State} {s : State} {x1 : _} (hk : Keeps b s) : Keeps b (releaseTile s x1) := by
  unfold releaseTile; try (conv => zeta)
  repeat' (first | with_reducible exact hk | with_reducible refine serveHeld_keeps ?_ | split)

theorem releasePage_keeps {b : State} {s : State} {x1 : _} (hk : Keeps b s) : Keeps b (releasePage s x1) := by
  unfold releasePage; try (conv => zeta)
  repeat' (first | with_reducible exact hk | with_reducible refine releaseTile_keeps ?_ | with_reducible refine State.wr_keeps ?_ | with_reducible refine apptRefuse_keeps ?_ | split)

theorem releaseScan_keeps {b : State} {s : State} {x1 : _} (hk : Keeps b s) : Keeps b (releaseScan s x1) := by
  unfold releaseScan; try (conv => zeta)
  repeat' (first | with_reducible exact hk | split | (fail_if_no_progress with_reducible refine Keeps.lit rfl rfl rfl rfl rfl rfl rfl ?_))

theorem releaseReach_keeps {b : State} {s : State} {x1 : _} (hk : Keeps b s) : Keeps b (releaseReach s x1) := by
  unfold releaseReach; try (conv => zeta)
  repeat' (first | with_reducible exact hk | split | (fail_if_no_progress with_reducible refine Keeps.lit rfl rfl rfl rfl rfl rfl rfl ?_))

theorem releaseUnit_keeps {b : State} {s : State} {x1 : _} {x2 : _} {x3 : _} {x4 : _} (hk : Keeps b s) : Keeps b (releaseUnit s x1 x2 x3 x4) := by
  unfold releaseUnit; try (conv => zeta)
  repeat' (first | with_reducible exact hk | with_reducible exact Keeps.rfl | with_reducible refine releaseReach_keeps ?_ | with_reducible refine releaseScan_keeps ?_ | with_reducible refine releasePage_keeps ?_ | with_reducible refine State.wr_keeps ?_ | with_reducible refine freezeEntry_keeps ?_ | with_reducible refine Keeps.foldl ?_ ?_ | with_reducible refine Keeps.foldl₂ ?_ ?_ | (intro; intros) | split | (fail_if_no_progress with_reducible refine Keeps.lit rfl rfl rfl rfl rfl rfl rfl ?_))

theorem release_keeps {b : State} {s : State} {x1 : _} (hk : Keeps b s) : Keeps b (release s x1) := by
  unfold release; try (conv => zeta)
  repeat' (first | with_reducible exact hk | with_reducible refine raise_keeps ?_ | with_reducible refine releaseUnit_keeps ?_ | split)

theorem frzApplied_keeps {b : State} {s : State} {x1 : _} (hk : Keeps b s) : Keeps b (frzApplied s x1) := by
  unfold frzApplied; try (conv => zeta)
  repeat' (first | with_reducible exact hk | with_reducible refine release_keeps ?_ | with_reducible refine freezeUnit_keeps ?_ | split)

theorem execTimedRelease_keeps {b : State} {x0 : _} {s : State} {t : State} (h : execTimedRelease x0 s = .next t) (hk : Keeps b s) : Keeps b t := by
  unfold execTimedRelease at h; try (conv at h => zeta)
  repeat' (first | (with_reducible refine Keeps.next h ?_; clear h) | split at h)
  all_goals repeat' (first | with_reducible exact hk | with_reducible refine release_keeps ?_ | split)

theorem execAutoRelease_keeps {b : State} {x0 : _} {s : State} {t : State} (h : execAutoRelease x0 s = .next t) (hk : Keeps b s) : Keeps b t := by
  unfold execAutoRelease at h; try (conv at h => zeta)
  repeat' (first | (with_reducible refine Keeps.next h ?_; clear h) | split at h)
  all_goals repeat' (first | with_reducible exact hk | with_reducible refine raise_keeps ?_ | with_reducible refine State.bump_keeps ?_ | with_reducible refine releaseUnit_keeps ?_ | split)

theorem chanRecord_keeps {b : State} {s : State} {x1 : _} {x2 : _} {x3 : _} {x4 : _} {x5 : _} {x6 : _} {x7 : _} (hk : Keeps b s) : Keeps b (chanRecord s x1 x2 x3 x4 x5 x6 x7) := by
  unfold chanRecord; try (conv => zeta)
  repeat' (first | with_reducible exact hk | with_reducible refine State.wr_keeps ?_ | with_reducible refine hbmWrite_keeps ?_ | with_reducible refine State.incr_keeps ?_ | split | (fail_if_no_progress with_reducible refine Keeps.lit rfl rfl rfl rfl rfl rfl rfl ?_))

/-! ### Machine/Longcase -/

theorem setRate_keeps {b : State} {s : State} {x1 : _} {x2 : _} (hk : Keeps b s) : Keeps b (setRate s x1 x2) := by
  unfold setRate; try (conv => zeta)
  repeat' (first | with_reducible exact hk | with_reducible refine State.wr_keeps ?_ | with_reducible refine State.setLcs_keeps ?_ | split)

theorem enterHoldover_keeps {b : State} {s : State} {x1 : _} (hk : Keeps b s) : Keeps b (enterHoldover s x1) := by
  unfold enterHoldover; try (conv => zeta)
  repeat' (first | with_reducible exact hk | with_reducible refine State.setLcs_keeps ?_ | with_reducible refine raise_keeps ?_ | with_reducible refine setRate_keeps ?_ | split)

theorem stepTo_keeps {b : State} {s : State} {x1 : _} {x2 : _} (hk : Keeps b s) : Keeps b (stepTo s x1 x2) := by
  unfold stepTo; try (conv => zeta)
  repeat' (first | with_reducible exact hk | with_reducible refine State.setLcs_keeps ?_ | with_reducible refine State.wr_keeps ?_ | with_reducible refine raise_keeps ?_ | with_reducible refine restartTally_keeps ?_ | split)

theorem servoStates_keeps {b : State} {s : State} {x1 : _} {x2 : _} (hk : Keeps b s) : Keeps b (servoStates s x1 x2) := by
  unfold servoStates; try (conv => zeta)
  repeat' (first | with_reducible exact hk | with_reducible refine raise_keeps ?_ | with_reducible refine State.setLcs_keeps ?_ | split)

theorem measure_keeps {b : State} {s : State} {x1 : _} {x2 : _} {x3 : _} {x4 : _} (hk : Keeps b s) : Keeps b (measure s x1 x2 x3 x4) := by
  unfold measure; try (conv => zeta)
  repeat' (first | with_reducible exact hk | with_reducible refine State.wr_keeps ?_ | with_reducible refine State.setLcs_keeps ?_ | with_reducible refine stepTo_keeps ?_ | with_reducible refine servoStates_keeps ?_ | with_reducible refine setRate_keeps ?_ | split)

theorem setTracker_keeps {b : State} {s : State} {x1 : _} {x2 : _} (hk : Keeps b s) : Keeps b (setTracker s x1 x2) := by
  unfold setTracker; try (conv => zeta)
  repeat' (first | with_reducible exact hk | with_reducible refine State.wr_keeps ?_ | split | (fail_if_no_progress with_reducible refine Keeps.lit rfl rfl rfl rfl rfl rfl rfl ?_))

theorem selectSource_keeps {b : State} {s : State} {x1 : _} (hk : Keeps b s) : Keeps b (selectSource s x1) := by
  unfold selectSource; try (conv => zeta)
  repeat' (first | with_reducible exact hk | with_reducible refine State.wr_keeps ?_ | with_reducible refine enterHoldover_keeps ?_ | with_reducible refine State.bump_keeps ?_ | with_reducible refine raise_keeps ?_ | split | (fail_if_no_progress with_reducible refine Keeps.lit rfl rfl rfl rfl rfl rfl rfl ?_))

theorem trackerInvalid_keeps {b : State} {s : State} {x1 : _} (hk : Keeps b s) : Keeps b (trackerInvalid s x1) := by
  unfold trackerInvalid; try (conv => zeta)
  repeat' (first | with_reducible exact hk | with_reducible refine setTracker_keeps ?_ | with_reducible refine selectSource_keeps ?_ | split)

theorem checkDisagree_keeps {b : State} {s : State} (hk : Keeps b s) : Keeps b (checkDisagree s) := by
  unfold checkDisagree; try (conv => zeta)
  repeat' (first | with_reducible exact hk | with_reducible refine raise_keeps ?_ | with_reducible refine post_keeps ?_ | split | (fail_if_no_progress with_reducible refine Keeps.lit rfl rfl rfl rfl rfl rfl rfl ?_))

theorem trackerMeasure_keeps {b : State} {s : State} {x1 : _} {x2 : _} {x3 : _} {x4 : _} (hk : Keeps b s) : Keeps b (trackerMeasure s x1 x2 x3 x4) := by
  unfold trackerMeasure; try (conv => zeta)
  repeat' (first | with_reducible exact hk | with_reducible refine setTracker_keeps ?_ | with_reducible refine checkDisagree_keeps ?_ | with_reducible refine selectSource_keeps ?_ | with_reducible refine measure_keeps ?_ | split)

theorem sendDelayReq_keeps {b : State} {s : State} {x1 : _} {x2 : _} {x3 : _} (hk : Keeps b s) : Keeps b (sendDelayReq s x1 x2 x3) := by
  unfold sendDelayReq; try (conv => zeta)
  repeat' (first | with_reducible exact hk | with_reducible refine setTracker_keeps ?_ | with_reducible refine sendOn_keeps ?_ | split)

theorem syncDone_keeps {b : State} {s : State} {x1 : _} {x2 : _} {x3 : _} {x4 : _} {x5 : _} {x6 : _} {x7 : _} (hk : Keeps b s) : Keeps b (syncDone s x1 x2 x3 x4 x5 x6 x7) := by
  unfold syncDone; try (conv => zeta)
  repeat' (first | with_reducible exact hk | with_reducible refine setTracker_keeps ?_ | with_reducible refine sendDelayReq_keeps ?_ | with_reducible refine trackerMeasure_keeps ?_ | split)

theorem ptpRx_keeps {b : State} {s : State} {x1 : _} {x2 : _} {x3 : _} {x4 : _} {x5 : _} {x6 : _} (hk : Keeps b s) : Keeps b (ptpRx s x1 x2 x3 x4 x5 x6) := by
  unfold ptpRx; try (conv => zeta)
  repeat' (first | with_reducible exact hk | with_reducible refine syncDone_keeps ?_ | with_reducible refine setTracker_keeps ?_ | with_reducible refine sendOn_keeps ?_ | split | (fail_if_no_progress with_reducible refine Keeps.lit rfl rfl rfl rfl rfl rfl rfl ?_))

theorem setPath_keeps {b : State} {s : State} {x1 : _} (hk : Keeps b s) : Keeps b (setPath s x1) := by
  unfold setPath; try (conv => zeta)
  repeat' (first | with_reducible exact hk | with_reducible refine State.wr_keeps ?_ | with_reducible refine raise_keeps ?_ | split)

theorem clearSrtt_keeps {b : State} {s : State} {x1 : _} (hk : Keeps b s) : Keeps b (clearSrtt s x1) := by
  unfold clearSrtt; try (conv => zeta)
  repeat' (first | with_reducible exact hk | with_reducible refine State.wr_keeps ?_ | split | (fail_if_no_progress with_reducible refine Keeps.lit rfl rfl rfl rfl rfl rfl rfl ?_))

theorem pathChange_keeps {b : State} {s : State} (hk : Keeps b s) : Keeps b (pathChange s) := by
  unfold pathChange; try (conv => zeta)
  repeat' (first | with_reducible exact hk | with_reducible refine State.wr_keeps ?_ | with_reducible refine raise_keeps ?_ | with_reducible refine clearSrtt_keeps ?_ | with_reducible refine enterHoldover_keeps ?_ | split | (fail_if_no_progress with_reducible refine Keeps.lit rfl rfl rfl rfl rfl rfl rfl ?_))

theorem frozenExchange_keeps {b : State} {s : State} {x1 : _} {x2 : _} {x3 : _} (hk : Keeps b s) : Keeps b (frozenExchange s x1 x2 x3) := by
  unfold frozenExchange; try (conv => zeta)
  repeat' (first | with_reducible exact hk | with_reducible refine State.wr_keeps ?_ | with_reducible refine setPath_keeps ?_ | with_reducible refine trackerMeasure_keeps ?_ | split | (fail_if_no_progress with_reducible refine Keeps.lit rfl rfl rfl rfl rfl rfl rfl ?_))

theorem ttDone_keeps {b : State} {s : State} {x1 : _} {x2 : _} {x3 : _} {x4 : _} (hk : Keeps b s) : Keeps b (ttDone s x1 x2 x3 x4) := by
  unfold ttDone; try (conv => zeta)
  repeat' (first | with_reducible exact hk | with_reducible refine pathChange_keeps ?_ | with_reducible refine frozenExchange_keeps ?_ | with_reducible refine setPath_keeps ?_ | with_reducible refine State.wr_keeps ?_ | with_reducible refine trackerMeasure_keeps ?_ | split | (fail_if_no_progress with_reducible refine Keeps.lit rfl rfl rfl rfl rfl rfl rfl ?_))

theorem execLcsStep_keeps {b : State} {x0 : _} {x1 : _} {s : State} {t : State} (h : execLcsStep x0 x1 s = .next t) (hk : Keeps b s) : Keeps b t := by
  unfold execLcsStep at h; try (conv at h => zeta)
  repeat' (first | (with_reducible refine Keeps.next h ?_; clear h) | split at h)
  all_goals repeat' (first | with_reducible exact hk | with_reducible refine stepTo_keeps ?_ | with_reducible refine syn_keeps ?_ | split)

theorem execClrCnt_keeps {b : State} {x0 : _} {x1 : _} {s : State} {t : State} (h : execClrCnt x0 x1 s = .next t) (hk : Keeps b s) : Keeps b t := by
  unfold execClrCnt at h; try (conv at h => zeta)
  repeat' (first | (with_reducible refine Keeps.next h ?_; clear h) | split at h)
  all_goals repeat' (first | with_reducible exact hk | with_reducible refine State.wr_keeps ?_ | split)

theorem execLcsGenWrite_keeps {b : State} {x0 : _} {x1 : _} {x2 : _} {s : State} {t : State} (h : execLcsGenWrite x0 x1 x2 s = .next t) (hk : Keeps b s) : Keeps b t := by
  unfold execLcsGenWrite at h; try (conv at h => zeta)
  repeat' (first | (with_reducible refine Keeps.next h ?_; clear h) | split at h)
  all_goals repeat' (first | with_reducible exact hk | with_reducible refine State.wr_keeps ?_ | with_reducible refine syn_keeps ?_ | split)

theorem captureNow_keeps {b : State} {s : State} {x1 : _} (hk : Keeps b s) : Keeps b (captureNow s x1) := by
  unfold captureNow; try (conv => zeta)
  repeat' (first | with_reducible exact hk | with_reducible refine State.wr_keeps ?_ | split)

theorem execLcsNowRead_keeps {b : State} {x0 : _} {s : State} {t : State} (h : execLcsNowRead x0 s = .next t) (hk : Keeps b s) : Keeps b t := by
  unfold execLcsNowRead at h; try (conv at h => zeta)
  repeat' (first | (with_reducible refine Keeps.next h ?_; clear h) | split at h)
  all_goals repeat' (first | with_reducible exact hk | with_reducible refine captureNow_keeps ?_ | with_reducible refine syn_keeps ?_ | split)

theorem execTbAnnouncement_keeps {b : State} {x0 : _} {x1 : _} {x2 : _} {x3 : _} {s : State} {t : State} (h : execTbAnnouncement x0 x1 x2 x3 s = .next t) (hk : Keeps b s) : Keeps b t := by
  unfold execTbAnnouncement at h; try (conv at h => zeta)
  repeat' (first | (with_reducible refine Keeps.next h ?_; clear h) | split at h)
  all_goals repeat' (first | with_reducible exact hk | split | (fail_if_no_progress with_reducible refine Keeps.lit rfl rfl rfl rfl rfl rfl rfl ?_))

theorem badAnn_keeps {b : State} {s : State} (hk : Keeps b s) : Keeps b (badAnn s) := by
  unfold badAnn; try (conv => zeta)
  repeat' (first | with_reducible exact hk | with_reducible refine State.bump_keeps ?_ | with_reducible refine State.setLcs_keeps ?_ | split)

theorem execTbPulse_keeps {b : State} {x0 : _} {s : State} {t : State} (h : execTbPulse x0 s = .next t) (hk : Keeps b s) : Keeps b t := by
  unfold execTbPulse at h; try (conv at h => zeta)
  repeat' (first | (with_reducible refine Keeps.next h ?_; clear h) | split at h)
  all_goals repeat' (first | with_reducible exact hk | with_reducible refine State.wr_keeps ?_ | with_reducible refine measure_keeps ?_ | with_reducible refine badAnn_keeps ?_ | split | (fail_if_no_progress with_reducible refine Keeps.lit rfl rfl rfl rfl rfl rfl rfl ?_))

theorem execPulseMiss_keeps {b : State} {s : State} {t : State} (h : execPulseMiss s = .next t) (hk : Keeps b s) : Keeps b t := by
  unfold execPulseMiss at h; try (conv at h => zeta)
  repeat' (first | (with_reducible refine Keeps.next h ?_; clear h) | split at h)
  all_goals repeat' (first | with_reducible exact hk | with_reducible refine State.bump_keeps ?_ | with_reducible refine State.setLcs_keeps ?_ | with_reducible refine raise_keeps ?_ | split | (fail_if_no_progress with_reducible refine Keeps.lit rfl rfl rfl rfl rfl rfl rfl ?_))

theorem execMeasurementMissLimit_keeps {b : State} {x0 : _} {s : State} {t : State} (h : execMeasurementMissLimit x0 s = .next t) (hk : Keeps b s) : Keeps b t := by
  unfold execMeasurementMissLimit at h; try (conv at h => zeta)
  repeat' (first | (with_reducible refine Keeps.next h ?_; clear h) | split at h)
  all_goals repeat' (first | with_reducible exact hk | with_reducible refine enterHoldover_keeps ?_ | split)

theorem execSiteQualExpiry_keeps {b : State} {s : State} {t : State} (h : execSiteQualExpiry s = .next t) (hk : Keeps b s) : Keeps b t := by
  unfold execSiteQualExpiry at h; try (conv at h => zeta)
  repeat' (first | (with_reducible refine Keeps.next h ?_; clear h) | split at h)
  all_goals repeat' (first | with_reducible exact hk | with_reducible refine State.wr_keeps ?_ | split)

theorem execFollowerCheck_keeps {b : State} {x0 : _} {x1 : _} {s : State} {t : State} (h : execFollowerCheck x0 x1 s = .next t) (hk : Keeps b s) : Keeps b t := by
  unfold execFollowerCheck at h; try (conv at h => zeta)
  repeat' (first | (with_reducible refine Keeps.next h ?_; clear h) | split at h)
  all_goals repeat' (first | with_reducible exact hk | with_reducible refine raise_keeps ?_ | with_reducible refine syn_keeps ?_ | split)

theorem execPtpMessageRx_keeps {b : State} {x0 : _} {x1 : _} {x2 : _} {x3 : _} {x4 : _} {s : State} {t : State} (h : execPtpMessageRx x0 x1 x2 x3 x4 s = .next t) (hk : Keeps b s) : Keeps b t := by
  unfold execPtpMessageRx at h; try (conv at h => zeta)
  repeat' (first | (with_reducible refine Keeps.next h ?_; clear h) | split at h)
  all_goals repeat' (first | with_reducible exact hk | with_reducible refine discardFrame_keeps ?_ | with_reducible refine ptpRx_keeps ?_ | split)

theorem execPtpMessageTx_keeps {b : State} {x0 : _} {s : State} {t : State} (h : execPtpMessageTx x0 s = .next t) (hk : Keeps b s) : Keeps b t := by
  unfold execPtpMessageTx at h; try (conv at h => zeta)
  repeat' (first | (with_reducible refine Keeps.next h ?_; clear h) | split at h)
  all_goals repeat' (first | with_reducible exact hk | with_reducible refine sendOn_keeps ?_ | split)

theorem execAnnounceTimeout_keeps {b : State} {x0 : _} {s : State} {t : State} (h : execAnnounceTimeout x0 s = .next t) (hk : Keeps b s) : Keeps b t := by
  unfold execAnnounceTimeout at h; try (conv at h => zeta)
  repeat' (first | (with_reducible refine Keeps.next h ?_; clear h) | split at h)
  all_goals repeat' (first | with_reducible exact hk | with_reducible refine trackerInvalid_keeps ?_ | with_reducible refine setTracker_keeps ?_ | split)

theorem execSourceStable_keeps {b : State} {s : State} {t : State} (h : execSourceStable s = .next t) (hk : Keeps b s) : Keeps b t := by
  unfold execSourceStable at h; try (conv at h => zeta)
  repeat' (first | (with_reducible refine Keeps.next h ?_; clear h) | split at h)
  all_goals repeat' (first | with_reducible exact hk | with_reducible refine selectSource_keeps ?_ | split)

theorem execSwitchedExpiry_keeps {b : State} {s : State} {t : State} (h : execSwitchedExpiry s = .next t) (hk : Keeps b s) : Keeps b t := by
  unfold execSwitchedExpiry at h; try (conv at h => zeta)
  repeat' (first | (with_reducible refine Keeps.next h ?_; clear h) | split at h)
  all_goals repeat' (first | with_reducible exact hk | split | (fail_if_no_progress with_reducible refine Keeps.lit rfl rfl rfl rfl rfl rfl rfl ?_))

theorem execPpsEdge_keeps {b : State} {s : State} {t : State} (h : execPpsEdge s = .next t) (hk : Keeps b s) : Keeps b t := by
  unfold execPpsEdge at h; try (conv at h => zeta)
  repeat' (first | (with_reducible refine Keeps.next h ?_; clear h) | split at h)
  all_goals repeat' (first | with_reducible exact hk | with_reducible refine State.wr_keeps ?_ | split | (fail_if_no_progress with_reducible refine Keeps.lit rfl rfl rfl rfl rfl rfl rfl ?_))

theorem execTtExchangeTx_keeps {b : State} {x0 : _} {s : State} {t : State} (h : execTtExchangeTx x0 s = .next t) (hk : Keeps b s) : Keeps b t := by
  unfold execTtExchangeTx at h; try (conv at h => zeta)
  repeat' (first | (with_reducible refine Keeps.next h ?_; clear h) | split at h)
  all_goals repeat' (first | with_reducible exact hk | with_reducible exact Keeps.rfl | with_reducible refine sendOn_keeps ?_ | with_reducible refine Keeps.foldl ?_ ?_ | with_reducible refine Keeps.foldl₂ ?_ ?_ | (intro; intros) | split | (fail_if_no_progress with_reducible refine Keeps.lit rfl rfl rfl rfl rfl rfl rfl ?_))

theorem execTtExchangeDone_keeps {b : State} {x0 : _} {x1 : _} {x2 : _} {s : State} {t : State} (h : execTtExchangeDone x0 x1 x2 s = .next t) (hk : Keeps b s) : Keeps b t := by
  unfold execTtExchangeDone at h; try (conv at h => zeta)
  repeat' (first | (with_reducible refine Keeps.next h ?_; clear h) | split at h)
  all_goals repeat' (first | with_reducible exact hk | with_reducible refine ttDone_keeps ?_ | split)

theorem execTtExchangeRx_keeps {b : State} {x0 : _} {x1 : _} {x2 : _} {s : State} {t : State} (h : execTtExchangeRx x0 x1 x2 s = .next t) (hk : Keeps b s) : Keeps b t := by
  unfold execTtExchangeRx at h; try (conv at h => zeta)
  repeat' (first | (with_reducible refine Keeps.next h ?_; clear h) | split at h)
  all_goals repeat' (first | with_reducible exact hk | with_reducible refine sendOn_keeps ?_ | split)

theorem execTrackerMissLimit_keeps {b : State} {x0 : _} {s : State} {t : State} (h : execTrackerMissLimit x0 s = .next t) (hk : Keeps b s) : Keeps b t := by
  unfold execTrackerMissLimit at h; try (conv at h => zeta)
  repeat' (first | (with_reducible refine Keeps.next h ?_; clear h) | split at h)
  all_goals repeat' (first | with_reducible exact hk | with_reducible refine trackerInvalid_keeps ?_ | split)

/-! ### Machine/TallyReset -/

theorem resetPage_keeps {b : State} {s : State} {x1 : _} {x2 : _} (hk : Keeps b s) : Keeps b (resetPage s x1 x2) := by
  unfold resetPage; try (conv => zeta)
  repeat' (first | with_reducible exact hk | with_reducible refine resetCells_keeps ?_ | split)

theorem refuseArmed_keeps {b : State} {s : State} {x1 : _} (hk : Keeps b s) : Keeps b (refuseArmed s x1) := by
  unfold refuseArmed; try (conv => zeta)
  repeat' (first | with_reducible exact hk | with_reducible exact Keeps.rfl | with_reducible refine apptRefuse_keeps ?_ | with_reducible refine Keeps.foldl ?_ ?_ | with_reducible refine Keeps.foldl₂ ?_ ?_ | (intro; intros) | split | (fail_if_no_progress with_reducible refine Keeps.lit rfl rfl rfl rfl rfl rfl rfl ?_))

theorem restartTimers_keeps {b : State} {s : State} (hk : Keeps b s) : Keeps b (restartTimers s) := by
  unfold restartTimers; try (conv => zeta)
  repeat' (first | with_reducible exact hk | with_reducible exact Keeps.rfl | with_reducible refine Keeps.foldl ?_ ?_ | with_reducible refine Keeps.foldl₂ ?_ ?_ | (intro; intros) | split | (fail_if_no_progress with_reducible refine Keeps.lit rfl rfl rfl rfl rfl rfl rfl ?_))

theorem longcaseReset_keeps {b : State} {s : State} {x1 : _} (hk : Keeps b s) : Keeps b (longcaseReset s x1) := by
  unfold longcaseReset; try (conv => zeta)
  repeat' (first | with_reducible exact hk | with_reducible exact Keeps.rfl | with_reducible refine refuseArmed_keeps ?_ | with_reducible refine resetPage_keeps ?_ | with_reducible refine State.wr_keeps ?_ | with_reducible refine State.setLcs_keeps ?_ | with_reducible refine restartTimers_keeps ?_ | with_reducible refine Keeps.foldl ?_ ?_ | with_reducible refine Keeps.foldl₂ ?_ ?_ | (intro; intros) | split | (fail_if_no_progress with_reducible refine Keeps.lit rfl rfl rfl rfl rfl rfl rfl ?_))

theorem execLongcaseReset_keeps {b : State} {x0 : _} {x1 : _} {s : State} {t : State} (h : execLongcaseReset x0 x1 s = .next t) (hk : Keeps b s) : Keeps b t := by
  unfold execLongcaseReset at h; try (conv at h => zeta)
  repeat' (first | (with_reducible refine Keeps.next h ?_; clear h) | split at h)
  all_goals repeat' (first | with_reducible exact hk | with_reducible refine longcaseReset_keeps ?_ | split)

theorem resetTallyCells_keeps {b : State} {s : State} {x1 : _} (hk : Keeps b s) : Keeps b (resetTallyCells s x1) := by
  unfold resetTallyCells; try (conv => zeta)
  repeat' (first | with_reducible exact hk | with_reducible refine resetCells_keeps ?_ | split)

theorem execTallyPor_keeps {b : State} {s : State} {t : State} (h : execTallyPor s = .next t) (hk : Keeps b s) : Keeps b t := by
  unfold execTallyPor at h; try (conv at h => zeta)
  repeat' (first | (with_reducible refine Keeps.next h ?_; clear h) | split at h)
  all_goals repeat' (first | with_reducible exact hk | with_reducible exact Keeps.rfl | with_reducible refine resetTallyCells_keeps ?_ | with_reducible refine Keeps.foldl ?_ ?_ | with_reducible refine Keeps.foldl₂ ?_ ?_ | (intro; intros) | split | (fail_if_no_progress with_reducible refine Keeps.lit rfl rfl rfl rfl rfl rfl rfl ?_))

theorem execTallyHrst_keeps {b : State} {s : State} {t : State} (h : execTallyHrst s = .next t) (hk : Keeps b s) : Keeps b t := by
  unfold execTallyHrst at h; try (conv at h => zeta)
  repeat' (first | (with_reducible refine Keeps.next h ?_; clear h) | split at h)
  all_goals repeat' (first | with_reducible exact hk | with_reducible exact Keeps.rfl | with_reducible refine resetTallyCells_keeps ?_ | with_reducible refine Keeps.foldl ?_ ?_ | with_reducible refine Keeps.foldl₂ ?_ ?_ | (intro; intros) | split | (fail_if_no_progress with_reducible refine Keeps.lit rfl rfl rfl rfl rfl rfl rfl ?_))

theorem softShp_keeps {b : State} {s : State} (hk : Keeps b s) : Keeps b (softShp s) := by
  unfold softShp; try (conv => zeta)
  repeat' (first | with_reducible exact hk | with_reducible exact Keeps.rfl | with_reducible refine resetPage_keeps ?_ | with_reducible refine setSlot_keeps ?_ | with_reducible refine raise_keeps ?_ | with_reducible refine State.bump_keeps ?_ | with_reducible refine Keeps.foldl ?_ ?_ | with_reducible refine Keeps.foldl₂ ?_ ?_ | (intro; intros) | split | (fail_if_no_progress with_reducible refine Keeps.lit rfl rfl rfl rfl rfl rfl rfl ?_))

theorem softSeal_keeps {b : State} {s : State} (hk : Keeps b s) : Keeps b (softSeal s) := by
  unfold softSeal; try (conv => zeta)
  repeat' (first | with_reducible exact hk | with_reducible exact Keeps.rfl | with_reducible refine resetPage_keeps ?_ | with_reducible refine Keeps.foldl ?_ ?_ | with_reducible refine Keeps.foldl₂ ?_ ?_ | (intro; intros) | split | (fail_if_no_progress with_reducible refine Keeps.lit rfl rfl rfl rfl rfl rfl rfl ?_))

theorem softDgs_keeps {b : State} {s : State} (hk : Keeps b s) : Keeps b (softDgs s) := by
  unfold softDgs; try (conv => zeta)
  repeat' (first | with_reducible exact hk | with_reducible exact Keeps.rfl | with_reducible refine resetPage_keeps ?_ | with_reducible refine Keeps.foldl ?_ ?_ | with_reducible refine Keeps.foldl₂ ?_ ?_ | (intro; intros) | split | (fail_if_no_progress with_reducible refine Keeps.lit rfl rfl rfl rfl rfl rfl rfl ?_))

theorem softBur_keeps {b : State} {s : State} {x1 : _} (hk : Keeps b s) : Keeps b (softBur s x1) := by
  unfold softBur; try (conv => zeta)
  repeat' (first | with_reducible exact hk | with_reducible exact Keeps.rfl | with_reducible refine resetPage_keeps ?_ | with_reducible refine Keeps.foldl ?_ ?_ | with_reducible refine Keeps.foldl₂ ?_ ?_ | (intro; intros) | split | (fail_if_no_progress with_reducible refine Keeps.lit rfl rfl rfl rfl rfl rfl rfl ?_))

theorem softFrz_keeps {b : State} {s : State} {x1 : _} (hk : Keeps b s) : Keeps b (softFrz s x1) := by
  unfold softFrz; try (conv => zeta)
  repeat' (first | with_reducible exact hk | with_reducible refine releaseUnit_keeps ?_ | with_reducible refine resetPage_keeps ?_ | split)

theorem softStp_keeps {b : State} {s : State} (hk : Keeps b s) : Keeps b (softStp s) := by
  unfold softStp; try (conv => zeta)
  repeat' (first | with_reducible exact hk | with_reducible exact Keeps.rfl | with_reducible refine resetPage_keeps ?_ | with_reducible refine Keeps.foldl ?_ ?_ | with_reducible refine Keeps.foldl₂ ?_ ?_ | (intro; intros) | split | (fail_if_no_progress with_reducible refine Keeps.lit rfl rfl rfl rfl rfl rfl rfl ?_))

theorem softNrg_keeps {b : State} {s : State} (hk : Keeps b s) : Keeps b (softNrg s) := by
  unfold softNrg; try (conv => zeta)
  repeat' (first | with_reducible exact hk | with_reducible exact Keeps.rfl | with_reducible refine resetPage_keeps ?_ | with_reducible refine Keeps.foldl ?_ ?_ | with_reducible refine Keeps.foldl₂ ?_ ?_ | (intro; intros) | split | (fail_if_no_progress with_reducible refine Keeps.lit rfl rfl rfl rfl rfl rfl rfl ?_))

theorem softPwr_keeps {b : State} {s : State} (hk : Keeps b s) : Keeps b (softPwr s) := by
  unfold softPwr; try (conv => zeta)
  repeat' (first | with_reducible exact hk | with_reducible exact Keeps.rfl | with_reducible refine resetPage_keeps ?_ | with_reducible refine Keeps.foldl ?_ ?_ | with_reducible refine Keeps.foldl₂ ?_ ?_ | (intro; intros) | split | (fail_if_no_progress with_reducible refine Keeps.lit rfl rfl rfl rfl rfl rfl rfl ?_))

theorem softCap_keeps {b : State} {s : State} (hk : Keeps b s) : Keeps b (softCap s) := by
  unfold softCap; try (conv => zeta)
  repeat' (first | with_reducible exact hk | with_reducible exact Keeps.rfl | with_reducible refine resetPage_keeps ?_ | with_reducible refine Keeps.foldl ?_ ?_ | with_reducible refine Keeps.foldl₂ ?_ ?_ | (intro; intros) | split | (fail_if_no_progress with_reducible refine Keeps.lit rfl rfl rfl rfl rfl rfl rfl ?_))

theorem tallySoftReset_keeps {b : State} {s : State} {x1 : _} {x2 : _} (hk : Keeps b s) : Keeps b (tallySoftReset s x1 x2) := by
  unfold tallySoftReset; try (conv => zeta)
  repeat' (first | with_reducible exact hk | with_reducible refine longcaseReset_keeps ?_ | with_reducible refine resetPage_keeps ?_ | with_reducible refine softStp_keeps ?_ | with_reducible refine softNrg_keeps ?_ | with_reducible refine softPwr_keeps ?_ | with_reducible refine softCap_keeps ?_ | with_reducible refine softSeal_keeps ?_ | with_reducible refine softShp_keeps ?_ | with_reducible refine softDgs_keeps ?_ | with_reducible refine softBur_keeps ?_ | with_reducible refine softFrz_keeps ?_ | split)

end Sys2Proof.Machine
end

