-- ==== Sys2Proof/Laws/KeepsIngest.lean ====
section
/-!
SUPPORT. Sys2Proof/Laws/KeepsIngest.lean: what every operation of Machine/Ingest, Machine/Reach, Machine/Reduce, Machine/IngPages, Machine/Gsi, Machine/Security, Machine/Commands, Machine/HubPower, Machine/Appt, Machine/Verdict keeps (Laws/Keeps.lean).
-/
set_option linter.all false
namespace Sys2Proof.Machine

/-! ### Machine/Ingest -/

theorem setIng_keeps {b : State} {s : State} {x1 : _} {x2 : _} (hk : Keeps b s) : Keeps b (setIng s x1 x2) := by
  unfold setIng; try (conv => zeta)
  repeat' (first | with_reducible exact hk | with_reducible exact Keeps.rfl | with_reducible refine Keeps.foldl ?_ ?_ | with_reducible refine Keeps.foldl₂ ?_ ?_ | (intro; intros) | split | (fail_if_no_progress with_reducible refine Keeps.lit rfl rfl rfl rfl rfl rfl rfl ?_))

theorem noteGen_keeps {b : State} {s : State} {x1 : _} {x2 : _} (hk : Keeps b s) : Keeps b (noteGen s x1 x2) := by
  unfold noteGen; try (conv => zeta)
  repeat' (first | with_reducible exact hk | with_reducible refine setIng_keeps ?_ | split)

theorem noteSettings_keeps {b : State} {s : State} {x1 : _} (hk : Keeps b s) : Keeps b (noteSettings s x1) := by
  unfold noteSettings; try (conv => zeta)
  repeat' (first | with_reducible exact hk | with_reducible exact Keeps.rfl | with_reducible refine noteGen_keeps ?_ | with_reducible refine setIng_keeps ?_ | with_reducible refine Keeps.foldl ?_ ?_ | with_reducible refine Keeps.foldl₂ ?_ ?_ | (intro; intros) | split | (fail_if_no_progress with_reducible refine Keeps.lit rfl rfl rfl rfl rfl rfl rfl ?_))

theorem count_keeps {b : State} {s : State} {x1 : _} {x2 : _} {x3 : _} (hk : Keeps b s) : Keeps b (count s x1 x2 x3) := by
  unfold count; try (conv => zeta)
  repeat' (first | with_reducible exact hk | with_reducible refine State.incr_keeps ?_ | split)

theorem ingRefuse_keeps {b : State} {s : State} {x1 : _} {x2 : _} {x3 : _} {x4 : _} (hk : Keeps b s) : Keeps b (ingRefuse s x1 x2 x3 x4) := by
  unfold ingRefuse; try (conv => zeta)
  repeat' (first | with_reducible exact hk | with_reducible refine count_keeps ?_ | with_reducible refine syn_keeps ?_ | split)

theorem noteBuf_keeps {b : State} {s : State} {x1 : _} (hk : Keeps b s) : Keeps b (noteBuf s x1) := by
  unfold noteBuf; try (conv => zeta)
  repeat' (first | with_reducible exact hk | with_reducible refine State.wr_keeps ?_ | split)

theorem ingBusy_keeps {b : State} {s : State} {x1 : _} (hk : Keeps b s) : Keeps b (ingBusy s x1) := by
  unfold ingBusy; try (conv => zeta)
  repeat' (first | with_reducible exact hk | with_reducible refine raise_keeps ?_ | with_reducible refine count_keeps ?_ | with_reducible refine syn_keeps ?_ | split)

theorem putSegment_keeps {b : State} {s : State} {x1 : _} {x2 : _} {x3 : _} {x4 : _} (hk : Keeps b s) : Keeps b (putSegment s x1 x2 x3 x4) := by
  unfold putSegment; try (conv => zeta)
  repeat' (first | with_reducible exact hk | with_reducible refine count_keeps ?_ | with_reducible refine noteBuf_keeps ?_ | with_reducible refine ingRefuse_keeps ?_ | with_reducible refine setIng_keeps ?_ | with_reducible refine ingBusy_keeps ?_ | split)

theorem frameIn_keeps {b : State} {s : State} {x1 : _} {x2 : _} {x3 : _} {x4 : _} (hk : Keeps b s) : Keeps b (frameIn s x1 x2 x3 x4) := by
  unfold frameIn; try (conv => zeta)
  repeat' (first | with_reducible exact hk | with_reducible refine count_keeps ?_ | with_reducible refine ingRefuse_keeps ?_ | with_reducible refine putSegment_keeps ?_ | split)

theorem freeBytes_keeps {b : State} {s : State} {x1 : _} (hk : Keeps b s) : Keeps b (freeBytes s x1).1 := by
  unfold freeBytes; try (conv => zeta)
  repeat' (first | with_reducible exact hk | with_reducible exact Keeps.rfl | with_reducible refine Keeps.foldl ?_ ?_ | with_reducible refine Keeps.foldl₂ ?_ ?_ | (intro; intros) | split | (fail_if_no_progress with_reducible refine Keeps.lit rfl rfl rfl rfl rfl rfl rfl ?_))

theorem holdFrame_keeps {b : State} {s : State} {x1 : _} {x2 : _} {x3 : _} {x4 : _} (hk : Keeps b s) : Keeps b (holdFrame s x1 x2 x3 x4) := by
  unfold holdFrame; try (conv => zeta)
  repeat' (first | with_reducible exact hk | with_reducible refine ingBusy_keeps ?_ | with_reducible refine freeBytes_keeps ?_ | with_reducible refine setIng_keeps ?_ | with_reducible refine chanRecord_keeps ?_ | split)

theorem drainHeld_keeps {b : State} {s : State} {x1 : _} (hk : Keeps b s) : Keeps b (drainHeld s x1) := by
  unfold drainHeld; try (conv => zeta)
  repeat' (first | with_reducible exact hk | with_reducible exact Keeps.rfl | with_reducible refine frameIn_keeps ?_ | with_reducible refine setIng_keeps ?_ | with_reducible refine Keeps.foldl ?_ ?_ | with_reducible refine Keeps.foldl₂ ?_ ?_ | (intro; intros) | split | (fail_if_no_progress with_reducible refine Keeps.lit rfl rfl rfl rfl rfl rfl rfl ?_))

theorem drainAll_keeps {b : State} {s : State} (hk : Keeps b s) : Keeps b (drainAll s) := by
  unfold drainAll; try (conv => zeta)
  repeat' (first | with_reducible exact hk | with_reducible exact Keeps.rfl | with_reducible refine drainHeld_keeps ?_ | with_reducible refine Keeps.foldl ?_ ?_ | with_reducible refine Keeps.foldl₂ ?_ ?_ | (intro; intros) | split | (fail_if_no_progress with_reducible refine Keeps.lit rfl rfl rfl rfl rfl rfl rfl ?_))

theorem execQrpFrameRx_keeps {b : State} {x0 : _} {x1 : _} {x2 : _} {s : State} {t : State} (h : execQrpFrameRx x0 x1 x2 s = .next t) (hk : Keeps b s) : Keeps b t := by
  unfold execQrpFrameRx at h; try (conv at h => zeta)
  repeat' (first | (with_reducible refine Keeps.next h ?_; clear h) | split at h)
  all_goals repeat' (first | with_reducible exact hk | with_reducible refine discardFrame_keeps ?_ | with_reducible refine State.incr_keeps ?_ | with_reducible refine holdFrame_keeps ?_ | with_reducible refine frameIn_keeps ?_ | with_reducible refine drainHeld_keeps ?_ | split)

theorem execReasmTimeout_keeps {b : State} {x0 : _} {s : State} {t : State} (h : execReasmTimeout x0 s = .next t) (hk : Keeps b s) : Keeps b t := by
  unfold execReasmTimeout at h; try (conv at h => zeta)
  repeat' (first | (with_reducible refine Keeps.next h ?_; clear h) | split at h)
  all_goals repeat' (first | with_reducible exact hk | with_reducible exact Keeps.rfl | with_reducible refine drainHeld_keeps ?_ | with_reducible refine setIng_keeps ?_ | with_reducible refine noteBuf_keeps ?_ | with_reducible refine ingRefuse_keeps ?_ | with_reducible refine Keeps.foldl ?_ ?_ | with_reducible refine Keeps.foldl₂ ?_ ?_ | (intro; intros) | split | (fail_if_no_progress with_reducible refine Keeps.lit rfl rfl rfl rfl rfl rfl rfl ?_))

theorem putWin_keeps {b : State} {s : State} {x1 : _} (hk : Keeps b s) : Keeps b (putWin s x1) := by
  unfold putWin; try (conv => zeta)
  repeat' (first | with_reducible exact hk | with_reducible exact Keeps.rfl | with_reducible refine Keeps.foldl ?_ ?_ | with_reducible refine Keeps.foldl₂ ?_ ?_ | (intro; intros) | split | (fail_if_no_progress with_reducible refine Keeps.lit rfl rfl rfl rfl rfl rfl rfl ?_))

theorem noteRecord_keeps {b : State} {s : State} {x1 : _} {x2 : _} {x3 : _} (hk : Keeps b s) : Keeps b (noteRecord s x1 x2 x3) := by
  unfold noteRecord; try (conv => zeta)
  repeat' (first | with_reducible exact hk | with_reducible refine modJob_keeps ?_ | split)

theorem acceptRecord_keeps {b : State} {s : State} {x1 : _} {x2 : _} {x3 : _} {x4 : _} {x5 : _} (hk : Keeps b s) : Keeps b (acceptRecord s x1 x2 x3 x4 x5) := by
  unfold acceptRecord; try (conv => zeta)
  repeat' (first | with_reducible exact hk | with_reducible refine putWin_keeps ?_ | with_reducible refine State.incr_keeps ?_ | with_reducible refine count_keeps ?_ | with_reducible refine noteRecord_keeps ?_ | split)

theorem finishRecord_keeps {b : State} {s : State} {x1 : _} {x2 : _} {x3 : _} {x4 : _} {x5 : _} (hk : Keeps b s) : Keeps b (finishRecord s x1 x2 x3 x4 x5) := by
  unfold finishRecord; try (conv => zeta)
  repeat' (first | with_reducible exact hk | with_reducible refine count_keeps ?_ | with_reducible refine raise_keeps ?_ | with_reducible refine ingRefuse_keeps ?_ | with_reducible refine acceptRecord_keeps ?_ | split)

theorem takeSet_keeps {b : State} {s : State} {x1 : _} {x2 : _} (hk : Keeps b s) : Keeps b (takeSet s x1 x2) := by
  unfold takeSet; try (conv => zeta)
  repeat' (first | with_reducible exact hk | with_reducible refine noteBuf_keeps ?_ | with_reducible refine setIng_keeps ?_ | split)

theorem execRecordRx_keeps {b : State} {x0 : _} {x1 : _} {s : State} {t : State} (h : execRecordRx x0 x1 s = .next t) (hk : Keeps b s) : Keeps b t := by
  unfold execRecordRx at h; try (conv at h => zeta)
  repeat' (first | (with_reducible refine Keeps.next h ?_; clear h) | split at h)
  all_goals repeat' (first | with_reducible exact hk | with_reducible exact Keeps.rfl | with_reducible refine drainHeld_keeps ?_ | with_reducible refine ingRefuse_keeps ?_ | with_reducible refine takeSet_keeps ?_ | with_reducible refine finishRecord_keeps ?_ | with_reducible refine Keeps.foldl ?_ ?_ | with_reducible refine Keeps.foldl₂ ?_ ?_ | ((with_reducible refine Keeps.iteOver ?_ ?_); focus (simp only [Keeps.rfl, ↓drainHeld_keeps, ↓ingRefuse_keeps, ↓takeSet_keeps, ↓finishRecord_keeps]; done)) | ((with_reducible refine Keeps.iteUnder ?_ ?_); focus (simp only [Keeps.rfl, ↓drainHeld_keeps, ↓ingRefuse_keeps, ↓takeSet_keeps, ↓finishRecord_keeps]; done)) | with_reducible refine Keeps.ite ?_ ?_ | (intro; intros) | (split <;> (rename_i heq; with_reducible have e := congrArg Prod.fst heq; with_reducible dsimp only at e; with_reducible subst e)) | split | (fail_if_no_progress with_reducible refine Keeps.lit rfl rfl rfl rfl rfl rfl rfl ?_))

/-! ### Machine/Reach -/

theorem setRch_keeps {b : State} {s : State} {x1 : _} {x2 : _} (hk : Keeps b s) : Keeps b (setRch s x1 x2) := by
  unfold setRch; try (conv => zeta)
  repeat' (first | with_reducible exact hk | with_reducible exact Keeps.rfl | with_reducible refine Keeps.foldl ?_ ?_ | with_reducible refine Keeps.foldl₂ ?_ ?_ | (intro; intros) | split | (fail_if_no_progress with_reducible refine Keeps.lit rfl rfl rfl rfl rfl rfl rfl ?_))

theorem rchCount_keeps {b : State} {s : State} {x1 : _} {x2 : _} {x3 : _} (hk : Keeps b s) : Keeps b (rchCount s x1 x2 x3) := by
  unfold rchCount; try (conv => zeta)
  repeat' (first | with_reducible exact hk | with_reducible refine State.incr_keeps ?_ | split)

theorem setLink_keeps {b : State} {s : State} {x1 : _} {x2 : _} (hk : Keeps b s) : Keeps b (setLink s x1 x2) := by
  unfold setLink; try (conv => zeta)
  repeat' (first | with_reducible exact hk | with_reducible refine State.wr_keeps ?_ | with_reducible refine raise_keeps ?_ | split)

theorem beginSession_keeps {b : State} {s : State} {x1 : _} {x2 : _} (hk : Keeps b s) : Keeps b (beginSession s x1 x2) := by
  unfold beginSession; try (conv => zeta)
  repeat' (first | with_reducible exact hk | with_reducible refine setRch_keeps ?_ | with_reducible refine rchCount_keeps ?_ | with_reducible refine State.wr_keeps ?_ | split)

theorem drawSession_keeps {b : State} {s : State} {x1 : _} (hk : Keeps b s) : Keeps b (drawSession s x1) := by
  unfold drawSession; try (conv => zeta)
  repeat' (first | with_reducible exact hk | with_reducible refine setRch_keeps ?_ | with_reducible refine rchCount_keeps ?_ | with_reducible refine State.wr_keeps ?_ | split)

theorem sessionReset_keeps {b : State} {s : State} {x1 : _} (hk : Keeps b s) : Keeps b (sessionReset s x1) := by
  unfold sessionReset; try (conv => zeta)
  repeat' (first | with_reducible exact hk | with_reducible refine raise_keeps ?_ | with_reducible refine rchCount_keeps ?_ | with_reducible refine beginSession_keeps ?_ | with_reducible refine setRch_keeps ?_ | split)

theorem feed_keeps {b : State} {s : State} {x1 : _} (hk : Keeps b s) : Keeps b (feed s x1) := by
  unfold feed; try (conv => zeta)
  repeat' (first | with_reducible exact hk | with_reducible refine setRch_keeps ?_ | split)

theorem reachSend_keeps {b : State} {s : State} {x1 : _} {x2 : _} {x3 : _} {x4 : _} (hk : Keeps b s) : Keeps b (reachSend s x1 x2 x3 x4) := by
  unfold reachSend; try (conv => zeta)
  repeat' (first | with_reducible exact hk | with_reducible exact Keeps.rfl | with_reducible refine feed_keeps ?_ | with_reducible refine setRch_keeps ?_ | with_reducible refine State.send_keeps ?_ | with_reducible refine Keeps.foldl ?_ ?_ | with_reducible refine Keeps.foldl₂ ?_ ?_ | (intro; intros) | split | (fail_if_no_progress with_reducible refine Keeps.lit rfl rfl rfl rfl rfl rfl rfl ?_))

theorem noteLimited_keeps {b : State} {s : State} {x1 : _} (hk : Keeps b s) : Keeps b (noteLimited s x1) := by
  unfold noteLimited; try (conv => zeta)
  repeat' (first | with_reducible exact hk | with_reducible refine raise_keeps ?_ | with_reducible refine State.wr_keeps ?_ | with_reducible refine setRch_keeps ?_ | with_reducible refine rchCount_keeps ?_ | split)

theorem sendAgain_keeps {b : State} {s : State} {x1 : _} {x2 : _} (hk : Keeps b s) : Keeps b (sendAgain s x1 x2) := by
  unfold sendAgain; try (conv => zeta)
  repeat' (first | with_reducible exact hk | with_reducible refine setRch_keeps ?_ | with_reducible refine State.send_keeps ?_ | with_reducible refine rchCount_keeps ?_ | split)

theorem sendNew_keeps {b : State} {s : State} {x1 : _} {x2 : _} (hk : Keeps b s) : Keeps b (sendNew s x1 x2) := by
  unfold sendNew; try (conv => zeta)
  repeat' (first | with_reducible exact hk | with_reducible refine setRch_keeps ?_ | with_reducible refine rchCount_keeps ?_ | with_reducible refine State.send_keeps ?_ | split)

theorem execDataTx_keeps {b : State} {x0 : _} {s : State} {t : State} (h : execDataTx x0 s = .next t) (hk : Keeps b s) : Keeps b t := by
  unfold execDataTx at h; try (conv at h => zeta)
  repeat' (first | (with_reducible refine Keeps.next h ?_; clear h) | split at h)
  all_goals repeat' (first | with_reducible exact hk | with_reducible refine noteLimited_keeps ?_ | with_reducible refine feed_keeps ?_ | with_reducible refine sendAgain_keeps ?_ | with_reducible refine sendNew_keeps ?_ | split)

theorem execRtoExpiry_keeps {b : State} {x0 : _} {x1 : _} {s : State} {t : State} (h : execRtoExpiry x0 x1 s = .next t) (hk : Keeps b s) : Keeps b t := by
  unfold execRtoExpiry at h; try (conv at h => zeta)
  repeat' (first | (with_reducible refine Keeps.next h ?_; clear h) | split at h)
  all_goals repeat' (first | with_reducible exact hk | with_reducible refine rchCount_keeps ?_ | with_reducible refine sendAgain_keeps ?_ | with_reducible refine setRch_keeps ?_ | split)

theorem rollSession_keeps {b : State} {s : State} {x1 : _} (hk : Keeps b s) : Keeps b (rollSession s x1) := by
  unfold rollSession; try (conv => zeta)
  repeat' (first | with_reducible exact hk | with_reducible refine beginSession_keeps ?_ | split)

theorem evidence_keeps {b : State} {s : State} {x1 : _} (hk : Keeps b s) : Keeps b (evidence s x1) := by
  unfold evidence; try (conv => zeta)
  repeat' (first | with_reducible exact hk | with_reducible refine setRch_keeps ?_ | split)

theorem ackIn_keeps {b : State} {s : State} {x1 : _} {x2 : _} (hk : Keeps b s) : Keeps b (ackIn s x1 x2) := by
  unfold ackIn; try (conv => zeta)
  repeat' (first | with_reducible exact hk | with_reducible refine setRch_keeps ?_ | with_reducible refine State.wr_keeps ?_ | with_reducible refine evidence_keeps ?_ | with_reducible refine noteLimited_keeps ?_ | with_reducible refine feed_keeps ?_ | with_reducible refine rollSession_keeps ?_ | split)

theorem execAck_keeps {b : State} {x0 : _} {x1 : _} {x2 : _} {s : State} {t : State} (h : execAck x0 x1 x2 s = .next t) (hk : Keeps b s) : Keeps b t := by
  unfold execAck at h; try (conv at h => zeta)
  repeat' (first | (with_reducible refine Keeps.next h ?_; clear h) | split at h)
  all_goals repeat' (first | with_reducible exact hk | with_reducible refine rchCount_keeps ?_ | with_reducible refine ackIn_keeps ?_ | split)

theorem storeData_keeps {b : State} {s : State} {x1 : _} {x2 : _} {x3 : _} (hk : Keeps b s) : Keeps b (storeData s x1 x2 x3) := by
  unfold storeData; try (conv => zeta)
  repeat' (first | with_reducible exact hk | with_reducible refine rchCount_keeps ?_ | with_reducible refine setRch_keeps ?_ | with_reducible refine freeBytes_keeps ?_ | with_reducible refine chanRecord_keeps ?_ | split)

theorem execData_keeps {b : State} {x0 : _} {x1 : _} {x2 : _} {s : State} {t : State} (h : execData x0 x1 x2 s = .next t) (hk : Keeps b s) : Keeps b t := by
  unfold execData at h; try (conv at h => zeta)
  repeat' (first | (with_reducible refine Keeps.next h ?_; clear h) | split at h)
  all_goals repeat' (first | with_reducible exact hk | with_reducible refine rchCount_keeps ?_ | with_reducible refine setRch_keeps ?_ | with_reducible refine storeData_keeps ?_ | split)

theorem execAckTx_keeps {b : State} {x0 : _} {s : State} {t : State} (h : execAckTx x0 s = .next t) (hk : Keeps b s) : Keeps b t := by
  unfold execAckTx at h; try (conv at h => zeta)
  repeat' (first | (with_reducible refine Keeps.next h ?_; clear h) | split at h)
  all_goals repeat' (first | with_reducible exact hk | with_reducible refine State.send_keeps ?_ | with_reducible refine setRch_keeps ?_ | split)

theorem execReachHelloTx_keeps {b : State} {x0 : _} {s : State} {t : State} (h : execReachHelloTx x0 s = .next t) (hk : Keeps b s) : Keeps b t := by
  unfold execReachHelloTx at h; try (conv at h => zeta)
  repeat' (first | (with_reducible refine Keeps.next h ?_; clear h) | split at h)
  all_goals repeat' (first | with_reducible exact hk | with_reducible refine State.send_keeps ?_ | with_reducible refine setRch_keeps ?_ | split)

theorem peerSession_keeps {b : State} {s : State} {x1 : _} {x2 : _} (hk : Keeps b s) : Keeps b (peerSession s x1 x2) := by
  unfold peerSession; try (conv => zeta)
  repeat' (first | with_reducible exact hk | with_reducible refine setRch_keeps ?_ | split)

theorem helloOk_keeps {b : State} {s : State} {x1 : _} {x2 : _} {x3 : _} (hk : Keeps b s) : Keeps b (helloOk s x1 x2 x3) := by
  unfold helloOk; try (conv => zeta)
  repeat' (first | with_reducible exact hk | with_reducible refine setRch_keeps ?_ | with_reducible refine peerSession_keeps ?_ | with_reducible refine drawSession_keeps ?_ | with_reducible refine setLink_keeps ?_ | with_reducible refine sessionReset_keeps ?_ | split)

theorem execReachHello_keeps {b : State} {x0 : _} {x1 : _} {x2 : _} {x3 : _} {x4 : _} {x5 : _} {s : State} {t : State} (h : execReachHello x0 x1 x2 x3 x4 x5 s = .next t) (hk : Keeps b s) : Keeps b t := by
  unfold execReachHello at h; try (conv at h => zeta)
  repeat' (first | (with_reducible refine Keeps.next h ?_; clear h) | split at h)
  all_goals repeat' (first | with_reducible exact hk | with_reducible refine rchCount_keeps ?_ | with_reducible refine helloOk_keeps ?_ | with_reducible refine setRch_keeps ?_ | with_reducible refine raise_keeps ?_ | with_reducible refine setLink_keeps ?_ | split)

theorem execHelloLoss_keeps {b : State} {x0 : _} {s : State} {t : State} (h : execHelloLoss x0 s = .next t) (hk : Keeps b s) : Keeps b t := by
  unfold execHelloLoss at h; try (conv at h => zeta)
  repeat' (first | (with_reducible refine Keeps.next h ?_; clear h) | split at h)
  all_goals repeat' (first | with_reducible exact hk | with_reducible refine setLink_keeps ?_ | split)

theorem execSessionReset_keeps {b : State} {x0 : _} {s : State} {t : State} (h : execSessionReset x0 s = .next t) (hk : Keeps b s) : Keeps b t := by
  unfold execSessionReset at h; try (conv at h => zeta)
  repeat' (first | (with_reducible refine Keeps.next h ?_; clear h) | split at h)
  all_goals repeat' (first | with_reducible exact hk | with_reducible refine feed_keeps ?_ | with_reducible refine sessionReset_keeps ?_ | split)

theorem execFrameAbandon_keeps {b : State} {x0 : _} {s : State} {t : State} (h : execFrameAbandon x0 s = .next t) (hk : Keeps b s) : Keeps b t := by
  unfold execFrameAbandon at h; try (conv at h => zeta)
  repeat' (first | (with_reducible refine Keeps.next h ?_; clear h) | split at h)
  all_goals repeat' (first | with_reducible exact hk | with_reducible refine feed_keeps ?_ | with_reducible refine rchCount_keeps ?_ | with_reducible refine setRch_keeps ?_ | split)

theorem softRch_keeps {b : State} {s : State} {x1 : _} {x2 : _} (hk : Keeps b s) : Keeps b (softRch s x1 x2) := by
  unfold softRch; try (conv => zeta)
  repeat' (first | with_reducible exact hk | with_reducible refine setRch_keeps ?_ | with_reducible refine rchCount_keeps ?_ | with_reducible refine setLink_keeps ?_ | split)

theorem rchApplied_keeps {b : State} {s : State} {x1 : _} {x2 : _} {x3 : _} (hk : Keeps b s) : Keeps b (rchApplied s x1 x2 x3) := by
  unfold rchApplied; try (conv => zeta)
  repeat' (first | with_reducible exact hk | with_reducible refine noteLimited_keeps ?_ | with_reducible refine sessionReset_keeps ?_ | split)

theorem pauseReach_keeps {b : State} {s : State} {x1 : _} {x2 : _} (hk : Keeps b s) : Keeps b (pauseReach s x1 x2) := by
  unfold pauseReach; try (conv => zeta)
  repeat' (first | with_reducible exact hk | with_reducible refine setRch_keeps ?_ | with_reducible refine State.wr_keeps ?_ | with_reducible refine rchCount_keeps ?_ | with_reducible refine raise_keeps ?_ | split)

theorem endPause_keeps {b : State} {s : State} {x1 : _} (hk : Keeps b s) : Keeps b (endPause s x1) := by
  unfold endPause; try (conv => zeta)
  repeat' (first | with_reducible exact hk | with_reducible refine setRch_keeps ?_ | with_reducible refine noteLimited_keeps ?_ | with_reducible refine clearSrtt_keeps ?_ | with_reducible refine State.wr_keeps ?_ | split)

/-! ### Machine/Reduce -/

theorem laneMismatch_keeps {b : State} {s : State} {x1 : _} {x2 : _} (hk : Keeps b s) : Keeps b (laneMismatch s x1 x2) := by
  unfold laneMismatch; try (conv => zeta)
  repeat' (first | with_reducible exact hk | with_reducible refine State.wr_keeps ?_ | with_reducible refine State.bump_keeps ?_ | with_reducible refine raise_keeps ?_ | split)

theorem statePoison_keeps {b : State} {s : State} {x1 : _} {x2 : _} (hk : Keeps b s) : Keeps b (statePoison s x1 x2) := by
  unfold statePoison; try (conv => zeta)
  repeat' (first | with_reducible exact hk | with_reducible refine jobPoison_keeps ?_ | with_reducible refine raise_keeps ?_ | with_reducible refine syn_keeps ?_ | split)

theorem snapshotWin_keeps {b : State} {s : State} {x1 : _} {x2 : _} {x3 : _} {x4 : _} (hk : Keeps b s) : Keeps b (snapshotWin s x1 x2 x3 x4) := by
  unfold snapshotWin; try (conv => zeta)
  repeat' (first | with_reducible exact hk | with_reducible exact Keeps.rfl | with_reducible refine laneMismatch_keeps ?_ | with_reducible refine statePoison_keeps ?_ | with_reducible refine putWin_keeps ?_ | with_reducible refine Keeps.foldl ?_ ?_ | with_reducible refine Keeps.foldl₂ ?_ ?_ | (intro; intros) | split | (fail_if_no_progress with_reducible refine Keeps.lit rfl rfl rfl rfl rfl rfl rfl ?_))

theorem execSealDeadline_keeps {b : State} {x0 : _} {x1 : _} {x2 : _} {x3 : _} {s : State} {t : State} (h : execSealDeadline x0 x1 x2 x3 s = .next t) (hk : Keeps b s) : Keeps b t := by
  unfold execSealDeadline at h; try (conv at h => zeta)
  repeat' (first | (with_reducible refine Keeps.next h ?_; clear h) | split at h)
  all_goals repeat' (first | with_reducible exact hk | with_reducible exact Keeps.rfl | with_reducible refine drainAll_keeps ?_ | with_reducible refine snapshotWin_keeps ?_ | with_reducible refine State.incr_keeps ?_ | with_reducible refine Keeps.foldl ?_ ?_ | with_reducible refine Keeps.foldl₂ ?_ ?_ | ((with_reducible refine Keeps.iteOver ?_ ?_); focus (simp only [Keeps.rfl, ↓drainAll_keeps, ↓snapshotWin_keeps, ↓State.incr_keeps]; done)) | ((with_reducible refine Keeps.iteUnder ?_ ?_); focus (simp only [Keeps.rfl, ↓drainAll_keeps, ↓snapshotWin_keeps, ↓State.incr_keeps]; done)) | with_reducible refine Keeps.ite ?_ ?_ | (intro; intros) | (split <;> (rename_i heq; with_reducible have e := congrArg Prod.fst heq; with_reducible dsimp only at e; with_reducible subst e)) | split | (fail_if_no_progress with_reducible refine Keeps.lit rfl rfl rfl rfl rfl rfl rfl ?_))

theorem execLateHorizon_keeps {b : State} {x0 : _} {x1 : _} {x2 : _} {x3 : _} {s : State} {t : State} (h : execLateHorizon x0 x1 x2 x3 s = .next t) (hk : Keeps b s) : Keeps b t := by
  unfold execLateHorizon at h; try (conv at h => zeta)
  repeat' (first | (with_reducible refine Keeps.next h ?_; clear h) | split at h)
  all_goals repeat' (first | with_reducible exact hk | with_reducible exact Keeps.rfl | with_reducible refine drainAll_keeps ?_ | with_reducible refine snapshotWin_keeps ?_ | with_reducible refine putWin_keeps ?_ | with_reducible refine Keeps.foldl ?_ ?_ | with_reducible refine Keeps.foldl₂ ?_ ?_ | ((with_reducible refine Keeps.iteOver ?_ ?_); focus (simp only [Keeps.rfl, ↓drainAll_keeps, ↓snapshotWin_keeps, ↓putWin_keeps]; done)) | ((with_reducible refine Keeps.iteUnder ?_ ?_); focus (simp only [Keeps.rfl, ↓drainAll_keeps, ↓snapshotWin_keeps, ↓putWin_keeps]; done)) | with_reducible refine Keeps.ite ?_ ?_ | (intro; intros) | (split <;> (rename_i heq; with_reducible have e := congrArg Prod.fst heq; with_reducible dsimp only at e; with_reducible subst e)) | split | (fail_if_no_progress with_reducible refine Keeps.lit rfl rfl rfl rfl rfl rfl rfl ?_))

theorem execMergeLate_keeps {b : State} {x0 : _} {x1 : _} {s : State} {t : State} (h : execMergeLate x0 x1 s = .next t) (hk : Keeps b s) : Keeps b t := by
  unfold execMergeLate at h; try (conv at h => zeta)
  repeat' (first | (with_reducible refine Keeps.next h ?_; clear h) | split at h)
  all_goals repeat' (first | with_reducible exact hk | with_reducible refine raise_keeps ?_ | with_reducible refine putWin_keeps ?_ | split)

theorem execReReductionDone_keeps {b : State} {x0 : _} {x1 : _} {x2 : _} {s : State} {t : State} (h : execReReductionDone x0 x1 x2 s = .next t) (hk : Keeps b s) : Keeps b t := by
  unfold execReReductionDone at h; try (conv at h => zeta)
  repeat' (first | (with_reducible refine Keeps.next h ?_; clear h) | split at h)
  all_goals repeat' (first | with_reducible exact hk | with_reducible refine putWin_keeps ?_ | with_reducible refine jobLane_keeps ?_ | split)

theorem sendAgg_keeps {b : State} {s : State} {x1 : _} {x2 : _} {x3 : _} (hk : Keeps b s) : Keeps b (sendAgg s x1 x2 x3) := by
  unfold sendAgg; try (conv => zeta)
  repeat' (first | with_reducible exact hk | with_reducible refine State.send_keeps ?_ | with_reducible refine reachSend_keeps ?_ | split)

theorem issueAgg_keeps {b : State} {s : State} {x1 : _} {x2 : _} {x3 : _} {x4 : _} {x5 : _} (hk : Keeps b s) : Keeps b (issueAgg s x1 x2 x3 x4 x5) := by
  unfold issueAgg; try (conv => zeta)
  repeat' (first | with_reducible exact hk | with_reducible exact Keeps.rfl | with_reducible refine putWin_keeps ?_ | with_reducible refine setEvent_keeps ?_ | with_reducible refine sendAgg_keeps ?_ | with_reducible refine Keeps.foldl ?_ ?_ | with_reducible refine Keeps.foldl₂ ?_ ?_ | (intro; intros) | split | (fail_if_no_progress with_reducible refine Keeps.lit rfl rfl rfl rfl rfl rfl rfl ?_))

theorem reissueFrom_keeps {b s : State} {x1 : JobGen} {x2 : Nat} {x3 : List Nat} (hk : Keeps b s) : Keeps b (reissueFrom s x1 x2 x3) := by
  induction x3 generalizing s with
  | nil => exact hk
  | cons d l ih =>
    unfold reissueFrom
    dsimp only
    split
    · split
      · exact ih (issueAgg_keeps hk)
      · exact hk
    · exact hk

theorem execHubAggregateIssue_keeps {b : State} {x0 : _} {x1 : _} {x2 : _} {s : State} {t : State} (h : execHubAggregateIssue x0 x1 x2 s = .next t) (hk : Keeps b s) : Keeps b t := by
  unfold execHubAggregateIssue at h; try (conv at h => zeta)
  repeat' (first | (with_reducible refine Keeps.next h ?_; clear h) | split at h)
  all_goals repeat' (first | with_reducible exact hk | with_reducible exact Keeps.rfl | with_reducible refine putWin_keeps ?_ | with_reducible refine laneMismatch_keeps ?_ | with_reducible refine issueAgg_keeps ?_ | with_reducible refine reissueFrom_keeps ?_ | with_reducible refine Keeps.foldl ?_ ?_ | with_reducible refine Keeps.foldl₂ ?_ ?_ | ((with_reducible refine Keeps.iteOver ?_ ?_); focus (simp only [Keeps.rfl, ↓putWin_keeps, ↓laneMismatch_keeps, ↓issueAgg_keeps, ↓reissueFrom_keeps]; done)) | ((with_reducible refine Keeps.iteUnder ?_ ?_); focus (simp only [Keeps.rfl, ↓putWin_keeps, ↓laneMismatch_keeps, ↓issueAgg_keeps, ↓reissueFrom_keeps]; done)) | with_reducible refine Keeps.ite ?_ ?_ | (intro; intros) | (split <;> (rename_i heq; with_reducible have e := congrArg Prod.fst heq; with_reducible dsimp only at e; with_reducible subst e)) | split | (fail_if_no_progress with_reducible refine Keeps.lit rfl rfl rfl rfl rfl rfl rfl ?_))

theorem issueLevel_keeps {b : State} {s : State} {x1 : _} {x2 : _} {x3 : _} {x4 : _} {x5 : _} (hk : Keeps b s) : Keeps b (issueLevel s x1 x2 x3 x4 x5) := by
  unfold issueLevel; try (conv => zeta)
  repeat' (first | with_reducible exact hk | with_reducible refine laneMismatch_keeps ?_ | with_reducible refine issueAgg_keeps ?_ | split)

theorem execGroupAggregateIssue_keeps {b : State} {x0 : _} {x1 : _} {x2 : _} {s : State} {t : State} (h : execGroupAggregateIssue x0 x1 x2 s = .next t) (hk : Keeps b s) : Keeps b t := by
  unfold execGroupAggregateIssue at h; try (conv at h => zeta)
  repeat' (first | (with_reducible refine Keeps.next h ?_; clear h) | split at h)
  all_goals repeat' (first | with_reducible exact hk | with_reducible refine issueLevel_keeps ?_ | split)

theorem execSiteAggregateIssue_keeps {b : State} {x0 : _} {x1 : _} {x2 : _} {s : State} {t : State} (h : execSiteAggregateIssue x0 x1 x2 s = .next t) (hk : Keeps b s) : Keeps b t := by
  unfold execSiteAggregateIssue at h; try (conv at h => zeta)
  repeat' (first | (with_reducible refine Keeps.next h ?_; clear h) | split at h)
  all_goals repeat' (first | with_reducible exact hk | with_reducible refine issueLevel_keeps ?_ | split)

theorem execFleetAggregateIssue_keeps {b : State} {x0 : _} {x1 : _} {x2 : _} {s : State} {t : State} (h : execFleetAggregateIssue x0 x1 x2 s = .next t) (hk : Keeps b s) : Keeps b t := by
  unfold execFleetAggregateIssue at h; try (conv at h => zeta)
  repeat' (first | (with_reducible refine Keeps.next h ?_; clear h) | split at h)
  all_goals repeat' (first | with_reducible exact hk | with_reducible refine issueLevel_keeps ?_ | split)

theorem forwardAgg_keeps {b : State} {s : State} {x1 : _} (hk : Keeps b s) : Keeps b (forwardAgg s x1) := by
  unfold forwardAgg; try (conv => zeta)
  repeat' (first | with_reducible exact hk | with_reducible exact Keeps.rfl | with_reducible refine State.send_keeps ?_ | with_reducible refine Keeps.foldl ?_ ?_ | with_reducible refine Keeps.foldl₂ ?_ ?_ | (intro; intros) | split | (fail_if_no_progress with_reducible refine Keeps.lit rfl rfl rfl rfl rfl rfl rfl ?_))

theorem aggregateIn_keeps {b : State} {s : State} {x1 : _} {x2 : _} (hk : Keeps b s) : Keeps b (aggregateIn s x1 x2) := by
  unfold aggregateIn; try (conv => zeta)
  repeat' (first | with_reducible exact hk | with_reducible refine count_keeps ?_ | with_reducible refine syn_keeps ?_ | with_reducible refine forwardAgg_keeps ?_ | with_reducible refine reissueFrom_keeps ?_ | with_reducible refine putWin_keeps ?_ | split)

theorem execAggregateRx_keeps {b : State} {x0 : _} {x1 : _} {s : State} {t : State} (h : execAggregateRx x0 x1 s = .next t) (hk : Keeps b s) : Keeps b t := by
  unfold execAggregateRx at h; try (conv at h => zeta)
  repeat' (first | (with_reducible refine Keeps.next h ?_; clear h) | split at h)
  all_goals repeat' (first | with_reducible exact hk | with_reducible refine aggregateIn_keeps ?_ | split)

theorem execAggregateHoldExpiry_keeps {b : State} {x0 : _} {x1 : _} {s : State} {t : State} (h : execAggregateHoldExpiry x0 x1 s = .next t) (hk : Keeps b s) : Keeps b t := by
  unfold execAggregateHoldExpiry at h; try (conv at h => zeta)
  repeat' (first | (with_reducible refine Keeps.next h ?_; clear h) | split at h)
  all_goals repeat' (first | with_reducible exact hk | with_reducible refine putWin_keeps ?_ | split)

/-! ### Machine/IngPages -/

theorem softIng_keeps {b : State} {s : State} {x1 : _} (hk : Keeps b s) : Keeps b (softIng s x1) := by
  unfold softIng; try (conv => zeta)
  repeat' (first | with_reducible exact hk | with_reducible exact Keeps.rfl | with_reducible refine setIng_keeps ?_ | with_reducible refine Keeps.foldl ?_ ?_ | with_reducible refine Keeps.foldl₂ ?_ ?_ | (intro; intros) | split | (fail_if_no_progress with_reducible refine Keeps.lit rfl rfl rfl rfl rfl rfl rfl ?_))

theorem softTrs_keeps {b : State} {s : State} {x1 : _} (hk : Keeps b s) : Keeps b (softTrs s x1) := by
  unfold softTrs; try (conv => zeta)
  repeat' (first | with_reducible exact hk | with_reducible exact Keeps.rfl | with_reducible refine Keeps.foldl ?_ ?_ | with_reducible refine Keeps.foldl₂ ?_ ?_ | (intro; intros) | split | (fail_if_no_progress with_reducible refine Keeps.lit rfl rfl rfl rfl rfl rfl rfl ?_))

/-! ### Machine/Gsi -/

theorem execPseRise_keeps {b : State} {x0 : _} {s : State} {t : State} (h : execPseRise x0 s = .next t) (hk : Keeps b s) : Keeps b t := by
  unfold execPseRise at h; try (conv at h => zeta)
  repeat' (first | (with_reducible refine Keeps.next h ?_; clear h) | split at h)
  all_goals repeat' (first | with_reducible exact hk | with_reducible refine State.wr_keeps ?_ | with_reducible refine State.bump_keeps ?_ | with_reducible refine setRch_keeps ?_ | with_reducible refine raise_keeps ?_ | with_reducible refine pathChange_keeps ?_ | with_reducible refine pauseReach_keeps ?_ | split)

theorem execPseFall_keeps {b : State} {x0 : _} {s : State} {t : State} (h : execPseFall x0 s = .next t) (hk : Keeps b s) : Keeps b t := by
  unfold execPseFall at h; try (conv at h => zeta)
  repeat' (first | (with_reducible refine Keeps.next h ?_; clear h) | split at h)
  all_goals repeat' (first | with_reducible exact hk | with_reducible refine State.wr_keeps ?_ | with_reducible refine endPause_keeps ?_ | with_reducible refine raise_keeps ?_ | split)

theorem execPauseTimeout_keeps {b : State} {x0 : _} {s : State} {t : State} (h : execPauseTimeout x0 s = .next t) (hk : Keeps b s) : Keeps b t := by
  unfold execPauseTimeout at h; try (conv at h => zeta)
  repeat' (first | (with_reducible refine Keeps.next h ?_; clear h) | split at h)
  all_goals repeat' (first | with_reducible exact hk | with_reducible refine raise_keeps ?_ | with_reducible refine endPause_keeps ?_ | split)

theorem gaugeState_keeps {b : State} {s : State} {x1 : _} {x2 : _} (hk : Keeps b s) : Keeps b (gaugeState s x1 x2).1 := by
  unfold gaugeState; try (conv => zeta)
  repeat' (first | with_reducible exact hk | with_reducible refine State.free_keeps ?_ | split)

theorem lineRecord_keeps {b : State} {s : State} {x1 : _} {x2 : _} {x3 : _} (hk : Keeps b s) : Keeps b (lineRecord s x1 x2 x3) := by
  unfold lineRecord; try (conv => zeta)
  repeat' (first | with_reducible exact hk | with_reducible refine gaugeState_keeps ?_ | with_reducible refine State.wr_keeps ?_ | with_reducible refine State.bump_keeps ?_ | with_reducible refine raise_keeps ?_ | split)

theorem lineMissing_keeps {b : State} {s : State} {x1 : _} {x2 : _} (hk : Keeps b s) : Keeps b (lineMissing s x1 x2) := by
  unfold lineMissing; try (conv => zeta)
  repeat' (first | with_reducible exact hk | with_reducible refine State.bump_keeps ?_ | with_reducible refine State.wr_keeps ?_ | split)

theorem pseMismatch_keeps {b : State} {s : State} {x1 : _} {x2 : _} {x3 : _} (hk : Keeps b s) : Keeps b (pseMismatch s x1 x2 x3) := by
  unfold pseMismatch; try (conv => zeta)
  repeat' (first | with_reducible exact hk | with_reducible exact Keeps.rfl | with_reducible refine raise_keeps ?_ | with_reducible refine State.bump_keeps ?_ | with_reducible refine Keeps.foldl ?_ ?_ | with_reducible refine Keeps.foldl₂ ?_ ?_ | (intro; intros) | split | (fail_if_no_progress with_reducible refine Keeps.lit rfl rfl rfl rfl rfl rfl rfl ?_))

theorem crossCheck_keeps {b : State} {s : State} {x1 : _} {x2 : _} {x3 : _} {x4 : _} (hk : Keeps b s) : Keeps b (crossCheck s x1 x2 x3 x4) := by
  unfold crossCheck; try (conv => zeta)
  repeat' (first | with_reducible exact hk | with_reducible refine pseMismatch_keeps ?_ | with_reducible refine setRch_keeps ?_ | split)

theorem execGsiUpdate_keeps {b : State} {x0 : _} {x1 : _} {x2 : _} {s : State} {t : State} (h : execGsiUpdate x0 x1 x2 s = .next t) (hk : Keeps b s) : Keeps b t := by
  unfold execGsiUpdate at h; try (conv at h => zeta)
  repeat' (first | (with_reducible refine Keeps.next h ?_; clear h) | split at h)
  all_goals repeat' (first | with_reducible exact hk | with_reducible exact Keeps.rfl | with_reducible refine lineRecord_keeps ?_ | with_reducible refine lineMissing_keeps ?_ | with_reducible refine setRch_keeps ?_ | with_reducible refine crossCheck_keeps ?_ | with_reducible refine Keeps.foldl ?_ ?_ | with_reducible refine Keeps.foldl₂ ?_ ?_ | (intro; intros) | split | (fail_if_no_progress with_reducible refine Keeps.lit rfl rfl rfl rfl rfl rfl rfl ?_))

theorem clearLine_keeps {b : State} {s : State} {x1 : _} {x2 : _} (hk : Keeps b s) : Keeps b (clearLine s x1 x2) := by
  unfold clearLine; try (conv => zeta)
  repeat' (first | with_reducible exact hk | with_reducible exact Keeps.rfl | with_reducible refine State.wr_keeps ?_ | with_reducible refine Keeps.foldl ?_ ?_ | with_reducible refine Keeps.foldl₂ ?_ ?_ | (intro; intros) | split | (fail_if_no_progress with_reducible refine Keeps.lit rfl rfl rfl rfl rfl rfl rfl ?_))

theorem gsiApplied_keeps {b : State} {s : State} {x1 : _} {x2 : _} (hk : Keeps b s) : Keeps b (gsiApplied s x1 x2) := by
  unfold gsiApplied; try (conv => zeta)
  repeat' (first | with_reducible exact hk | with_reducible exact Keeps.rfl | with_reducible refine clearLine_keeps ?_ | with_reducible refine Keeps.foldl ?_ ?_ | with_reducible refine Keeps.foldl₂ ?_ ?_ | (intro; intros) | split | (fail_if_no_progress with_reducible refine Keeps.lit rfl rfl rfl rfl rfl rfl rfl ?_))

theorem softGsi_keeps {b : State} {s : State} {x1 : _} (hk : Keeps b s) : Keeps b (softGsi s x1) := by
  unfold softGsi; try (conv => zeta)
  repeat' (first | with_reducible exact hk | with_reducible refine setRch_keeps ?_ | split)

/-! ### Machine/Security -/

theorem setHKeys_keeps {b : State} {s : State} {x1 : _} (hk : Keeps b s) : Keeps b (setHKeys s x1) := by
  unfold setHKeys; try (conv => zeta)
  repeat' (first | with_reducible exact hk | with_reducible exact Keeps.rfl | with_reducible refine Keeps.foldl ?_ ?_ | with_reducible refine Keeps.foldl₂ ?_ ?_ | (intro; intros) | split | (fail_if_no_progress with_reducible refine Keeps.lit rfl rfl rfl rfl rfl rfl rfl ?_))

theorem secResult_keeps {b : State} {s : State} {x1 : _} {x2 : _} {x3 : _} {x4 : _} (hk : Keeps b s) : Keeps b (secResult s x1 x2 x3 x4) := by
  unfold secResult; try (conv => zeta)
  repeat' (first | with_reducible exact hk | with_reducible refine State.wr_keeps ?_ | with_reducible refine syn_keeps ?_ | split)

theorem addKey_keeps {b : State} {s : State} {x1 : _} {x2 : _} {x3 : _} {x4 : _} {x5 : _} {x6 : _} (hk : Keeps b s) : Keeps b (addKey s x1 x2 x3 x4 x5 x6) := by
  unfold addKey; try (conv => zeta)
  repeat' (first | with_reducible exact hk | with_reducible refine setHKeys_keeps ?_ | split)

theorem installRecord_keeps {b : State} {s : State} {x1 : _} {x2 : _} {x3 : _} (hk : Keeps b s) : Keeps b (installRecord s x1 x2 x3) := by
  unfold installRecord; try (conv => zeta)
  repeat' (first | with_reducible exact hk | with_reducible refine secResult_keeps ?_ | with_reducible refine raise_keeps ?_ | with_reducible refine State.bump_keeps ?_ | with_reducible refine addKey_keeps ?_ | split)

theorem eraseKey_keeps {b : State} {s : State} {x1 : _} {x2 : _} {x3 : _} (hk : Keeps b s) : Keeps b (eraseKey s x1 x2 x3) := by
  unfold eraseKey; try (conv => zeta)
  repeat' (first | with_reducible exact hk | with_reducible refine syn_keeps ?_ | with_reducible refine secResult_keeps ?_ | with_reducible refine setHKeys_keeps ?_ | split)

theorem secLoadWrite_keeps {b : State} {s : State} {x1 : _} {x2 : _} {x3 : _} (hk : Keeps b s) : Keeps b (secLoadWrite s x1 x2 x3) := by
  unfold secLoadWrite; try (conv => zeta)
  repeat' (first | with_reducible exact hk | with_reducible refine syn_keeps ?_ | with_reducible refine hbmFetch_keeps ?_ | with_reducible refine installRecord_keeps ?_ | with_reducible refine eraseKey_keeps ?_ | split)

theorem execInstall_keeps {b : State} {x0 : _} {x1 : _} {s : State} {t : State} (h : execInstall x0 x1 s = .next t) (hk : Keeps b s) : Keeps b t := by
  unfold execInstall at h; try (conv at h => zeta)
  repeat' (first | (with_reducible refine Keeps.next h ?_; clear h) | split at h)
  all_goals repeat' (first | with_reducible exact hk | with_reducible refine syn_keeps ?_ | with_reducible refine secLoadWrite_keeps ?_ | split)

theorem execErase_keeps {b : State} {x0 : _} {x1 : _} {x2 : _} {s : State} {t : State} (h : execErase x0 x1 x2 s = .next t) (hk : Keeps b s) : Keeps b t := by
  unfold execErase at h; try (conv at h => zeta)
  repeat' (first | (with_reducible refine Keeps.next h ?_; clear h) | split at h)
  all_goals repeat' (first | with_reducible exact hk | with_reducible refine syn_keeps ?_ | with_reducible refine secLoadWrite_keeps ?_ | split)

theorem zeroize_keeps {b : State} {s : State} {x1 : _} (hk : Keeps b s) : Keeps b (zeroize s x1) := by
  unfold zeroize; try (conv => zeta)
  repeat' (first | with_reducible exact hk | with_reducible refine raise_keeps ?_ | with_reducible refine setHKeys_keeps ?_ | split)

theorem zeroizeWrite_keeps {b : State} {s : State} {x1 : _} {x2 : _} {x3 : _} (hk : Keeps b s) : Keeps b (zeroizeWrite s x1 x2 x3) := by
  unfold zeroizeWrite; try (conv => zeta)
  repeat' (first | with_reducible exact hk | with_reducible refine syn_keeps ?_ | with_reducible refine zeroize_keeps ?_ | split)

theorem execZeroize_keeps {b : State} {x0 : _} {x1 : _} {x2 : _} {s : State} {t : State} (h : execZeroize x0 x1 x2 s = .next t) (hk : Keeps b s) : Keeps b t := by
  unfold execZeroize at h; try (conv at h => zeta)
  repeat' (first | (with_reducible refine Keeps.next h ?_; clear h) | split at h)
  all_goals repeat' (first | with_reducible exact hk | with_reducible refine syn_keeps ?_ | with_reducible refine zeroizeWrite_keeps ?_ | split)

theorem execKeyDiscard_keeps {b : State} {x0 : _} {s : State} {t : State} (h : execKeyDiscard x0 s = .next t) (hk : Keeps b s) : Keeps b t := by
  unfold execKeyDiscard at h; try (conv at h => zeta)
  repeat' (first | (with_reducible refine Keeps.next h ?_; clear h) | split at h)
  all_goals repeat' (first | with_reducible exact hk | with_reducible refine setHKeys_keeps ?_ | split)

theorem promoteJobKey_keeps {b : State} {s : State} {x1 : _} {x2 : _} {x3 : _} (hk : Keeps b s) : Keeps b (promoteJobKey s x1 x2 x3) := by
  unfold promoteJobKey; try (conv => zeta)
  repeat' (first | with_reducible exact hk | with_reducible refine setHKeys_keeps ?_ | split)

theorem promoteSiteKeys_keeps {b : State} {s : State} (hk : Keeps b s) : Keeps b (promoteSiteKeys s) := by
  unfold promoteSiteKeys; try (conv => zeta)
  repeat' (first | with_reducible exact hk | with_reducible exact Keeps.rfl | with_reducible refine setHKeys_keeps ?_ | with_reducible refine Keeps.foldl ?_ ?_ | with_reducible refine Keeps.foldl₂ ?_ ?_ | (intro; intros) | split | (fail_if_no_progress with_reducible refine Keeps.lit rfl rfl rfl rfl rfl rfl rfl ?_))

/-! ### Machine/Commands -/

theorem setCabinet_keeps {b s : State} {c : Cabinet} (hj : c.journal = s.hub.cabinet.journal) (hn : c.nextId = s.hub.cabinet.nextId)
    (hb : c.boots = s.hub.cabinet.boots) (hk : Keeps b s) : Keeps b (setCabinet s c) := Keeps.plain (s := s) (Eq.refl _) (Eq.refl _) hj hn hb (Eq.refl _) (Eq.refl _) hk

theorem setCabinet_journal_keeps {b s : State} {c : Cabinet} (hj : JournalIds s.hub.cabinet → JournalIds c) (hk : Keeps b s) :
    Keeps b (setCabinet s c) := hk.trans ⟨Eq.refl _, id, hj, id, id⟩

theorem sendUnder_keeps {b : State} {s : State} {x1 : _} {x2 : _} {x3 : _} {x4 : _} {x5 : _} {x6 : _} (hk : Keeps b s) : Keeps b (sendUnder s x1 x2 x3 x4 x5 x6) := by
  unfold sendUnder; try (conv => zeta)
  repeat' (first | with_reducible exact hk | (with_reducible refine setCabinet_keeps rfl rfl rfl ?_) | with_reducible refine sendOn_keeps ?_ | split)

theorem sendCmd_keeps {b : State} {s : State} {x1 : _} {x2 : _} {x3 : _} {x4 : _} (hk : Keeps b s) : Keeps b (sendCmd s x1 x2 x3 x4) := by
  unfold sendCmd; try (conv => zeta)
  repeat' (first | with_reducible exact hk | with_reducible refine sendUnder_keeps ?_ | split)

/-! ### Machine/HubPower -/

theorem setPower_keeps {b : State} {s : State} {x1 : _} (hk : Keeps b s) : Keeps b (setPower s x1) := by
  unfold setPower; try (conv => zeta)
  repeat' (first | with_reducible exact hk | with_reducible exact Keeps.rfl | with_reducible refine Keeps.foldl ?_ ?_ | with_reducible refine Keeps.foldl₂ ?_ ?_ | (intro; intros) | split | (fail_if_no_progress with_reducible refine Keeps.lit rfl rfl rfl rfl rfl rfl rfl ?_))

theorem setCause_keeps {b : State} {s : State} {x1 : _} {x2 : _} (hk : Keeps b s) : Keeps b (setCause s x1 x2) := by
  unfold setCause; try (conv => zeta)
  repeat' (first | with_reducible exact hk | with_reducible refine setPower_keeps ?_ | split)

theorem setLevel_keeps {b : State} {s : State} {x1 : _} (hk : Keeps b s) : Keeps b (setLevel s x1) := by
  unfold setLevel; try (conv => zeta)
  repeat' (first | with_reducible exact hk | with_reducible refine State.wr_keeps ?_ | split)

theorem decideLevel_keeps {b : State} {s : State} (hk : Keeps b s) : Keeps b (decideLevel s) := by
  unfold decideLevel; try (conv => zeta)
  repeat' (first | with_reducible exact hk | with_reducible refine State.wr_keeps ?_ | with_reducible refine setPower_keeps ?_ | split)

theorem execLevelApply_keeps {b : State} {s : State} {t : State} (h : execLevelApply s = .next t) (hk : Keeps b s) : Keeps b t := by
  unfold execLevelApply at h; try (conv at h => zeta)
  repeat' (first | (with_reducible refine Keeps.next h ?_; clear h) | split at h)
  all_goals repeat' (first | with_reducible exact hk | with_reducible refine setLevel_keeps ?_ | with_reducible refine setPower_keeps ?_ | split)

theorem lowerTo_keeps {b : State} {s : State} {x1 : _} {x2 : _} (hk : Keeps b s) : Keeps b (lowerTo s x1 x2) := by
  unfold lowerTo; try (conv => zeta)
  repeat' (first | with_reducible exact hk | with_reducible refine raise_keeps ?_ | with_reducible refine State.bump_keeps ?_ | with_reducible refine setCause_keeps ?_ | with_reducible refine decideLevel_keeps ?_ | with_reducible refine setPower_keeps ?_ | split)

theorem causeClear_keeps {b : State} {s : State} {x1 : _} (hk : Keeps b s) : Keeps b (causeClear s x1) := by
  unfold causeClear; try (conv => zeta)
  repeat' (first | with_reducible exact hk | with_reducible refine setCause_keeps ?_ | split)

theorem fastClear_keeps {b : State} {s : State} {x1 : _} (hk : Keeps b s) : Keeps b (fastClear s x1) := by
  unfold fastClear; try (conv => zeta)
  repeat' (first | with_reducible exact hk | with_reducible exact Keeps.rfl | with_reducible refine causeClear_keeps ?_ | with_reducible refine setCause_keeps ?_ | with_reducible refine Keeps.foldl ?_ ?_ | with_reducible refine Keeps.foldl₂ ?_ ?_ | (intro; intros) | split | (fail_if_no_progress with_reducible refine Keeps.lit rfl rfl rfl rfl rfl rfl rfl ?_))

theorem raiseCeiling_keeps {b : State} {s : State} {x1 : _} (hk : Keeps b s) : Keeps b (raiseCeiling s x1) := by
  unfold raiseCeiling; try (conv => zeta)
  repeat' (first | with_reducible exact hk | with_reducible refine decideLevel_keeps ?_ | with_reducible refine setCause_keeps ?_ | split)

theorem execCeilingRaise_keeps {b : State} {x0 : _} {s : State} {t : State} (h : execCeilingRaise x0 s = .next t) (hk : Keeps b s) : Keeps b t := by
  unfold execCeilingRaise at h; try (conv at h => zeta)
  repeat' (first | (with_reducible refine Keeps.next h ?_; clear h) | split at h)
  all_goals repeat' (first | with_reducible exact hk | with_reducible refine raiseCeiling_keeps ?_ | split)

theorem execVrAlert_keeps {b : State} {x0 : _} {s : State} {t : State} (h : execVrAlert x0 s = .next t) (hk : Keeps b s) : Keeps b t := by
  unfold execVrAlert at h; try (conv at h => zeta)
  repeat' (first | (with_reducible refine Keeps.next h ?_; clear h) | split at h)
  all_goals repeat' (first | with_reducible exact hk | with_reducible refine State.wr_keeps ?_ | with_reducible refine lowerTo_keeps ?_ | split)

theorem execVrAlertDeassert_keeps {b : State} {x0 : _} {s : State} {t : State} (h : execVrAlertDeassert x0 s = .next t) (hk : Keeps b s) : Keeps b t := by
  unfold execVrAlertDeassert at h; try (conv at h => zeta)
  repeat' (first | (with_reducible refine Keeps.next h ?_; clear h) | split at h)
  all_goals repeat' (first | with_reducible exact hk | with_reducible refine State.wr_keeps ?_ | with_reducible refine fastClear_keeps ?_ | split)

theorem execBoardThrottle_keeps {b : State} {x0 : _} {s : State} {t : State} (h : execBoardThrottle x0 s = .next t) (hk : Keeps b s) : Keeps b t := by
  unfold execBoardThrottle at h; try (conv at h => zeta)
  repeat' (first | (with_reducible refine Keeps.next h ?_; clear h) | split at h)
  all_goals repeat' (first | with_reducible exact hk | with_reducible refine State.wr_keeps ?_ | with_reducible refine lowerTo_keeps ?_ | split)

theorem execBoardThrottleDeassert_keeps {b : State} {x0 : _} {s : State} {t : State} (h : execBoardThrottleDeassert x0 s = .next t) (hk : Keeps b s) : Keeps b t := by
  unfold execBoardThrottleDeassert at h; try (conv at h => zeta)
  repeat' (first | (with_reducible refine Keeps.next h ?_; clear h) | split at h)
  all_goals repeat' (first | with_reducible exact hk | with_reducible refine State.wr_keeps ?_ | with_reducible refine fastClear_keeps ?_ | split)

theorem attribute__keeps {b : State} {s : State} {x1 : _} {x2 : _} {x3 : _} (hk : Keeps b s) : Keeps b (attribute_ s x1 x2 x3) := by
  unfold attribute_; try (conv => zeta)
  repeat' (first | with_reducible exact hk | with_reducible refine State.incr_keeps ?_ | split)

theorem avgLimit_keeps {b : State} {s : State} {x1 : _} {x2 : _} {x3 : _} (hk : Keeps b s) : Keeps b (avgLimit s x1 x2 x3) := by
  unfold avgLimit; try (conv => zeta)
  repeat' (first | with_reducible exact hk | with_reducible refine lowerTo_keeps ?_ | with_reducible refine causeClear_keeps ?_ | split)

theorem logEnergy_keeps {b : State} {s : State} (hk : Keeps b s) : Keeps b (logEnergy s) := by
  unfold logEnergy; try (conv => zeta)
  repeat' (first | with_reducible exact hk | with_reducible exact Keeps.rfl | with_reducible refine Keeps.foldl ?_ ?_ | with_reducible refine Keeps.foldl₂ ?_ ?_ | (intro; intros) | split | (fail_if_no_progress with_reducible refine Keeps.lit rfl rfl rfl rfl rfl rfl rfl ?_))

theorem execPowerEstimateSample_keeps {b : State} {x0 : _} {s : State} {t : State} (h : execPowerEstimateSample x0 s = .next t) (hk : Keeps b s) : Keeps b t := by
  unfold execPowerEstimateSample at h; try (conv at h => zeta)
  repeat' (first | (with_reducible refine Keeps.next h ?_; clear h) | split at h)
  all_goals repeat' (first | with_reducible exact hk | with_reducible exact Keeps.rfl | with_reducible refine State.wr_keeps ?_ | with_reducible refine logEnergy_keeps ?_ | with_reducible refine attribute__keeps ?_ | with_reducible refine setPower_keeps ?_ | with_reducible refine lowerTo_keeps ?_ | with_reducible refine fastClear_keeps ?_ | with_reducible refine avgLimit_keeps ?_ | with_reducible refine Keeps.foldl ?_ ?_ | with_reducible refine Keeps.foldl₂ ?_ ?_ | (intro; intros) | split | (fail_if_no_progress with_reducible refine Keeps.lit rfl rfl rfl rfl rfl rfl rfl ?_))

theorem execThermalReading_keeps {b : State} {x0 : _} {x1 : _} {s : State} {t : State} (h : execThermalReading x0 x1 s = .next t) (hk : Keeps b s) : Keeps b t := by
  unfold execThermalReading at h; try (conv at h => zeta)
  repeat' (first | (with_reducible refine Keeps.next h ?_; clear h) | split at h)
  all_goals repeat' (first | with_reducible exact hk | with_reducible refine State.wr_keeps ?_ | with_reducible refine lowerTo_keeps ?_ | with_reducible refine raiseCeiling_keeps ?_ | with_reducible refine causeClear_keeps ?_ | with_reducible refine post_keeps ?_ | with_reducible refine setPower_keeps ?_ | with_reducible refine decideLevel_keeps ?_ | with_reducible refine setCause_keeps ?_ | split)

theorem execPmbusPoll_keeps {b : State} {x0 : _} {s : State} {t : State} (h : execPmbusPoll x0 s = .next t) (hk : Keeps b s) : Keeps b t := by
  unfold execPmbusPoll at h; try (conv at h => zeta)
  repeat' (first | (with_reducible refine Keeps.next h ?_; clear h) | split at h)
  all_goals repeat' (first | with_reducible exact hk | with_reducible refine setPower_keeps ?_ | with_reducible refine State.bump_keeps ?_ | split)

theorem execPmbusAlert_keeps {b : State} {s : State} {t : State} (h : execPmbusAlert s = .next t) (hk : Keeps b s) : Keeps b t := by
  unfold execPmbusAlert at h; try (conv at h => zeta)
  repeat' (first | (with_reducible refine Keeps.next h ?_; clear h) | split at h)
  all_goals repeat' (first | with_reducible exact hk | with_reducible exact Keeps.rfl | with_reducible refine State.send_keeps ?_ | with_reducible refine Keeps.foldl ?_ ?_ | with_reducible refine Keeps.foldl₂ ?_ ?_ | (intro; intros) | split | (fail_if_no_progress with_reducible refine Keeps.lit rfl rfl rfl rfl rfl rfl rfl ?_))

theorem calibrateClass_keeps {b : State} {s : State} {x1 : _} (hk : Keeps b s) : Keeps b (calibrateClass s x1) := by
  unfold calibrateClass; try (conv => zeta)
  repeat' (first | with_reducible exact hk | with_reducible refine setPower_keeps ?_ | with_reducible refine raise_keeps ?_ | with_reducible refine State.wr_keeps ?_ | split)

theorem execCalibration_keeps {b : State} {s : State} {t : State} (h : execCalibration s = .next t) (hk : Keeps b s) : Keeps b t := by
  unfold execCalibration at h; try (conv at h => zeta)
  repeat' (first | (with_reducible refine Keeps.next h ?_; clear h) | split at h)
  all_goals repeat' (first | with_reducible exact hk | with_reducible exact Keeps.rfl | with_reducible refine calibrateClass_keeps ?_ | with_reducible refine setPower_keeps ?_ | with_reducible refine Keeps.foldl ?_ ?_ | with_reducible refine Keeps.foldl₂ ?_ ?_ | (intro; intros) | split | (fail_if_no_progress with_reducible refine Keeps.lit rfl rfl rfl rfl rfl rfl rfl ?_))

theorem execHubPwrLockWrite_keeps {b : State} {x0 : _} {x1 : _} {s : State} {t : State} (h : execHubPwrLockWrite x0 x1 s = .next t) (hk : Keeps b s) : Keeps b t := by
  unfold execHubPwrLockWrite at h; try (conv at h => zeta)
  repeat' (first | (with_reducible refine Keeps.next h ?_; clear h) | split at h)
  all_goals repeat' (first | with_reducible exact hk | with_reducible refine syn_keeps ?_ | with_reducible refine State.wr_keeps ?_ | split)

theorem clearSlotEnergy_keeps {b : State} {s : State} {x1 : _} (hk : Keeps b s) : Keeps b (clearSlotEnergy s x1) := by
  unfold clearSlotEnergy; try (conv => zeta)
  repeat' (first | with_reducible exact hk | with_reducible exact Keeps.rfl | with_reducible refine State.wr_keeps ?_ | with_reducible refine Keeps.foldl ?_ ?_ | with_reducible refine Keeps.foldl₂ ?_ ?_ | (intro; intros) | split | (fail_if_no_progress with_reducible refine Keeps.lit rfl rfl rfl rfl rfl rfl rfl ?_))

theorem softHpwr_keeps {b : State} {s : State} (hk : Keeps b s) : Keeps b (softHpwr s) := by
  unfold softHpwr; try (conv => zeta)
  repeat' (first | with_reducible exact hk | with_reducible refine decideLevel_keeps ?_ | with_reducible refine setPower_keeps ?_ | split)

/-! ### Machine/Appt -/

theorem armChecked_keeps {b : State} {s : State} {x1 : _} {x2 : _} {x3 : _} (hk : Keeps b s) : Keeps b (armChecked s x1 x2 x3) := by
  unfold armChecked; try (conv => zeta)
  repeat' (first | with_reducible exact hk | with_reducible refine syn_keeps ?_ | with_reducible refine apptRefuse_keeps ?_ | with_reducible refine State.wr_keeps ?_ | split)

theorem cancelChecked_keeps {b : State} {s : State} {x1 : _} {x2 : _} (hk : Keeps b s) : Keeps b (cancelChecked s x1 x2) := by
  unfold cancelChecked; try (conv => zeta)
  repeat' (first | with_reducible exact hk | with_reducible refine State.wr_keeps ?_ | with_reducible refine syn_keeps ?_ | split)

theorem apptCtrlWrite_keeps {b : State} {s : State} {x1 : _} {x2 : _} {x3 : _} {x4 : _} (hk : Keeps b s) : Keeps b (apptCtrlWrite s x1 x2 x3 x4) := by
  unfold apptCtrlWrite; try (conv => zeta)
  repeat' (first | with_reducible exact hk | with_reducible refine syn_keeps ?_ | with_reducible refine armChecked_keeps ?_ | with_reducible refine cancelChecked_keeps ?_ | split)

theorem absent_keeps {b : State} {s : State} {x1 : _} {x2 : _} {x3 : _} (hk : Keeps b s) : Keeps b (absent s x1 x2 x3) := by
  unfold absent; try (conv => zeta)
  repeat' (first | with_reducible exact hk | with_reducible refine syn_keeps ?_ | split)

theorem execApptArm_keeps {b : State} {x0 : _} {x1 : _} {s : State} {t : State} (h : execApptArm x0 x1 s = .next t) (hk : Keeps b s) : Keeps b t := by
  unfold execApptArm at h; try (conv at h => zeta)
  repeat' (first | (with_reducible refine Keeps.next h ?_; clear h) | split at h)
  all_goals repeat' (first | with_reducible exact hk | with_reducible refine apptCtrlWrite_keeps ?_ | with_reducible refine absent_keeps ?_ | split)

theorem execApptCancel_keeps {b : State} {x0 : _} {x1 : _} {s : State} {t : State} (h : execApptCancel x0 x1 s = .next t) (hk : Keeps b s) : Keeps b t := by
  unfold execApptCancel at h; try (conv at h => zeta)
  repeat' (first | (with_reducible refine Keeps.next h ?_; clear h) | split at h)
  all_goals repeat' (first | with_reducible exact hk | with_reducible refine apptCtrlWrite_keeps ?_ | with_reducible refine absent_keeps ?_ | split)

theorem copyStaged_keeps {b s : State} {x1 : Page} {x2 : Blk} (hk : Keeps b s) : Keeps b (copyStaged s x1 x2) := by
  refine hk.trans ⟨Eq.refl _, fun h => ?_, id, id, id⟩
  unfold copyStaged RegsOne at *
  simp only [List.map_append, List.map_map]
  refine List.nodup_append.mpr ⟨List.Nodup.sublist (List.Sublist.map _ List.filter_sublist) h, ?_, ?_⟩
  · have hs : (s.regs.filter (fun c => c.1.pg == x1 && decide (0x800 ≤ c.1.off) && isRwa x2 (c.1.off - 0x800))).Pairwise
        (fun a b => a.1 ≠ b.1) := List.Pairwise.sublist List.filter_sublist (by simpa [List.Nodup, List.pairwise_map] using h)
    rw [List.Nodup, List.pairwise_map]
    refine List.Pairwise.imp_of_mem ?_ hs
    intro a c ha hc hne he
    apply hne
    simp only [List.mem_filter, Bool.and_eq_true, decide_eq_true_eq] at ha hc
    obtain ⟨⟨p, o, i, l⟩, v⟩ := a
    obtain ⟨⟨p', o', i', l'⟩, v'⟩ := c
    simp only [Function.comp, RegKey.mk.injEq] at he ha hc ⊢
    have h1 := ha.2.1.2
    have h2 := hc.2.1.2
    exact ⟨he.1, by omega, he.2.2⟩
  · intro a ha c hc he
    subst he
    simp only [List.mem_map, List.mem_filter, Function.comp, Bool.and_eq_true, Bool.not_eq_true', decide_eq_true_eq] at ha hc
    obtain ⟨x, ⟨_, hx⟩, rfl⟩ := ha
    obtain ⟨y, ⟨_, ⟨hy, _⟩, hz⟩, e⟩ := hc
    rw [← e] at hx
    simp only [hy, hz, Bool.and_self] at hx
    exact absurd hx (by simp)

theorem hotApplied_keeps {b : State} {s : State} {x1 : _} {x2 : _} (hk : Keeps b s) : Keeps b (hotApplied s x1 x2) := by
  unfold hotApplied; try (conv => zeta)
  repeat' (first | with_reducible exact hk | with_reducible exact Keeps.rfl | with_reducible refine openWindow_keeps ?_ | with_reducible refine Keeps.foldl ?_ ?_ | with_reducible refine Keeps.foldl₂ ?_ ?_ | (intro; intros) | split | (fail_if_no_progress with_reducible refine Keeps.lit rfl rfl rfl rfl rfl rfl rfl ?_))

theorem endJob_keeps {b : State} {s : State} {x1 : _} (hk : Keeps b s) : Keeps b (endJob s x1) := by
  unfold endJob; try (conv => zeta)
  repeat' (first | with_reducible exact hk | with_reducible exact Keeps.rfl | with_reducible refine setHKeys_keeps ?_ | with_reducible refine Keeps.foldl ?_ ?_ | with_reducible refine Keeps.foldl₂ ?_ ?_ | (intro; intros) | split | (fail_if_no_progress with_reducible refine Keeps.lit rfl rfl rfl rfl rfl rfl rfl ?_))

theorem jobApplied_keeps {b : State} {s : State} {x1 : _} (hk : Keeps b s) : Keeps b (jobApplied s x1) := by
  unfold jobApplied; try (conv => zeta)
  repeat' (first | with_reducible exact hk | with_reducible exact Keeps.rfl | with_reducible refine endJob_keeps ?_ | with_reducible refine promoteJobKey_keeps ?_ | with_reducible refine clearSlotEnergy_keeps ?_ | with_reducible refine Keeps.foldl ?_ ?_ | with_reducible refine Keeps.foldl₂ ?_ ?_ | (intro; intros) | split | (fail_if_no_progress with_reducible refine Keeps.lit rfl rfl rfl rfl rfl rfl rfl ?_))

theorem appliedHook_keeps {b : State} {x0 : _} {s : State} {x2 : _} {x3 : _} (hk : Keeps b s) : Keeps b (appliedHook x0 s x2 x3) := by
  unfold appliedHook; try (conv => zeta)
  repeat' (first | with_reducible exact hk | with_reducible exact Keeps.rfl | with_reducible refine hotApplied_keeps ?_ | with_reducible refine epochChanged_keeps ?_ | with_reducible refine capApplied_keeps ?_ | with_reducible refine shpApplied_keeps ?_ | with_reducible refine frzApplied_keeps ?_ | with_reducible refine noteSettings_keeps ?_ | with_reducible refine jobApplied_keeps ?_ | with_reducible refine tilApplied_keeps ?_ | with_reducible refine rchApplied_keeps ?_ | with_reducible refine gsiApplied_keeps ?_ | with_reducible refine decideLevel_keeps ?_ | with_reducible refine Keeps.foldl ?_ ?_ | with_reducible refine Keeps.foldl₂ ?_ ?_ | (intro; intros) | split | (fail_if_no_progress with_reducible refine Keeps.lit rfl rfl rfl rfl rfl rfl rfl ?_))

theorem applyPage_keeps {b : State} {s : State} {x1 : _} (hk : Keeps b s) : Keeps b (applyPage s x1) := by
  unfold applyPage; try (conv => zeta)
  repeat' (first | with_reducible exact hk | with_reducible refine splitOnce_keeps ?_ | with_reducible refine copyStaged_keeps ?_ | with_reducible refine State.incr_keeps ?_ | with_reducible refine State.wr_keeps ?_ | with_reducible refine appliedHook_keeps ?_ | with_reducible refine raise_keeps ?_ | split)

theorem tallyInstant_keeps {b : State} {s : State} (hk : Keeps b s) : Keeps b (tallyInstant s) := by
  unfold tallyInstant; try (conv => zeta)
  repeat' (first | with_reducible exact hk | with_reducible exact Keeps.rfl | with_reducible refine closeWindows_keeps ?_ | with_reducible refine applyPage_keeps ?_ | with_reducible refine openWindows_keeps ?_ | with_reducible refine Keeps.foldl ?_ ?_ | with_reducible refine Keeps.foldl₂ ?_ ?_ | (intro; intros) | split | (fail_if_no_progress with_reducible refine Keeps.lit rfl rfl rfl rfl rfl rfl rfl ?_))

theorem applyDue_keeps {b : State} {s : State} {x1 : _} (hk : Keeps b s) : Keeps b (applyDue s x1) := by
  unfold applyDue; try (conv => zeta)
  repeat' (first | with_reducible exact hk | with_reducible exact Keeps.rfl | with_reducible refine tallyInstant_keeps ?_ | with_reducible refine applyPage_keeps ?_ | with_reducible refine Keeps.foldl ?_ ?_ | with_reducible refine Keeps.foldl₂ ?_ ?_ | (intro; intros) | split | (fail_if_no_progress with_reducible refine Keeps.lit rfl rfl rfl rfl rfl rfl rfl ?_))

theorem execApptApply_keeps {b : State} {x0 : _} {s : State} {t : State} (h : execApptApply x0 s = .next t) (hk : Keeps b s) : Keeps b t := by
  unfold execApptApply at h; try (conv at h => zeta)
  repeat' (first | (with_reducible refine Keeps.next h ?_; clear h) | split at h)
  all_goals repeat' (first | with_reducible exact hk | with_reducible refine applyDue_keeps ?_ | split)

theorem execWindowBoundary_keeps {b : State} {s : State} {t : State} (h : execWindowBoundary s = .next t) (hk : Keeps b s) : Keeps b t := by
  unfold execWindowBoundary at h; try (conv at h => zeta)
  repeat' (first | (with_reducible refine Keeps.next h ?_; clear h) | split at h)
  all_goals repeat' (first | with_reducible exact hk | with_reducible refine tallyInstant_keeps ?_ | split)

/-! ### Machine/Verdict -/

theorem sendAct_keeps {b : State} {s : State} {x1 : _} {x2 : _} {x3 : _} (hk : Keeps b s) : Keeps b (sendAct s x1 x2 x3) := by
  unfold sendAct; try (conv => zeta)
  repeat' (first | with_reducible exact hk | with_reducible refine modJob_keeps ?_ | with_reducible refine sendCmd_keeps ?_ | split)

theorem sendVerdict_keeps {b : State} {s : State} {x1 : _} {x2 : _} {x3 : _} {x4 : _} (hk : Keeps b s) : Keeps b (sendVerdict s x1 x2 x3 x4) := by
  unfold sendVerdict; try (conv => zeta)
  repeat' (first | with_reducible exact hk | with_reducible exact Keeps.rfl | with_reducible refine sendOn_keeps ?_ | with_reducible refine sendAct_keeps ?_ | with_reducible refine Keeps.foldl ?_ ?_ | with_reducible refine Keeps.foldl₂ ?_ ?_ | (intro; intros) | split | (fail_if_no_progress with_reducible refine Keeps.lit rfl rfl rfl rfl rfl rfl rfl ?_))

theorem migratePosts_keeps {b : State} {s : State} {x1 : _} {x2 : _} {x3 : _} {x4 : _} (hk : Keeps b s) : Keeps b (migratePosts s x1 x2 x3 x4) := by
  unfold migratePosts; try (conv => zeta)
  repeat' (first | with_reducible exact hk | with_reducible exact Keeps.rfl | with_reducible refine cabEntry_keeps ?_ | with_reducible refine Keeps.foldl ?_ ?_ | with_reducible refine Keeps.foldl₂ ?_ ?_ | (intro; intros) | split | (fail_if_no_progress with_reducible refine Keeps.lit rfl rfl rfl rfl rfl rfl rfl ?_))

theorem issueVerdict_keeps {b : State} {s : State} {x1 : _} {x2 : _} {x3 : _} {x4 : _} {x5 : _} {x6 : _} (hk : Keeps b s) : Keeps b (issueVerdict s x1 x2 x3 x4 x5 x6) := by
  unfold issueVerdict; try (conv => zeta)
  repeat' (first | with_reducible exact hk | with_reducible refine sendVerdict_keeps ?_ | with_reducible refine migratePosts_keeps ?_ | with_reducible refine modJob_keeps ?_ | split)

theorem reviseVerdict_keeps {b : State} {s : State} {x1 : _} {x2 : _} {x3 : _} {x4 : _} {x5 : _} {x6 : _} (hk : Keeps b s) : Keeps b (reviseVerdict s x1 x2 x3 x4 x5 x6) := by
  unfold reviseVerdict; try (conv => zeta)
  repeat' (first | with_reducible exact hk | with_reducible refine modJob_keeps ?_ | split)

theorem execVerdictAssembly_keeps {b : State} {x0 : _} {x1 : _} {s : State} {t : State} (h : execVerdictAssembly x0 x1 s = .next t) (hk : Keeps b s) : Keeps b t := by
  unfold execVerdictAssembly at h; try (conv at h => zeta)
  repeat' (first | (with_reducible refine Keeps.next h ?_; clear h) | split at h)
  all_goals repeat' (first | with_reducible exact hk | with_reducible exact Keeps.rfl | with_reducible refine modJob_keeps ?_ | ((with_reducible refine setTile_keeps ?_ ?_); focus (intro h; first | exact getTile_wf h _ | with_reducible exact Tile.write_wf _ _ (getTile_wf h _) | exact storeRow_wf (getTile_wf h _) | exact writeMask_wf (getTile_wf h _) | exact tileFold_wf (fun _ _ hy => storeRow_wf hy) (getTile_wf h _) | exact tileFold_wf (fun _ _ hy => writeOuts_wf hy) (getTile_wf h _))) | with_reducible refine syn_keeps ?_ | with_reducible refine State.bump_keeps ?_ | with_reducible refine raise_keeps ?_ | with_reducible refine tileJobFault_keeps ?_ | with_reducible refine Keeps.foldl ?_ ?_ | with_reducible refine Keeps.foldl₂ ?_ ?_ | ((with_reducible refine Keeps.iteOver ?_ ?_); focus (simp only [Keeps.rfl, ↓modJob_keeps, ↓setTile_keeps, ↓syn_keeps, ↓State.bump_keeps, ↓raise_keeps, ↓tileJobFault_keeps]; done)) | ((with_reducible refine Keeps.iteUnder ?_ ?_); focus (simp only [Keeps.rfl, ↓modJob_keeps, ↓setTile_keeps, ↓syn_keeps, ↓State.bump_keeps, ↓raise_keeps, ↓tileJobFault_keeps]; done)) | with_reducible refine Keeps.ite ?_ ?_ | (intro; intros) | (split <;> (rename_i heq; with_reducible have e := congrArg Prod.fst heq; with_reducible dsimp only at e; with_reducible subst e)) | split | (fail_if_no_progress with_reducible refine Keeps.lit rfl rfl rfl rfl rfl rfl rfl ?_))

theorem execVerdictIssue_keeps {b : State} {x0 : _} {x1 : _} {x2 : _} {x3 : _} {x4 : _} {s : State} {t : State} (h : execVerdictIssue x0 x1 x2 x3 x4 s = .next t) (hk : Keeps b s) : Keeps b t := by
  unfold execVerdictIssue at h; try (conv at h => zeta)
  repeat' (first | (with_reducible refine Keeps.next h ?_; clear h) | split at h)
  all_goals repeat' (first | with_reducible exact hk | with_reducible refine reviseVerdict_keeps ?_ | with_reducible refine modJob_keeps ?_ | with_reducible refine issueVerdict_keeps ?_ | split)

theorem execVerdictAbandon_keeps {b : State} {x0 : _} {x1 : _} {s : State} {t : State} (h : execVerdictAbandon x0 x1 s = .next t) (hk : Keeps b s) : Keeps b t := by
  unfold execVerdictAbandon at h; try (conv at h => zeta)
  repeat' (first | (with_reducible refine Keeps.next h ?_; clear h) | split at h)
  all_goals repeat' (first | with_reducible exact hk | with_reducible refine modJob_keeps ?_ | split)

end Sys2Proof.Machine
end

