-- ==== Sys2Proof/Laws/KeepsJournal.lean ====
section
/-!
SUPPORT. Sys2Proof/Laws/KeepsJournal.lean: what every operation of Machine/Journal, Machine/ElecTest, Machine/Boot, Machine/Bureau, Machine/Tape, Machine/Trace keeps (Laws/Keeps.lean).
-/
set_option linter.all false
namespace Sys2Proof.Machine

/-! ### Machine/Journal -/

theorem jevent_keeps {b : State} {s : State} {x1 : _} (hk : Keeps b s) : Keeps b (jevent s x1) := by
  unfold jevent; try (conv => zeta)
  repeat' (first | with_reducible exact hk | with_reducible refine State.send_keeps ?_ | split)

theorem putJEntry_keeps {b s : State} {x1 : JEntry} (hk : Keeps b s) : Keeps b (putJEntry s x1) := by
  unfold putJEntry
  have h : Keeps b (setCabinet s { s.hub.cabinet with journal := s.hub.cabinet.journal.map (fun x => if x.id = x1.id then x1 else x) }) :=
    setCabinet_journal_keeps (fun h => h.map _ (fun e => by split; exact Eq.symm ‹_›; rfl)) hk
  dsimp only
  split
  · exact jevent_keeps h
  · exact h

theorem modEntry_keeps {b : State} {s : State} {x1 : _} {x2 : _} (hk : Keeps b s) : Keeps b (modEntry s x1 x2) := by
  unfold modEntry; try (conv => zeta)
  repeat' (first | with_reducible exact hk | with_reducible refine putJEntry_keeps ?_ | split)

theorem journalRoom_keeps {b s t : State} (h : journalRoom s = some t) (hk : Keeps b s) : Keeps b t := by
  unfold journalRoom at h
  dsimp only at h
  split at h
  · cases h; exact hk
  · split at h
    · cases h; exact setCabinet_journal_keeps (fun h => h.filter _) hk
    · cases h

theorem sendReady_keeps {b : State} {s : State} {x1 : _} (hk : Keeps b s) : Keeps b (sendReady s x1) := by
  unfold sendReady; try (conv => zeta)
  repeat' (first | with_reducible exact hk | with_reducible exact Keeps.rfl | with_reducible refine sendCmd_keeps ?_ | with_reducible refine modEntry_keeps ?_ | with_reducible refine Keeps.foldl ?_ ?_ | with_reducible refine Keeps.foldl₂ ?_ ?_ | (intro; intros) | split | (fail_if_no_progress with_reducible refine Keeps.lit rfl rfl rfl rfl rfl rfl rfl ?_))

theorem endEntry_keeps {b : State} {s : State} {x1 : _} {x2 : _} {x3 : _} {x4 : _} (hk : Keeps b s) : Keeps b (endEntry s x1 x2 x3 x4) := by
  unfold endEntry; try (conv => zeta)
  repeat' (first | with_reducible exact hk | with_reducible refine modEntry_keeps ?_ | split)

theorem armPages_keeps {b : State} {x0 : _} {x1 : _} {s : State} (hk : Keeps b s) : Keeps b (armPages x0 x1 s).1 := by
  unfold armPages; try (conv => zeta)
  repeat' (first | with_reducible exact hk | with_reducible exact Keeps.rfl | with_reducible refine syn_keeps ?_ | with_reducible refine State.wr_keeps ?_ | with_reducible refine armChecked_keeps ?_ | with_reducible refine Keeps.foldl ?_ ?_ | with_reducible refine Keeps.foldl₂ ?_ ?_ | (intro; intros) | split | (fail_if_no_progress with_reducible refine Keeps.lit rfl rfl rfl rfl rfl rfl rfl ?_))

theorem unarm_keeps {b : State} {x0 : _} {x1 : _} {s : State} (hk : Keeps b s) : Keeps b (unarm x0 x1 s) := by
  unfold unarm; try (conv => zeta)
  repeat' (first | with_reducible exact hk | with_reducible exact Keeps.rfl | with_reducible refine cancelChecked_keeps ?_ | with_reducible refine Keeps.foldl ?_ ?_ | with_reducible refine Keeps.foldl₂ ?_ ?_ | (intro; intros) | split | (fail_if_no_progress with_reducible refine Keeps.lit rfl rfl rfl rfl rfl rfl rfl ?_))

theorem withdraw_keeps {b : State} {s : State} {x1 : _} (hk : Keeps b s) : Keeps b (withdraw s x1) := by
  unfold withdraw; try (conv => zeta)
  repeat' (first | with_reducible exact hk | with_reducible exact Keeps.rfl | with_reducible refine setHKeys_keeps ?_ | with_reducible refine Keeps.foldl ?_ ?_ | with_reducible refine Keeps.foldl₂ ?_ ?_ | (intro; intros) | split | (fail_if_no_progress with_reducible refine Keeps.lit rfl rfl rfl rfl rfl rfl rfl ?_))

theorem installJob_keeps {b : State} {s : State} {x1 : _} (hk : Keeps b s) : Keeps b (installJob s x1) := by
  unfold installJob; try (conv => zeta)
  repeat' (first | with_reducible exact hk | with_reducible exact Keeps.rfl | with_reducible refine Keeps.foldl ?_ ?_ | with_reducible refine Keeps.foldl₂ ?_ ?_ | (intro; intros) | split | (fail_if_no_progress with_reducible refine Keeps.lit rfl rfl rfl rfl rfl rfl rfl ?_))

theorem noteEnergy_keeps {b : State} {s : State} {x1 : _} (hk : Keeps b s) : Keeps b (noteEnergy s x1) := by
  unfold noteEnergy; try (conv => zeta)
  repeat' (first | with_reducible exact hk | with_reducible refine modEntry_keeps ?_ | split)

theorem stageFreeze_keeps {b : State} {s : State} {x1 : _} {x2 : _} {x3 : _} (hk : Keeps b s) : Keeps b (stageFreeze s x1 x2 x3) := by
  unfold stageFreeze; try (conv => zeta)
  repeat' (first | with_reducible exact hk | with_reducible exact Keeps.rfl | with_reducible refine State.wr_keeps ?_ | with_reducible refine Keeps.foldl ?_ ?_ | with_reducible refine Keeps.foldl₂ ?_ ?_ | (intro; intros) | split | (fail_if_no_progress with_reducible refine Keeps.lit rfl rfl rfl rfl rfl rfl rfl ?_))

theorem armRelease_keeps {b : State} {s : State} {x1 : _} {x2 : _} {x3 : _} (hk : Keeps b s) : Keeps b (armRelease s x1 x2 x3) := by
  unfold armRelease; try (conv => zeta)
  repeat' (first | with_reducible exact hk | with_reducible refine endEntry_keeps ?_ | with_reducible refine armPages_keeps ?_ | with_reducible refine stageFreeze_keeps ?_ | with_reducible refine unarm_keeps ?_ | with_reducible refine sendReady_keeps ?_ | with_reducible refine modEntry_keeps ?_ | split)

theorem endChange_keeps {b : State} {s : State} {x1 : _} {x2 : _} (hk : Keeps b s) : Keeps b (endChange s x1 x2) := by
  unfold endChange; try (conv => zeta)
  repeat' (first | with_reducible exact hk | with_reducible refine armRelease_keeps ?_ | with_reducible refine noteEnergy_keeps ?_ | with_reducible refine installJob_keeps ?_ | with_reducible refine endEntry_keeps ?_ | split)

theorem commitHook_keeps {b : State} {s : State} {x1 : _} (hk : Keeps b s) : Keeps b (commitHook s x1) := by
  unfold commitHook; try (conv => zeta)
  repeat' (first | with_reducible exact hk | (with_reducible refine setCabinet_keeps rfl rfl rfl ?_) | with_reducible refine modJob_keeps ?_ | split)

theorem endPlain_keeps {b : State} {s : State} {x1 : _} (hk : Keeps b s) : Keeps b (endPlain s x1) := by
  unfold endPlain; try (conv => zeta)
  repeat' (first | with_reducible exact hk | with_reducible refine endEntry_keeps ?_ | with_reducible refine withdraw_keeps ?_ | split)

theorem endCancelled_keeps {b : State} {s : State} {x1 : _} (hk : Keeps b s) : Keeps b (endCancelled s x1) := by
  unfold endCancelled; try (conv => zeta)
  repeat' (first | with_reducible exact hk | with_reducible refine endEntry_keeps ?_ | with_reducible refine withdraw_keeps ?_ | with_reducible refine installJob_keeps ?_ | split)

theorem endRead_keeps {b : State} {s : State} {x1 : _} (hk : Keeps b s) : Keeps b (endRead s x1) := by
  unfold endRead; try (conv => zeta)
  repeat' (first | with_reducible exact hk | with_reducible refine endChange_keeps ?_ | split)

theorem advance_keeps {b : State} {s : State} {x1 : _} (hk : Keeps b s) : Keeps b (advance s x1) := by
  unfold advance; try (conv => zeta)
  repeat' (first | with_reducible exact hk | with_reducible refine sendReady_keeps ?_ | with_reducible refine endPlain_keeps ?_ | with_reducible refine endCancelled_keeps ?_ | with_reducible refine endRead_keeps ?_ | split)

theorem setCmds_keeps {b : State} {s : State} {x1 : _} (hk : Keeps b s) : Keeps b (setCmds s x1) := by
  unfold setCmds; try (conv => zeta)
  repeat' (first | with_reducible exact hk | (with_reducible refine setCabinet_keeps rfl rfl rfl ?_) | split)

theorem modCmd_keeps {b : State} {s : State} {x1 : _} {x2 : _} {x3 : _} (hk : Keeps b s) : Keeps b (modCmd s x1 x2 x3) := by
  unfold modCmd; try (conv => zeta)
  repeat' (first | with_reducible exact hk | with_reducible refine setCmds_keeps ?_ | split)

theorem dropCmd_keeps {b : State} {s : State} {x1 : _} {x2 : _} (hk : Keeps b s) : Keeps b (dropCmd s x1 x2) := by
  unfold dropCmd; try (conv => zeta)
  repeat' (first | with_reducible exact hk | with_reducible refine setCmds_keeps ?_ | split)

theorem actionRefused_keeps {b : State} {s : State} {x1 : _} {x2 : _} {x3 : _} (hk : Keeps b s) : Keeps b (actionRefused s x1 x2 x3) := by
  unfold actionRefused; try (conv => zeta)
  repeat' (first | with_reducible exact hk | with_reducible refine modJob_keeps ?_ | split)

theorem noteBounds_keeps {b s : State} {x1 x2 : Nat} {x3 : UCmd} {x4 : List Nat} (hk : Keeps b s) : Keeps b (noteBounds s x1 x2 x3 x4) := by
  unfold noteBounds
  dsimp only
  split
  · exact setCabinet_journal_keeps (fun h => h.map _ (fun e => by split <;> rfl)) (modJob_keeps hk)
  · exact setCabinet_keeps (Eq.refl _) (Eq.refl _) (Eq.refl _) hk
  · exact hk

theorem resolveQuery_keeps {b : State} {s : State} {x1 : _} {x2 : _} {x3 : _} {x4 : _} {x5 : _} (hk : Keeps b s) : Keeps b (resolveQuery s x1 x2 x3 x4 x5) := by
  unfold resolveQuery; try (conv => zeta)
  repeat' (first | with_reducible exact hk | (with_reducible refine setCabinet_keeps rfl rfl rfl ?_) | with_reducible refine State.send_keeps ?_ | split)

theorem resolveStep_keeps {b : State} {s : State} {x1 : _} {x2 : _} {x3 : _} {x4 : _} (hk : Keeps b s) : Keeps b (resolveStep s x1 x2 x3 x4) := by
  unfold resolveStep; try (conv => zeta)
  repeat' (first | with_reducible exact hk | with_reducible refine advance_keeps ?_ | with_reducible refine putJEntry_keeps ?_ | split)

theorem resolveBack_keeps {b : State} {s : State} {x1 : _} {x2 : _} {x3 : _} (hk : Keeps b s) : Keeps b (resolveBack s x1 x2 x3) := by
  unfold resolveBack; try (conv => zeta)
  repeat' (first | with_reducible exact hk | with_reducible refine advance_keeps ?_ | with_reducible refine modEntry_keeps ?_ | split)

theorem resolveCmd_keeps {b : State} {s : State} {x1 : _} {x2 : _} {x3 : _} {x4 : _} (hk : Keeps b s) : Keeps b (resolveCmd s x1 x2 x3 x4) := by
  unfold resolveCmd; try (conv => zeta)
  repeat' (first | with_reducible exact hk | with_reducible refine dropCmd_keeps ?_ | with_reducible refine resolveStep_keeps ?_ | with_reducible refine noteBounds_keeps ?_ | with_reducible refine actionRefused_keeps ?_ | with_reducible refine resolveBack_keeps ?_ | with_reducible refine resolveQuery_keeps ?_ | split)

theorem roundAnswer_keeps {b : State} {s : State} {x1 : _} {x2 : _} {x3 : _} {x4 : _} {x5 : _} (hk : Keeps b s) : Keeps b (roundAnswer s x1 x2 x3 x4 x5) := by
  unfold roundAnswer; try (conv => zeta)
  repeat' (first | with_reducible exact hk | with_reducible refine modCmd_keeps ?_ | with_reducible refine resolveCmd_keeps ?_ | split)

theorem bootAnswer_keeps {b : State} {s : State} {x1 : _} {x2 : _} (hk : Keeps b s) : Keeps b (bootAnswer s x1 x2) := by
  unfold bootAnswer; try (conv => zeta)
  repeat' (first | with_reducible exact hk | with_reducible refine resolveCmd_keeps ?_ | split)

theorem responseAccepted_keeps {b : State} {s : State} {x1 : _} {x2 : _} (hk : Keeps b s) : Keeps b (responseAccepted s x1 x2) := by
  unfold responseAccepted; try (conv => zeta)
  repeat' (first | with_reducible exact hk | with_reducible refine roundAnswer_keeps ?_ | with_reducible refine dropCmd_keeps ?_ | with_reducible refine bootAnswer_keeps ?_ | with_reducible refine resolveCmd_keeps ?_ | split)

theorem endOverlap_keeps {b : State} {s : State} {x1 : _} (hk : Keeps b s) : Keeps b (endOverlap s x1) := by
  unfold endOverlap; try (conv => zeta)
  repeat' (first | with_reducible exact hk | with_reducible refine setHKeys_keeps ?_ | split)

theorem responseSet_keeps {b : State} {s : State} {x1 : _} {x2 : _} (hk : Keeps b s) : Keeps b (responseSet s x1 x2) := by
  unfold responseSet; try (conv => zeta)
  repeat' (first | with_reducible exact hk | with_reducible refine ingRefuse_keeps ?_ | with_reducible refine syn_keeps ?_ | with_reducible refine responseAccepted_keeps ?_ | with_reducible refine endOverlap_keeps ?_ | with_reducible refine count_keeps ?_ | split)

theorem execResponseRx_keeps {b : State} {x0 : _} {s : State} {t : State} (h : execResponseRx x0 s = .next t) (hk : Keeps b s) : Keeps b t := by
  unfold execResponseRx at h; try (conv at h => zeta)
  repeat' (first | (with_reducible refine Keeps.next h ?_; clear h) | split at h)
  all_goals repeat' (first | with_reducible exact hk | with_reducible refine drainHeld_keeps ?_ | with_reducible refine promoteSiteKeys_keeps ?_ | with_reducible refine responseSet_keeps ?_ | with_reducible refine takeSet_keeps ?_ | split)

theorem sendRound_keeps {b : State} {s : State} {x1 : _} (hk : Keeps b s) : Keeps b (sendRound s x1) := by
  unfold sendRound; try (conv => zeta)
  repeat' (first | with_reducible exact hk | with_reducible exact Keeps.rfl | with_reducible refine modCmd_keeps ?_ | with_reducible refine sendCmd_keeps ?_ | with_reducible refine Keeps.foldl ?_ ?_ | with_reducible refine Keeps.foldl₂ ?_ ?_ | (intro; intros) | split | (fail_if_no_progress with_reducible refine Keeps.lit rfl rfl rfl rfl rfl rfl rfl ?_))

theorem sendBoot_keeps {b : State} {s : State} {x1 : _} (hk : Keeps b s) : Keeps b (sendBoot s x1) := by
  unfold sendBoot; try (conv => zeta)
  repeat' (first | with_reducible exact hk | with_reducible refine modCmd_keeps ?_ | with_reducible refine sendCmd_keeps ?_ | split)

theorem forgetRounds_keeps {b : State} {s : State} {x1 : _} {x2 : _} (hk : Keeps b s) : Keeps b (forgetRounds s x1 x2) := by
  unfold forgetRounds; try (conv => zeta)
  repeat' (first | with_reducible exact hk | with_reducible refine setCmds_keeps ?_ | split)

theorem retry_keeps {b : State} {s : State} {x1 : _} (hk : Keeps b s) : Keeps b (retry s x1) := by
  unfold retry; try (conv => zeta)
  repeat' (first | with_reducible exact hk | with_reducible refine sendRound_keeps ?_ | with_reducible refine sendBoot_keeps ?_ | with_reducible refine resolveCmd_keeps ?_ | with_reducible refine forgetRounds_keeps ?_ | split)

theorem execResponseTimeout_keeps {b : State} {x0 : _} {x1 : _} {s : State} {t : State} (h : execResponseTimeout x0 x1 s = .next t) (hk : Keeps b s) : Keeps b t := by
  unfold execResponseTimeout at h; try (conv at h => zeta)
  repeat' (first | (with_reducible refine Keeps.next h ?_; clear h) | split at h)
  all_goals repeat' (first | with_reducible exact hk | with_reducible refine promoteSiteKeys_keeps ?_ | with_reducible refine retry_keeps ?_ | split)

theorem cancelPages_keeps {b : State} {s : State} {x1 : _} (hk : Keeps b s) : Keeps b (cancelPages s x1) := by
  unfold cancelPages; try (conv => zeta)
  repeat' (first | with_reducible exact hk | with_reducible exact Keeps.rfl | with_reducible refine cancelChecked_keeps ?_ | with_reducible refine Keeps.foldl ?_ ?_ | with_reducible refine Keeps.foldl₂ ?_ ?_ | (intro; intros) | split | (fail_if_no_progress with_reducible refine Keeps.lit rfl rfl rfl rfl rfl rfl rfl ?_))

theorem cancelChange_keeps {b : State} {s : State} {x1 : _} {x2 : _} (hk : Keeps b s) : Keeps b (cancelChange s x1 x2) := by
  unfold cancelChange; try (conv => zeta)
  repeat' (first | with_reducible exact hk | with_reducible exact Keeps.rfl | with_reducible refine cancelPages_keeps ?_ | with_reducible refine State.send_keeps ?_ | with_reducible refine advance_keeps ?_ | with_reducible refine putJEntry_keeps ?_ | with_reducible refine endEntry_keeps ?_ | with_reducible refine installJob_keeps ?_ | with_reducible refine Keeps.foldl ?_ ?_ | with_reducible refine Keeps.foldl₂ ?_ ?_ | (intro; intros) | split | (fail_if_no_progress with_reducible refine Keeps.lit rfl rfl rfl rfl rfl rfl rfl ?_))

theorem readBack_keeps {b : State} {s : State} {x1 : _} (hk : Keeps b s) : Keeps b (readBack s x1) := by
  unfold readBack; try (conv => zeta)
  repeat' (first | with_reducible exact hk | with_reducible exact Keeps.rfl | with_reducible refine endChange_keeps ?_ | with_reducible refine sendCmd_keeps ?_ | with_reducible refine modEntry_keeps ?_ | with_reducible refine Keeps.foldl ?_ ?_ | with_reducible refine Keeps.foldl₂ ?_ ?_ | (intro; intros) | split | (fail_if_no_progress with_reducible refine Keeps.lit rfl rfl rfl rfl rfl rfl rfl ?_))

theorem commitPoint_keeps {b : State} {s : State} {x1 : _} {x2 : _} (hk : Keeps b s) : Keeps b (commitPoint s x1 x2) := by
  unfold commitPoint; try (conv => zeta)
  repeat' (first | with_reducible exact hk | with_reducible refine readBack_keeps ?_ | with_reducible refine putJEntry_keeps ?_ | with_reducible refine commitHook_keeps ?_ | with_reducible refine cancelChange_keeps ?_ | split)

theorem execCommitPoint_keeps {b : State} {x0 : _} {x1 : _} {s : State} {t : State} (h : execCommitPoint x0 x1 s = .next t) (hk : Keeps b s) : Keeps b t := by
  unfold execCommitPoint at h; try (conv at h => zeta)
  repeat' (first | (with_reducible refine Keeps.next h ?_; clear h) | split at h)
  all_goals repeat' (first | with_reducible exact hk | with_reducible refine commitPoint_keeps ?_ | with_reducible refine promoteSiteKeys_keeps ?_ | split)

theorem resumeJournal_keeps {b : State} {s : State} (hk : Keeps b s) : Keeps b (resumeJournal s) := by
  unfold resumeJournal; try (conv => zeta)
  repeat' (first | with_reducible exact hk | with_reducible exact Keeps.rfl | with_reducible refine sendRound_keeps ?_ | with_reducible refine Keeps.foldl ?_ ?_ | with_reducible refine Keeps.foldl₂ ?_ ?_ | (intro; intros) | split | (fail_if_no_progress with_reducible refine Keeps.lit rfl rfl rfl rfl rfl rfl rfl ?_))

/-! ### Machine/ElecTest -/

theorem setWidth_keeps {b : State} {s : State} {x1 : _} {x2 : _} {x3 : _} (hk : Keeps b s) : Keeps b (setWidth s x1 x2 x3) := by
  unfold setWidth; try (conv => zeta)
  repeat' (first | with_reducible exact hk | with_reducible exact Keeps.rfl | with_reducible refine State.wr_keeps ?_ | with_reducible refine State.bump_keeps ?_ | with_reducible refine Keeps.foldl ?_ ?_ | with_reducible refine Keeps.foldl₂ ?_ ?_ | (intro; intros) | split | (fail_if_no_progress with_reducible refine Keeps.lit rfl rfl rfl rfl rfl rfl rfl ?_))

theorem portTrackersOut_keeps {b : State} {s : State} {x1 : _} (hk : Keeps b s) : Keeps b (portTrackersOut s x1) := by
  unfold portTrackersOut; try (conv => zeta)
  repeat' (first | with_reducible exact hk | with_reducible exact Keeps.rfl | with_reducible refine trackerInvalid_keeps ?_ | with_reducible refine Keeps.foldl ?_ ?_ | with_reducible refine Keeps.foldl₂ ?_ ?_ | (intro; intros) | split | (fail_if_no_progress with_reducible refine Keeps.lit rfl rfl rfl rfl rfl rfl rfl ?_))

theorem tstModeWrite_keeps {b : State} {s : State} {x1 : _} {x2 : _} {x3 : _} (hk : Keeps b s) : Keeps b (tstModeWrite s x1 x2 x3) := by
  unfold tstModeWrite; try (conv => zeta)
  repeat' (first | with_reducible exact hk | with_reducible refine syn_keeps ?_ | with_reducible refine State.wr_keeps ?_ | with_reducible refine setWidth_keeps ?_ | with_reducible refine portTrackersOut_keeps ?_ | split)

theorem execTstModeWrite_keeps {b : State} {x0 : _} {x1 : _} {x2 : _} {s : State} {t : State} (h : execTstModeWrite x0 x1 x2 s = .next t) (hk : Keeps b s) : Keeps b t := by
  unfold execTstModeWrite at h; try (conv at h => zeta)
  repeat' (first | (with_reducible refine Keeps.next h ?_; clear h) | split at h)
  all_goals repeat' (first | with_reducible exact hk | with_reducible refine tstModeWrite_keeps ?_ | with_reducible refine syn_keeps ?_ | split)

theorem tstInject_keeps {b : State} {s : State} {x1 : _} (hk : Keeps b s) : Keeps b (tstInject s x1) := by
  unfold tstInject; try (conv => zeta)
  repeat' (first | with_reducible exact hk | with_reducible refine State.send_keeps ?_ | split)

theorem bitsSince_keeps {b : State} {s : State} {x1 : _} {x2 : _} (hk : Keeps b s) : Keeps b (bitsSince s x1 x2).1 := by
  unfold bitsSince; try (conv => zeta)
  repeat' (first | with_reducible exact hk | with_reducible refine State.free_keeps ?_ | split)

theorem setLockedAt_keeps {b : State} {s : State} {x1 : _} {x2 : _} {x3 : _} (hk : Keeps b s) : Keeps b (setLockedAt s x1 x2 x3) := by
  unfold setLockedAt; try (conv => zeta)
  repeat' (first | with_reducible exact hk | with_reducible exact Keeps.rfl | with_reducible refine Keeps.foldl ?_ ?_ | with_reducible refine Keeps.foldl₂ ?_ ?_ | (intro; intros) | split | (fail_if_no_progress with_reducible refine Keeps.lit rfl rfl rfl rfl rfl rfl rfl ?_))

theorem foldBits_keeps {b : State} {s : State} {x1 : _} {x2 : _} (hk : Keeps b s) : Keeps b (foldBits s x1 x2) := by
  unfold foldBits; try (conv => zeta)
  repeat' (first | with_reducible exact hk | with_reducible refine bitsSince_keeps ?_ | with_reducible refine setLockedAt_keeps ?_ | with_reducible refine State.incr_keeps ?_ | split)

theorem unlockChecker_keeps {b : State} {s : State} {x1 : _} {x2 : _} (hk : Keeps b s) : Keeps b (unlockChecker s x1 x2) := by
  unfold unlockChecker; try (conv => zeta)
  repeat' (first | with_reducible exact hk | with_reducible refine State.wr_keeps ?_ | with_reducible refine setLockedAt_keeps ?_ | with_reducible refine foldBits_keeps ?_ | split)

theorem tstClear_keeps {b : State} {s : State} {x1 : _} (hk : Keeps b s) : Keeps b (tstClear s x1) := by
  unfold tstClear; try (conv => zeta)
  repeat' (first | with_reducible exact hk | with_reducible refine State.wr_keeps ?_ | with_reducible refine foldBits_keeps ?_ | split)

theorem tstGenWrite_keeps {b : State} {s : State} {x1 : _} {x2 : _} {x3 : _} (hk : Keeps b s) : Keeps b (tstGenWrite s x1 x2 x3) := by
  unfold tstGenWrite; try (conv => zeta)
  repeat' (first | with_reducible exact hk | with_reducible refine syn_keeps ?_ | with_reducible refine State.wr_keeps ?_ | with_reducible refine tstInject_keeps ?_ | split)

theorem tstChkWrite_keeps {b : State} {s : State} {x1 : _} {x2 : _} {x3 : _} (hk : Keeps b s) : Keeps b (tstChkWrite s x1 x2 x3) := by
  unfold tstChkWrite; try (conv => zeta)
  repeat' (first | with_reducible exact hk | with_reducible refine syn_keeps ?_ | with_reducible refine unlockChecker_keeps ?_ | with_reducible refine State.wr_keeps ?_ | with_reducible refine tstClear_keeps ?_ | split)

theorem execInject_keeps {b : State} {x0 : _} {x1 : _} {s : State} {t : State} (h : execInject x0 x1 s = .next t) (hk : Keeps b s) : Keeps b t := by
  unfold execInject at h; try (conv at h => zeta)
  repeat' (first | (with_reducible refine Keeps.next h ?_; clear h) | split at h)
  all_goals repeat' (first | with_reducible exact hk | with_reducible refine syn_keeps ?_ | with_reducible refine tstInject_keeps ?_ | split)

theorem execClear_keeps {b : State} {x0 : _} {x1 : _} {s : State} {t : State} (h : execClear x0 x1 s = .next t) (hk : Keeps b s) : Keeps b t := by
  unfold execClear at h; try (conv at h => zeta)
  repeat' (first | (with_reducible refine Keeps.next h ?_; clear h) | split at h)
  all_goals repeat' (first | with_reducible exact hk | with_reducible refine syn_keeps ?_ | with_reducible refine tstClear_keeps ?_ | split)

theorem execCheckerLocked_keeps {b : State} {x0 : _} {x1 : _} {x2 : _} {x3 : _} {s : State} {t : State} (h : execCheckerLocked x0 x1 x2 x3 s = .next t) (hk : Keeps b s) : Keeps b t := by
  unfold execCheckerLocked at h; try (conv at h => zeta)
  repeat' (first | (with_reducible refine Keeps.next h ?_; clear h) | split at h)
  all_goals repeat' (first | with_reducible exact hk | with_reducible refine setLockedAt_keeps ?_ | with_reducible refine State.wr_keeps ?_ | split)

theorem execLockLost_keeps {b : State} {x0 : _} {x1 : _} {x2 : _} {x3 : _} {x4 : _} {s : State} {t : State} (h : execLockLost x0 x1 x2 x3 x4 s = .next t) (hk : Keeps b s) : Keeps b t := by
  unfold execLockLost at h; try (conv at h => zeta)
  repeat' (first | (with_reducible refine Keeps.next h ?_; clear h) | split at h)
  all_goals repeat' (first | with_reducible exact hk | with_reducible refine raise_keeps ?_ | with_reducible refine State.bump_keeps ?_ | with_reducible refine unlockChecker_keeps ?_ | split)

theorem execLaneAlignment_keeps {b : State} {x0 : _} {x1 : _} {x2 : _} {s : State} {t : State} (h : execLaneAlignment x0 x1 x2 s = .next t) (hk : Keeps b s) : Keeps b t := by
  unfold execLaneAlignment at h; try (conv at h => zeta)
  repeat' (first | (with_reducible refine Keeps.next h ?_; clear h) | split at h)
  all_goals repeat' (first | with_reducible exact hk | with_reducible exact Keeps.rfl | with_reducible refine State.wr_keeps ?_ | with_reducible refine Keeps.foldl ?_ ?_ | with_reducible refine Keeps.foldl₂ ?_ ?_ | (intro; intros) | split | (fail_if_no_progress with_reducible refine Keeps.lit rfl rfl rfl rfl rfl rfl rfl ?_))

theorem freeFld_keeps {b : State} {s : State} {x1 : _} {x2 : _} {x3 : _} (hk : Keeps b s) : Keeps b (freeFld s x1 x2 x3) := by
  unfold freeFld; try (conv => zeta)
  repeat' (first | with_reducible exact hk | with_reducible refine State.free_keeps ?_ | with_reducible refine State.wr_keeps ?_ | split)

theorem freeTallyCells_keeps {b : State} {s : State} {x1 : _} (hk : Keeps b s) : Keeps b (freeTallyCells s x1) := by
  unfold freeTallyCells; try (conv => zeta)
  repeat' (first | with_reducible exact hk | with_reducible exact Keeps.rfl | with_reducible refine freeFld_keeps ?_ | with_reducible refine Keeps.foldl ?_ ?_ | with_reducible refine Keeps.foldl₂ ?_ ?_ | (intro; intros) | split | (fail_if_no_progress with_reducible refine Keeps.lit rfl rfl rfl rfl rfl rfl rfl ?_))

theorem execTlyTestMode_keeps {b s : State} {t : State} (h : execTlyTestMode s = .next t) (hk : Keeps b s) : Keeps b t := by
  have hu : Keeps b (freeTallyCells s 4096) := freeTallyCells_keeps hk
  unfold execTlyTestMode at h
  generalize freeTallyCells s 4096 = u at h hu
  cases h
  exact Keeps.lit (s := u) (Eq.refl _) (Eq.refl _) (Eq.refl _) (Eq.refl _) (Eq.refl _) (Eq.refl _) (Eq.refl _) hu

/-! ### Machine/Boot -/

theorem setState_keeps {b : State} {s : State} {x1 : _} {x2 : _} {x3 : _} {x4 : _} (hk : Keeps b s) : Keeps b (setState s x1 x2 x3 x4) := by
  unfold setState; try (conv => zeta)
  repeat' (first | with_reducible exact hk | with_reducible refine State.wr_keeps ?_ | split)

theorem wrCab_keeps {b : State} {s : State} {x1 : _} {x2 : _} (hk : Keeps b s) : Keeps b (wrCab s x1 x2) := by
  unfold wrCab; try (conv => zeta)
  repeat' (first | with_reducible exact hk | with_reducible refine State.wr_keeps ?_ | split)

theorem packageReset_keeps {b s : State} (hk : Keeps b s) : Keeps b (packageReset s) :=
  hk.trans ⟨Eq.refl _, fun h => h.filter _, fun _ => JournalIds.fresh (Eq.refl _) (Eq.refl _), fun _ => Eq.refl _,
    fun _ _ h => absurd h List.not_mem_nil⟩

theorem powerOn_keeps {b s : State} (hk : Keeps b s) : Keeps b (powerOn s) :=
  hk.trans ⟨Eq.refl _, fun h => h.filter _, fun _ => JournalIds.fresh (Eq.refl _) (Eq.refl _), fun _ => Eq.refl _,
    fun _ _ h => absurd h List.not_mem_nil⟩

theorem enterSafe_keeps {b : State} {s : State} {x1 : _} {x2 : _} (hk : Keeps b s) : Keeps b (enterSafe s x1 x2) := by
  unfold enterSafe; try (conv => zeta)
  repeat' (first | with_reducible exact hk | with_reducible refine setState_keeps ?_ | split)

theorem boardSection_keeps {b : State} {s : State} {x1 : _} (hk : Keeps b s) : Keeps b (boardSection s x1) := by
  unfold boardSection; try (conv => zeta)
  repeat' (first | with_reducible exact hk | with_reducible exact Keeps.rfl | with_reducible refine wrCab_keeps ?_ | with_reducible refine State.wr_keeps ?_ | with_reducible refine Keeps.foldl ?_ ?_ | with_reducible refine Keeps.foldl₂ ?_ ?_ | (intro; intros) | split | (fail_if_no_progress with_reducible refine Keeps.lit rfl rfl rfl rfl rfl rfl rfl ?_))

theorem bootDies_keeps {b : State} {s : State} {x1 : _} {x2 : _} (hk : Keeps b s) : Keeps b (bootDies s x1 x2) := by
  unfold bootDies; try (conv => zeta)
  repeat' (first | with_reducible exact hk | with_reducible exact Keeps.rfl | with_reducible refine enterSafe_keeps ?_ | with_reducible refine wrCab_keeps ?_ | with_reducible refine State.wr_keeps ?_ | with_reducible refine retireTile_keeps ?_ | with_reducible refine setState_keeps ?_ | with_reducible refine Keeps.foldl ?_ ?_ | with_reducible refine Keeps.foldl₂ ?_ ?_ | (intro; intros) | split | (fail_if_no_progress with_reducible refine Keeps.lit rfl rfl rfl rfl rfl rfl rfl ?_))

theorem takeIndex_keeps {b : State} {s : State} {x1 : _} {x2 : _} {x3 : _} (hk : Keeps b s) : Keeps b (takeIndex s x1 x2 x3) := by
  unfold takeIndex; try (conv => zeta)
  repeat' (first | with_reducible exact hk | with_reducible exact Keeps.rfl | with_reducible refine enterSafe_keeps ?_ | with_reducible refine wrCab_keeps ?_ | with_reducible refine bootDies_keeps ?_ | with_reducible refine Keeps.foldl ?_ ?_ | with_reducible refine Keeps.foldl₂ ?_ ?_ | ((with_reducible refine Keeps.iteOver ?_ ?_); focus (simp only [Keeps.rfl, ↓enterSafe_keeps, ↓wrCab_keeps, ↓bootDies_keeps]; done)) | ((with_reducible refine Keeps.iteUnder ?_ ?_); focus (simp only [Keeps.rfl, ↓enterSafe_keeps, ↓wrCab_keeps, ↓bootDies_keeps]; done)) | with_reducible refine Keeps.ite ?_ ?_ | (intro; intros) | (split <;> (rename_i heq; with_reducible have e := congrArg Prod.fst heq; with_reducible dsimp only at e; with_reducible subst e)) | split | (fail_if_no_progress with_reducible refine Keeps.lit rfl rfl rfl rfl rfl rfl rfl ?_))

theorem bootChain_keeps {b : State} {s : State} {x1 : _} {x2 : _} (hk : Keeps b s) : Keeps b (bootChain s x1 x2) := by
  unfold bootChain; try (conv => zeta)
  repeat' (first | with_reducible exact hk | with_reducible exact Keeps.rfl | with_reducible refine takeIndex_keeps ?_ | with_reducible refine enterSafe_keeps ?_ | with_reducible refine setState_keeps ?_ | with_reducible refine Keeps.foldl ?_ ?_ | with_reducible refine Keeps.foldl₂ ?_ ?_ | ((with_reducible refine Keeps.iteOver ?_ ?_); focus (simp only [Keeps.rfl, ↓takeIndex_keeps, ↓enterSafe_keeps, ↓setState_keeps]; done)) | ((with_reducible refine Keeps.iteUnder ?_ ?_); focus (simp only [Keeps.rfl, ↓takeIndex_keeps, ↓enterSafe_keeps, ↓setState_keeps]; done)) | with_reducible refine Keeps.ite ?_ ?_ | (intro; intros) | (split <;> (rename_i heq; with_reducible have e := congrArg Prod.fst heq; with_reducible dsimp only at e; with_reducible subst e)) | split | (fail_if_no_progress with_reducible refine Keeps.lit rfl rfl rfl rfl rfl rfl rfl ?_))

theorem runBoot_keeps {b : State} {s : State} {x1 : _} (hk : Keeps b s) : Keeps b (runBoot s x1) := by
  unfold runBoot; try (conv => zeta)
  repeat' (first | with_reducible exact hk | with_reducible exact Keeps.rfl | (with_reducible refine setCabinet_keeps rfl rfl rfl ?_) | (with_reducible refine setCabinet_journal_keeps (fun _ => JournalIds.fresh rfl rfl) ?_) | (with_reducible refine setCabinet_keeps rfl rfl rfl ?_) | with_reducible refine State.wr_keeps ?_ | with_reducible refine setState_keeps ?_ | with_reducible refine boardSection_keeps ?_ | with_reducible refine cabEntry_keeps ?_ | with_reducible refine bootChain_keeps ?_ | with_reducible refine Keeps.foldl ?_ ?_ | with_reducible refine Keeps.foldl₂ ?_ ?_ | ((with_reducible refine Keeps.iteOver ?_ ?_); focus (simp only [Keeps.rfl, ↓setCabinet_keeps, ↓State.wr_keeps, ↓setState_keeps, ↓boardSection_keeps, ↓cabEntry_keeps, ↓bootChain_keeps]; done)) | ((with_reducible refine Keeps.iteUnder ?_ ?_); focus (simp only [Keeps.rfl, ↓setCabinet_keeps, ↓State.wr_keeps, ↓setState_keeps, ↓boardSection_keeps, ↓cabEntry_keeps, ↓bootChain_keeps]; done)) | with_reducible refine Keeps.ite ?_ ?_ | (intro; intros) | (split <;> (rename_i heq; with_reducible have e := congrArg Prod.fst heq; with_reducible dsimp only at e; with_reducible subst e)) | split | (fail_if_no_progress with_reducible refine Keeps.lit rfl rfl rfl rfl rfl rfl rfl ?_))

theorem execHubPor_keeps {b : State} {x0 : _} {s : State} {t : State} (h : execHubPor x0 s = .next t) (hk : Keeps b s) : Keeps b t := by
  unfold execHubPor at h; try (conv at h => zeta)
  repeat' (first | (with_reducible refine Keeps.next h ?_; clear h) | split at h)
  all_goals repeat' (first | with_reducible exact hk | with_reducible refine runBoot_keeps ?_ | with_reducible refine powerOn_keeps ?_ | split)

theorem execHubReset_keeps {b : State} {x0 : _} {s : State} {t : State} (h : execHubReset x0 s = .next t) (hk : Keeps b s) : Keeps b t := by
  unfold execHubReset at h; try (conv at h => zeta)
  repeat' (first | (with_reducible refine Keeps.next h ?_; clear h) | split at h)
  all_goals repeat' (first | with_reducible exact hk | with_reducible refine runBoot_keeps ?_ | with_reducible refine packageReset_keeps ?_ | split)

theorem execChainFrame_keeps {b : State} {x0 : _} {x1 : _} {s : State} {t : State} (h : execChainFrame x0 x1 s = .next t) (hk : Keeps b s) : Keeps b t := by
  unfold execChainFrame at h; try (conv at h => zeta)
  repeat' (first | (with_reducible refine Keeps.next h ?_; clear h) | split at h)
  all_goals repeat' (first | with_reducible exact hk | with_reducible refine takeIndex_keeps ?_ | with_reducible refine raise_keeps ?_ | split)

theorem execChainEnumTx_keeps {b : State} {s : State} {t : State} (h : execChainEnumTx s = .next t) (hk : Keeps b s) : Keeps b t := by
  unfold execChainEnumTx at h; try (conv at h => zeta)
  repeat' (first | (with_reducible refine Keeps.next h ?_; clear h) | split at h)
  all_goals repeat' (first | with_reducible exact hk | with_reducible refine State.send_keeps ?_ | (with_reducible refine setCabinet_keeps rfl rfl rfl ?_) | split)

theorem execHeartbeatTx_keeps {b : State} {s : State} {t : State} (h : execHeartbeatTx s = .next t) (hk : Keeps b s) : Keeps b t := by
  unfold execHeartbeatTx at h; try (conv at h => zeta)
  repeat' (first | (with_reducible refine Keeps.next h ?_; clear h) | split at h)
  all_goals repeat' (first | with_reducible exact hk | with_reducible refine State.send_keeps ?_ | (with_reducible refine setCabinet_keeps rfl rfl rfl ?_) | split)

theorem takeOver_keeps {b : State} {s : State} {x1 : _} (hk : Keeps b s) : Keeps b (takeOver s x1) := by
  unfold takeOver; try (conv => zeta)
  repeat' (first | with_reducible exact hk | with_reducible refine setState_keeps ?_ | (with_reducible refine setCabinet_keeps rfl rfl rfl ?_) | with_reducible refine resumeJournal_keeps ?_ | with_reducible refine raise_keeps ?_ | with_reducible refine State.bump_keeps ?_ | split)

theorem execTakeover_keeps {b : State} {x0 : _} {s : State} {t : State} (h : execTakeover x0 s = .next t) (hk : Keeps b s) : Keeps b t := by
  unfold execTakeover at h; try (conv at h => zeta)
  repeat' (first | (with_reducible refine Keeps.next h ?_; clear h) | split at h)
  all_goals repeat' (first | with_reducible exact hk | with_reducible refine takeOver_keeps ?_ | split)

theorem cabCtrlWrite_keeps {b : State} {s : State} {x1 : _} {x2 : _} {x3 : _} {x4 : _} {x5 : _} (hk : Keeps b s) : Keeps b (cabCtrlWrite s x1 x2 x3 x4 x5) := by
  unfold cabCtrlWrite; try (conv => zeta)
  repeat' (first | with_reducible exact hk | with_reducible refine syn_keeps ?_ | with_reducible refine takeOver_keeps ?_ | with_reducible refine runBoot_keeps ?_ | with_reducible refine packageReset_keeps ?_ | split)

theorem execCabSwitchover_keeps {b : State} {x0 : _} {x1 : _} {x2 : _} {x3 : _} {s : State} {t : State} (h : execCabSwitchover x0 x1 x2 x3 s = .next t) (hk : Keeps b s) : Keeps b t := by
  unfold execCabSwitchover at h; try (conv at h => zeta)
  repeat' (first | (with_reducible refine Keeps.next h ?_; clear h) | split at h)
  all_goals repeat' (first | with_reducible exact hk | with_reducible refine cabCtrlWrite_keeps ?_ | with_reducible refine syn_keeps ?_ | split)

theorem execResetPkg_keeps {b : State} {x0 : _} {x1 : _} {x2 : _} {x3 : _} {s : State} {t : State} (h : execResetPkg x0 x1 x2 x3 s = .next t) (hk : Keeps b s) : Keeps b t := by
  unfold execResetPkg at h; try (conv at h => zeta)
  repeat' (first | (with_reducible refine Keeps.next h ?_; clear h) | split at h)
  all_goals repeat' (first | with_reducible exact hk | with_reducible refine cabCtrlWrite_keeps ?_ | with_reducible refine syn_keeps ?_ | split)

theorem setPeer_keeps {b : State} {s : State} {x1 : _} {x2 : _} (hk : Keeps b s) : Keeps b (setPeer s x1 x2) := by
  unfold setPeer; try (conv => zeta)
  repeat' (first | with_reducible exact hk | with_reducible exact Keeps.rfl | with_reducible refine Keeps.foldl ?_ ?_ | with_reducible refine Keeps.foldl₂ ?_ ?_ | ((with_reducible refine Keeps.iteOver ?_ ?_); focus (simp only [Keeps.rfl]; done)) | ((with_reducible refine Keeps.iteUnder ?_ ?_); focus (simp only [Keeps.rfl]; done)) | with_reducible refine Keeps.ite ?_ ?_ | (intro; intros) | (split <;> (rename_i heq; with_reducible have e := congrArg Prod.fst heq; with_reducible dsimp only at e; with_reducible subst e)) | split | (fail_if_no_progress with_reducible refine Keeps.lit rfl rfl rfl rfl rfl rfl rfl ?_))

theorem execPeerHelloTx_keeps {b : State} {x0 : _} {s : State} {t : State} (h : execPeerHelloTx x0 s = .next t) (hk : Keeps b s) : Keeps b t := by
  unfold execPeerHelloTx at h; try (conv at h => zeta)
  repeat' (first | (with_reducible refine Keeps.next h ?_; clear h) | split at h)
  all_goals repeat' (first | with_reducible exact hk | with_reducible refine sendOn_keeps ?_ | with_reducible refine setPeer_keeps ?_ | split)

theorem peerLost_keeps {b : State} {s : State} {x1 : _} (hk : Keeps b s) : Keeps b (peerLost s x1) := by
  unfold peerLost; try (conv => zeta)
  repeat' (first | with_reducible exact hk | with_reducible exact Keeps.rfl | with_reducible refine partitionFault_keeps ?_ | with_reducible refine Keeps.foldl ?_ ?_ | with_reducible refine Keeps.foldl₂ ?_ ?_ | ((with_reducible refine Keeps.iteOver ?_ ?_); focus (simp only [Keeps.rfl, ↓partitionFault_keeps]; done)) | ((with_reducible refine Keeps.iteUnder ?_ ?_); focus (simp only [Keeps.rfl, ↓partitionFault_keeps]; done)) | with_reducible refine Keeps.ite ?_ ?_ | (intro; intros) | (split <;> (rename_i heq; with_reducible have e := congrArg Prod.fst heq; with_reducible dsimp only at e; with_reducible subst e)) | split | (fail_if_no_progress with_reducible refine Keeps.lit rfl rfl rfl rfl rfl rfl rfl ?_))

theorem peerHelloIn_keeps {b : State} {s : State} {x1 : _} {x2 : _} {x3 : _} {x4 : _} {x5 : _} (hk : Keeps b s) : Keeps b (peerHelloIn s x1 x2 x3 x4 x5) := by
  unfold peerHelloIn; try (conv => zeta)
  repeat' (first | with_reducible exact hk | with_reducible refine setPeer_keeps ?_ | with_reducible refine cabEntry_keeps ?_ | with_reducible refine peerLost_keeps ?_ | split)

theorem execPeerHello_keeps {b : State} {x0 : _} {x1 : _} {x2 : _} {x3 : _} {s : State} {t : State} (h : execPeerHello x0 x1 x2 x3 s = .next t) (hk : Keeps b s) : Keeps b t := by
  unfold execPeerHello at h; try (conv at h => zeta)
  repeat' (first | (with_reducible refine Keeps.next h ?_; clear h) | split at h)
  all_goals repeat' (first | with_reducible exact hk | with_reducible refine discardFrame_keeps ?_ | with_reducible refine peerHelloIn_keeps ?_ | split)

theorem execPeerHelloLoss_keeps {b : State} {x0 : _} {s : State} {t : State} (h : execPeerHelloLoss x0 s = .next t) (hk : Keeps b s) : Keeps b t := by
  unfold execPeerHelloLoss at h; try (conv at h => zeta)
  repeat' (first | (with_reducible refine Keeps.next h ?_; clear h) | split at h)
  all_goals repeat' (first | with_reducible exact hk | with_reducible refine setPeer_keeps ?_ | with_reducible refine peerLost_keeps ?_ | split)

theorem moduleDown_keeps {b : State} {s : State} {x1 : _} {x2 : _} (hk : Keeps b s) : Keeps b (moduleDown s x1 x2) := by
  unfold moduleDown; try (conv => zeta)
  repeat' (first | with_reducible exact hk | with_reducible refine cabEntry_keeps ?_ | with_reducible refine enterSafe_keeps ?_ | with_reducible refine packageReset_keeps ?_ | split)

theorem halfFail_keeps {b : State} {s : State} {x1 : _} {x2 : _} {x3 : _} (hk : Keeps b s) : Keeps b (halfFail s x1 x2 x3) := by
  unfold halfFail; try (conv => zeta)
  repeat' (first | with_reducible exact hk | with_reducible exact Keeps.rfl | with_reducible refine State.wr_keeps ?_ | with_reducible refine setWidth_keeps ?_ | with_reducible refine raise_keeps ?_ | with_reducible refine moduleDown_keeps ?_ | with_reducible refine Keeps.foldl ?_ ?_ | with_reducible refine Keeps.foldl₂ ?_ ?_ | ((with_reducible refine Keeps.iteOver ?_ ?_); focus (simp only [Keeps.rfl, ↓State.wr_keeps, ↓setWidth_keeps, ↓raise_keeps, ↓moduleDown_keeps]; done)) | ((with_reducible refine Keeps.iteUnder ?_ ?_); focus (simp only [Keeps.rfl, ↓State.wr_keeps, ↓setWidth_keeps, ↓raise_keeps, ↓moduleDown_keeps]; done)) | with_reducible refine Keeps.ite ?_ ?_ | (intro; intros) | (split <;> (rename_i heq; with_reducible have e := congrArg Prod.fst heq; with_reducible dsimp only at e; with_reducible subst e)) | split | (fail_if_no_progress with_reducible refine Keeps.lit rfl rfl rfl rfl rfl rfl rfl ?_))

theorem execHalfFail_keeps {b : State} {x0 : _} {x1 : _} {x2 : _} {s : State} {t : State} (h : execHalfFail x0 x1 x2 s = .next t) (hk : Keeps b s) : Keeps b t := by
  unfold execHalfFail at h; try (conv at h => zeta)
  repeat' (first | (with_reducible refine Keeps.next h ?_; clear h) | split at h)
  all_goals repeat' (first | with_reducible exact hk | with_reducible refine halfFail_keeps ?_ | split)

/-! ### Machine/Bureau -/

theorem setStore_keeps {b : State} {s : State} {x1 : _} {x2 : _} (hk : Keeps b s) : Keeps b (setStore s x1 x2) := by
  unfold setStore; try (conv => zeta)
  repeat' (first | with_reducible exact hk | with_reducible exact Keeps.rfl | with_reducible refine Keeps.foldl ?_ ?_ | with_reducible refine Keeps.foldl₂ ?_ ?_ | ((with_reducible refine Keeps.iteOver ?_ ?_); focus (simp only [Keeps.rfl]; done)) | ((with_reducible refine Keeps.iteUnder ?_ ?_); focus (simp only [Keeps.rfl]; done)) | with_reducible refine Keeps.ite ?_ ?_ | (intro; intros) | (split <;> (rename_i heq; with_reducible have e := congrArg Prod.fst heq; with_reducible dsimp only at e; with_reducible subst e)) | split | (fail_if_no_progress with_reducible refine Keeps.lit rfl rfl rfl rfl rfl rfl rfl ?_))

theorem setLeapDone_keeps {b : State} {s : State} {x1 : _} {x2 : _} (hk : Keeps b s) : Keeps b (setLeapDone s x1 x2) := by
  unfold setLeapDone; try (conv => zeta)
  repeat' (first | with_reducible exact hk | with_reducible exact Keeps.rfl | with_reducible refine Keeps.foldl ?_ ?_ | with_reducible refine Keeps.foldl₂ ?_ ?_ | ((with_reducible refine Keeps.iteOver ?_ ?_); focus (simp only [Keeps.rfl]; done)) | ((with_reducible refine Keeps.iteUnder ?_ ?_); focus (simp only [Keeps.rfl]; done)) | with_reducible refine Keeps.ite ?_ ?_ | (intro; intros) | (split <;> (rename_i heq; with_reducible have e := congrArg Prod.fst heq; with_reducible dsimp only at e; with_reducible subst e)) | split | (fail_if_no_progress with_reducible refine Keeps.lit rfl rfl rfl rfl rfl rfl rfl ?_))

theorem spill_keeps {b : State} {s : State} {x1 : _} (hk : Keeps b s) : Keeps b (spill s x1) := by
  unfold spill; try (conv => zeta)
  repeat' (first | with_reducible exact hk | with_reducible refine hbmWrite_keeps ?_ | split)

theorem burEvents_keeps {b : State} {s : State} {x1 : _} (hk : Keeps b s) : Keeps b (burEvents s x1) := by
  unfold burEvents; try (conv => zeta)
  repeat' (first | with_reducible exact hk | with_reducible exact Keeps.rfl | with_reducible refine State.send_keeps ?_ | with_reducible refine Keeps.foldl ?_ ?_ | with_reducible refine Keeps.foldl₂ ?_ ?_ | ((with_reducible refine Keeps.iteOver ?_ ?_); focus (simp only [Keeps.rfl, ↓State.send_keeps]; done)) | ((with_reducible refine Keeps.iteUnder ?_ ?_); focus (simp only [Keeps.rfl, ↓State.send_keeps]; done)) | with_reducible refine Keeps.ite ?_ ?_ | (intro; intros) | (split <;> (rename_i heq; with_reducible have e := congrArg Prod.fst heq; with_reducible dsimp only at e; with_reducible subst e)) | split | (fail_if_no_progress with_reducible refine Keeps.lit rfl rfl rfl rfl rfl rfl rfl ?_))

theorem place_keeps {b : State} {s : State} {x1 : _} {x2 : _} (hk : Keeps b s) : Keeps b (place s x1 x2) := by
  unfold place; try (conv => zeta)
  repeat' (first | with_reducible exact hk | with_reducible refine State.incr_keeps ?_ | with_reducible refine setStore_keeps ?_ | with_reducible refine burEvents_keeps ?_ | with_reducible refine spill_keeps ?_ | with_reducible refine raise_keeps ?_ | with_reducible refine setLeapDone_keeps ?_ | split)

theorem storePost_keeps {b : State} {s : State} {x1 : _} {x2 : _} (hk : Keeps b s) : Keeps b (storePost s x1 x2) := by
  unfold storePost; try (conv => zeta)
  repeat' (first | with_reducible exact hk | with_reducible refine place_keeps ?_ | with_reducible refine raise_keeps ?_ | with_reducible refine State.bump_keeps ?_ | with_reducible refine setStore_keeps ?_ | split)

theorem nextPost_keeps {b s : State} {x1 : Part} {t : State} {r : _} (h : nextPost s x1 = some (r, t)) (hk : Keeps b s) : Keeps b t := by
  unfold nextPost at h
  split at h <;> split at h <;> cases h
  · exact Keeps.plain (s := s) (Eq.refl _) (Eq.refl _) (Eq.refl _) (Eq.refl _) (Eq.refl _) (Eq.refl _) (Eq.refl _) hk
  · exact Keeps.plain (s := s) (Eq.refl _) (Eq.refl _) (Eq.refl _) (Eq.refl _) (Eq.refl _) (Eq.refl _) (Eq.refl _) hk

theorem execBureauPost_keeps {b : State} {x0 : _} {s : State} {t : State} (h : execBureauPost x0 s = .next t) (hk : Keeps b s) : Keeps b t := by
  unfold execBureauPost at h; try (conv at h => zeta)
  repeat' (first | (with_reducible refine Keeps.next h ?_; clear h) | split at h)
  all_goals repeat' (first | with_reducible exact hk | with_reducible refine nextPost_keeps (by assumption) ?_ | with_reducible refine storePost_keeps ?_ | split)

theorem burLookup_keeps {b : State} {s : State} {x1 : _} {x2 : _} {x3 : _} (hk : Keeps b s) : Keeps b (burLookup s x1 x2 x3) := by
  unfold burLookup; try (conv => zeta)
  repeat' (first | with_reducible exact hk | with_reducible refine State.wr_keeps ?_ | split)

theorem execBureauLookup_keeps {b : State} {x0 : _} {x1 : _} {x2 : _} {s : State} {t : State} (h : execBureauLookup x0 x1 x2 s = .next t) (hk : Keeps b s) : Keeps b t := by
  unfold execBureauLookup at h; try (conv at h => zeta)
  repeat' (first | (with_reducible refine Keeps.next h ?_; clear h) | split at h)
  all_goals repeat' (first | with_reducible exact hk | with_reducible refine burLookup_keeps ?_ | split)

theorem captureEntry_keeps {b : State} {s : State} {x1 : _} {x2 : _} {x3 : _} (hk : Keeps b s) : Keeps b (captureEntry s x1 x2 x3) := by
  unfold captureEntry; try (conv => zeta)
  repeat' (first | with_reducible exact hk | with_reducible exact Keeps.rfl | with_reducible refine State.wr_keeps ?_ | with_reducible refine Keeps.foldl ?_ ?_ | with_reducible refine Keeps.foldl₂ ?_ ?_ | ((with_reducible refine Keeps.iteOver ?_ ?_); focus (simp only [Keeps.rfl, ↓State.wr_keeps]; done)) | ((with_reducible refine Keeps.iteUnder ?_ ?_); focus (simp only [Keeps.rfl, ↓State.wr_keeps]; done)) | with_reducible refine Keeps.ite ?_ ?_ | (intro; intros) | (split <;> (rename_i heq; with_reducible have e := congrArg Prod.fst heq; with_reducible dsimp only at e; with_reducible subst e)) | split | (fail_if_no_progress with_reducible refine Keeps.lit rfl rfl rfl rfl rfl rfl rfl ?_))

theorem execBureauLookupDone_keeps {b : State} {x0 : _} {x1 : _} {s : State} {t : State} (h : execBureauLookupDone x0 x1 s = .next t) (hk : Keeps b s) : Keeps b t := by
  unfold execBureauLookupDone at h; try (conv at h => zeta)
  repeat' (first | (with_reducible refine Keeps.next h ?_; clear h) | split at h)
  all_goals repeat' (first | with_reducible exact hk | with_reducible refine State.wr_keeps ?_ | with_reducible refine captureEntry_keeps ?_ | split)

theorem firmwarePost_keeps {b : State} {s : State} {x1 : _} {x2 : _} {x3 : _} {x4 : _} (hk : Keeps b s) : Keeps b (firmwarePost s x1 x2 x3 x4) := by
  unfold firmwarePost; try (conv => zeta)
  repeat' (first | with_reducible exact hk | with_reducible refine syn_keeps ?_ | with_reducible refine post_keeps ?_ | split)

theorem execFirmwarePost_keeps {b : State} {x0 : _} {x1 : _} {x2 : _} {x3 : _} {s : State} {t : State} (h : execFirmwarePost x0 x1 x2 x3 s = .next t) (hk : Keeps b s) : Keeps b t := by
  unfold execFirmwarePost at h; try (conv at h => zeta)
  repeat' (first | (with_reducible refine Keeps.next h ?_; clear h) | split at h)
  all_goals repeat' (first | with_reducible exact hk | with_reducible refine firmwarePost_keeps ?_ | with_reducible refine syn_keeps ?_ | split)

/-! ### Machine/Tape -/

theorem setTap_keeps {b : State} {s : State} {x1 : _} {x2 : _} (hk : Keeps b s) : Keeps b (setTap s x1 x2) := by
  unfold setTap; try (conv => zeta)
  repeat' (first | with_reducible exact hk | with_reducible exact Keeps.rfl | with_reducible refine Keeps.foldl ?_ ?_ | with_reducible refine Keeps.foldl₂ ?_ ?_ | ((with_reducible refine Keeps.iteOver ?_ ?_); focus (simp only [Keeps.rfl]; done)) | ((with_reducible refine Keeps.iteUnder ?_ ?_); focus (simp only [Keeps.rfl]; done)) | with_reducible refine Keeps.ite ?_ ?_ | (intro; intros) | (split <;> (rename_i heq; with_reducible have e := congrArg Prod.fst heq; with_reducible dsimp only at e; with_reducible subst e)) | split | (fail_if_no_progress with_reducible refine Keeps.lit rfl rfl rfl rfl rfl rfl rfl ?_))

theorem putEntry_keeps {b : State} {s : State} {x1 : _} {x2 : _} {x3 : _} {x4 : _} (hk : Keeps b s) : Keeps b (putEntry s x1 x2 x3 x4) := by
  unfold putEntry; try (conv => zeta)
  repeat' (first | with_reducible exact hk | with_reducible refine hbmWrite_keeps ?_ | split)

theorem markerEntry_keeps {b : State} {s : State} {x1 : _} {x2 : _} (hk : Keeps b s) : Keeps b (markerEntry s x1 x2).1 := by
  unfold markerEntry; try (conv => zeta)
  repeat' (first | with_reducible exact hk | with_reducible refine State.free_keeps ?_ | split)

theorem putStream_keeps {b : State} {s : State} {x1 : _} (hk : Keeps b s) : Keeps b (putStream s x1) := by
  unfold putStream; try (conv => zeta)
  repeat' (first | with_reducible exact hk | with_reducible exact Keeps.rfl | with_reducible refine Keeps.foldl ?_ ?_ | with_reducible refine Keeps.foldl₂ ?_ ?_ | ((with_reducible refine Keeps.iteOver ?_ ?_); focus (simp only [Keeps.rfl]; done)) | ((with_reducible refine Keeps.iteUnder ?_ ?_); focus (simp only [Keeps.rfl]; done)) | with_reducible refine Keeps.ite ?_ ?_ | (intro; intros) | (split <;> (rename_i heq; with_reducible have e := congrArg Prod.fst heq; with_reducible dsimp only at e; with_reducible subst e)) | split | (fail_if_no_progress with_reducible refine Keeps.lit rfl rfl rfl rfl rfl rfl rfl ?_))

theorem closeBlock_keeps {b : State} {s : State} {x1 : _} {x2 : _} (hk : Keeps b s) : Keeps b (closeBlock s x1 x2) := by
  unfold closeBlock; try (conv => zeta)
  repeat' (first | with_reducible exact hk | with_reducible refine putStream_keeps ?_ | with_reducible refine setTap_keeps ?_ | split)

theorem tapeEntry_keeps {b : State} {s : State} {x1 : _} {x2 : _} {x3 : _} {x4 : _} {x5 : _} (hk : Keeps b s) : Keeps b (tapeEntry s x1 x2 x3 x4 x5) := by
  unfold tapeEntry; try (conv => zeta)
  repeat' (first | with_reducible exact hk | with_reducible refine closeBlock_keeps ?_ | with_reducible refine putStream_keeps ?_ | split)

theorem flushBlock_keeps {b : State} {s : State} {x1 : _} {x2 : _} {x3 : _} {x4 : _} (hk : Keeps b s) : Keeps b (flushBlock s x1 x2 x3 x4) := by
  unfold flushBlock; try (conv => zeta)
  repeat' (first | with_reducible exact hk | with_reducible refine closeBlock_keeps ?_ | split)

theorem foldRecord_keeps {b : State} {s : State} {x1 : _} {x2 : _} {x3 : _} {x4 : _} (hk : Keeps b s) : Keeps b (foldRecord s x1 x2 x3 x4) := by
  unfold foldRecord; try (conv => zeta)
  repeat' (first | with_reducible exact hk | with_reducible exact Keeps.rfl | with_reducible refine State.bump_keeps ?_ | with_reducible refine Keeps.foldl ?_ ?_ | with_reducible refine Keeps.foldl₂ ?_ ?_ | ((with_reducible refine Keeps.iteOver ?_ ?_); focus (simp only [Keeps.rfl, ↓State.bump_keeps]; done)) | ((with_reducible refine Keeps.iteUnder ?_ ?_); focus (simp only [Keeps.rfl, ↓State.bump_keeps]; done)) | with_reducible refine Keeps.ite ?_ ?_ | (intro; intros) | (split <;> (rename_i heq; with_reducible have e := congrArg Prod.fst heq; with_reducible dsimp only at e; with_reducible subst e)) | split | (fail_if_no_progress with_reducible refine Keeps.lit rfl rfl rfl rfl rfl rfl rfl ?_))

theorem tapeSummary_keeps {b : State} {s : State} {x1 : _} {x2 : _} {x3 : _} (hk : Keeps b s) : Keeps b (tapeSummary s x1 x2 x3) := by
  unfold tapeSummary; try (conv => zeta)
  repeat' (first | with_reducible exact hk | with_reducible refine State.free_keeps ?_ | with_reducible refine tapeEntry_keeps ?_ | split)

theorem closeSummaries_keeps {b : State} {s : State} {x1 : _} {x2 : _} {x3 : _} (hk : Keeps b s) : Keeps b (closeSummaries s x1 x2 x3) := by
  unfold closeSummaries; try (conv => zeta)
  repeat' (first | with_reducible exact hk | with_reducible exact Keeps.rfl | with_reducible refine tapeSummary_keeps ?_ | with_reducible refine Keeps.foldl ?_ ?_ | with_reducible refine Keeps.foldl₂ ?_ ?_ | ((with_reducible refine Keeps.iteOver ?_ ?_); focus (simp only [Keeps.rfl, ↓tapeSummary_keeps]; done)) | ((with_reducible refine Keeps.iteUnder ?_ ?_); focus (simp only [Keeps.rfl, ↓tapeSummary_keeps]; done)) | with_reducible refine Keeps.ite ?_ ?_ | (intro; intros) | (split <;> (rename_i heq; with_reducible have e := congrArg Prod.fst heq; with_reducible dsimp only at e; with_reducible subst e)) | split | (fail_if_no_progress with_reducible refine Keeps.lit rfl rfl rfl rfl rfl rfl rfl ?_))

theorem releaseWins_keeps {b : State} {s : State} {x1 : _} (hk : Keeps b s) : Keeps b (releaseWins s x1) := by
  unfold releaseWins; try (conv => zeta)
  repeat' (first | with_reducible exact hk | with_reducible exact Keeps.rfl | with_reducible refine Keeps.foldl ?_ ?_ | with_reducible refine Keeps.foldl₂ ?_ ?_ | ((with_reducible refine Keeps.iteOver ?_ ?_); focus (simp only [Keeps.rfl]; done)) | ((with_reducible refine Keeps.iteUnder ?_ ?_); focus (simp only [Keeps.rfl]; done)) | with_reducible refine Keeps.ite ?_ ?_ | (intro; intros) | (split <;> (rename_i heq; with_reducible have e := congrArg Prod.fst heq; with_reducible dsimp only at e; with_reducible subst e)) | split | (fail_if_no_progress with_reducible refine Keeps.lit rfl rfl rfl rfl rfl rfl rfl ?_))

theorem execTapeWindow_keeps {b : State} {x0 : _} {x1 : _} {x2 : _} {s : State} {t : State} (h : execTapeWindow x0 x1 x2 s = .next t) (hk : Keeps b s) : Keeps b t := by
  unfold execTapeWindow at h; try (conv at h => zeta)
  repeat' (first | (with_reducible refine Keeps.next h ?_; clear h) | split at h)
  all_goals repeat' (first | with_reducible exact hk | with_reducible exact Keeps.rfl | with_reducible refine markerEntry_keeps ?_ | with_reducible refine tapeEntry_keeps ?_ | with_reducible refine foldRecord_keeps ?_ | with_reducible refine putWin_keeps ?_ | with_reducible refine closeSummaries_keeps ?_ | with_reducible refine flushBlock_keeps ?_ | with_reducible refine Keeps.foldl ?_ ?_ | with_reducible refine Keeps.foldl₂ ?_ ?_ | ((with_reducible refine Keeps.iteOver ?_ ?_); focus (simp only [Keeps.rfl, ↓markerEntry_keeps, ↓tapeEntry_keeps, ↓foldRecord_keeps, ↓putWin_keeps, ↓closeSummaries_keeps, ↓flushBlock_keeps]; done)) | ((with_reducible refine Keeps.iteUnder ?_ ?_); focus (simp only [Keeps.rfl, ↓markerEntry_keeps, ↓tapeEntry_keeps, ↓foldRecord_keeps, ↓putWin_keeps, ↓closeSummaries_keeps, ↓flushBlock_keeps]; done)) | with_reducible refine Keeps.ite ?_ ?_ | (intro; intros) | (split <;> (rename_i heq; with_reducible have e := congrArg Prod.fst heq; with_reducible dsimp only at e; with_reducible subst e)) | split | (fail_if_no_progress with_reducible refine Keeps.lit rfl rfl rfl rfl rfl rfl rfl ?_))

theorem evictOne_keeps {b : State} {s : State} {x1 : _} {x2 : _} (hk : Keeps b s) : Keeps b (evictOne s x1 x2) := by
  unfold evictOne; try (conv => zeta)
  repeat' (first | with_reducible exact hk | with_reducible refine putEntry_keeps ?_ | with_reducible refine setTap_keeps ?_ | split)

theorem makeRoom_keeps {b s : State} {x1 x2 x3 x4 x5 : Nat} (hk : Keeps b s) : Keeps b (makeRoom s x1 x2 x3 x4 x5) := by
  induction x5 generalizing s with
  | zero => exact hk
  | succ n ih => unfold makeRoom; split; exact ih (evictOne_keeps hk); exact hk

theorem checkSpan_keeps {b : State} {s : State} {x1 : _} {x2 : _} (hk : Keeps b s) : Keeps b (checkSpan s x1 x2) := by
  unfold checkSpan; try (conv => zeta)
  repeat' (first | with_reducible exact hk | with_reducible refine setTap_keeps ?_ | with_reducible refine State.wr_keeps ?_ | with_reducible refine raise_keeps ?_ | split)

theorem commitBlock_keeps {b : State} {s : State} {x1 : _} {x2 : _} {x3 : _} (hk : Keeps b s) : Keeps b (commitBlock s x1 x2 x3) := by
  unfold commitBlock; try (conv => zeta)
  repeat' (first | with_reducible exact hk | with_reducible refine makeRoom_keeps ?_ | with_reducible refine hbmWrite_keeps ?_ | with_reducible refine putEntry_keeps ?_ | with_reducible refine setTap_keeps ?_ | with_reducible refine checkSpan_keeps ?_ | with_reducible refine State.incr_keeps ?_ | split)

theorem chargeEngine_keeps {b : State} {s : State} {x1 : _} {x2 : _} (hk : Keeps b s) : Keeps b (chargeEngine s x1 x2) := by
  unfold chargeEngine; try (conv => zeta)
  repeat' (first | with_reducible exact hk | with_reducible refine setTap_keeps ?_ | with_reducible refine raise_keeps ?_ | with_reducible refine State.wr_keeps ?_ | split)

theorem loseBlock_keeps {b : State} {s : State} {x1 : _} {x2 : _} (hk : Keeps b s) : Keeps b (loseBlock s x1 x2) := by
  unfold loseBlock; try (conv => zeta)
  repeat' (first | with_reducible exact hk | with_reducible refine post_keeps ?_ | with_reducible refine State.bump_keeps ?_ | split)

theorem execBlockCompressDone_keeps {b : State} {x0 : _} {x1 : _} {x2 : _} {x3 : _} {s : State} {t : State} (h : execBlockCompressDone x0 x1 x2 x3 s = .next t) (hk : Keeps b s) : Keeps b t := by
  unfold execBlockCompressDone at h; try (conv at h => zeta)
  repeat' (first | (with_reducible refine Keeps.next h ?_; clear h) | split at h)
  all_goals repeat' (first | with_reducible exact hk | with_reducible exact Keeps.rfl | with_reducible refine State.incr_keeps ?_ | with_reducible refine setTap_keeps ?_ | with_reducible refine commitBlock_keeps ?_ | with_reducible refine chargeEngine_keeps ?_ | with_reducible refine releaseWins_keeps ?_ | with_reducible refine raise_keeps ?_ | with_reducible refine State.bump_keeps ?_ | with_reducible refine loseBlock_keeps ?_ | with_reducible refine Keeps.foldl ?_ ?_ | with_reducible refine Keeps.foldl₂ ?_ ?_ | ((with_reducible refine Keeps.iteOver ?_ ?_); focus (simp only [Keeps.rfl, ↓State.incr_keeps, ↓setTap_keeps, ↓commitBlock_keeps, ↓chargeEngine_keeps, ↓releaseWins_keeps, ↓raise_keeps, ↓State.bump_keeps, ↓loseBlock_keeps]; done)) | ((with_reducible refine Keeps.iteUnder ?_ ?_); focus (simp only [Keeps.rfl, ↓State.incr_keeps, ↓setTap_keeps, ↓commitBlock_keeps, ↓chargeEngine_keeps, ↓releaseWins_keeps, ↓raise_keeps, ↓State.bump_keeps, ↓loseBlock_keeps]; done)) | with_reducible refine Keeps.ite ?_ ?_ | (intro; intros) | (split <;> (rename_i heq; with_reducible have e := congrArg Prod.fst heq; with_reducible dsimp only at e; with_reducible subst e)) | split | (fail_if_no_progress with_reducible refine Keeps.lit rfl rfl rfl rfl rfl rfl rfl ?_))

theorem engineEnable_keeps {b : State} {s : State} {x1 : _} {x2 : _} {x3 : _} (hk : Keeps b s) : Keeps b (engineEnable s x1 x2 x3) := by
  unfold engineEnable; try (conv => zeta)
  repeat' (first | with_reducible exact hk | with_reducible refine State.wr_keeps ?_ | split)

theorem execEngineEnableWrite_keeps {b : State} {x0 : _} {x1 : _} {x2 : _} {s : State} {t : State} (h : execEngineEnableWrite x0 x1 x2 s = .next t) (hk : Keeps b s) : Keeps b t := by
  unfold execEngineEnableWrite at h; try (conv at h => zeta)
  repeat' (first | (with_reducible refine Keeps.next h ?_; clear h) | split at h)
  all_goals repeat' (first | with_reducible exact hk | with_reducible refine syn_keeps ?_ | with_reducible refine engineEnable_keeps ?_ | split)

/-! ### Machine/Trace -/

theorem setTrc_keeps {b : State} {s : State} {x1 : _} {x2 : _} (hk : Keeps b s) : Keeps b (setTrc s x1 x2) := by
  unfold setTrc; try (conv => zeta)
  repeat' (first | with_reducible exact hk | with_reducible exact Keeps.rfl | with_reducible refine Keeps.foldl ?_ ?_ | with_reducible refine Keeps.foldl₂ ?_ ?_ | ((with_reducible refine Keeps.iteOver ?_ ?_); focus (simp only [Keeps.rfl]; done)) | ((with_reducible refine Keeps.iteUnder ?_ ?_); focus (simp only [Keeps.rfl]; done)) | with_reducible refine Keeps.ite ?_ ?_ | (intro; intros) | (split <;> (rename_i heq; with_reducible have e := congrArg Prod.fst heq; with_reducible dsimp only at e; with_reducible subst e)) | split | (fail_if_no_progress with_reducible refine Keeps.lit rfl rfl rfl rfl rfl rfl rfl ?_))

theorem traceEntry_keeps {b : State} {s : State} {x1 : _} {x2 : _} {x3 : _} (hk : Keeps b s) : Keeps b (traceEntry s x1 x2 x3) := by
  unfold traceEntry; try (conv => zeta)
  repeat' (first | with_reducible exact hk | with_reducible refine State.free_keeps ?_ | with_reducible refine post_keeps ?_ | split)

theorem trcStore_keeps {b : State} {s : State} {x1 : _} {x2 : _} (hk : Keeps b s) : Keeps b (trcStore s x1 x2) := by
  unfold trcStore; try (conv => zeta)
  repeat' (first | with_reducible exact hk | with_reducible refine State.send_keeps ?_ | with_reducible refine hbmWrite_keeps ?_ | split)

theorem trcHold_keeps {b : State} {s : State} {x1 : _} (hk : Keeps b s) : Keeps b (trcHold s x1) := by
  unfold trcHold; try (conv => zeta)
  repeat' (first | with_reducible exact hk | with_reducible refine traceEntry_keeps ?_ | with_reducible refine raise_keeps ?_ | with_reducible refine State.wr_keeps ?_ | split)

theorem trcPut_keeps {b : State} {s : State} {x1 : _} {x2 : _} (hk : Keeps b s) : Keeps b (trcPut s x1 x2).1 := by
  unfold trcPut; try (conv => zeta)
  repeat' (first | with_reducible exact hk | with_reducible refine State.wr_keeps ?_ | with_reducible refine trcStore_keeps ?_ | split)

theorem trcFrame_keeps {b : State} {s : State} {x1 : _} (hk : Keeps b s) : Keeps b (trcFrame s x1).1 := by
  unfold trcFrame; try (conv => zeta)
  repeat' (first | with_reducible exact hk | with_reducible refine State.incr_keeps ?_ | with_reducible refine raise_keeps ?_ | with_reducible refine State.bump_keeps ?_ | split)

theorem trcFlush_keeps {b : State} {s : State} {x1 : _} (hk : Keeps b s) : Keeps b (trcFlush s x1).1 := by
  unfold trcFlush; try (conv => zeta)
  repeat' (first | with_reducible exact hk | with_reducible refine trcFrame_keeps ?_ | with_reducible refine setTrc_keeps ?_ | with_reducible refine trcPut_keeps ?_ | split)

theorem trcStop_keeps {b : State} {s : State} {x1 : _} (hk : Keeps b s) : Keeps b (trcStop s x1) := by
  unfold trcStop; try (conv => zeta)
  repeat' (first | with_reducible exact hk | with_reducible refine trcHold_keeps ?_ | with_reducible refine trcFlush_keeps ?_ | split)

theorem trcLine_keeps {b : State} {s : State} {x1 : _} {x2 : _} (hk : Keeps b s) : Keeps b (trcLine s x1 x2) := by
  unfold trcLine; try (conv => zeta)
  repeat' (first | with_reducible exact hk | with_reducible refine setTrc_keeps ?_ | with_reducible refine trcFlush_keeps ?_ | with_reducible refine trcPut_keeps ?_ | with_reducible refine trcStop_keeps ?_ | split)

theorem trcLines_keeps {b : State} {s : State} {x1 : _} {x2 : _} (hk : Keeps b s) : Keeps b (trcLines s x1 x2) := by
  unfold trcLines; try (conv => zeta)
  repeat' (first | with_reducible exact hk | with_reducible exact Keeps.rfl | with_reducible refine trcLine_keeps ?_ | with_reducible refine Keeps.foldl ?_ ?_ | with_reducible refine Keeps.foldl₂ ?_ ?_ | ((with_reducible refine Keeps.iteOver ?_ ?_); focus (simp only [Keeps.rfl, ↓trcLine_keeps]; done)) | ((with_reducible refine Keeps.iteUnder ?_ ?_); focus (simp only [Keeps.rfl, ↓trcLine_keeps]; done)) | with_reducible refine Keeps.ite ?_ ?_ | (intro; intros) | (split <;> (rename_i heq; with_reducible have e := congrArg Prod.fst heq; with_reducible dsimp only at e; with_reducible subst e)) | split | (fail_if_no_progress with_reducible refine Keeps.lit rfl rfl rfl rfl rfl rfl rfl ?_))

theorem execTraceLineWrite_keeps {b : State} {x0 : _} {x1 : _} {s : State} {t : State} (h : execTraceLineWrite x0 x1 s = .next t) (hk : Keeps b s) : Keeps b t := by
  unfold execTraceLineWrite at h; try (conv at h => zeta)
  repeat' (first | (with_reducible refine Keeps.next h ?_; clear h) | split at h)
  all_goals repeat' (first | with_reducible exact hk | with_reducible refine trcLines_keeps ?_ | split)

theorem execTraceOverflow_keeps {b : State} {x0 : _} {x1 : _} {x2 : _} {s : State} {t : State} (h : execTraceOverflow x0 x1 x2 s = .next t) (hk : Keeps b s) : Keeps b t := by
  unfold execTraceOverflow at h; try (conv at h => zeta)
  repeat' (first | (with_reducible refine Keeps.next h ?_; clear h) | split at h)
  all_goals repeat' (first | with_reducible exact hk | with_reducible refine State.bump_keeps ?_ | with_reducible refine trcLines_keeps ?_ | with_reducible refine traceEntry_keeps ?_ | with_reducible refine raise_keeps ?_ | split)

theorem trcRun_keeps {b : State} {s : State} {x1 : _} (hk : Keeps b s) : Keeps b (trcRun s x1) := by
  unfold trcRun; try (conv => zeta)
  repeat' (first | with_reducible exact hk | with_reducible refine State.wr_keeps ?_ | with_reducible refine trcHold_keeps ?_ | split)

theorem trcArm_keeps {b : State} {s : State} {x1 : _} {x2 : _} (hk : Keeps b s) : Keeps b (trcArm s x1 x2) := by
  unfold trcArm; try (conv => zeta)
  repeat' (first | with_reducible exact hk | with_reducible refine syn_keeps ?_ | with_reducible refine State.wr_keeps ?_ | with_reducible refine setTrc_keeps ?_ | with_reducible refine trcRun_keeps ?_ | split)

theorem trcStopWrite_keeps {b : State} {s : State} {x1 : _} {x2 : _} (hk : Keeps b s) : Keeps b (trcStopWrite s x1 x2) := by
  unfold trcStopWrite; try (conv => zeta)
  repeat' (first | with_reducible exact hk | with_reducible refine trcStop_keeps ?_ | with_reducible refine syn_keeps ?_ | split)

theorem trcClear_keeps {b : State} {s : State} {x1 : _} {x2 : _} (hk : Keeps b s) : Keeps b (trcClear s x1 x2) := by
  unfold trcClear; try (conv => zeta)
  repeat' (first | with_reducible exact hk | with_reducible refine setTrc_keeps ?_ | with_reducible refine State.wr_keeps ?_ | with_reducible refine syn_keeps ?_ | split)

theorem trcCtrlWrite_keeps {b : State} {s : State} {x1 : _} {x2 : _} {x3 : _} (hk : Keeps b s) : Keeps b (trcCtrlWrite s x1 x2 x3) := by
  unfold trcCtrlWrite; try (conv => zeta)
  repeat' (first | with_reducible exact hk | with_reducible refine trcArm_keeps ?_ | with_reducible refine trcStopWrite_keeps ?_ | with_reducible refine trcClear_keeps ?_ | with_reducible refine syn_keeps ?_ | split)

theorem execTraceArm_keeps {b : State} {x0 : _} {x1 : _} {s : State} {t : State} (h : execTraceArm x0 x1 s = .next t) (hk : Keeps b s) : Keeps b t := by
  unfold execTraceArm at h; try (conv at h => zeta)
  repeat' (first | (with_reducible refine Keeps.next h ?_; clear h) | split at h)
  all_goals repeat' (first | with_reducible exact hk | with_reducible refine trcArm_keeps ?_ | with_reducible refine syn_keeps ?_ | split)

theorem execTraceStop_keeps {b : State} {x0 : _} {x1 : _} {s : State} {t : State} (h : execTraceStop x0 x1 s = .next t) (hk : Keeps b s) : Keeps b t := by
  unfold execTraceStop at h; try (conv at h => zeta)
  repeat' (first | (with_reducible refine Keeps.next h ?_; clear h) | split at h)
  all_goals repeat' (first | with_reducible exact hk | with_reducible refine trcStopWrite_keeps ?_ | with_reducible refine syn_keeps ?_ | split)

theorem execTraceClear_keeps {b : State} {x0 : _} {x1 : _} {s : State} {t : State} (h : execTraceClear x0 x1 s = .next t) (hk : Keeps b s) : Keeps b t := by
  unfold execTraceClear at h; try (conv at h => zeta)
  repeat' (first | (with_reducible refine Keeps.next h ?_; clear h) | split at h)
  all_goals repeat' (first | with_reducible exact hk | with_reducible refine trcClear_keeps ?_ | with_reducible refine syn_keeps ?_ | split)

theorem trcTrigger_keeps {b : State} {s : State} {x1 : _} {x2 : _} (hk : Keeps b s) : Keeps b (trcTrigger s x1 x2) := by
  unfold trcTrigger; try (conv => zeta)
  repeat' (first | with_reducible exact hk | with_reducible refine State.wr_keeps ?_ | with_reducible refine trcLine_keeps ?_ | with_reducible refine traceEntry_keeps ?_ | with_reducible refine raise_keeps ?_ | with_reducible refine trcStop_keeps ?_ | with_reducible refine setTrc_keeps ?_ | split)

theorem execTraceComparator_keeps {b : State} {x0 : _} {x1 : _} {s : State} {t : State} (h : execTraceComparator x0 x1 s = .next t) (hk : Keeps b s) : Keeps b t := by
  unfold execTraceComparator at h; try (conv at h => zeta)
  repeat' (first | (with_reducible refine Keeps.next h ?_; clear h) | split at h)
  all_goals repeat' (first | with_reducible exact hk | with_reducible refine trcRun_keeps ?_ | with_reducible refine State.wr_keeps ?_ | with_reducible refine trcTrigger_keeps ?_ | split)

end Sys2Proof.Machine
end

