-- ==== Sys2Proof/Laws/KeepsScan.lean ====
section
/-!
SUPPORT. Sys2Proof/Laws/KeepsScan.lean: what every operation of Machine/Scan, Machine/BusRead, Machine/BusWrite, Machine/Mgmt, Machine/Placement keeps (Laws/Keeps.lean).
-/
set_option linter.all false
namespace Sys2Proof.Machine

/-! ### Machine/Scan -/

theorem endScan_keeps {b : State} {s : State} {x1 : _} {x2 : _} (hk : Keeps b s) : Keeps b (endScan s x1 x2) := by
  unfold endScan; try (conv => zeta)
  repeat' (first | with_reducible exact hk | with_reducible refine raise_keeps ?_ | with_reducible refine State.wr_keeps ?_ | with_reducible refine setTap_keeps ?_ | split)

theorem scanSeek_keeps {b s : State} {x1 : Nat} {x2 : Scan} {x3 : Nat} (hk : Keeps b s) : Keeps b (scanSeek s x1 x2 x3).1 := by
  induction x3 generalizing s x2 with
  | zero => exact hk
  | succ n ih =>
    unfold scanSeek
    dsimp only
    split
    · exact hk
    · split
      · exact ih (State.bump_keeps hk)
      · split
        · exact hk
        · exact ih hk

theorem scanOn_keeps {b : State} {s : State} {x1 : _} {x2 : _} (hk : Keeps b s) : Keeps b (scanOn s x1 x2) := by
  unfold scanOn; try (conv => zeta)
  repeat' (first | with_reducible exact hk | with_reducible refine scanSeek_keeps ?_ | with_reducible refine endScan_keeps ?_ | with_reducible refine setTap_keeps ?_ | split)

theorem scanRefuse_keeps {b : State} {s : State} {x1 : _} {x2 : _} {x3 : _} (hk : Keeps b s) : Keeps b (scanRefuse s x1 x2 x3) := by
  unfold scanRefuse; try (conv => zeta)
  repeat' (first | with_reducible exact hk | with_reducible refine raise_keeps ?_ | with_reducible refine syn_keeps ?_ | with_reducible refine State.wr_keeps ?_ | split)

theorem scanStart_keeps {b : State} {s : State} {x1 : _} {x2 : _} (hk : Keeps b s) : Keeps b (scanStart s x1 x2) := by
  unfold scanStart; try (conv => zeta)
  repeat' (first | with_reducible exact hk | with_reducible refine scanRefuse_keeps ?_ | with_reducible refine State.wr_keeps ?_ | with_reducible refine endScan_keeps ?_ | with_reducible refine hbmWrite_keeps ?_ | with_reducible refine scanOn_keeps ?_ | split)

theorem scanCtrlWrite_keeps {b : State} {s : State} {x1 : _} {x2 : _} {x3 : _} (hk : Keeps b s) : Keeps b (scanCtrlWrite s x1 x2 x3) := by
  unfold scanCtrlWrite; try (conv => zeta)
  repeat' (first | with_reducible exact hk | with_reducible refine syn_keeps ?_ | with_reducible refine endScan_keeps ?_ | with_reducible refine State.wr_keeps ?_ | with_reducible refine scanStart_keeps ?_ | split)

theorem execScanStart_keeps {b : State} {x0 : _} {x1 : _} {x2 : _} {s : State} {t : State} (h : execScanStart x0 x1 x2 s = .next t) (hk : Keeps b s) : Keeps b t := by
  unfold execScanStart at h; try (conv at h => zeta)
  repeat' (first | (with_reducible refine Keeps.next h ?_; clear h) | split at h)
  all_goals repeat' (first | with_reducible exact hk | with_reducible refine syn_keeps ?_ | with_reducible refine scanCtrlWrite_keeps ?_ | split)

theorem execScanAbort_keeps {b : State} {x0 : _} {x1 : _} {x2 : _} {s : State} {t : State} (h : execScanAbort x0 x1 x2 s = .next t) (hk : Keeps b s) : Keeps b t := by
  unfold execScanAbort at h; try (conv at h => zeta)
  repeat' (first | (with_reducible refine Keeps.next h ?_; clear h) | split at h)
  all_goals repeat' (first | with_reducible exact hk | with_reducible refine syn_keeps ?_ | with_reducible refine scanCtrlWrite_keeps ?_ | split)

theorem deliverBlock_keeps {b : State} {s : State} {x1 : _} {x2 : _} {x3 : _} {x4 : _} {x5 : _} (hk : Keeps b s) : Keeps b (deliverBlock s x1 x2 x3 x4 x5).1 := by
  unfold deliverBlock; try (conv => zeta)
  repeat' (first | with_reducible exact hk | with_reducible refine hbmFetch_keeps ?_ | with_reducible refine putEntry_keeps ?_ | with_reducible refine freeBytes_keeps ?_ | with_reducible refine raise_keeps ?_ | with_reducible refine State.bump_keeps ?_ | with_reducible refine State.incr_keeps ?_ | with_reducible refine chargeEngine_keeps ?_ | split)

theorem execScanDeliver_keeps {b : State} {x0 : _} {x1 : _} {x2 : _} {x3 : _} {s : State} {t : State} (h : execScanDeliver x0 x1 x2 x3 s = .next t) (hk : Keeps b s) : Keeps b t := by
  unfold execScanDeliver at h; try (conv at h => zeta)
  repeat' (first | (with_reducible refine Keeps.next h ?_; clear h) | split at h)
  all_goals repeat' (first | with_reducible exact hk | with_reducible exact Keeps.rfl | with_reducible refine scanSeek_keeps ?_ | with_reducible refine syn_keeps ?_ | with_reducible refine endScan_keeps ?_ | with_reducible refine setTap_keeps ?_ | with_reducible refine deliverBlock_keeps ?_ | with_reducible refine hbmWriteP_keeps ?_ | with_reducible refine hbmWrite_keeps ?_ | with_reducible refine State.incr_keeps ?_ | with_reducible refine scanOn_keeps ?_ | with_reducible refine Keeps.foldl ?_ ?_ | with_reducible refine Keeps.foldl₂ ?_ ?_ | ((with_reducible refine Keeps.iteOver ?_ ?_); focus (simp only [Keeps.rfl, ↓scanSeek_keeps, ↓syn_keeps, ↓endScan_keeps, ↓setTap_keeps, ↓deliverBlock_keeps, ↓hbmWriteP_keeps, ↓hbmWrite_keeps, ↓State.incr_keeps, ↓scanOn_keeps]; done)) | ((with_reducible refine Keeps.iteUnder ?_ ?_); focus (simp only [Keeps.rfl, ↓scanSeek_keeps, ↓syn_keeps, ↓endScan_keeps, ↓setTap_keeps, ↓deliverBlock_keeps, ↓hbmWriteP_keeps, ↓hbmWrite_keeps, ↓State.incr_keeps, ↓scanOn_keeps]; done)) | with_reducible refine Keeps.ite ?_ ?_ | (intro; intros) | (split <;> (rename_i heq; with_reducible have e := congrArg Prod.fst heq; with_reducible dsimp only at e; with_reducible subst e)) | split | (fail_if_no_progress with_reducible refine Keeps.lit rfl rfl rfl rfl rfl rfl rfl ?_))

theorem execScanTimeout_keeps {b : State} {x0 : _} {s : State} {t : State} (h : execScanTimeout x0 s = .next t) (hk : Keeps b s) : Keeps b t := by
  unfold execScanTimeout at h; try (conv at h => zeta)
  repeat' (first | (with_reducible refine Keeps.next h ?_; clear h) | split at h)
  all_goals repeat' (first | with_reducible exact hk | with_reducible refine syn_keeps ?_ | with_reducible refine endScan_keeps ?_ | with_reducible refine setTap_keeps ?_ | split)

theorem retape_keeps {b : State} {s : State} {x1 : _} (hk : Keeps b s) : Keeps b (retape s x1) := by
  unfold retape; try (conv => zeta)
  repeat' (first | with_reducible exact hk | with_reducible exact Keeps.rfl | with_reducible refine Keeps.foldl ?_ ?_ | with_reducible refine Keeps.foldl₂ ?_ ?_ | ((with_reducible refine Keeps.iteOver ?_ ?_); focus (simp only [Keeps.rfl]; done)) | ((with_reducible refine Keeps.iteUnder ?_ ?_); focus (simp only [Keeps.rfl]; done)) | with_reducible refine Keeps.ite ?_ ?_ | (intro; intros) | (split <;> (rename_i heq; with_reducible have e := congrArg Prod.fst heq; with_reducible dsimp only at e; with_reducible subst e)) | split | (fail_if_no_progress with_reducible refine Keeps.lit rfl rfl rfl rfl rfl rfl rfl ?_))

theorem softTap_keeps {b : State} {s : State} {x1 : _} (hk : Keeps b s) : Keeps b (softTap s x1) := by
  unfold softTap; try (conv => zeta)
  repeat' (first | with_reducible exact hk | with_reducible refine endScan_keeps ?_ | with_reducible refine retape_keeps ?_ | with_reducible refine setTap_keeps ?_ | split)

theorem softCmp_keeps {b : State} {s : State} {x1 : _} (hk : Keeps b s) : Keeps b (softCmp s x1) := by
  unfold softCmp; try (conv => zeta)
  repeat' (first | with_reducible exact hk | with_reducible refine setTap_keeps ?_ | split)

theorem execTapRecoveryDone_keeps {b : State} {x0 : _} {s : State} {t : State} (h : execTapRecoveryDone x0 s = .next t) (hk : Keeps b s) : Keeps b t := by
  unfold execTapRecoveryDone at h; try (conv at h => zeta)
  repeat' (first | (with_reducible refine Keeps.next h ?_; clear h) | split at h)
  all_goals repeat' (first | with_reducible exact hk | with_reducible refine setTap_keeps ?_ | split)

theorem execPatrol_keeps {b : State} {x0 : _} {x1 : _} {x2 : _} {s : State} {t : State} (h : execPatrol x0 x1 x2 s = .next t) (hk : Keeps b s) : Keeps b t := by
  unfold execPatrol at h; try (conv at h => zeta)
  repeat' (first | (with_reducible refine Keeps.next h ?_; clear h) | split at h)
  all_goals repeat' (first | with_reducible exact hk | with_reducible exact Keeps.rfl | with_reducible refine findErrors_keeps ?_ | with_reducible refine setTap_keeps ?_ | with_reducible refine raise_keeps ?_ | with_reducible refine State.bump_keeps ?_ | with_reducible refine Keeps.foldl ?_ ?_ | with_reducible refine Keeps.foldl₂ ?_ ?_ | ((with_reducible refine Keeps.iteOver ?_ ?_); focus (simp only [Keeps.rfl, ↓findErrors_keeps, ↓setTap_keeps, ↓raise_keeps, ↓State.bump_keeps]; done)) | ((with_reducible refine Keeps.iteUnder ?_ ?_); focus (simp only [Keeps.rfl, ↓findErrors_keeps, ↓setTap_keeps, ↓raise_keeps, ↓State.bump_keeps]; done)) | with_reducible refine Keeps.ite ?_ ?_ | (intro; intros) | (split <;> (rename_i heq; with_reducible have e := congrArg Prod.fst heq; with_reducible dsimp only at e; with_reducible subst e)) | split | (fail_if_no_progress with_reducible refine Keeps.lit rfl rfl rfl rfl rfl rfl rfl ?_))

theorem injectWrite_keeps {b : State} {s : State} {x1 : _} {x2 : _} {x3 : _} (hk : Keeps b s) : Keeps b (injectWrite s x1 x2 x3) := by
  unfold injectWrite; try (conv => zeta)
  repeat' (first | with_reducible exact hk | with_reducible refine syn_keeps ?_ | with_reducible refine State.wr_keeps ?_ | split)

theorem execErrorInject_keeps {b : State} {x0 : _} {x1 : _} {x2 : _} {s : State} {t : State} (h : execErrorInject x0 x1 x2 s = .next t) (hk : Keeps b s) : Keeps b t := by
  unfold execErrorInject at h; try (conv at h => zeta)
  repeat' (first | (with_reducible refine Keeps.next h ?_; clear h) | split at h)
  all_goals repeat' (first | with_reducible exact hk | with_reducible refine syn_keeps ?_ | with_reducible refine injectWrite_keeps ?_ | split)

/-! ### Machine/BusRead -/

theorem showFree_keeps {b : State} {s : State} {x1 : _} {x2 : _} {x3 : _} (hk : Keeps b s) : Keeps b (showFree s x1 x2 x3) := by
  unfold showFree; try (conv => zeta)
  repeat' (first | with_reducible exact hk | with_reducible refine State.free_keeps ?_ | with_reducible refine State.wr_keeps ?_ | split)

theorem showFollower_keeps {b : State} {s : State} {x1 : _} {x2 : _} (hk : Keeps b s) : Keeps b (showFollower s x1 x2) := by
  unfold showFollower; try (conv => zeta)
  repeat' (first | with_reducible exact hk | with_reducible exact Keeps.rfl | with_reducible refine State.wr_keeps ?_ | with_reducible refine Keeps.foldl ?_ ?_ | with_reducible refine Keeps.foldl₂ ?_ ?_ | ((with_reducible refine Keeps.iteOver ?_ ?_); focus (simp only [Keeps.rfl, ↓State.wr_keeps]; done)) | ((with_reducible refine Keeps.iteUnder ?_ ?_); focus (simp only [Keeps.rfl, ↓State.wr_keeps]; done)) | with_reducible refine Keeps.ite ?_ ?_ | (intro; intros) | (split <;> (rename_i heq; with_reducible have e := congrArg Prod.fst heq; with_reducible dsimp only at e; with_reducible subst e)) | split | (fail_if_no_progress with_reducible refine Keeps.lit rfl rfl rfl rfl rfl rfl rfl ?_))

theorem showLcs_keeps {b : State} {s : State} {x1 : _} {x2 : _} (hk : Keeps b s) : Keeps b (showLcs s x1 x2) := by
  unfold showLcs; try (conv => zeta)
  repeat' (first | with_reducible exact hk | with_reducible exact Keeps.rfl | with_reducible refine showFollower_keeps ?_ | with_reducible refine captureNow_keeps ?_ | with_reducible refine State.wr_keeps ?_ | with_reducible refine Keeps.foldl ?_ ?_ | with_reducible refine Keeps.foldl₂ ?_ ?_ | ((with_reducible refine Keeps.iteOver ?_ ?_); focus (simp only [Keeps.rfl, ↓showFollower_keeps, ↓captureNow_keeps, ↓State.wr_keeps]; done)) | ((with_reducible refine Keeps.iteUnder ?_ ?_); focus (simp only [Keeps.rfl, ↓showFollower_keeps, ↓captureNow_keeps, ↓State.wr_keeps]; done)) | with_reducible refine Keeps.ite ?_ ?_ | (intro; intros) | (split <;> (rename_i heq; with_reducible have e := congrArg Prod.fst heq; with_reducible dsimp only at e; with_reducible subst e)) | split | (fail_if_no_progress with_reducible refine Keeps.lit rfl rfl rfl rfl rfl rfl rfl ?_))

theorem showSeal_keeps {b : State} {s : State} {x1 : _} {x2 : _} (hk : Keeps b s) : Keeps b (showSeal s x1 x2) := by
  unfold showSeal; try (conv => zeta)
  repeat' (first | with_reducible exact hk | with_reducible refine cmdPromote_keeps ?_ | with_reducible refine State.wr_keeps ?_ | split)

theorem showRch_keeps {b : State} {s : State} {x1 : _} {x2 : _} (hk : Keeps b s) : Keeps b (showRch s x1 x2) := by
  unfold showRch; try (conv => zeta)
  repeat' (first | with_reducible exact hk | with_reducible refine State.wr_keeps ?_ | split)

theorem showSec_keeps {b : State} {s : State} {x1 : _} {x2 : _} (hk : Keeps b s) : Keeps b (showSec s x1 x2) := by
  unfold showSec; try (conv => zeta)
  repeat' (first | with_reducible exact hk | with_reducible refine State.wr_keeps ?_ | split)

theorem showCab_keeps {b : State} {s : State} {x1 : _} {x2 : _} (hk : Keeps b s) : Keeps b (showCab s x1 x2) := by
  unfold showCab; try (conv => zeta)
  repeat' (first | with_reducible exact hk | with_reducible refine State.wr_keeps ?_ | split)

theorem showAoc_keeps {b : State} {s : State} {x1 : _} {x2 : _} (hk : Keeps b s) : Keeps b (showAoc s x1 x2) := by
  unfold showAoc; try (conv => zeta)
  repeat' (first | with_reducible exact hk | with_reducible refine State.wr_keeps ?_ | with_reducible refine State.free_keeps ?_ | split)

theorem showTap_keeps {b : State} {s : State} {x1 : _} {x2 : _} (hk : Keeps b s) : Keeps b (showTap s x1 x2) := by
  unfold showTap; try (conv => zeta)
  repeat' (first | with_reducible exact hk | with_reducible refine State.wr_keeps ?_ | split)

theorem showTil_keeps {b : State} {s : State} {x1 : _} {x2 : _} (hk : Keeps b s) : Keeps b (showTil s x1 x2) := by
  unfold showTil; try (conv => zeta)
  repeat' (first | with_reducible exact hk | with_reducible refine showFree_keeps ?_ | with_reducible refine State.wr_keeps ?_ | split)

theorem refresh_keeps {b : State} {s : State} {x1 : _} {x2 : _} {x3 : _} {x4 : _} (hk : Keeps b s) : Keeps b (refresh s x1 x2 x3 x4) := by
  unfold refresh; try (conv => zeta)
  repeat' (first | with_reducible exact hk | with_reducible refine showLcs_keeps ?_ | with_reducible refine State.wr_keeps ?_ | with_reducible refine showFree_keeps ?_ | with_reducible refine showSeal_keeps ?_ | with_reducible refine showTil_keeps ?_ | with_reducible refine showTap_keeps ?_ | with_reducible refine showRch_keeps ?_ | with_reducible refine showSec_keeps ?_ | with_reducible refine showAoc_keeps ?_ | with_reducible refine showCab_keeps ?_ | with_reducible refine foldBits_keeps ?_ | split)

theorem capture_keeps {b : State} {s : State} {x1 : _} {x2 : _} {x3 : _} (hk : Keeps b s) : Keeps b (capture s x1 x2 x3) := by
  unfold capture; try (conv => zeta)
  repeat' (first | with_reducible exact hk | with_reducible refine State.wr_keeps ?_ | split)

theorem busRead_keeps {b : State} {s : State} {x1 : _} {x2 : _} {x3 : _} (hk : Keeps b s) : Keeps b (busRead s x1 x2 x3).1 := by
  unfold busRead; try (conv => zeta)
  repeat' (first | with_reducible exact hk | with_reducible refine absent_keeps ?_ | with_reducible refine syn_keeps ?_ | with_reducible refine refresh_keeps ?_ | with_reducible refine capture_keeps ?_ | split)

/-! ### Machine/BusWrite -/

theorem enChanged_keeps {b : State} {s : State} {x1 : _} {x2 : _} {x3 : _} {x4 : _} (hk : Keeps b s) : Keeps b (enChanged s x1 x2 x3 x4) := by
  unfold enChanged; try (conv => zeta)
  repeat' (first | with_reducible exact hk | with_reducible refine limiterRefresh_keeps ?_ | with_reducible refine setLink_keeps ?_ | with_reducible refine softRch_keeps ?_ | with_reducible refine trcStop_keeps ?_ | split)

theorem softCab_keeps {b : State} {s : State} {x1 : _} (hk : Keeps b s) : Keeps b (softCab s x1) := by
  unfold softCab; try (conv => zeta)
  repeat' (first | with_reducible exact hk | with_reducible exact Keeps.rfl | with_reducible refine State.wr_keeps ?_ | with_reducible refine clearSyn_keeps ?_ | (with_reducible refine setCabinet_keeps rfl rfl rfl ?_) | with_reducible refine Keeps.foldl ?_ ?_ | with_reducible refine Keeps.foldl₂ ?_ ?_ | ((with_reducible refine Keeps.iteOver ?_ ?_); focus (simp only [Keeps.rfl, ↓State.wr_keeps, ↓clearSyn_keeps, ↓setCabinet_keeps]; done)) | ((with_reducible refine Keeps.iteUnder ?_ ?_); focus (simp only [Keeps.rfl, ↓State.wr_keeps, ↓clearSyn_keeps, ↓setCabinet_keeps]; done)) | with_reducible refine Keeps.ite ?_ ?_ | (intro; intros) | (split <;> (rename_i heq; with_reducible have e := congrArg Prod.fst heq; with_reducible dsimp only at e; with_reducible subst e)) | split | (fail_if_no_progress with_reducible refine Keeps.lit rfl rfl rfl rfl rfl rfl rfl ?_))

theorem softTst_keeps {b : State} {s : State} {x1 : _} (hk : Keeps b s) : Keeps b (softTst s x1) := by
  unfold softTst; try (conv => zeta)
  repeat' (first | with_reducible exact hk | with_reducible exact Keeps.rfl | with_reducible refine resetPage_keeps ?_ | with_reducible refine State.wr_keeps ?_ | with_reducible refine setWidth_keeps ?_ | with_reducible refine Keeps.foldl ?_ ?_ | with_reducible refine Keeps.foldl₂ ?_ ?_ | ((with_reducible refine Keeps.iteOver ?_ ?_); focus (simp only [Keeps.rfl, ↓resetPage_keeps, ↓State.wr_keeps, ↓setWidth_keeps]; done)) | ((with_reducible refine Keeps.iteUnder ?_ ?_); focus (simp only [Keeps.rfl, ↓resetPage_keeps, ↓State.wr_keeps, ↓setWidth_keeps]; done)) | with_reducible refine Keeps.ite ?_ ?_ | (intro; intros) | (split <;> (rename_i heq; with_reducible have e := congrArg Prod.fst heq; with_reducible dsimp only at e; with_reducible subst e)) | split | (fail_if_no_progress with_reducible refine Keeps.lit rfl rfl rfl rfl rfl rfl rfl ?_))

theorem dropTrc_keeps {b : State} {s : State} {x1 : _} (hk : Keeps b s) : Keeps b (dropTrc s x1) := by
  unfold dropTrc; try (conv => zeta)
  repeat' (first | with_reducible exact hk | with_reducible exact Keeps.rfl | with_reducible refine resetPage_keeps ?_ | with_reducible refine Keeps.foldl ?_ ?_ | with_reducible refine Keeps.foldl₂ ?_ ?_ | ((with_reducible refine Keeps.iteOver ?_ ?_); focus (simp only [Keeps.rfl, ↓resetPage_keeps]; done)) | ((with_reducible refine Keeps.iteUnder ?_ ?_); focus (simp only [Keeps.rfl, ↓resetPage_keeps]; done)) | with_reducible refine Keeps.ite ?_ ?_ | (intro; intros) | (split <;> (rename_i heq; with_reducible have e := congrArg Prod.fst heq; with_reducible dsimp only at e; with_reducible subst e)) | split | (fail_if_no_progress with_reducible refine Keeps.lit rfl rfl rfl rfl rfl rfl rfl ?_))

theorem hubSoftReset_keeps {b : State} {s : State} {x1 : _} {x2 : _} (hk : Keeps b s) : Keeps b (hubSoftReset s x1 x2) := by
  unfold hubSoftReset; try (conv => zeta)
  repeat' (first | with_reducible exact hk | with_reducible refine longcaseReset_keeps ?_ | with_reducible refine softBur_keeps ?_ | with_reducible refine softFrz_keeps ?_ | with_reducible refine dropTrc_keeps ?_ | with_reducible refine resetPage_keeps ?_ | with_reducible refine softCab_keeps ?_ | with_reducible refine softTst_keeps ?_ | with_reducible refine softIng_keeps ?_ | with_reducible refine noteSettings_keeps ?_ | with_reducible refine softTrs_keeps ?_ | with_reducible refine softTil_keeps ?_ | with_reducible refine setTap_keeps ?_ | with_reducible refine softTap_keeps ?_ | with_reducible refine softCmp_keeps ?_ | with_reducible refine softRch_keeps ?_ | with_reducible refine softGsi_keeps ?_ | with_reducible refine softHpwr_keeps ?_ | with_reducible refine zeroize_keeps ?_ | split)

theorem softReset_keeps {b : State} {s : State} {x1 : _} {x2 : _} {x3 : _} (hk : Keeps b s) : Keeps b (softReset s x1 x2 x3) := by
  unfold softReset; try (conv => zeta)
  repeat' (first | with_reducible exact hk | with_reducible refine syn_keeps ?_ | with_reducible refine dropTrc_keeps ?_ | with_reducible refine tallySoftReset_keeps ?_ | with_reducible refine hubSoftReset_keeps ?_ | split)

theorem blkCtrlWrite_keeps {b : State} {s : State} {x1 : _} {x2 : _} {x3 : _} {x4 : _} (hk : Keeps b s) : Keeps b (blkCtrlWrite s x1 x2 x3 x4) := by
  unfold blkCtrlWrite; try (conv => zeta)
  repeat' (first | with_reducible exact hk | with_reducible refine softReset_keeps ?_ | with_reducible refine clearSyn_keeps ?_ | with_reducible refine syn_keeps ?_ | with_reducible refine State.wr_keeps ?_ | with_reducible refine enChanged_keeps ?_ | split)

theorem irqWrite_keeps {b : State} {s : State} {x1 : _} {x2 : _} {x3 : _} {x4 : _} (hk : Keeps b s) : Keeps b (irqWrite s x1 x2 x3 x4) := by
  unfold irqWrite; try (conv => zeta)
  repeat' (first | with_reducible exact hk | with_reducible exact Keeps.rfl | with_reducible refine State.wr_keeps ?_ | with_reducible refine Keeps.foldl ?_ ?_ | with_reducible refine Keeps.foldl₂ ?_ ?_ | ((with_reducible refine Keeps.iteOver ?_ ?_); focus (simp only [Keeps.rfl, ↓State.wr_keeps]; done)) | ((with_reducible refine Keeps.iteUnder ?_ ?_); focus (simp only [Keeps.rfl, ↓State.wr_keeps]; done)) | with_reducible refine Keeps.ite ?_ ?_ | (intro; intros) | (split <;> (rename_i heq; with_reducible have e := congrArg Prod.fst heq; with_reducible dsimp only at e; with_reducible subst e)) | split | (fail_if_no_progress with_reducible refine Keeps.lit rfl rfl rfl rfl rfl rfl rfl ?_))

theorem apptTimeWrite_keeps {b : State} {s : State} {x1 : _} {x2 : _} {x3 : _} {x4 : _} {x5 : _} (hk : Keeps b s) : Keeps b (apptTimeWrite s x1 x2 x3 x4 x5) := by
  unfold apptTimeWrite; try (conv => zeta)
  repeat' (first | with_reducible exact hk | with_reducible refine syn_keeps ?_ | with_reducible refine State.wr_keeps ?_ | split)

theorem commonWrite_keeps {b : State} {s : State} {x1 : _} {x2 : _} {x3 : _} {x4 : _} {x5 : _} (hk : Keeps b s) : Keeps b (commonWrite s x1 x2 x3 x4 x5) := by
  unfold commonWrite; try (conv => zeta)
  repeat' (first | with_reducible exact hk | with_reducible refine blkCtrlWrite_keeps ?_ | with_reducible refine syn_keeps ?_ | with_reducible refine irqWrite_keeps ?_ | with_reducible refine apptTimeWrite_keeps ?_ | with_reducible refine apptCtrlWrite_keeps ?_ | split)

theorem lcsCtrlWrite_keeps {b : State} {s : State} {x1 : _} {x2 : _} {x3 : _} (hk : Keeps b s) : Keeps b (lcsCtrlWrite s x1 x2 x3) := by
  unfold lcsCtrlWrite; try (conv => zeta)
  repeat' (first | with_reducible exact hk | with_reducible refine syn_keeps ?_ | with_reducible refine State.wr_keeps ?_ | with_reducible refine stepTo_keeps ?_ | split)

theorem lcsGenWrite_keeps {b : State} {s : State} {x1 : _} {x2 : _} {x3 : _} (hk : Keeps b s) : Keeps b (lcsGenWrite s x1 x2 x3) := by
  unfold lcsGenWrite; try (conv => zeta)
  repeat' (first | with_reducible exact hk | with_reducible refine State.wr_keeps ?_ | with_reducible refine syn_keeps ?_ | split)

theorem tilCtrlWrite_keeps {b : State} {s : State} {x1 : _} {x2 : _} {x3 : _} (hk : Keeps b s) : Keeps b (tilCtrlWrite s x1 x2 x3) := by
  unfold tilCtrlWrite; try (conv => zeta)
  repeat' (first | with_reducible exact hk | with_reducible refine syn_keeps ?_ | with_reducible refine retireForGood_keeps ?_ | with_reducible refine tilRequest_keeps ?_ | with_reducible refine seqStart_keeps ?_ | with_reducible refine seqHalt_keeps ?_ | split)

theorem dgsCtrlWrite_keeps {b : State} {s : State} {x1 : _} {x2 : _} (hk : Keeps b s) : Keeps b (dgsCtrlWrite s x1 x2) := by
  unfold dgsCtrlWrite; try (conv => zeta)
  repeat' (first | with_reducible exact hk | with_reducible refine rplReady_keeps ?_ | with_reducible refine rplDecline_keeps ?_ | with_reducible refine syn_keeps ?_ | split)

theorem stwCtrlWrite_keeps {b : State} {s : State} {x1 : _} {x2 : _} {x3 : _} (hk : Keeps b s) : Keeps b (stwCtrlWrite s x1 x2 x3) := by
  unfold stwCtrlWrite; try (conv => zeta)
  repeat' (first | with_reducible exact hk | with_reducible refine stwStart_keeps ?_ | with_reducible refine stwHalt_keeps ?_ | split)

theorem tilActWrite_keeps {b : State} {s : State} {x1 : _} {x2 : _} {x3 : _} {x4 : _} (hk : Keeps b s) : Keeps b (tilActWrite s x1 x2 x3 x4) := by
  unfold tilActWrite; try (conv => zeta)
  repeat' (first | with_reducible exact hk | with_reducible exact Keeps.rfl | with_reducible refine syn_keeps ?_ | with_reducible refine flushQueue_keeps ?_ | ((with_reducible refine setTile_keeps ?_ ?_); focus (intro h; first | exact getTile_wf h _ | with_reducible exact Tile.write_wf _ _ (getTile_wf h _) | exact storeRow_wf (getTile_wf h _) | exact writeMask_wf (getTile_wf h _) | exact tileFold_wf (fun _ _ hy => storeRow_wf hy) (getTile_wf h _) | exact tileFold_wf (fun _ _ hy => writeOuts_wf hy) (getTile_wf h _))) | with_reducible refine State.wr_keeps ?_ | with_reducible refine Keeps.foldl ?_ ?_ | with_reducible refine Keeps.foldl₂ ?_ ?_ | ((with_reducible refine Keeps.iteOver ?_ ?_); focus (simp only [Keeps.rfl, ↓syn_keeps, ↓flushQueue_keeps, ↓setTile_keeps, ↓State.wr_keeps]; done)) | ((with_reducible refine Keeps.iteUnder ?_ ?_); focus (simp only [Keeps.rfl, ↓syn_keeps, ↓flushQueue_keeps, ↓setTile_keeps, ↓State.wr_keeps]; done)) | with_reducible refine Keeps.ite ?_ ?_ | (intro; intros) | (split <;> (rename_i heq; with_reducible have e := congrArg Prod.fst heq; with_reducible dsimp only at e; with_reducible subst e)) | split | (fail_if_no_progress with_reducible refine Keeps.lit rfl rfl rfl rfl rfl rfl rfl ?_))

theorem actWrite_keeps {b : State} {s : State} {x1 : _} {x2 : _} {x3 : _} {x4 : _} {x5 : _} {t : State} (h : actWrite s x1 x2 x3 x4 x5 = some t) (hk : Keeps b s) : Keeps b t := by
  unfold actWrite at h; try (conv at h => zeta)
  repeat' (first | with_reducible exact absurd h.symm (Option.some_ne_none _) | (with_reducible refine Keeps.some h ?_; clear h) | split at h)
  all_goals repeat' (first | with_reducible exact hk | with_reducible refine lcsGenWrite_keeps ?_ | with_reducible refine lcsCtrlWrite_keeps ?_ | with_reducible refine tlyUnitWrite_keeps ?_ | with_reducible refine gaugeHostWrite_keeps ?_ | with_reducible refine stepMark_keeps ?_ | with_reducible refine lockWrite_keeps ?_ | with_reducible refine stwCtrlWrite_keeps ?_ | with_reducible refine stwLoad_keeps ?_ | with_reducible refine tilCtrlWrite_keeps ?_ | with_reducible refine tilActWrite_keeps ?_ | with_reducible refine injectWrite_keeps ?_ | with_reducible refine scanCtrlWrite_keeps ?_ | with_reducible refine syn_keeps ?_ | with_reducible refine engineEnable_keeps ?_ | with_reducible refine dgsCtrlWrite_keeps ?_ | with_reducible refine secLoadWrite_keeps ?_ | with_reducible refine zeroizeWrite_keeps ?_ | with_reducible refine burLookup_keeps ?_ | with_reducible refine firmwarePost_keeps ?_ | with_reducible refine trcCtrlWrite_keeps ?_ | with_reducible refine cabCtrlWrite_keeps ?_ | with_reducible refine tstModeWrite_keeps ?_ | with_reducible refine tstGenWrite_keeps ?_ | with_reducible refine tstChkWrite_keeps ?_ | split)

theorem keepField_keeps {b : State} {s : State} {x1 : _} {x2 : _} {x3 : _} {x4 : _} {x5 : _} {x6 : _} (hk : Keeps b s) : Keeps b (keepField s x1 x2 x3 x4 x5 x6) := by
  unfold keepField; try (conv => zeta)
  repeat' (first | with_reducible exact hk | with_reducible exact Keeps.rfl | with_reducible refine State.wr_keeps ?_ | with_reducible refine Keeps.foldl ?_ ?_ | with_reducible refine Keeps.foldl₂ ?_ ?_ | ((with_reducible refine Keeps.iteOver ?_ ?_); focus (simp only [Keeps.rfl, ↓State.wr_keeps]; done)) | ((with_reducible refine Keeps.iteUnder ?_ ?_); focus (simp only [Keeps.rfl, ↓State.wr_keeps]; done)) | with_reducible refine Keeps.ite ?_ ?_ | (intro; intros) | (split <;> (rename_i heq; with_reducible have e := congrArg Prod.fst heq; with_reducible dsimp only at e; with_reducible subst e)) | split | (fail_if_no_progress with_reducible refine Keeps.lit rfl rfl rfl rfl rfl rfl rfl ?_))

theorem keptHook_keeps {b : State} {x0 : _} {s : State} {x2 : _} {x3 : _} {x4 : _} {x5 : _} (hk : Keeps b s) : Keeps b (keptHook x0 s x2 x3 x4 x5) := by
  unfold keptHook; try (conv => zeta)
  repeat' (first | with_reducible exact hk | with_reducible refine limiterRefresh_keeps ?_ | with_reducible refine clipCeil_keeps ?_ | with_reducible refine appliedHook_keeps ?_ | split)

theorem keepWrite_keeps {b : State} {s : State} {x1 : _} {x2 : _} {x3 : _} {x4 : _} {x5 : _} {x6 : _} (hk : Keeps b s) : Keeps b (keepWrite s x1 x2 x3 x4 x5 x6) := by
  unfold keepWrite; try (conv => zeta)
  repeat' (first | with_reducible exact hk | with_reducible exact Keeps.rfl | with_reducible refine syn_keeps ?_ | with_reducible refine keepField_keeps ?_ | with_reducible refine keptHook_keeps ?_ | with_reducible refine Keeps.foldl ?_ ?_ | with_reducible refine Keeps.foldl₂ ?_ ?_ | ((with_reducible refine Keeps.iteOver ?_ ?_); focus (simp only [Keeps.rfl, ↓syn_keeps, ↓keepField_keeps, ↓keptHook_keeps]; done)) | ((with_reducible refine Keeps.iteUnder ?_ ?_); focus (simp only [Keeps.rfl, ↓syn_keeps, ↓keepField_keeps, ↓keptHook_keeps]; done)) | with_reducible refine Keeps.ite ?_ ?_ | (intro; intros) | (split <;> (rename_i heq; with_reducible have e := congrArg Prod.fst heq; with_reducible dsimp only at e; with_reducible subst e)) | split | (fail_if_no_progress with_reducible refine Keeps.lit rfl rfl rfl rfl rfl rfl rfl ?_))

theorem busWrite_keeps {b : State} {s : State} {x1 : _} {x2 : _} {x3 : _} {x4 : _} (hk : Keeps b s) : Keeps b (busWrite s x1 x2 x3 x4) := by
  unfold busWrite; try (conv => zeta)
  repeat' (first | with_reducible exact hk | with_reducible refine absent_keeps ?_ | with_reducible refine syn_keeps ?_ | with_reducible refine commonWrite_keeps ?_ | with_reducible refine keepWrite_keeps ?_ | with_reducible refine actWrite_keeps (by assumption) ?_ | split)

theorem watched_keeps {b : State} {s : State} {x1 : _} {x2 : _} {x3 : _} (hx3 : ∀ y0, Keeps y0 (x3 y0)) (hk : Keeps b s) : Keeps b (watched s x1 x2 x3).1 := by
  unfold watched; try (conv => zeta)
  repeat' (first | with_reducible exact hk | with_reducible exact Keeps.rfl | with_reducible refine State.wr_keeps ?_ | with_reducible refine Keeps.foldl ?_ ?_ | with_reducible refine Keeps.foldl₂ ?_ ?_ | ((with_reducible refine Keeps.iteOver ?_ ?_); focus (simp only [Keeps.rfl, ↓State.wr_keeps]; done)) | ((with_reducible refine Keeps.iteUnder ?_ ?_); focus (simp only [Keeps.rfl, ↓State.wr_keeps]; done)) | with_reducible refine Keeps.ite ?_ ?_ | (intro; intros) | with_reducible exact hx3 _  | with_reducible refine (Keeps.trans ?_ (hx3 _ )) | (split <;> (rename_i heq; with_reducible have e := congrArg Prod.fst heq; with_reducible dsimp only at e; with_reducible subst e)) | split | (fail_if_no_progress with_reducible refine Keeps.lit rfl rfl rfl rfl rfl rfl rfl ?_))

theorem writeCode_keeps {b : State} {s : State} {x1 : _} {x2 : _} {x3 : _} {x4 : _} (hk : Keeps b s) : Keeps b (writeCode s x1 x2 x3 x4).1 := by
  unfold writeCode; try (conv => zeta)
  repeat' (first | with_reducible exact hk | with_reducible exact Keeps.rfl | with_reducible refine watched_keeps ?_ ?_ | with_reducible refine busWrite_keeps ?_ | with_reducible refine Keeps.foldl ?_ ?_ | with_reducible refine Keeps.foldl₂ ?_ ?_ | ((with_reducible refine Keeps.iteOver ?_ ?_); focus (simp only [Keeps.rfl, ↓busWrite_keeps]; done)) | ((with_reducible refine Keeps.iteUnder ?_ ?_); focus (simp only [Keeps.rfl, ↓busWrite_keeps]; done)) | with_reducible refine Keeps.ite ?_ ?_ | (intro; intros) | (split <;> (rename_i heq; with_reducible have e := congrArg Prod.fst heq; with_reducible dsimp only at e; with_reducible subst e)) | split | (fail_if_no_progress with_reducible refine Keeps.lit rfl rfl rfl rfl rfl rfl rfl ?_))

theorem readCode_keeps {b : State} {s : State} {x1 : _} {x2 : _} {x3 : _} (hk : Keeps b s) : Keeps b (readCode s x1 x2 x3).1 := by
  unfold readCode; try (conv => zeta)
  repeat' (first | with_reducible exact hk | with_reducible exact Keeps.rfl | with_reducible refine watched_keeps ?_ ?_ | with_reducible refine busRead_keeps ?_ | with_reducible refine Keeps.foldl ?_ ?_ | with_reducible refine Keeps.foldl₂ ?_ ?_ | ((with_reducible refine Keeps.iteOver ?_ ?_); focus (simp only [Keeps.rfl, ↓busRead_keeps]; done)) | ((with_reducible refine Keeps.iteUnder ?_ ?_); focus (simp only [Keeps.rfl, ↓busRead_keeps]; done)) | with_reducible refine Keeps.ite ?_ ?_ | (intro; intros) | (split <;> (rename_i heq; with_reducible have e := congrArg Prod.fst heq; with_reducible dsimp only at e; with_reducible subst e)) | split | (fail_if_no_progress with_reducible refine Keeps.lit rfl rfl rfl rfl rfl rfl rfl ?_))

theorem execRegisterWrite_keeps {b : State} {x0 : _} {x1 : _} {x2 : _} {s : State} {t : State} (h : execRegisterWrite x0 x1 x2 s = .next t) (hk : Keeps b s) : Keeps b t := by
  unfold execRegisterWrite at h; try (conv at h => zeta)
  repeat' (first | (with_reducible refine Keeps.next h ?_; clear h) | split at h)
  all_goals repeat' (first | with_reducible exact hk | with_reducible refine busWrite_keeps ?_ | split)

theorem execSynClr_keeps {b : State} {x0 : _} {x1 : _} {s : State} {t : State} (h : execSynClr x0 x1 s = .next t) (hk : Keeps b s) : Keeps b t := by
  unfold execSynClr at h; try (conv at h => zeta)
  repeat' (first | (with_reducible refine Keeps.next h ?_; clear h) | split at h)
  all_goals repeat' (first | with_reducible exact hk | with_reducible refine absent_keeps ?_ | with_reducible refine syn_keeps ?_ | with_reducible refine clearSyn_keeps ?_ | split)

theorem execSoftReset_keeps {b : State} {x0 : _} {x1 : _} {s : State} {t : State} (h : execSoftReset x0 x1 s = .next t) (hk : Keeps b s) : Keeps b t := by
  unfold execSoftReset at h; try (conv at h => zeta)
  repeat' (first | (with_reducible refine Keeps.next h ?_; clear h) | split at h)
  all_goals repeat' (first | with_reducible exact hk | with_reducible refine absent_keeps ?_ | with_reducible refine softReset_keeps ?_ | split)

theorem inletWrites_keeps {b s : State} {x0 x1 x2 : Nat} {x3 : List Nat} (hk : Keeps b s) : Keeps b (inletWrites x0 x1 x2 x3 s).1 := by
  induction x3 generalizing s x2 with
  | nil => exact hk
  | cons v vs ih =>
    unfold inletWrites
    dsimp only
    split
    · exact writeCode_keeps hk
    · exact ih (writeCode_keeps hk)

theorem inletReads_keeps {b s : State} {x0 x1 x2 x3 : Nat} (hk : Keeps b s) : Keeps b (inletReads x0 x1 x2 x3 s).1 := by
  induction x3 generalizing s x2 with
  | zero => exact hk
  | succ n ih =>
    unfold inletReads
    dsimp only
    split
    · exact readCode_keeps hk
    · exact ih (readCode_keeps hk)

theorem execWrite_keeps {b : State} {x0 : _} {x1 : _} {x2 : _} {x3 : _} {x4 : _} {s : State} {t : State} (h : execWrite x0 x1 x2 x3 x4 s = .next t) (hk : Keeps b s) : Keeps b t := by
  unfold execWrite at h; try (conv at h => zeta)
  repeat' (first | (with_reducible refine Keeps.next h ?_; clear h) | split at h)
  all_goals repeat' (first | with_reducible exact hk | with_reducible exact Keeps.rfl | with_reducible refine runCommand_keeps ?_ ?_ | with_reducible refine cmdRefuse_keeps ?_ | with_reducible refine inletWrites_keeps ?_ | with_reducible refine Keeps.foldl ?_ ?_ | with_reducible refine Keeps.foldl₂ ?_ ?_ | ((with_reducible refine Keeps.iteOver ?_ ?_); focus (simp only [Keeps.rfl, ↓cmdRefuse_keeps, ↓inletWrites_keeps]; done)) | ((with_reducible refine Keeps.iteUnder ?_ ?_); focus (simp only [Keeps.rfl, ↓cmdRefuse_keeps, ↓inletWrites_keeps]; done)) | with_reducible refine Keeps.ite ?_ ?_ | (intro; intros) | (split <;> (rename_i heq; with_reducible have e := congrArg Prod.fst heq; with_reducible dsimp only at e; with_reducible subst e)) | split | (fail_if_no_progress with_reducible refine Keeps.lit rfl rfl rfl rfl rfl rfl rfl ?_))

theorem execRead_keeps {b : State} {x0 : _} {x1 : _} {x2 : _} {x3 : _} {s : State} {t : State} (h : execRead x0 x1 x2 x3 s = .next t) (hk : Keeps b s) : Keeps b t := by
  unfold execRead at h; try (conv at h => zeta)
  repeat' (first | (with_reducible refine Keeps.next h ?_; clear h) | split at h)
  all_goals repeat' (first | with_reducible exact hk | with_reducible exact Keeps.rfl | with_reducible refine runCommand_keeps ?_ ?_ | with_reducible refine cmdRefuse_keeps ?_ | with_reducible refine inletReads_keeps ?_ | with_reducible refine Keeps.foldl ?_ ?_ | with_reducible refine Keeps.foldl₂ ?_ ?_ | ((with_reducible refine Keeps.iteOver ?_ ?_); focus (simp only [Keeps.rfl, ↓cmdRefuse_keeps, ↓inletReads_keeps]; done)) | ((with_reducible refine Keeps.iteUnder ?_ ?_); focus (simp only [Keeps.rfl, ↓cmdRefuse_keeps, ↓inletReads_keeps]; done)) | with_reducible refine Keeps.ite ?_ ?_ | (intro; intros) | (split <;> (rename_i heq; with_reducible have e := congrArg Prod.fst heq; with_reducible dsimp only at e; with_reducible subst e)) | split | (fail_if_no_progress with_reducible refine Keeps.lit rfl rfl rfl rfl rfl rfl rfl ?_))

theorem setApptTime_keeps {b : State} {s : State} {x1 : _} {x2 : _} (hk : Keeps b s) : Keeps b (setApptTime s x1 x2) := by
  unfold setApptTime; try (conv => zeta)
  repeat' (first | with_reducible exact hk | with_reducible refine State.wr_keeps ?_ | split)

theorem armAt_keeps {b : State} {s : State} {x1 : _} {x2 : _} {x3 : _} {x4 : _} (hk : Keeps b s) : Keeps b (armAt s x1 x2 x3 x4).1 := by
  unfold armAt; try (conv => zeta)
  repeat' (first | with_reducible exact hk | with_reducible refine absent_keeps ?_ | with_reducible refine syn_keeps ?_ | with_reducible refine armChecked_keeps ?_ | with_reducible refine setApptTime_keeps ?_ | split)

theorem armMask_keeps {b s : State} {x0 x1 : Nat} {x2 : List Nat} (hk : Keeps b s) : Keeps b (armMask x0 x1 x2 s).1 := by
  induction x2 generalizing s with
  | nil => exact hk
  | cons p ps ih =>
    unfold armMask
    dsimp only
    split
    · exact ih (armAt_keeps hk)
    · exact ih (armAt_keeps hk)

theorem execArm_keeps {b : State} {x0 : _} {x1 : _} {x2 : _} {s : State} {t : State} (h : execArm x0 x1 x2 s = .next t) (hk : Keeps b s) : Keeps b t := by
  unfold execArm at h; try (conv at h => zeta)
  repeat' (first | (with_reducible refine Keeps.next h ?_; clear h) | split at h)
  all_goals repeat' (first | with_reducible exact hk | with_reducible exact Keeps.rfl | with_reducible refine runCommand_keeps ?_ ?_ | with_reducible refine armMask_keeps ?_ | with_reducible refine Keeps.foldl ?_ ?_ | with_reducible refine Keeps.foldl₂ ?_ ?_ | ((with_reducible refine Keeps.iteOver ?_ ?_); focus (simp only [Keeps.rfl, ↓armMask_keeps]; done)) | ((with_reducible refine Keeps.iteUnder ?_ ?_); focus (simp only [Keeps.rfl, ↓armMask_keeps]; done)) | with_reducible refine Keeps.ite ?_ ?_ | (intro; intros) | (split <;> (rename_i heq; with_reducible have e := congrArg Prod.fst heq; with_reducible dsimp only at e; with_reducible subst e)) | split | (fail_if_no_progress with_reducible refine Keeps.lit rfl rfl rfl rfl rfl rfl rfl ?_))

theorem capAction_keeps {b : State} {s : State} {x1 : _} {x2 : _} {x3 : _} (hk : Keeps b s) : Keeps b (capAction s x1 x2 x3).1 := by
  unfold capAction; try (conv => zeta)
  repeat' (first | with_reducible exact hk | with_reducible refine cmdRefuse_keeps ?_ | with_reducible refine State.wr_keeps ?_ | with_reducible refine armChecked_keeps ?_ | with_reducible refine setApptTime_keeps ?_ | split)

theorem execCap_keeps {b : State} {x0 : _} {x1 : _} {x2 : _} {s : State} {t : State} (h : execCap x0 x1 x2 s = .next t) (hk : Keeps b s) : Keeps b t := by
  unfold execCap at h; try (conv at h => zeta)
  repeat' (first | (with_reducible refine Keeps.next h ?_; clear h) | split at h)
  all_goals repeat' (first | with_reducible exact hk | with_reducible exact Keeps.rfl | with_reducible refine runCommand_keeps ?_ ?_ | with_reducible refine runAction_keeps ?_ ?_ | with_reducible refine capAction_keeps ?_ | with_reducible refine Keeps.foldl ?_ ?_ | with_reducible refine Keeps.foldl₂ ?_ ?_ | ((with_reducible refine Keeps.iteOver ?_ ?_); focus (simp only [Keeps.rfl, ↓capAction_keeps]; done)) | ((with_reducible refine Keeps.iteUnder ?_ ?_); focus (simp only [Keeps.rfl, ↓capAction_keeps]; done)) | with_reducible refine Keeps.ite ?_ ?_ | (intro; intros) | (split <;> (rename_i heq; with_reducible have e := congrArg Prod.fst heq; with_reducible dsimp only at e; with_reducible subst e)) | split | (fail_if_no_progress with_reducible refine Keeps.lit rfl rfl rfl rfl rfl rfl rfl ?_))

/-! ### Machine/Mgmt -/

theorem setSessions_keeps {b : State} {s : State} {x1 : _} (hk : Keeps b s) : Keeps b (setSessions s x1) := by
  unfold setSessions; try (conv => zeta)
  repeat' (first | with_reducible exact hk | (with_reducible refine setCabinet_keeps rfl rfl rfl ?_) | split)

theorem modSession_keeps {b : State} {s : State} {x1 : _} {x2 : _} (hk : Keeps b s) : Keeps b (modSession s x1 x2) := by
  unfold modSession; try (conv => zeta)
  repeat' (first | with_reducible exact hk | with_reducible refine setSessions_keeps ?_ | split)

theorem addSession_keeps {b : State} {s : State} {x1 : _} {x2 : _} {x3 : _} {x4 : _} {x5 : _} (hk : Keeps b s) : Keeps b (addSession s x1 x2 x3 x4 x5) := by
  unfold addSession; try (conv => zeta)
  repeat' (first | with_reducible exact hk | (with_reducible refine setCabinet_keeps rfl rfl rfl ?_) | split)

theorem execMgmtSessionOpen_keeps {b : State} {x0 : _} {x1 : _} {x2 : _} {x3 : _} {x4 : _} {s : State} {t : State} (h : execMgmtSessionOpen x0 x1 x2 x3 x4 s = .next t) (hk : Keeps b s) : Keeps b t := by
  unfold execMgmtSessionOpen at h; try (conv at h => zeta)
  repeat' (first | (with_reducible refine Keeps.next h ?_; clear h) | split at h)
  all_goals repeat' (first | with_reducible exact hk | with_reducible refine addSession_keeps ?_ | split)

theorem execSessionIdle_keeps {b : State} {x0 : _} {s : State} {t : State} (h : execSessionIdle x0 s = .next t) (hk : Keeps b s) : Keeps b t := by
  unfold execSessionIdle at h; try (conv at h => zeta)
  repeat' (first | (with_reducible refine Keeps.next h ?_; clear h) | split at h)
  all_goals repeat' (first | with_reducible exact hk | with_reducible refine setSessions_keeps ?_ | split)

theorem replyTo_keeps {b : State} {s : State} {x1 : _} {x2 : _} {x3 : _} {x4 : _} {x5 : _} (hk : Keeps b s) : Keeps b (replyTo s x1 x2 x3 x4 x5) := by
  unfold replyTo; try (conv => zeta)
  repeat' (first | with_reducible exact hk | with_reducible refine State.send_keeps ?_ | split)

theorem deny_keeps {b : State} {s : State} {x1 : _} {x2 : _} {x3 : _} (hk : Keeps b s) : Keeps b (deny s x1 x2 x3) := by
  unfold deny; try (conv => zeta)
  repeat' (first | with_reducible exact hk | with_reducible refine replyTo_keeps ?_ | (with_reducible refine setCabinet_keeps rfl rfl rfl ?_) | split)

theorem request_keeps {b : State} {s : State} {x1 : _} {x2 : _} {x3 : _} {x4 : _} {x5 : _} (hx5 : ∀ y0 y1, Keeps y0 (x5 y0 y1)) {t : State} (h : request s x1 x2 x3 x4 x5 = .next t) (hk : Keeps b s) : Keeps b t := by
  unfold request at h; try (conv at h => zeta)
  repeat' (first | (with_reducible refine Keeps.next h ?_; clear h) | split at h)
  all_goals repeat' (first | with_reducible exact hk | with_reducible exact Keeps.rfl | with_reducible refine modSession_keeps ?_ | with_reducible refine deny_keeps ?_ | with_reducible refine Keeps.foldl ?_ ?_ | with_reducible refine Keeps.foldl₂ ?_ ?_ | ((with_reducible refine Keeps.iteOver ?_ ?_); focus (simp only [Keeps.rfl, ↓modSession_keeps, ↓deny_keeps]; done)) | ((with_reducible refine Keeps.iteUnder ?_ ?_); focus (simp only [Keeps.rfl, ↓modSession_keeps, ↓deny_keeps]; done)) | with_reducible refine Keeps.ite ?_ ?_ | (intro; intros) | with_reducible exact hx5 _ _  | with_reducible refine (Keeps.trans ?_ (hx5 _ _ )) | (split <;> (rename_i heq; with_reducible have e := congrArg Prod.fst heq; with_reducible dsimp only at e; with_reducible subst e)) | split | (fail_if_no_progress with_reducible refine Keeps.lit rfl rfl rfl rfl rfl rfl rfl ?_))

theorem jobRequest_keeps {b : State} {s : State} {x1 : _} {x2 : _} {x3 : _} {x4 : _} {x5 : _} (hx5 : ∀ y0 y1, Keeps y0 (x5 y0 y1)) {t : State} (h : jobRequest s x1 x2 x3 x4 x5 = .next t) (hk : Keeps b s) : Keeps b t := by
  unfold jobRequest at h; try (conv at h => zeta)
  repeat' (first | (with_reducible refine Keeps.next h ?_; clear h) | split at h)
  all_goals repeat' (first | with_reducible exact hk | with_reducible exact Keeps.rfl | with_reducible refine request_keeps ?_ (by assumption) ?_ | with_reducible refine deny_keeps ?_ | with_reducible refine replyTo_keeps ?_ | with_reducible refine Keeps.foldl ?_ ?_ | with_reducible refine Keeps.foldl₂ ?_ ?_ | ((with_reducible refine Keeps.iteOver ?_ ?_); focus (simp only [Keeps.rfl, ↓deny_keeps, ↓replyTo_keeps]; done)) | ((with_reducible refine Keeps.iteUnder ?_ ?_); focus (simp only [Keeps.rfl, ↓deny_keeps, ↓replyTo_keeps]; done)) | with_reducible refine Keeps.ite ?_ ?_ | (intro; intros) | with_reducible exact hx5 _ _  | with_reducible refine (Keeps.trans ?_ (hx5 _ _ )) | (split <;> (rename_i heq; with_reducible have e := congrArg Prod.fst heq; with_reducible dsimp only at e; with_reducible subst e)) | split | (fail_if_no_progress with_reducible refine Keeps.lit rfl rfl rfl rfl rfl rfl rfl ?_))

theorem execHello_keeps {b : State} {x0 : _} {x1 : _} {s : State} {t : State} (h : execHello x0 x1 s = .next t) (hk : Keeps b s) : Keeps b t := by
  unfold execHello at h; try (conv at h => zeta)
  repeat' (first | (with_reducible refine Keeps.next h ?_; clear h) | split at h)
  all_goals repeat' (first | with_reducible exact hk | with_reducible exact Keeps.rfl | with_reducible refine request_keeps ?_ (by assumption) ?_ | with_reducible refine replyTo_keeps ?_ | with_reducible refine Keeps.foldl ?_ ?_ | with_reducible refine Keeps.foldl₂ ?_ ?_ | ((with_reducible refine Keeps.iteOver ?_ ?_); focus (simp only [Keeps.rfl, ↓replyTo_keeps]; done)) | ((with_reducible refine Keeps.iteUnder ?_ ?_); focus (simp only [Keeps.rfl, ↓replyTo_keeps]; done)) | with_reducible refine Keeps.ite ?_ ?_ | (intro; intros) | (split <;> (rename_i heq; with_reducible have e := congrArg Prod.fst heq; with_reducible dsimp only at e; with_reducible subst e)) | split | (fail_if_no_progress with_reducible refine Keeps.lit rfl rfl rfl rfl rfl rfl rfl ?_))

theorem execBootStatus_keeps {b : State} {x0 : _} {x1 : _} {s : State} {t : State} (h : execBootStatus x0 x1 s = .next t) (hk : Keeps b s) : Keeps b t := by
  unfold execBootStatus at h; try (conv at h => zeta)
  repeat' (first | (with_reducible refine Keeps.next h ?_; clear h) | split at h)
  all_goals repeat' (first | with_reducible exact hk | with_reducible exact Keeps.rfl | with_reducible refine request_keeps ?_ (by assumption) ?_ | with_reducible refine busRead_keeps ?_ | with_reducible refine replyTo_keeps ?_ | with_reducible refine Keeps.foldl ?_ ?_ | with_reducible refine Keeps.foldl₂ ?_ ?_ | ((with_reducible refine Keeps.iteOver ?_ ?_); focus (simp only [Keeps.rfl, ↓busRead_keeps, ↓replyTo_keeps]; done)) | ((with_reducible refine Keeps.iteUnder ?_ ?_); focus (simp only [Keeps.rfl, ↓busRead_keeps, ↓replyTo_keeps]; done)) | with_reducible refine Keeps.ite ?_ ?_ | (intro; intros) | (split <;> (rename_i heq; with_reducible have e := congrArg Prod.fst heq; with_reducible dsimp only at e; with_reducible subst e)) | split | (fail_if_no_progress with_reducible refine Keeps.lit rfl rfl rfl rfl rfl rfl rfl ?_))

theorem readHubWords_keeps {b s : State} {x0 : Page} {x1 x2 : Nat} (hk : Keeps b s) : Keeps b (readHubWords x0 x1 x2 s).1 := by
  induction x2 generalizing s x1 with
  | zero => exact hk
  | succ n ih =>
    unfold readHubWords
    dsimp only
    split
    · exact readCode_keeps hk
    · exact ih (readCode_keeps hk)

theorem readUnit_keeps {b : State} {s : State} {x1 : _} {x2 : _} {x3 : _} {x4 : _} {x5 : _} {x6 : _} (hk : Keeps b s) : Keeps b (readUnit s x1 x2 x3 x4 x5 x6) := by
  unfold readUnit; try (conv => zeta)
  repeat' (first | with_reducible exact hk | with_reducible exact Keeps.rfl | with_reducible refine replyTo_keeps ?_ | (with_reducible refine setCabinet_keeps rfl rfl rfl ?_) | with_reducible refine sendCmd_keeps ?_ | with_reducible refine Keeps.foldl ?_ ?_ | with_reducible refine Keeps.foldl₂ ?_ ?_ | ((with_reducible refine Keeps.iteOver ?_ ?_); focus (simp only [Keeps.rfl, ↓replyTo_keeps, ↓setCabinet_keeps, ↓sendCmd_keeps]; done)) | ((with_reducible refine Keeps.iteUnder ?_ ?_); focus (simp only [Keeps.rfl, ↓replyTo_keeps, ↓setCabinet_keeps, ↓sendCmd_keeps]; done)) | with_reducible refine Keeps.ite ?_ ?_ | (intro; intros) | (split <;> (rename_i heq; with_reducible have e := congrArg Prod.fst heq; with_reducible dsimp only at e; with_reducible subst e)) | split | (fail_if_no_progress with_reducible refine Keeps.lit rfl rfl rfl rfl rfl rfl rfl ?_))

theorem execRegRead_keeps {b s : State} {x0 x1 : Nat} {x2 : RegAddr} {x3 x4 : Nat} {t : State} (h : execRegRead x0 x1 x2 x3 x4 s = .next t)
    (hk : Keeps b s) : Keeps b t := by
  refine request_keeps (fun y0 y1 => ?_) h hk
  split
  · exact replyTo_keeps Keeps.rfl
  · split
    · exact readUnit_keeps Keeps.rfl
    · exact replyTo_keeps (readHubWords_keeps Keeps.rfl)

theorem execJournalGet_keeps {b : State} {x0 : _} {x1 : _} {x2 : _} {x3 : _} {s : State} {t : State} (h : execJournalGet x0 x1 x2 x3 s = .next t) (hk : Keeps b s) : Keeps b t := by
  unfold execJournalGet at h; try (conv at h => zeta)
  repeat' (first | (with_reducible refine Keeps.next h ?_; clear h) | split at h)
  all_goals repeat' (first | with_reducible exact hk | with_reducible exact Keeps.rfl | with_reducible refine request_keeps ?_ (by assumption) ?_ | with_reducible refine replyTo_keeps ?_ | with_reducible refine deny_keeps ?_ | with_reducible refine Keeps.foldl ?_ ?_ | with_reducible refine Keeps.foldl₂ ?_ ?_ | ((with_reducible refine Keeps.iteOver ?_ ?_); focus (simp only [Keeps.rfl, ↓replyTo_keeps, ↓deny_keeps]; done)) | ((with_reducible refine Keeps.iteUnder ?_ ?_); focus (simp only [Keeps.rfl, ↓replyTo_keeps, ↓deny_keeps]; done)) | with_reducible refine Keeps.ite ?_ ?_ | (intro; intros) | (split <;> (rename_i heq; with_reducible have e := congrArg Prod.fst heq; with_reducible dsimp only at e; with_reducible subst e)) | split | (fail_if_no_progress with_reducible refine Keeps.lit rfl rfl rfl rfl rfl rfl rfl ?_))

theorem execJournalList_keeps {b : State} {x0 : _} {x1 : _} {x2 : _} {x3 : _} {x4 : _} {s : State} {t : State} (h : execJournalList x0 x1 x2 x3 x4 s = .next t) (hk : Keeps b s) : Keeps b t := by
  unfold execJournalList at h; try (conv at h => zeta)
  repeat' (first | (with_reducible refine Keeps.next h ?_; clear h) | split at h)
  all_goals repeat' (first | with_reducible exact hk | with_reducible exact Keeps.rfl | with_reducible refine request_keeps ?_ (by assumption) ?_ | with_reducible refine replyTo_keeps ?_ | with_reducible refine Keeps.foldl ?_ ?_ | with_reducible refine Keeps.foldl₂ ?_ ?_ | ((with_reducible refine Keeps.iteOver ?_ ?_); focus (simp only [Keeps.rfl, ↓replyTo_keeps]; done)) | ((with_reducible refine Keeps.iteUnder ?_ ?_); focus (simp only [Keeps.rfl, ↓replyTo_keeps]; done)) | with_reducible refine Keeps.ite ?_ ?_ | (intro; intros) | (split <;> (rename_i heq; with_reducible have e := congrArg Prod.fst heq; with_reducible dsimp only at e; with_reducible subst e)) | split | (fail_if_no_progress with_reducible refine Keeps.lit rfl rfl rfl rfl rfl rfl rfl ?_))

theorem execVerdictsGet_keeps {b : State} {x0 : _} {x1 : _} {x2 : _} {x3 : _} {x4 : _} {s : State} {t : State} (h : execVerdictsGet x0 x1 x2 x3 x4 s = .next t) (hk : Keeps b s) : Keeps b t := by
  unfold execVerdictsGet at h; try (conv at h => zeta)
  repeat' (first | (with_reducible refine Keeps.next h ?_; clear h) | split at h)
  all_goals repeat' (first | with_reducible exact hk | with_reducible exact Keeps.rfl | with_reducible refine jobRequest_keeps ?_ (by assumption) ?_ | with_reducible refine replyTo_keeps ?_ | with_reducible refine Keeps.foldl ?_ ?_ | with_reducible refine Keeps.foldl₂ ?_ ?_ | ((with_reducible refine Keeps.iteOver ?_ ?_); focus (simp only [Keeps.rfl, ↓replyTo_keeps]; done)) | ((with_reducible refine Keeps.iteUnder ?_ ?_); focus (simp only [Keeps.rfl, ↓replyTo_keeps]; done)) | with_reducible refine Keeps.ite ?_ ?_ | (intro; intros) | (split <;> (rename_i heq; with_reducible have e := congrArg Prod.fst heq; with_reducible dsimp only at e; with_reducible subst e)) | split | (fail_if_no_progress with_reducible refine Keeps.lit rfl rfl rfl rfl rfl rfl rfl ?_))

theorem freeMeans_keeps {b s : State} {x0 : Nat} (hk : Keeps b s) : Keeps b (freeMeans x0 s).1 := by
  induction x0 generalizing s with
  | zero => exact hk
  | succ n ih => unfold freeMeans; exact ih (State.free_keeps hk)

theorem tenantSummaries_keeps {b : State} {s : State} {x1 : _} {x2 : _} (hk : Keeps b s) : Keeps b (tenantSummaries s x1 x2).1 := by
  unfold tenantSummaries; try (conv => zeta)
  repeat' (first | with_reducible exact hk | with_reducible exact Keeps.rfl | with_reducible refine freeMeans_keeps ?_ | with_reducible refine Keeps.foldl ?_ ?_ | with_reducible refine Keeps.foldl₂ ?_ ?_ | ((with_reducible refine Keeps.iteOver ?_ ?_); focus (simp only [Keeps.rfl, ↓freeMeans_keeps]; done)) | ((with_reducible refine Keeps.iteUnder ?_ ?_); focus (simp only [Keeps.rfl, ↓freeMeans_keeps]; done)) | with_reducible refine Keeps.ite ?_ ?_ | (intro; intros) | (split <;> (rename_i heq; with_reducible have e := congrArg Prod.fst heq; with_reducible dsimp only at e; with_reducible subst e)) | split | (fail_if_no_progress with_reducible refine Keeps.lit rfl rfl rfl rfl rfl rfl rfl ?_))

theorem execSummaryGet_keeps {b : State} {x0 : _} {x1 : _} {x2 : _} {x3 : _} {x4 : _} {s : State} {t : State} (h : execSummaryGet x0 x1 x2 x3 x4 s = .next t) (hk : Keeps b s) : Keeps b t := by
  unfold execSummaryGet at h; try (conv at h => zeta)
  repeat' (first | (with_reducible refine Keeps.next h ?_; clear h) | split at h)
  all_goals repeat' (first | with_reducible exact hk | with_reducible exact Keeps.rfl | with_reducible refine jobRequest_keeps ?_ (by assumption) ?_ | with_reducible refine replyTo_keeps ?_ | with_reducible refine tenantSummaries_keeps ?_ | with_reducible refine Keeps.foldl ?_ ?_ | with_reducible refine Keeps.foldl₂ ?_ ?_ | ((with_reducible refine Keeps.iteOver ?_ ?_); focus (simp only [Keeps.rfl, ↓replyTo_keeps, ↓tenantSummaries_keeps]; done)) | ((with_reducible refine Keeps.iteUnder ?_ ?_); focus (simp only [Keeps.rfl, ↓replyTo_keeps, ↓tenantSummaries_keeps]; done)) | with_reducible refine Keeps.ite ?_ ?_ | (intro; intros) | (split <;> (rename_i heq; with_reducible have e := congrArg Prod.fst heq; with_reducible dsimp only at e; with_reducible subst e)) | split | (fail_if_no_progress with_reducible refine Keeps.lit rfl rfl rfl rfl rfl rfl rfl ?_))

theorem execEnergyGet_keeps {b : State} {x0 : _} {x1 : _} {x2 : _} {x3 : _} {x4 : _} {s : State} {t : State} (h : execEnergyGet x0 x1 x2 x3 x4 s = .next t) (hk : Keeps b s) : Keeps b t := by
  unfold execEnergyGet at h; try (conv at h => zeta)
  repeat' (first | (with_reducible refine Keeps.next h ?_; clear h) | split at h)
  all_goals repeat' (first | with_reducible exact hk | with_reducible exact Keeps.rfl | with_reducible refine jobRequest_keeps ?_ (by assumption) ?_ | with_reducible refine replyTo_keeps ?_ | with_reducible refine Keeps.foldl ?_ ?_ | with_reducible refine Keeps.foldl₂ ?_ ?_ | ((with_reducible refine Keeps.iteOver ?_ ?_); focus (simp only [Keeps.rfl, ↓replyTo_keeps]; done)) | ((with_reducible refine Keeps.iteUnder ?_ ?_); focus (simp only [Keeps.rfl, ↓replyTo_keeps]; done)) | with_reducible refine Keeps.ite ?_ ?_ | (intro; intros) | (split <;> (rename_i heq; with_reducible have e := congrArg Prod.fst heq; with_reducible dsimp only at e; with_reducible subst e)) | split | (fail_if_no_progress with_reducible refine Keeps.lit rfl rfl rfl rfl rfl rfl rfl ?_))

theorem execBureauRead_keeps {b : State} {x0 : _} {x1 : _} {x2 : _} {s : State} {t : State} (h : execBureauRead x0 x1 x2 s = .next t) (hk : Keeps b s) : Keeps b t := by
  unfold execBureauRead at h; try (conv at h => zeta)
  repeat' (first | (with_reducible refine Keeps.next h ?_; clear h) | split at h)
  all_goals repeat' (first | with_reducible exact hk | with_reducible exact Keeps.rfl | with_reducible refine request_keeps ?_ (by assumption) ?_ | with_reducible refine replyTo_keeps ?_ | with_reducible refine Keeps.foldl ?_ ?_ | with_reducible refine Keeps.foldl₂ ?_ ?_ | ((with_reducible refine Keeps.iteOver ?_ ?_); focus (simp only [Keeps.rfl, ↓replyTo_keeps]; done)) | ((with_reducible refine Keeps.iteUnder ?_ ?_); focus (simp only [Keeps.rfl, ↓replyTo_keeps]; done)) | with_reducible refine Keeps.ite ?_ ?_ | (intro; intros) | (split <;> (rename_i heq; with_reducible have e := congrArg Prod.fst heq; with_reducible dsimp only at e; with_reducible subst e)) | split | (fail_if_no_progress with_reducible refine Keeps.lit rfl rfl rfl rfl rfl rfl rfl ?_))

theorem execSubscribe_keeps {b : State} {x0 : _} {x1 : _} {x2 : _} {x3 : _} {s : State} {t : State} (h : execSubscribe x0 x1 x2 x3 s = .next t) (hk : Keeps b s) : Keeps b t := by
  unfold execSubscribe at h; try (conv at h => zeta)
  repeat' (first | (with_reducible refine Keeps.next h ?_; clear h) | split at h)
  all_goals repeat' (first | with_reducible exact hk | with_reducible exact Keeps.rfl | with_reducible refine request_keeps ?_ (by assumption) ?_ | with_reducible refine deny_keeps ?_ | with_reducible refine replyTo_keeps ?_ | with_reducible refine modSession_keeps ?_ | with_reducible refine Keeps.foldl ?_ ?_ | with_reducible refine Keeps.foldl₂ ?_ ?_ | ((with_reducible refine Keeps.iteOver ?_ ?_); focus (simp only [Keeps.rfl, ↓deny_keeps, ↓replyTo_keeps, ↓modSession_keeps]; done)) | ((with_reducible refine Keeps.iteUnder ?_ ?_); focus (simp only [Keeps.rfl, ↓deny_keeps, ↓replyTo_keeps, ↓modSession_keeps]; done)) | with_reducible refine Keeps.ite ?_ ?_ | (intro; intros) | (split <;> (rename_i heq; with_reducible have e := congrArg Prod.fst heq; with_reducible dsimp only at e; with_reducible subst e)) | split | (fail_if_no_progress with_reducible refine Keeps.lit rfl rfl rfl rfl rfl rfl rfl ?_))

/-! ### Machine/Placement -/

theorem loadSections_keeps {b : State} {s : State} {x1 : _} {x2 : _} (hk : Keeps b s) : Keeps b (loadSections s x1 x2) := by
  unfold loadSections; try (conv => zeta)
  repeat' (first | with_reducible exact hk | with_reducible exact Keeps.rfl | ((with_reducible refine setTile_keeps ?_ ?_); focus (intro h; first | exact getTile_wf h _ | with_reducible exact Tile.write_wf _ _ (getTile_wf h _) | exact storeRow_wf (getTile_wf h _) | exact writeMask_wf (getTile_wf h _) | exact tileFold_wf (fun _ _ hy => storeRow_wf hy) (getTile_wf h _) | exact tileFold_wf (fun _ _ hy => writeOuts_wf hy) (getTile_wf h _))) | with_reducible refine Keeps.foldl ?_ ?_ | with_reducible refine Keeps.foldl₂ ?_ ?_ | ((with_reducible refine Keeps.iteOver ?_ ?_); focus (simp only [Keeps.rfl, ↓setTile_keeps]; done)) | ((with_reducible refine Keeps.iteUnder ?_ ?_); focus (simp only [Keeps.rfl, ↓setTile_keeps]; done)) | with_reducible refine Keeps.ite ?_ ?_ | (intro; intros) | (split <;> (rename_i heq; with_reducible have e := congrArg Prod.fst heq; with_reducible dsimp only at e; with_reducible subst e)) | split | (fail_if_no_progress with_reducible refine Keeps.lit rfl rfl rfl rfl rfl rfl rfl ?_))

theorem loadModel_keeps {b : State} {s : State} {x1 : _} {x2 : _} (hk : Keeps b s) : Keeps b (loadModel s x1 x2) := by
  unfold loadModel; try (conv => zeta)
  repeat' (first | with_reducible exact hk | with_reducible exact Keeps.rfl | with_reducible refine hbmWrite_keeps ?_ | with_reducible refine Keeps.foldl ?_ ?_ | with_reducible refine Keeps.foldl₂ ?_ ?_ | ((with_reducible refine Keeps.iteOver ?_ ?_); focus (simp only [Keeps.rfl, ↓hbmWrite_keeps]; done)) | ((with_reducible refine Keeps.iteUnder ?_ ?_); focus (simp only [Keeps.rfl, ↓hbmWrite_keeps]; done)) | with_reducible refine Keeps.ite ?_ ?_ | (intro; intros) | (split <;> (rename_i heq; with_reducible have e := congrArg Prod.fst heq; with_reducible dsimp only at e; with_reducible subst e)) | split | (fail_if_no_progress with_reducible refine Keeps.lit rfl rfl rfl rfl rfl rfl rfl ?_))

theorem loadTile_keeps {b : State} {s : State} {x1 : _} {x2 : _} {x3 : _} {x4 : _} {x5 : _} {x6 : _} {x7 : _} {x8 : _} (hk : Keeps b s) : Keeps b (loadTile s x1 x2 x3 x4 x5 x6 x7 x8) := by
  unfold loadTile; try (conv => zeta)
  repeat' (first | with_reducible exact hk | with_reducible refine seqHalt_keeps ?_ | with_reducible refine loadSections_keeps ?_ | with_reducible refine State.wr_keeps ?_ | with_reducible refine seqStart_keeps ?_ | split)

theorem loadSet_keeps {b : State} {s : State} {x1 : _} {x2 : _} {x3 : _} {x4 : _} (hk : Keeps b s) : Keeps b (loadSet s x1 x2 x3 x4) := by
  unfold loadSet; try (conv => zeta)
  repeat' (first | with_reducible exact hk | with_reducible exact Keeps.rfl | with_reducible refine loadTile_keeps ?_ | with_reducible refine loadModel_keeps ?_ | with_reducible refine Keeps.foldl ?_ ?_ | with_reducible refine Keeps.foldl₂ ?_ ?_ | ((with_reducible refine Keeps.iteOver ?_ ?_); focus (simp only [Keeps.rfl, ↓loadTile_keeps, ↓loadModel_keeps]; done)) | ((with_reducible refine Keeps.iteUnder ?_ ?_); focus (simp only [Keeps.rfl, ↓loadTile_keeps, ↓loadModel_keeps]; done)) | with_reducible refine Keeps.ite ?_ ?_ | (intro; intros) | (split <;> (rename_i heq; with_reducible have e := congrArg Prod.fst heq; with_reducible dsimp only at e; with_reducible subst e)) | split | (fail_if_no_progress with_reducible refine Keeps.lit rfl rfl rfl rfl rfl rfl rfl ?_))

theorem stageFree_keeps {b : State} {s : State} {x1 : _} (hk : Keeps b s) : Keeps b (stageFree s x1) := by
  unfold stageFree; try (conv => zeta)
  repeat' (first | with_reducible exact hk | with_reducible refine State.wr_keeps ?_ | split)

end Sys2Proof.Machine
end

