-- ==== Sys2Proof/Laws/KeepsRecovery.lean ====
section
/-!
SUPPORT. Sys2Proof/Laws/KeepsRecovery.lean: what every operation of Machine/Recovery, Machine/Changes, Machine/HubDigest, Machine/Descriptor keeps (Laws/Keeps.lean).
-/
set_option linter.all false
namespace Sys2Proof.Machine

/-! ### Machine/Recovery -/

theorem setTest_keeps {b : State} {s : State} {x1 : _} {x2 : _} (hk : Keeps b s) : Keeps b (setTest s x1 x2) := by
  unfold setTest; try (conv => zeta)
  repeat' (first | with_reducible exact hk | (with_reducible refine setCabinet_keeps rfl rfl rfl ?_) | split)

theorem chargeTile_keeps {b : State} {s : State} {x1 : _} (hk : Keeps b s) : Keeps b (chargeTile s x1) := by
  unfold chargeTile; try (conv => zeta)
  repeat' (first | with_reducible exact hk | with_reducible refine retireForGood_keeps ?_ | with_reducible refine setTest_keeps ?_ | split)

theorem failTile_keeps {b : State} {s : State} {x1 : _} (hk : Keeps b s) : Keeps b (failTile s x1) := by
  unfold failTile; try (conv => zeta)
  repeat' (first | with_reducible exact hk | with_reducible refine retireForGood_keeps ?_ | with_reducible refine hubFault_keeps ?_ | split)

theorem execSelftestChunk_keeps {b : State} {x0 : _} {x1 : _} {s : State} {t : State} (h : execSelftestChunk x0 x1 s = .next t) (hk : Keeps b s) : Keeps b t := by
  unfold execSelftestChunk at h; try (conv at h => zeta)
  repeat' (first | (with_reducible refine Keeps.next h ?_; clear h) | split at h)
  all_goals repeat' (first | with_reducible exact hk | with_reducible refine setTest_keeps ?_ | with_reducible refine failTile_keeps ?_ | split)

theorem loadCheck_keeps {b : State} {s : State} {x1 : _} {x2 : _} {x3 : _} (hk : Keeps b s) : Keeps b (loadCheck s x1 x2 x3) := by
  unfold loadCheck; try (conv => zeta)
  repeat' (first | with_reducible exact hk | with_reducible refine loadSections_keeps ?_ | with_reducible refine seqHalt_keeps ?_ | with_reducible refine seqStart_keeps ?_ | with_reducible refine State.wr_keeps ?_ | split)

theorem tellSet_keeps {b : State} {s : State} {x1 : _} {x2 : _} (hk : Keeps b s) : Keeps b (tellSet s x1 x2) := by
  unfold tellSet; try (conv => zeta)
  repeat' (first | with_reducible exact hk | with_reducible exact Keeps.rfl | with_reducible refine tilActWrite_keeps ?_ | with_reducible refine Keeps.foldl ?_ ?_ | with_reducible refine Keeps.foldl₂ ?_ ?_ | ((with_reducible refine Keeps.iteOver ?_ ?_); focus (simp only [Keeps.rfl, ↓tilActWrite_keeps]; done)) | ((with_reducible refine Keeps.iteUnder ?_ ?_); focus (simp only [Keeps.rfl, ↓tilActWrite_keeps]; done)) | with_reducible refine Keeps.ite ?_ ?_ | (intro; intros) | (split <;> (rename_i heq; with_reducible have e := congrArg Prod.fst heq; with_reducible dsimp only at e; with_reducible subst e)) | split | (fail_if_no_progress with_reducible refine Keeps.lit rfl rfl rfl rfl rfl rfl rfl ?_))

theorem checkFails_keeps {b : State} {s : State} {x1 : _} {x2 : _} {x3 : _} {x4 : _} (hk : Keeps b s) : Keeps b (checkFails s x1 x2 x3 x4) := by
  unfold checkFails; try (conv => zeta)
  repeat' (first | with_reducible exact hk | with_reducible exact Keeps.rfl | with_reducible refine chargeTile_keeps ?_ | with_reducible refine hubFault_keeps ?_ | with_reducible refine partitionFault_keeps ?_ | with_reducible refine modJob_keeps ?_ | with_reducible refine Keeps.foldl ?_ ?_ | with_reducible refine Keeps.foldl₂ ?_ ?_ | ((with_reducible refine Keeps.iteOver ?_ ?_); focus (simp only [Keeps.rfl, ↓chargeTile_keeps, ↓hubFault_keeps, ↓partitionFault_keeps, ↓modJob_keeps]; done)) | ((with_reducible refine Keeps.iteUnder ?_ ?_); focus (simp only [Keeps.rfl, ↓chargeTile_keeps, ↓hubFault_keeps, ↓partitionFault_keeps, ↓modJob_keeps]; done)) | with_reducible refine Keeps.ite ?_ ?_ | (intro; intros) | (split <;> (rename_i heq; with_reducible have e := congrArg Prod.fst heq; with_reducible dsimp only at e; with_reducible subst e)) | split | (fail_if_no_progress with_reducible refine Keeps.lit rfl rfl rfl rfl rfl rfl rfl ?_))

theorem compareCheck_keeps {b : State} {s : State} {x1 : _} {x2 : _} {x3 : _} {x4 : _} {x5 : _} {x6 : _} {x7 : _} (hk : Keeps b s) : Keeps b (compareCheck s x1 x2 x3 x4 x5 x6 x7) := by
  unfold compareCheck; try (conv => zeta)
  repeat' (first | with_reducible exact hk | with_reducible refine tellSet_keeps ?_ | with_reducible refine modJob_keeps ?_ | with_reducible refine checkFails_keeps ?_ | split)

theorem execCheckWindow_keeps {b : State} {x0 : _} {x1 : _} {x2 : _} {x3 : _} {s : State} {t : State} (h : execCheckWindow x0 x1 x2 x3 s = .next t) (hk : Keeps b s) : Keeps b t := by
  unfold execCheckWindow at h; try (conv at h => zeta)
  repeat' (first | (with_reducible refine Keeps.next h ?_; clear h) | split at h)
  all_goals repeat' (first | with_reducible exact hk | with_reducible refine tellSet_keeps ?_ | with_reducible refine loadCheck_keeps ?_ | with_reducible refine compareCheck_keeps ?_ | split)

theorem cancelTiles_keeps {b : State} {s : State} {x1 : _} (hk : Keeps b s) : Keeps b (cancelTiles s x1) := by
  unfold cancelTiles; try (conv => zeta)
  repeat' (first | with_reducible exact hk | with_reducible exact Keeps.rfl | with_reducible refine cancelChecked_keeps ?_ | with_reducible refine Keeps.foldl ?_ ?_ | with_reducible refine Keeps.foldl₂ ?_ ?_ | ((with_reducible refine Keeps.iteOver ?_ ?_); focus (simp only [Keeps.rfl, ↓cancelChecked_keeps]; done)) | ((with_reducible refine Keeps.iteUnder ?_ ?_); focus (simp only [Keeps.rfl, ↓cancelChecked_keeps]; done)) | with_reducible refine Keeps.ite ?_ ?_ | (intro; intros) | (split <;> (rename_i heq; with_reducible have e := congrArg Prod.fst heq; with_reducible dsimp only at e; with_reducible subst e)) | split | (fail_if_no_progress with_reducible refine Keeps.lit rfl rfl rfl rfl rfl rfl rfl ?_))

theorem armTiles_keeps {b : State} {s : State} {x1 : _} {x2 : _} {t : State} (h : armTiles s x1 x2 = some t) (hk : Keeps b s) : Keeps b t := by
  unfold armTiles at h; try (conv at h => zeta)
  repeat' (first | with_reducible exact absurd h.symm (Option.some_ne_none _) | (with_reducible refine Keeps.some h ?_; clear h) | split at h)
  all_goals repeat' (first | with_reducible exact hk | with_reducible refine armPages_keeps ?_ | split)

theorem beginRecovery_keeps {b : State} {s : State} {x1 : _} {x2 : _} {x3 : _} (hk : Keeps b s) : Keeps b (beginRecovery s x1 x2 x3) := by
  unfold beginRecovery; try (conv => zeta)
  repeat' (first | with_reducible exact hk | with_reducible refine modJob_keeps ?_ | split)

theorem replaceSet_keeps {b s : State} {x1 : HJob} {x2 : JobGen} {x3 x4 : HImage} {t : State} (h : replaceSet s x1 x2 x3 x4 = some t)
    (hk : Keeps b s) : Keeps b t := by
  unfold replaceSet at h
  dsimp only at h
  obtain ⟨u, hu, rfl⟩ := Option.map_eq_some_iff.mp h
  exact beginRecovery_keeps (armTiles_keeps hu (Keeps.foldl (fun _ _ => stageFree_keeps Keeps.rfl) (loadSet_keeps (cancelTiles_keeps hk))))

theorem moveAway_keeps {b s : State} {x1 : HJob} {x2 : HImage} {x3 : Placement} {x4 : Nat} {t : State} (h : moveAway s x1 x2 x3 x4 = some t)
    (hk : Keeps b s) : Keeps b t := by
  unfold moveAway at h
  dsimp only at h
  obtain ⟨u, hu, rfl⟩ := Option.map_eq_some_iff.mp h
  exact beginRecovery_keeps (State.send_keeps (armTiles_keeps hu (Keeps.foldl (fun _ _ => stageFree_keeps Keeps.rfl) (cancelTiles_keeps hk))))

theorem resetSet_keeps {b s : State} {x1 : HJob} {x2 : JobGen} {x3 : HImage} {t : State} (h : resetSet s x1 x2 x3 = some t)
    (hk : Keeps b s) : Keeps b t := by
  unfold resetSet at h
  dsimp only at h
  obtain ⟨u, hu, rfl⟩ := Option.map_eq_some_iff.mp h
  exact beginRecovery_keeps (armTiles_keeps hu (Keeps.lit (Eq.refl _) (Eq.refl _) (Eq.refl _) (Eq.refl _) (Eq.refl _) (Eq.refl _) (Eq.refl _)
    (loadSet_keeps (Keeps.foldl (fun _ _ => hubSoftReset_keeps Keeps.rfl) (cancelTiles_keeps hk)))))

theorem recoverJob_keeps {b : State} {s : State} {x1 : _} {x2 : _} {x3 : _} {x4 : _} {x5 : _} {t : State} (h : recoverJob s x1 x2 x3 x4 x5 = some t) (hk : Keeps b s) : Keeps b t := by
  unfold recoverJob at h; try (conv at h => zeta)
  repeat' (first | with_reducible exact absurd h.symm (Option.some_ne_none _) | (with_reducible refine Keeps.some h ?_; clear h) | split at h)
  all_goals repeat' (first | with_reducible exact hk | with_reducible refine resetSet_keeps (by assumption) ?_ | with_reducible refine moveAway_keeps (by assumption) ?_ | with_reducible refine replaceSet_keeps (by assumption) ?_ | split)

theorem execPartitionRecovery_keeps {b s : State} {x0 : Nat} {x1 : Option Placement} {x2 : Option Nat} {t : State}
    (h : execPartitionRecovery x0 x1 x2 s = .next t) (hk : Keeps b s) : Keeps b t := by
  unfold execPartitionRecovery at h
  repeat' split at h
  all_goals (cases h)
  all_goals try exact hk
  generalize hr : recoverJob s _ _ _ x1 x2 = o
  cases o with
  | none => exact hk
  | some u => exact recoverJob_keeps hr hk

theorem execPartitionRecoveryDone_keeps {b : State} {x0 : _} {s : State} {t : State} (h : execPartitionRecoveryDone x0 s = .next t) (hk : Keeps b s) : Keeps b t := by
  unfold execPartitionRecoveryDone at h; try (conv at h => zeta)
  repeat' (first | (with_reducible refine Keeps.next h ?_; clear h) | split at h)
  all_goals repeat' (first | with_reducible exact hk | with_reducible refine hubFault_keeps ?_ | with_reducible refine modJob_keeps ?_ | split)

theorem postCorr_keeps {b : State} {s : State} {x1 : _} (hk : Keeps b s) : Keeps b (postCorr s x1) := by
  unfold postCorr; try (conv => zeta)
  repeat' (first | with_reducible exact hk | with_reducible exact Keeps.rfl | with_reducible refine addPend_keeps ?_ | with_reducible refine Keeps.foldl ?_ ?_ | with_reducible refine Keeps.foldl₂ ?_ ?_ | ((with_reducible refine Keeps.iteOver ?_ ?_); focus (simp only [Keeps.rfl, ↓addPend_keeps]; done)) | ((with_reducible refine Keeps.iteUnder ?_ ?_); focus (simp only [Keeps.rfl, ↓addPend_keeps]; done)) | with_reducible refine Keeps.ite ?_ ?_ | (intro; intros) | (split <;> (rename_i heq; with_reducible have e := congrArg Prod.fst heq; with_reducible dsimp only at e; with_reducible subst e)) | split | (fail_if_no_progress with_reducible refine Keeps.lit rfl rfl rfl rfl rfl rfl rfl ?_))

theorem execCorrelationDone_keeps {b : State} {x0 : _} {x1 : _} {s : State} {t : State} (h : execCorrelationDone x0 x1 s = .next t) (hk : Keeps b s) : Keeps b t := by
  unfold execCorrelationDone at h; try (conv at h => zeta)
  repeat' (first | (with_reducible refine Keeps.next h ?_; clear h) | split at h)
  all_goals repeat' (first | with_reducible exact hk | with_reducible exact Keeps.rfl | (with_reducible refine setCabinet_keeps rfl rfl rfl ?_) | with_reducible refine postCorr_keeps ?_ | with_reducible refine modEntry_keeps ?_ | with_reducible refine endEntry_keeps ?_ | with_reducible refine Keeps.foldl ?_ ?_ | with_reducible refine Keeps.foldl₂ ?_ ?_ | ((with_reducible refine Keeps.iteOver ?_ ?_); focus (simp only [Keeps.rfl, ↓setCabinet_keeps, ↓postCorr_keeps, ↓modEntry_keeps, ↓endEntry_keeps]; done)) | ((with_reducible refine Keeps.iteUnder ?_ ?_); focus (simp only [Keeps.rfl, ↓setCabinet_keeps, ↓postCorr_keeps, ↓modEntry_keeps, ↓endEntry_keeps]; done)) | with_reducible refine Keeps.ite ?_ ?_ | (intro; intros) | (split <;> (rename_i heq; with_reducible have e := congrArg Prod.fst heq; with_reducible dsimp only at e; with_reducible subst e)) | split | (fail_if_no_progress with_reducible refine Keeps.lit rfl rfl rfl rfl rfl rfl rfl ?_))

/-! ### Machine/Changes -/

theorem enterJournal_keeps {b s : State} {x1 x2 x3 x4 x5 : Nat} (hk : Keeps b s) : Keeps b (enterJournal s x1 x2 x3 x4 x5).1 :=
  setCabinet_journal_keeps (fun h => h.cons _ (Eq.refl _)) hk

theorem journalled_keeps {b : State} {s : State} {x1 : _} {x2 : _} {x3 : _} {x4 : _} {x5 : _} (hx5 : ∀ y0 y1, Keeps y0 (x5 y0 y1)) (hk : Keeps b s) : Keeps b (journalled s x1 x2 x3 x4 x5) := by
  unfold journalled; try (conv => zeta)
  repeat' (first | with_reducible exact hk | with_reducible exact Keeps.rfl | with_reducible refine replyTo_keeps ?_ | with_reducible refine journalRoom_keeps (by assumption) ?_ | with_reducible refine raise_keeps ?_ | with_reducible refine enterJournal_keeps ?_ | with_reducible refine Keeps.foldl ?_ ?_ | with_reducible refine Keeps.foldl₂ ?_ ?_ | ((with_reducible refine Keeps.iteOver ?_ ?_); focus (simp only [Keeps.rfl, ↓replyTo_keeps, ↓raise_keeps, ↓enterJournal_keeps]; done)) | ((with_reducible refine Keeps.iteUnder ?_ ?_); focus (simp only [Keeps.rfl, ↓replyTo_keeps, ↓raise_keeps, ↓enterJournal_keeps]; done)) | with_reducible refine Keeps.ite ?_ ?_ | (intro; intros) | with_reducible exact hx5 _ _  | with_reducible refine (Keeps.trans ?_ (hx5 _ _ )) | (split <;> (rename_i heq; with_reducible have e := congrArg Prod.fst heq; with_reducible dsimp only at e; with_reducible subst e)) | split | (fail_if_no_progress with_reducible refine Keeps.lit rfl rfl rfl rfl rfl rfl rfl ?_))

theorem operation_keeps {b : State} {s : State} {x1 : _} {x2 : _} {x3 : _} {x4 : _} {x5 : _} (hx5 : ∀ y0 y1, Keeps y0 (x5 y0 y1)) {t : State} (h : operation s x1 x2 x3 x4 x5 = .next t) (hk : Keeps b s) : Keeps b t := by
  unfold operation at h; try (conv at h => zeta)
  repeat' (first | (with_reducible refine Keeps.next h ?_; clear h) | split at h)
  all_goals repeat' (first | with_reducible exact hk | with_reducible exact Keeps.rfl | with_reducible refine request_keeps ?_ (by assumption) ?_ | with_reducible refine journalled_keeps ?_ ?_ | with_reducible refine Keeps.foldl ?_ ?_ | with_reducible refine Keeps.foldl₂ ?_ ?_ | ((with_reducible refine Keeps.iteOver ?_ ?_); focus (simp only [Keeps.rfl]; done)) | ((with_reducible refine Keeps.iteUnder ?_ ?_); focus (simp only [Keeps.rfl]; done)) | with_reducible refine Keeps.ite ?_ ?_ | (intro; intros) | with_reducible exact hx5 _ _  | with_reducible refine (Keeps.trans ?_ (hx5 _ _ )) | (split <;> (rename_i heq; with_reducible have e := congrArg Prod.fst heq; with_reducible dsimp only at e; with_reducible subst e)) | split | (fail_if_no_progress with_reducible refine Keeps.lit rfl rfl rfl rfl rfl rfl rfl ?_))

theorem abort_keeps {b : State} {s : State} {x1 : _} {x2 : _} (hk : Keeps b s) : Keeps b (abort s x1 x2) := by
  unfold abort; try (conv => zeta)
  repeat' (first | with_reducible exact hk | with_reducible refine endEntry_keeps ?_ | split)

theorem startEntry_keeps {b : State} {s : State} {x1 : _} {x2 : _} (hk : Keeps b s) : Keeps b (startEntry s x1 x2) := by
  unfold startEntry; try (conv => zeta)
  repeat' (first | with_reducible exact hk | with_reducible refine modEntry_keeps ?_ | split)

theorem startChange_keeps {b : State} {s : State} {x1 : _} {x2 : _} {x3 : _} {x4 : _} {x5 : _} {x6 : _} (hk : Keeps b s) : Keeps b (startChange s x1 x2 x3 x4 x5 x6) := by
  unfold startChange; try (conv => zeta)
  repeat' (first | with_reducible exact hk | with_reducible exact Keeps.rfl | with_reducible refine armPages_keeps ?_ | with_reducible refine modEntry_keeps ?_ | with_reducible refine unarm_keeps ?_ | with_reducible refine abort_keeps ?_ | with_reducible refine withdraw_keeps ?_ | with_reducible refine startEntry_keeps ?_ | with_reducible refine advance_keeps ?_ | with_reducible refine State.send_keeps ?_ | with_reducible refine Keeps.foldl ?_ ?_ | with_reducible refine Keeps.foldl₂ ?_ ?_ | ((with_reducible refine Keeps.iteOver ?_ ?_); focus (simp only [Keeps.rfl, ↓armPages_keeps, ↓modEntry_keeps, ↓unarm_keeps, ↓abort_keeps, ↓withdraw_keeps, ↓startEntry_keeps, ↓advance_keeps, ↓State.send_keeps]; done)) | ((with_reducible refine Keeps.iteUnder ?_ ?_); focus (simp only [Keeps.rfl, ↓armPages_keeps, ↓modEntry_keeps, ↓unarm_keeps, ↓abort_keeps, ↓withdraw_keeps, ↓startEntry_keeps, ↓advance_keeps, ↓State.send_keeps]; done)) | with_reducible refine Keeps.ite ?_ ?_ | (intro; intros) | (split <;> (rename_i heq; with_reducible have e := congrArg Prod.fst heq; with_reducible dsimp only at e; with_reducible subst e)) | split | (fail_if_no_progress with_reducible refine Keeps.lit rfl rfl rfl rfl rfl rfl rfl ?_))

theorem drawKey_keeps {b s : State} {x0 : Nat} (hk : Keeps b s) : Keeps b (drawKey x0 s).1 := by
  induction x0 generalizing s with
  | zero => exact hk
  | succ n ih => unfold drawKey; exact ih (State.free_keeps hk)

theorem makeKey_keeps {b s : State} {x1 x2 x3 : Nat} {x4 : List Nat} {t : State} {r : Nat} (h : makeKey s x1 x2 x3 x4 = some (t, r))
    (hk : Keeps b s) : Keeps b t := by
  unfold makeKey at h
  split at h
  · cases h; exact hk
  · split at h
    · cases h
    · cases h; exact Keeps.foldl (fun _ _ => State.send_keeps Keeps.rfl) (addKey_keeps (drawKey_keeps hk))

theorem stageJob_keeps {b : State} {s : State} {x1 : _} {x2 : _} {x3 : _} {x4 : _} (hk : Keeps b s) : Keeps b (stageJob s x1 x2 x3 x4) := by
  unfold stageJob; try (conv => zeta)
  repeat' (first | with_reducible exact hk | with_reducible exact Keeps.rfl | with_reducible refine State.wr_keeps ?_ | with_reducible refine Keeps.foldl ?_ ?_ | with_reducible refine Keeps.foldl₂ ?_ ?_ | ((with_reducible refine Keeps.iteOver ?_ ?_); focus (simp only [Keeps.rfl, ↓State.wr_keeps]; done)) | ((with_reducible refine Keeps.iteUnder ?_ ?_); focus (simp only [Keeps.rfl, ↓State.wr_keeps]; done)) | with_reducible refine Keeps.ite ?_ ?_ | (intro; intros) | (split <;> (rename_i heq; with_reducible have e := congrArg Prod.fst heq; with_reducible dsimp only at e; with_reducible subst e)) | split | (fail_if_no_progress with_reducible refine Keeps.lit rfl rfl rfl rfl rfl rfl rfl ?_))

theorem stageField_keeps {b : State} {s : State} {x1 : _} {x2 : _} {x3 : _} (hk : Keeps b s) : Keeps b (stageField s x1 x2 x3) := by
  unfold stageField; try (conv => zeta)
  repeat' (first | with_reducible exact hk | with_reducible refine State.wr_keeps ?_ | split)

theorem stageTable_keeps {b : State} {s : State} {x1 : _} {x2 : _} (hk : Keeps b s) : Keeps b (stageTable s x1 x2) := by
  unfold stageTable; try (conv => zeta)
  repeat' (first | with_reducible exact hk | with_reducible exact Keeps.rfl | with_reducible refine stageField_keeps ?_ | with_reducible refine State.wr_keeps ?_ | with_reducible refine Keeps.foldl ?_ ?_ | with_reducible refine Keeps.foldl₂ ?_ ?_ | ((with_reducible refine Keeps.iteOver ?_ ?_); focus (simp only [Keeps.rfl, ↓stageField_keeps, ↓State.wr_keeps]; done)) | ((with_reducible refine Keeps.iteUnder ?_ ?_); focus (simp only [Keeps.rfl, ↓stageField_keeps, ↓State.wr_keeps]; done)) | with_reducible refine Keeps.ite ?_ ?_ | (intro; intros) | (split <;> (rename_i heq; with_reducible have e := congrArg Prod.fst heq; with_reducible dsimp only at e; with_reducible subst e)) | split | (fail_if_no_progress with_reducible refine Keeps.lit rfl rfl rfl rfl rfl rfl rfl ?_))

theorem stageId_keeps {b : State} {s : State} {x1 : _} {x2 : _} {x3 : _} (hk : Keeps b s) : Keeps b (stageId s x1 x2 x3) := by
  unfold stageId; try (conv => zeta)
  repeat' (first | with_reducible exact hk | with_reducible exact Keeps.rfl | with_reducible refine State.wr_keeps ?_ | with_reducible refine Keeps.foldl ?_ ?_ | with_reducible refine Keeps.foldl₂ ?_ ?_ | ((with_reducible refine Keeps.iteOver ?_ ?_); focus (simp only [Keeps.rfl, ↓State.wr_keeps]; done)) | ((with_reducible refine Keeps.iteUnder ?_ ?_); focus (simp only [Keeps.rfl, ↓State.wr_keeps]; done)) | with_reducible refine Keeps.ite ?_ ?_ | (intro; intros) | (split <;> (rename_i heq; with_reducible have e := congrArg Prod.fst heq; with_reducible dsimp only at e; with_reducible subst e)) | split | (fail_if_no_progress with_reducible refine Keeps.lit rfl rfl rfl rfl rfl rfl rfl ?_))

theorem createJob_keeps {b : State} {s : State} {x1 : _} {x2 : _} {x3 : _} {x4 : _} {x5 : _} {x6 : _} {x7 : _} {x8 : _} {x9 : _} {x10 : _} {x11 : _} (hk : Keeps b s) : Keeps b (createJob s x1 x2 x3 x4 x5 x6 x7 x8 x9 x10 x11) := by
  unfold createJob; try (conv => zeta)
  repeat' (first | with_reducible exact hk | with_reducible exact Keeps.rfl | with_reducible refine makeKey_keeps (by assumption) ?_ | with_reducible refine abort_keeps ?_ | with_reducible refine stageTable_keeps ?_ | with_reducible refine stageJob_keeps ?_ | with_reducible refine stageId_keeps ?_ | with_reducible refine startChange_keeps ?_ | with_reducible refine Keeps.foldl ?_ ?_ | with_reducible refine Keeps.foldl₂ ?_ ?_ | ((with_reducible refine Keeps.iteOver ?_ ?_); focus (simp only [Keeps.rfl, ↓abort_keeps, ↓stageTable_keeps, ↓stageJob_keeps, ↓stageId_keeps, ↓startChange_keeps]; done)) | ((with_reducible refine Keeps.iteUnder ?_ ?_); focus (simp only [Keeps.rfl, ↓abort_keeps, ↓stageTable_keeps, ↓stageJob_keeps, ↓stageId_keeps, ↓startChange_keeps]; done)) | with_reducible refine Keeps.ite ?_ ?_ | (intro; intros) | (split <;> (rename_i heq; with_reducible have e := congrArg Prod.fst heq; with_reducible dsimp only at e; with_reducible subst e)) | split | (fail_if_no_progress with_reducible refine Keeps.lit rfl rfl rfl rfl rfl rfl rfl ?_))

theorem execJobCreate_keeps {b : State} {x0 : _} {x1 : _} {x2 : _} {x3 : _} {x4 : _} {x5 : _} {x6 : _} {x7 : _} {x8 : _} {x9 : _} {x10 : _} {x11 : _} {s : State} {t : State} (h : execJobCreate x0 x1 x2 x3 x4 x5 x6 x7 x8 x9 x10 x11 s = .next t) (hk : Keeps b s) : Keeps b t := by
  unfold execJobCreate at h; try (conv at h => zeta)
  repeat' (first | (with_reducible refine Keeps.next h ?_; clear h) | split at h)
  all_goals repeat' (first | with_reducible exact hk | with_reducible exact Keeps.rfl | with_reducible refine operation_keeps ?_ (by assumption) ?_ | with_reducible refine abort_keeps ?_ | with_reducible refine createJob_keeps ?_ | with_reducible refine Keeps.foldl ?_ ?_ | with_reducible refine Keeps.foldl₂ ?_ ?_ | ((with_reducible refine Keeps.iteOver ?_ ?_); focus (simp only [Keeps.rfl, ↓abort_keeps, ↓createJob_keeps]; done)) | ((with_reducible refine Keeps.iteUnder ?_ ?_); focus (simp only [Keeps.rfl, ↓abort_keeps, ↓createJob_keeps]; done)) | with_reducible refine Keeps.ite ?_ ?_ | (intro; intros) | (split <;> (rename_i heq; with_reducible have e := congrArg Prod.fst heq; with_reducible dsimp only at e; with_reducible subst e)) | split | (fail_if_no_progress with_reducible refine Keeps.lit rfl rfl rfl rfl rfl rfl rfl ?_))

theorem changeRoster_keeps {b : State} {s : State} {x1 : _} {x2 : _} {x3 : _} {x4 : _} {x5 : _} {x6 : _} {x7 : _} {x8 : _} (hk : Keeps b s) : Keeps b (changeRoster s x1 x2 x3 x4 x5 x6 x7 x8) := by
  unfold changeRoster; try (conv => zeta)
  repeat' (first | with_reducible exact hk | with_reducible exact Keeps.rfl | with_reducible refine makeKey_keeps (by assumption) ?_ | with_reducible refine abort_keeps ?_ | with_reducible refine stageJob_keeps ?_ | with_reducible refine startChange_keeps ?_ | with_reducible refine Keeps.foldl ?_ ?_ | with_reducible refine Keeps.foldl₂ ?_ ?_ | ((with_reducible refine Keeps.iteOver ?_ ?_); focus (simp only [Keeps.rfl, ↓abort_keeps, ↓stageJob_keeps, ↓startChange_keeps]; done)) | ((with_reducible refine Keeps.iteUnder ?_ ?_); focus (simp only [Keeps.rfl, ↓abort_keeps, ↓stageJob_keeps, ↓startChange_keeps]; done)) | with_reducible refine Keeps.ite ?_ ?_ | (intro; intros) | (split <;> (rename_i heq; with_reducible have e := congrArg Prod.fst heq; with_reducible dsimp only at e; with_reducible subst e)) | split | (fail_if_no_progress with_reducible refine Keeps.lit rfl rfl rfl rfl rfl rfl rfl ?_))

theorem execRosterChange_keeps {b : State} {x0 : _} {x1 : _} {x2 : _} {x3 : _} {x4 : _} {x5 : _} {s : State} {t : State} (h : execRosterChange x0 x1 x2 x3 x4 x5 s = .next t) (hk : Keeps b s) : Keeps b t := by
  unfold execRosterChange at h; try (conv at h => zeta)
  repeat' (first | (with_reducible refine Keeps.next h ?_; clear h) | split at h)
  all_goals repeat' (first | with_reducible exact hk | with_reducible exact Keeps.rfl | with_reducible refine operation_keeps ?_ (by assumption) ?_ | with_reducible refine abort_keeps ?_ | with_reducible refine changeRoster_keeps ?_ | with_reducible refine Keeps.foldl ?_ ?_ | with_reducible refine Keeps.foldl₂ ?_ ?_ | ((with_reducible refine Keeps.iteOver ?_ ?_); focus (simp only [Keeps.rfl, ↓abort_keeps, ↓changeRoster_keeps]; done)) | ((with_reducible refine Keeps.iteUnder ?_ ?_); focus (simp only [Keeps.rfl, ↓abort_keeps, ↓changeRoster_keeps]; done)) | with_reducible refine Keeps.ite ?_ ?_ | (intro; intros) | (split <;> (rename_i heq; with_reducible have e := congrArg Prod.fst heq; with_reducible dsimp only at e; with_reducible subst e)) | split | (fail_if_no_progress with_reducible refine Keeps.lit rfl rfl rfl rfl rfl rfl rfl ?_))

theorem rollEpoch_keeps {b : State} {s : State} {x1 : _} {x2 : _} {x3 : _} {x4 : _} {x5 : _} (hk : Keeps b s) : Keeps b (rollEpoch s x1 x2 x3 x4 x5) := by
  unfold rollEpoch; try (conv => zeta)
  repeat' (first | with_reducible exact hk | with_reducible refine makeKey_keeps (by assumption) ?_ | with_reducible refine abort_keeps ?_ | with_reducible refine stageJob_keeps ?_ | with_reducible refine startChange_keeps ?_ | split)

theorem rollJob_keeps {b : State} {s : State} {x1 : _} {x2 : _} (hk : Keeps b s) : Keeps b (rollJob s x1 x2) := by
  unfold rollJob; try (conv => zeta)
  repeat' (first | with_reducible exact hk | with_reducible refine journalRoom_keeps (by assumption) ?_ | with_reducible refine raise_keeps ?_ | with_reducible refine enterJournal_keeps ?_ | with_reducible refine abort_keeps ?_ | with_reducible refine rollEpoch_keeps ?_ | split)

theorem execKeyRoll_keeps {b : State} {x0 : _} {s : State} {t : State} (h : execKeyRoll x0 s = .next t) (hk : Keeps b s) : Keeps b t := by
  unfold execKeyRoll at h; try (conv at h => zeta)
  repeat' (first | (with_reducible refine Keeps.next h ?_; clear h) | split at h)
  all_goals repeat' (first | with_reducible exact hk | with_reducible refine rollJob_keeps ?_ | split)

theorem execPolicySet_keeps {b : State} {x0 : _} {x1 : _} {x2 : _} {x3 : _} {x4 : _} {x5 : _} {x6 : _} {s : State} {t : State} (h : execPolicySet x0 x1 x2 x3 x4 x5 x6 s = .next t) (hk : Keeps b s) : Keeps b t := by
  unfold execPolicySet at h; try (conv at h => zeta)
  repeat' (first | (with_reducible refine Keeps.next h ?_; clear h) | split at h)
  all_goals repeat' (first | with_reducible exact hk | with_reducible exact Keeps.rfl | with_reducible refine operation_keeps ?_ (by assumption) ?_ | with_reducible refine abort_keeps ?_ | with_reducible refine startChange_keeps ?_ | with_reducible refine Keeps.foldl ?_ ?_ | with_reducible refine Keeps.foldl₂ ?_ ?_ | ((with_reducible refine Keeps.iteOver ?_ ?_); focus (simp only [Keeps.rfl, ↓abort_keeps, ↓startChange_keeps]; done)) | ((with_reducible refine Keeps.iteUnder ?_ ?_); focus (simp only [Keeps.rfl, ↓abort_keeps, ↓startChange_keeps]; done)) | with_reducible refine Keeps.ite ?_ ?_ | (intro; intros) | (split <;> (rename_i heq; with_reducible have e := congrArg Prod.fst heq; with_reducible dsimp only at e; with_reducible subst e)) | split | (fail_if_no_progress with_reducible refine Keeps.lit rfl rfl rfl rfl rfl rfl rfl ?_))

theorem deleteJob_keeps {b : State} {s : State} {x1 : _} {x2 : _} {x3 : _} {x4 : _} {x5 : _} (hk : Keeps b s) : Keeps b (deleteJob s x1 x2 x3 x4 x5) := by
  unfold deleteJob; try (conv => zeta)
  repeat' (first | with_reducible exact hk | with_reducible exact Keeps.rfl | with_reducible refine stageFree_keeps ?_ | with_reducible refine stageTable_keeps ?_ | with_reducible refine stageId_keeps ?_ | with_reducible refine startChange_keeps ?_ | with_reducible refine Keeps.foldl ?_ ?_ | with_reducible refine Keeps.foldl₂ ?_ ?_ | ((with_reducible refine Keeps.iteOver ?_ ?_); focus (simp only [Keeps.rfl, ↓stageFree_keeps, ↓stageTable_keeps, ↓stageId_keeps, ↓startChange_keeps]; done)) | ((with_reducible refine Keeps.iteUnder ?_ ?_); focus (simp only [Keeps.rfl, ↓stageFree_keeps, ↓stageTable_keeps, ↓stageId_keeps, ↓startChange_keeps]; done)) | with_reducible refine Keeps.ite ?_ ?_ | (intro; intros) | (split <;> (rename_i heq; with_reducible have e := congrArg Prod.fst heq; with_reducible dsimp only at e; with_reducible subst e)) | split | (fail_if_no_progress with_reducible refine Keeps.lit rfl rfl rfl rfl rfl rfl rfl ?_))

theorem execJobDelete_keeps {b : State} {x0 : _} {x1 : _} {x2 : _} {x3 : _} {s : State} {t : State} (h : execJobDelete x0 x1 x2 x3 s = .next t) (hk : Keeps b s) : Keeps b t := by
  unfold execJobDelete at h; try (conv at h => zeta)
  repeat' (first | (with_reducible refine Keeps.next h ?_; clear h) | split at h)
  all_goals repeat' (first | with_reducible exact hk | with_reducible exact Keeps.rfl | with_reducible refine operation_keeps ?_ (by assumption) ?_ | with_reducible refine abort_keeps ?_ | with_reducible refine deleteJob_keeps ?_ | with_reducible refine Keeps.foldl ?_ ?_ | with_reducible refine Keeps.foldl₂ ?_ ?_ | ((with_reducible refine Keeps.iteOver ?_ ?_); focus (simp only [Keeps.rfl, ↓abort_keeps, ↓deleteJob_keeps]; done)) | ((with_reducible refine Keeps.iteUnder ?_ ?_); focus (simp only [Keeps.rfl, ↓abort_keeps, ↓deleteJob_keeps]; done)) | with_reducible refine Keeps.ite ?_ ?_ | (intro; intros) | (split <;> (rename_i heq; with_reducible have e := congrArg Prod.fst heq; with_reducible dsimp only at e; with_reducible subst e)) | split | (fail_if_no_progress with_reducible refine Keeps.lit rfl rfl rfl rfl rfl rfl rfl ?_))

theorem installBind_keeps {b : State} {s : State} {x1 : _} (hk : Keeps b s) : Keeps b (installBind s x1) := by
  unfold installBind; try (conv => zeta)
  repeat' (first | with_reducible exact hk | (with_reducible refine setCabinet_keeps rfl rfl rfl ?_) | split)

theorem loadImage_keeps {b : State} {s : State} {x1 : _} {x2 : _} {x3 : _} {x4 : _} (hk : Keeps b s) : Keeps b (loadImage s x1 x2 x3 x4) := by
  unfold loadImage; try (conv => zeta)
  repeat' (first | with_reducible exact hk | with_reducible exact Keeps.rfl | with_reducible refine abort_keeps ?_ | with_reducible refine stageFree_keeps ?_ | with_reducible refine loadSet_keeps ?_ | with_reducible refine cabEntry_keeps ?_ | with_reducible refine startChange_keeps ?_ | with_reducible refine Keeps.foldl ?_ ?_ | with_reducible refine Keeps.foldl₂ ?_ ?_ | ((with_reducible refine Keeps.iteOver ?_ ?_); focus (simp only [Keeps.rfl, ↓abort_keeps, ↓stageFree_keeps, ↓loadSet_keeps, ↓cabEntry_keeps, ↓startChange_keeps]; done)) | ((with_reducible refine Keeps.iteUnder ?_ ?_); focus (simp only [Keeps.rfl, ↓abort_keeps, ↓stageFree_keeps, ↓loadSet_keeps, ↓cabEntry_keeps, ↓startChange_keeps]; done)) | with_reducible refine Keeps.ite ?_ ?_ | (intro; intros) | (split <;> (rename_i heq; with_reducible have e := congrArg Prod.fst heq; with_reducible dsimp only at e; with_reducible subst e)) | split | (fail_if_no_progress with_reducible refine Keeps.lit rfl rfl rfl rfl rfl rfl rfl ?_))

theorem execImageLoad_keeps {b s : State} {x0 x1 x2 : Nat} {x3 : Weaja} {x4 : Option BindSet} {x5 : Option Placement} {t : State}
    (h : execImageLoad x0 x1 x2 x3 x4 x5 s = .next t) (hk : Keeps b s) : Keeps b t := by
  refine operation_keeps (fun y0 y1 => ?_) h hk
  dsimp only
  split
  · exact abort_keeps Keeps.rfl
  · split
    · exact abort_keeps Keeps.rfl
    · have hb : Keeps y0 ((x4.map (installBind y0)).getD y0) := by
        cases x4 with
        | none => exact Keeps.rfl
        | some v => exact installBind_keeps Keeps.rfl
      split
      · exact abort_keeps hb
      · split
        · exact abort_keeps hb
        · split
          · exact abort_keeps hb
          · exact loadImage_keeps hb

/-! ### Machine/HubDigest -/

theorem unitEvent_keeps {b : State} {s : State} {x1 : _} {x2 : _} {x3 : _} {x4 : _} {x5 : _} {x6 : _} {x7 : _} (hk : Keeps b s) : Keeps b (unitEvent s x1 x2 x3 x4 x5 x6 x7) := by
  unfold unitEvent; try (conv => zeta)
  repeat' (first | with_reducible exact hk | with_reducible refine addPend_keeps ?_ | with_reducible refine modJob_keeps ?_ | with_reducible refine cabEntry_keeps ?_ | split)

theorem putCmp_keeps {b : State} {s : State} {x1 : _} {x2 : _} (hk : Keeps b s) : Keeps b (putCmp s x1 x2) := by
  unfold putCmp; try (conv => zeta)
  repeat' (first | with_reducible exact hk | with_reducible refine modJob_keeps ?_ | split)

theorem sendDPart_keeps {b : State} {s : State} {x1 : _} {x2 : _} (hk : Keeps b s) : Keeps b (sendDPart s x1 x2) := by
  unfold sendDPart; try (conv => zeta)
  repeat' (first | with_reducible exact hk | with_reducible refine State.send_keeps ?_ | with_reducible refine reachSend_keeps ?_ | split)

theorem routeDPart_keeps {b : State} {s : State} {x1 : _} {x2 : _} (hk : Keeps b s) : Keeps b (routeDPart s x1 x2) := by
  unfold routeDPart; try (conv => zeta)
  repeat' (first | with_reducible exact hk | with_reducible exact Keeps.rfl | with_reducible refine sendDPart_keeps ?_ | with_reducible refine Keeps.foldl ?_ ?_ | with_reducible refine Keeps.foldl₂ ?_ ?_ | ((with_reducible refine Keeps.iteOver ?_ ?_); focus (simp only [Keeps.rfl, ↓sendDPart_keeps]; done)) | ((with_reducible refine Keeps.iteUnder ?_ ?_); focus (simp only [Keeps.rfl, ↓sendDPart_keeps]; done)) | with_reducible refine Keeps.ite ?_ ?_ | (intro; intros) | (split <;> (rename_i heq; with_reducible have e := congrArg Prod.fst heq; with_reducible dsimp only at e; with_reducible subst e)) | split | (fail_if_no_progress with_reducible refine Keeps.lit rfl rfl rfl rfl rfl rfl rfl ?_))

theorem orderReplay_keeps {b : State} {s : State} {x1 : _} {x2 : _} {x3 : _} {x4 : _} {x5 : _} {x6 : _} (hk : Keeps b s) : Keeps b (orderReplay s x1 x2 x3 x4 x5 x6) := by
  unfold orderReplay; try (conv => zeta)
  repeat' (first | with_reducible exact hk | with_reducible refine modJob_keeps ?_ | split)

theorem nextReplay_keeps {b : State} {s : State} {x1 : _} (hk : Keeps b s) : Keeps b (nextReplay s x1) := by
  unfold nextReplay; try (conv => zeta)
  repeat' (first | with_reducible exact hk | with_reducible refine modJob_keeps ?_ | with_reducible refine orderReplay_keeps ?_ | split)

theorem tellSite_keeps {b : State} {s : State} {x1 : _} {x2 : _} {x3 : _} {x4 : _} (hk : Keeps b s) : Keeps b (tellSite s x1 x2 x3 x4) := by
  unfold tellSite; try (conv => zeta)
  repeat' (first | with_reducible exact hk | with_reducible exact Keeps.rfl | with_reducible refine State.send_keeps ?_ | with_reducible refine Keeps.foldl ?_ ?_ | with_reducible refine Keeps.foldl₂ ?_ ?_ | ((with_reducible refine Keeps.iteOver ?_ ?_); focus (simp only [Keeps.rfl, ↓State.send_keeps]; done)) | ((with_reducible refine Keeps.iteUnder ?_ ?_); focus (simp only [Keeps.rfl, ↓State.send_keeps]; done)) | with_reducible refine Keeps.ite ?_ ?_ | (intro; intros) | (split <;> (rename_i heq; with_reducible have e := congrArg Prod.fst heq; with_reducible dsimp only at e; with_reducible subst e)) | split | (fail_if_no_progress with_reducible refine Keeps.lit rfl rfl rfl rfl rfl rfl rfl ?_))

theorem decideState_keeps {b : State} {s : State} {x1 : _} {x2 : _} {x3 : _} (hk : Keeps b s) : Keeps b (decideState s x1 x2 x3) := by
  unfold decideState; try (conv => zeta)
  repeat' (first | with_reducible exact hk | with_reducible exact Keeps.rfl | with_reducible refine tellSite_keeps ?_ | with_reducible refine putCmp_keeps ?_ | with_reducible refine addPend_keeps ?_ | with_reducible refine modJob_keeps ?_ | with_reducible refine orderReplay_keeps ?_ | with_reducible refine Keeps.foldl ?_ ?_ | with_reducible refine Keeps.foldl₂ ?_ ?_ | ((with_reducible refine Keeps.iteOver ?_ ?_); focus (simp only [Keeps.rfl, ↓tellSite_keeps, ↓putCmp_keeps, ↓addPend_keeps, ↓modJob_keeps, ↓orderReplay_keeps]; done)) | ((with_reducible refine Keeps.iteUnder ?_ ?_); focus (simp only [Keeps.rfl, ↓tellSite_keeps, ↓putCmp_keeps, ↓addPend_keeps, ↓modJob_keeps, ↓orderReplay_keeps]; done)) | with_reducible refine Keeps.ite ?_ ?_ | (intro; intros) | (split <;> (rename_i heq; with_reducible have e := congrArg Prod.fst heq; with_reducible dsimp only at e; with_reducible subst e)) | split | (fail_if_no_progress with_reducible refine Keeps.lit rfl rfl rfl rfl rfl rfl rfl ?_))

theorem endReplay_keeps {b : State} {s : State} {x1 : _} {x2 : _} {x3 : _} {x4 : _} {x5 : _} (hk : Keeps b s) : Keeps b (endReplay s x1 x2 x3 x4 x5) := by
  unfold endReplay; try (conv => zeta)
  repeat' (first | with_reducible exact hk | with_reducible exact Keeps.rfl | with_reducible refine modJob_keeps ?_ | with_reducible refine tellSite_keeps ?_ | with_reducible refine addPend_keeps ?_ | with_reducible refine unitEvent_keeps ?_ | with_reducible refine nextReplay_keeps ?_ | with_reducible refine Keeps.foldl ?_ ?_ | with_reducible refine Keeps.foldl₂ ?_ ?_ | ((with_reducible refine Keeps.iteOver ?_ ?_); focus (simp only [Keeps.rfl, ↓modJob_keeps, ↓tellSite_keeps, ↓addPend_keeps, ↓unitEvent_keeps, ↓nextReplay_keeps]; done)) | ((with_reducible refine Keeps.iteUnder ?_ ?_); focus (simp only [Keeps.rfl, ↓modJob_keeps, ↓tellSite_keeps, ↓addPend_keeps, ↓unitEvent_keeps, ↓nextReplay_keeps]; done)) | with_reducible refine Keeps.ite ?_ ?_ | (intro; intros) | (split <;> (rename_i heq; with_reducible have e := congrArg Prod.fst heq; with_reducible dsimp only at e; with_reducible subst e)) | split | (fail_if_no_progress with_reducible refine Keeps.lit rfl rfl rfl rfl rfl rfl rfl ?_))

theorem decideReplay_keeps {b : State} {s : State} {x1 : _} {x2 : _} {x3 : _} {x4 : _} (hk : Keeps b s) : Keeps b (decideReplay s x1 x2 x3 x4) := by
  unfold decideReplay; try (conv => zeta)
  repeat' (first | with_reducible exact hk | with_reducible refine endReplay_keeps ?_ | with_reducible refine putCmp_keeps ?_ | split)

theorem tryDecide_keeps {b : State} {s : State} {x1 : _} {x2 : _} {x3 : _} {x4 : _} (hk : Keeps b s) : Keeps b (tryDecide s x1 x2 x3 x4) := by
  unfold tryDecide; try (conv => zeta)
  repeat' (first | with_reducible exact hk | with_reducible refine decideState_keeps ?_ | with_reducible refine decideReplay_keeps ?_ | split)

theorem sendPartial_keeps {b : State} {s : State} {x1 : _} {x2 : _} {x3 : _} (hk : Keeps b s) : Keeps b (sendPartial s x1 x2 x3) := by
  unfold sendPartial; try (conv => zeta)
  repeat' (first | with_reducible exact hk | with_reducible refine putCmp_keeps ?_ | with_reducible refine tryDecide_keeps ?_ | with_reducible refine routeDPart_keeps ?_ | split)

theorem addReport_keeps {b : State} {s : State} {x1 : _} {x2 : _} {x3 : _} {x4 : _} (hk : Keeps b s) : Keeps b (addReport s x1 x2 x3 x4) := by
  unfold addReport; try (conv => zeta)
  repeat' (first | with_reducible exact hk | with_reducible refine putCmp_keeps ?_ | with_reducible refine modJob_keeps ?_ | with_reducible refine sendPartial_keeps ?_ | split)

theorem reportIn_keeps {b : State} {s : State} {x1 : _} {x2 : _} {x3 : _} {x4 : _} {x5 : _} (hk : Keeps b s) : Keeps b (reportIn s x1 x2 x3 x4 x5) := by
  unfold reportIn; try (conv => zeta)
  repeat' (first | with_reducible exact hk | with_reducible refine modJob_keeps ?_ | with_reducible refine unitEvent_keeps ?_ | with_reducible refine addReport_keeps ?_ | split)

theorem digestLanes_keeps {b : State} {s : State} {x1 : _} {x2 : _} {x3 : _} (hk : Keeps b s) : Keeps b (digestLanes s x1 x2 x3) := by
  unfold digestLanes; try (conv => zeta)
  repeat' (first | with_reducible exact hk | with_reducible refine State.wr_keeps ?_ | with_reducible refine State.bump_keeps ?_ | with_reducible refine raise_keeps ?_ | with_reducible refine jobLane_keeps ?_ | split)

theorem digestSet_keeps {b : State} {s : State} {x1 : _} {x2 : _} {x3 : _} {x4 : _} (hk : Keeps b s) : Keeps b (digestSet s x1 x2 x3 x4) := by
  unfold digestSet; try (conv => zeta)
  repeat' (first | with_reducible exact hk | with_reducible exact Keeps.rfl | with_reducible refine ingRefuse_keeps ?_ | with_reducible refine count_keeps ?_ | with_reducible refine raise_keeps ?_ | with_reducible refine reportIn_keeps ?_ | with_reducible refine digestLanes_keeps ?_ | with_reducible refine Keeps.foldl ?_ ?_ | with_reducible refine Keeps.foldl₂ ?_ ?_ | ((with_reducible refine Keeps.iteOver ?_ ?_); focus (simp only [Keeps.rfl, ↓ingRefuse_keeps, ↓count_keeps, ↓raise_keeps, ↓reportIn_keeps, ↓digestLanes_keeps]; done)) | ((with_reducible refine Keeps.iteUnder ?_ ?_); focus (simp only [Keeps.rfl, ↓ingRefuse_keeps, ↓count_keeps, ↓raise_keeps, ↓reportIn_keeps, ↓digestLanes_keeps]; done)) | with_reducible refine Keeps.ite ?_ ?_ | (intro; intros) | (split <;> (rename_i heq; with_reducible have e := congrArg Prod.fst heq; with_reducible dsimp only at e; with_reducible subst e)) | split | (fail_if_no_progress with_reducible refine Keeps.lit rfl rfl rfl rfl rfl rfl rfl ?_))

theorem execDigestReportRx_keeps {b : State} {x0 : _} {x1 : _} {x2 : _} {s : State} {t : State} (h : execDigestReportRx x0 x1 x2 s = .next t) (hk : Keeps b s) : Keeps b t := by
  unfold execDigestReportRx at h; try (conv at h => zeta)
  repeat' (first | (with_reducible refine Keeps.next h ?_; clear h) | split at h)
  all_goals repeat' (first | with_reducible exact hk | with_reducible refine drainHeld_keeps ?_ | with_reducible refine digestSet_keeps ?_ | with_reducible refine takeSet_keeps ?_ | split)

theorem execReportWaitExpiry_keeps {b : State} {x0 : _} {x1 : _} {s : State} {t : State} (h : execReportWaitExpiry x0 x1 s = .next t) (hk : Keeps b s) : Keeps b t := by
  unfold execReportWaitExpiry at h; try (conv at h => zeta)
  repeat' (first | (with_reducible refine Keeps.next h ?_; clear h) | split at h)
  all_goals repeat' (first | with_reducible exact hk | with_reducible refine sendPartial_keeps ?_ | split)

theorem dpartialIn_keeps {b : State} {s : State} {x1 : _} {x2 : _} (hk : Keeps b s) : Keeps b (dpartialIn s x1 x2) := by
  unfold dpartialIn; try (conv => zeta)
  repeat' (first | with_reducible exact hk | with_reducible refine count_keeps ?_ | with_reducible refine syn_keeps ?_ | with_reducible refine putCmp_keeps ?_ | with_reducible refine routeDPart_keeps ?_ | with_reducible refine tryDecide_keeps ?_ | split)

theorem execDpartialRx_keeps {b : State} {x0 : _} {x1 : _} {s : State} {t : State} (h : execDpartialRx x0 x1 s = .next t) (hk : Keeps b s) : Keeps b t := by
  unfold execDpartialRx at h; try (conv at h => zeta)
  repeat' (first | (with_reducible refine Keeps.next h ?_; clear h) | split at h)
  all_goals repeat' (first | with_reducible exact hk | with_reducible refine dpartialIn_keeps ?_ | split)

theorem execOutcomeWaitExpiry_keeps {b : State} {x0 : _} {x1 : _} {s : State} {t : State} (h : execOutcomeWaitExpiry x0 x1 s = .next t) (hk : Keeps b s) : Keeps b t := by
  unfold execOutcomeWaitExpiry at h; try (conv at h => zeta)
  repeat' (first | (with_reducible refine Keeps.next h ?_; clear h) | split at h)
  all_goals repeat' (first | with_reducible exact hk | with_reducible refine tryDecide_keeps ?_ | with_reducible refine sendPartial_keeps ?_ | split)

theorem execReplayWaitExpiry_keeps {b : State} {x0 : _} {s : State} {t : State} (h : execReplayWaitExpiry x0 s = .next t) (hk : Keeps b s) : Keeps b t := by
  unfold execReplayWaitExpiry at h; try (conv at h => zeta)
  repeat' (first | (with_reducible refine Keeps.next h ?_; clear h) | split at h)
  all_goals repeat' (first | with_reducible exact hk | with_reducible refine modJob_keeps ?_ | with_reducible refine putCmp_keeps ?_ | with_reducible refine sendPartial_keeps ?_ | split)

theorem execReplayExpired_keeps {b : State} {x0 : _} {s : State} {t : State} (h : execReplayExpired x0 s = .next t) (hk : Keeps b s) : Keeps b t := by
  unfold execReplayExpired at h; try (conv at h => zeta)
  repeat' (first | (with_reducible refine Keeps.next h ?_; clear h) | split at h)
  all_goals repeat' (first | with_reducible exact hk | with_reducible refine endReplay_keeps ?_ | split)

theorem execObservationEnd_keeps {b : State} {x0 : _} {x1 : _} {s : State} {t : State} (h : execObservationEnd x0 x1 s = .next t) (hk : Keeps b s) : Keeps b t := by
  unfold execObservationEnd at h; try (conv at h => zeta)
  repeat' (first | (with_reducible refine Keeps.next h ?_; clear h) | split at h)
  all_goals repeat' (first | with_reducible exact hk | with_reducible refine modJob_keeps ?_ | with_reducible refine addPend_keeps ?_ | split)

theorem execRxDeliver_keeps {b : State} {x0 : _} {s : State} {t : State} (h : execRxDeliver x0 s = .next t) (hk : Keeps b s) : Keeps b t := by
  unfold execRxDeliver at h; try (conv at h => zeta)
  repeat' (first | (with_reducible refine Keeps.next h ?_; clear h) | split at h)
  all_goals repeat' (first | with_reducible exact hk | with_reducible refine State.send_keeps ?_ | with_reducible refine rchCount_keeps ?_ | with_reducible refine setRch_keeps ?_ | with_reducible refine aggregateIn_keeps ?_ | with_reducible refine dpartialIn_keeps ?_ | split)

/-! ### Machine/Descriptor -/

theorem finishDesc_keeps {b : State} {s : State} {x1 : _} {x2 : _} {x3 : _} {x4 : _} {x5 : _} (hk : Keeps b s) : Keeps b (finishDesc s x1 x2 x3 x4 x5) := by
  unfold finishDesc; try (conv => zeta)
  repeat' (first | with_reducible exact hk | with_reducible refine putQ_keeps ?_ | split)

theorem runDesc_keeps {b : State} {s : State} {x1 : _} {x2 : _} {x3 : _} {x4 : _} {x5 : _} (hx5 : ∀ y0, Keeps s (x5 y0).1) {t : State} (h : runDesc s x1 x2 x3 x4 x5 = .next t) (hk : Keeps b s) : Keeps b t := by
  unfold runDesc at h; try (conv at h => zeta)
  repeat' (first | (with_reducible refine Keeps.next h ?_; clear h) | split at h)
  all_goals repeat' (first | with_reducible exact hk | with_reducible exact Keeps.rfl | with_reducible refine finishDesc_keeps ?_ | with_reducible refine Keeps.foldl ?_ ?_ | with_reducible refine Keeps.foldl₂ ?_ ?_ | ((with_reducible refine Keeps.iteOver ?_ ?_); focus (simp only [Keeps.rfl, ↓finishDesc_keeps]; done)) | ((with_reducible refine Keeps.iteUnder ?_ ?_); focus (simp only [Keeps.rfl, ↓finishDesc_keeps]; done)) | with_reducible refine Keeps.ite ?_ ?_ | (intro; intros) | with_reducible exact hx5 _  | with_reducible refine (Keeps.trans ?_ (hx5 _ )) | (split <;> (rename_i heq; with_reducible have e := congrArg Prod.fst heq; with_reducible dsimp only at e; with_reducible subst e)) | split | (fail_if_no_progress with_reducible refine Keeps.lit rfl rfl rfl rfl rfl rfl rfl ?_))

end Sys2Proof.Machine
end

