-- ==== Sys2Proof/Laws/KeepsTileOps.lean ====
section
/-!
SUPPORT. Sys2Proof/Laws/KeepsTileOps.lean: what every operation of Machine/TileOps, Machine/Hutch, Machine/Orders, Machine/Spdm, Machine/Idle keeps (Laws/Keeps.lean).
-/
set_option linter.all false
namespace Sys2Proof.Machine

/-! ### Machine/TileOps -/

theorem matmul_keeps {b : State} {s : State} {x1 : _} {x2 : _} (hk : Keeps b s) : Keeps b (matmul s x1 x2).1 := by
  unfold matmul; try (conv => zeta)
  repeat' (first | with_reducible exact hk | with_reducible exact Keeps.rfl | with_reducible refine setFlags_keeps ?_ | ((with_reducible refine setTile_keeps ?_ ?_); focus (intro h; first | exact getTile_wf h _ | with_reducible exact Tile.write_wf _ _ (getTile_wf h _) | exact storeRow_wf (getTile_wf h _) | exact writeMask_wf (getTile_wf h _) | exact tileFold_wf (fun _ _ hy => storeRow_wf hy) (getTile_wf h _) | exact tileFold_wf (fun _ _ hy => writeOuts_wf hy) (getTile_wf h _))) | with_reducible refine Keeps.foldl ?_ ?_ | with_reducible refine Keeps.foldl₂ ?_ ?_ | ((with_reducible refine Keeps.iteOver ?_ ?_); focus (simp only [Keeps.rfl, ↓setFlags_keeps, ↓setTile_keeps]; done)) | ((with_reducible refine Keeps.iteUnder ?_ ?_); focus (simp only [Keeps.rfl, ↓setFlags_keeps, ↓setTile_keeps]; done)) | with_reducible refine Keeps.ite ?_ ?_ | (intro; intros) | (split <;> (rename_i heq; with_reducible have e := congrArg Prod.fst heq; with_reducible dsimp only at e; with_reducible subst e)) | split | (fail_if_no_progress with_reducible refine Keeps.lit rfl rfl rfl rfl rfl rfl rfl ?_))

theorem execMatmul_keeps {b : State} {x0 : _} {s : State} {t : State} (h : execMatmul x0 s = .next t) (hk : Keeps b s) : Keeps b t := by
  unfold execMatmul at h; try (conv at h => zeta)
  repeat' (first | (with_reducible refine Keeps.next h ?_; clear h) | split at h)
  all_goals repeat' (first | with_reducible exact hk | with_reducible exact Keeps.rfl | with_reducible refine runDesc_keeps ?_ (by assumption) ?_ | with_reducible refine matmul_keeps ?_ | with_reducible refine Keeps.foldl ?_ ?_ | with_reducible refine Keeps.foldl₂ ?_ ?_ | ((with_reducible refine Keeps.iteOver ?_ ?_); focus (simp only [Keeps.rfl, ↓matmul_keeps]; done)) | ((with_reducible refine Keeps.iteUnder ?_ ?_); focus (simp only [Keeps.rfl, ↓matmul_keeps]; done)) | with_reducible refine Keeps.ite ?_ ?_ | (intro; intros) | (split <;> (rename_i heq; with_reducible have e := congrArg Prod.fst heq; with_reducible dsimp only at e; with_reducible subst e)) | split | (fail_if_no_progress with_reducible refine Keeps.lit rfl rfl rfl rfl rfl rfl rfl ?_))

theorem storeLanes_keeps {b : State} {s : State} {x1 : _} {x2 : _} {x3 : _} (hk : Keeps b s) : Keeps b (storeLanes s x1 x2 x3).1 := by
  unfold storeLanes; try (conv => zeta)
  repeat' (first | with_reducible exact hk | with_reducible exact Keeps.rfl | ((with_reducible refine setTile_keeps ?_ ?_); focus (intro h; first | exact getTile_wf h _ | with_reducible exact Tile.write_wf _ _ (getTile_wf h _) | exact storeRow_wf (getTile_wf h _) | exact writeMask_wf (getTile_wf h _) | exact tileFold_wf (fun _ _ hy => storeRow_wf hy) (getTile_wf h _) | exact tileFold_wf (fun _ _ hy => writeOuts_wf hy) (getTile_wf h _))) | with_reducible refine setFlags_keeps ?_ | with_reducible refine Keeps.foldl ?_ ?_ | with_reducible refine Keeps.foldl₂ ?_ ?_ | ((with_reducible refine Keeps.iteOver ?_ ?_); focus (simp only [Keeps.rfl, ↓setTile_keeps, ↓setFlags_keeps]; done)) | ((with_reducible refine Keeps.iteUnder ?_ ?_); focus (simp only [Keeps.rfl, ↓setTile_keeps, ↓setFlags_keeps]; done)) | with_reducible refine Keeps.ite ?_ ?_ | (intro; intros) | (split <;> (rename_i heq; with_reducible have e := congrArg Prod.fst heq; with_reducible dsimp only at e; with_reducible subst e)) | split | (fail_if_no_progress with_reducible refine Keeps.lit rfl rfl rfl rfl rfl rfl rfl ?_))

theorem vec1_keeps {b : State} {x0 : _} {s : State} {x2 : _} {x3 : _} (hk : Keeps b s) : Keeps b (vec1 x0 s x2 x3).1 := by
  unfold vec1; try (conv => zeta)
  repeat' (first | with_reducible exact hk | with_reducible refine storeLanes_keeps ?_ | split)

theorem vec2_keeps {b : State} {x0 : _} {s : State} {x2 : _} {x3 : _} (hk : Keeps b s) : Keeps b (vec2 x0 s x2 x3).1 := by
  unfold vec2; try (conv => zeta)
  repeat' (first | with_reducible exact hk | with_reducible refine storeLanes_keeps ?_ | split)

theorem vec3_keeps {b : State} {x0 : _} {s : State} {x2 : _} {x3 : _} (hk : Keeps b s) : Keeps b (vec3 x0 s x2 x3).1 := by
  unfold vec3; try (conv => zeta)
  repeat' (first | with_reducible exact hk | with_reducible refine storeLanes_keeps ?_ | split)

theorem vecCmp_keeps {b : State} {x0 : _} {s : State} {x2 : _} {x3 : _} (hk : Keeps b s) : Keeps b (vecCmp x0 s x2 x3).1 := by
  unfold vecCmp; try (conv => zeta)
  repeat' (first | with_reducible exact hk | with_reducible exact Keeps.rfl | ((with_reducible refine setTile_keeps ?_ ?_); focus (intro h; first | exact getTile_wf h _ | with_reducible exact Tile.write_wf _ _ (getTile_wf h _) | exact storeRow_wf (getTile_wf h _) | exact writeMask_wf (getTile_wf h _) | exact tileFold_wf (fun _ _ hy => storeRow_wf hy) (getTile_wf h _) | exact tileFold_wf (fun _ _ hy => writeOuts_wf hy) (getTile_wf h _))) | with_reducible refine setFlags_keeps ?_ | with_reducible refine Keeps.foldl ?_ ?_ | with_reducible refine Keeps.foldl₂ ?_ ?_ | ((with_reducible refine Keeps.iteOver ?_ ?_); focus (simp only [Keeps.rfl, ↓setTile_keeps, ↓setFlags_keeps]; done)) | ((with_reducible refine Keeps.iteUnder ?_ ?_); focus (simp only [Keeps.rfl, ↓setTile_keeps, ↓setFlags_keeps]; done)) | with_reducible refine Keeps.ite ?_ ?_ | (intro; intros) | (split <;> (rename_i heq; with_reducible have e := congrArg Prod.fst heq; with_reducible dsimp only at e; with_reducible subst e)) | split | (fail_if_no_progress with_reducible refine Keeps.lit rfl rfl rfl rfl rfl rfl rfl ?_))

theorem vecInt_keeps {b : State} {x0 : _} {s : State} {x2 : _} {x3 : _} (hk : Keeps b s) : Keeps b (vecInt x0 s x2 x3).1 := by
  unfold vecInt; try (conv => zeta)
  repeat' (first | with_reducible exact hk | with_reducible refine storeLanes_keeps ?_ | split)

theorem vecCarry_keeps {b : State} {x0 : _} {s : State} {x2 : _} {x3 : _} (hk : Keeps b s) : Keeps b (vecCarry x0 s x2 x3).1 := by
  unfold vecCarry; try (conv => zeta)
  repeat' (first | with_reducible exact hk | with_reducible exact Keeps.rfl | with_reducible refine storeLanes_keeps ?_ | ((with_reducible refine setTile_keeps ?_ ?_); focus (intro h; first | exact getTile_wf h _ | with_reducible exact Tile.write_wf _ _ (getTile_wf h _) | exact storeRow_wf (getTile_wf h _) | exact writeMask_wf (getTile_wf h _) | exact tileFold_wf (fun _ _ hy => storeRow_wf hy) (getTile_wf h _) | exact tileFold_wf (fun _ _ hy => writeOuts_wf hy) (getTile_wf h _))) | with_reducible refine Keeps.foldl ?_ ?_ | with_reducible refine Keeps.foldl₂ ?_ ?_ | ((with_reducible refine Keeps.iteOver ?_ ?_); focus (simp only [Keeps.rfl, ↓storeLanes_keeps, ↓setTile_keeps]; done)) | ((with_reducible refine Keeps.iteUnder ?_ ?_); focus (simp only [Keeps.rfl, ↓storeLanes_keeps, ↓setTile_keeps]; done)) | with_reducible refine Keeps.ite ?_ ?_ | (intro; intros) | (split <;> (rename_i heq; with_reducible have e := congrArg Prod.fst heq; with_reducible dsimp only at e; with_reducible subst e)) | split | (fail_if_no_progress with_reducible refine Keeps.lit rfl rfl rfl rfl rfl rfl rfl ?_))

theorem vecFx_keeps {b : State} {s : State} {x1 : _} {x2 : _} (hk : Keeps b s) : Keeps b (vecFx s x1 x2).1 := by
  unfold vecFx; try (conv => zeta)
  repeat' (first | with_reducible exact hk | with_reducible refine storeLanes_keeps ?_ | split)

theorem vecCvt_keeps {b : State} {s : State} {x1 : _} {x2 : _} (hk : Keeps b s) : Keeps b (vecCvt s x1 x2).1 := by
  unfold vecCvt; try (conv => zeta)
  repeat' (first | with_reducible exact hk | with_reducible refine storeLanes_keeps ?_ | split)

theorem runVec_keeps {b : State} {s : State} {x1 : _} {x2 : _} {x3 : _} (hx3 : ∀ y0 y1 y2, Keeps y0 (x3 y0 y1 y2).1) {t : State} (h : runVec s x1 x2 x3 = .next t) (hk : Keeps b s) : Keeps b t := by
  unfold runVec at h; try (conv at h => zeta)
  repeat' (first | (with_reducible refine Keeps.next h ?_; clear h) | split at h)
  all_goals repeat' (first | with_reducible exact hk | with_reducible exact Keeps.rfl | with_reducible refine runDesc_keeps ?_ (by assumption) ?_ | with_reducible refine Keeps.foldl ?_ ?_ | with_reducible refine Keeps.foldl₂ ?_ ?_ | ((with_reducible refine Keeps.iteOver ?_ ?_); focus (simp only [Keeps.rfl]; done)) | ((with_reducible refine Keeps.iteUnder ?_ ?_); focus (simp only [Keeps.rfl]; done)) | with_reducible refine Keeps.ite ?_ ?_ | (intro; intros) | with_reducible exact hx3 _ _ _  | with_reducible refine (Keeps.trans ?_ (hx3 _ _ _ )) | (split <;> (rename_i heq; with_reducible have e := congrArg Prod.fst heq; with_reducible dsimp only at e; with_reducible subst e)) | split | (fail_if_no_progress with_reducible refine Keeps.lit rfl rfl rfl rfl rfl rfl rfl ?_))

theorem execAdd_keeps {b : State} {x0 : _} {s : State} {t : State} (h : execAdd x0 s = .next t) (hk : Keeps b s) : Keeps b t := by
  unfold execAdd at h; try (conv at h => zeta)
  repeat' (first | (with_reducible refine Keeps.next h ?_; clear h) | split at h)
  all_goals repeat' (first | with_reducible exact hk | with_reducible exact Keeps.rfl | with_reducible refine runVec_keeps ?_ (by assumption) ?_ | with_reducible refine vec2_keeps ?_ | with_reducible refine Keeps.foldl ?_ ?_ | with_reducible refine Keeps.foldl₂ ?_ ?_ | ((with_reducible refine Keeps.iteOver ?_ ?_); focus (simp only [Keeps.rfl, ↓vec2_keeps]; done)) | ((with_reducible refine Keeps.iteUnder ?_ ?_); focus (simp only [Keeps.rfl, ↓vec2_keeps]; done)) | with_reducible refine Keeps.ite ?_ ?_ | (intro; intros) | (split <;> (rename_i heq; with_reducible have e := congrArg Prod.fst heq; with_reducible dsimp only at e; with_reducible subst e)) | split | (fail_if_no_progress with_reducible refine Keeps.lit rfl rfl rfl rfl rfl rfl rfl ?_))

theorem execSub_keeps {b : State} {x0 : _} {s : State} {t : State} (h : execSub x0 s = .next t) (hk : Keeps b s) : Keeps b t := by
  unfold execSub at h; try (conv at h => zeta)
  repeat' (first | (with_reducible refine Keeps.next h ?_; clear h) | split at h)
  all_goals repeat' (first | with_reducible exact hk | with_reducible exact Keeps.rfl | with_reducible refine runVec_keeps ?_ (by assumption) ?_ | with_reducible refine vec2_keeps ?_ | with_reducible refine Keeps.foldl ?_ ?_ | with_reducible refine Keeps.foldl₂ ?_ ?_ | ((with_reducible refine Keeps.iteOver ?_ ?_); focus (simp only [Keeps.rfl, ↓vec2_keeps]; done)) | ((with_reducible refine Keeps.iteUnder ?_ ?_); focus (simp only [Keeps.rfl, ↓vec2_keeps]; done)) | with_reducible refine Keeps.ite ?_ ?_ | (intro; intros) | (split <;> (rename_i heq; with_reducible have e := congrArg Prod.fst heq; with_reducible dsimp only at e; with_reducible subst e)) | split | (fail_if_no_progress with_reducible refine Keeps.lit rfl rfl rfl rfl rfl rfl rfl ?_))

theorem execMul_keeps {b : State} {x0 : _} {s : State} {t : State} (h : execMul x0 s = .next t) (hk : Keeps b s) : Keeps b t := by
  unfold execMul at h; try (conv at h => zeta)
  repeat' (first | (with_reducible refine Keeps.next h ?_; clear h) | split at h)
  all_goals repeat' (first | with_reducible exact hk | with_reducible exact Keeps.rfl | with_reducible refine runVec_keeps ?_ (by assumption) ?_ | with_reducible refine vec2_keeps ?_ | with_reducible refine Keeps.foldl ?_ ?_ | with_reducible refine Keeps.foldl₂ ?_ ?_ | ((with_reducible refine Keeps.iteOver ?_ ?_); focus (simp only [Keeps.rfl, ↓vec2_keeps]; done)) | ((with_reducible refine Keeps.iteUnder ?_ ?_); focus (simp only [Keeps.rfl, ↓vec2_keeps]; done)) | with_reducible refine Keeps.ite ?_ ?_ | (intro; intros) | (split <;> (rename_i heq; with_reducible have e := congrArg Prod.fst heq; with_reducible dsimp only at e; with_reducible subst e)) | split | (fail_if_no_progress with_reducible refine Keeps.lit rfl rfl rfl rfl rfl rfl rfl ?_))

theorem execFma_keeps {b : State} {x0 : _} {s : State} {t : State} (h : execFma x0 s = .next t) (hk : Keeps b s) : Keeps b t := by
  unfold execFma at h; try (conv at h => zeta)
  repeat' (first | (with_reducible refine Keeps.next h ?_; clear h) | split at h)
  all_goals repeat' (first | with_reducible exact hk | with_reducible exact Keeps.rfl | with_reducible refine runVec_keeps ?_ (by assumption) ?_ | with_reducible refine vec3_keeps ?_ | with_reducible refine Keeps.foldl ?_ ?_ | with_reducible refine Keeps.foldl₂ ?_ ?_ | ((with_reducible refine Keeps.iteOver ?_ ?_); focus (simp only [Keeps.rfl, ↓vec3_keeps]; done)) | ((with_reducible refine Keeps.iteUnder ?_ ?_); focus (simp only [Keeps.rfl, ↓vec3_keeps]; done)) | with_reducible refine Keeps.ite ?_ ?_ | (intro; intros) | (split <;> (rename_i heq; with_reducible have e := congrArg Prod.fst heq; with_reducible dsimp only at e; with_reducible subst e)) | split | (fail_if_no_progress with_reducible refine Keeps.lit rfl rfl rfl rfl rfl rfl rfl ?_))

theorem execDiv_keeps {b : State} {x0 : _} {s : State} {t : State} (h : execDiv x0 s = .next t) (hk : Keeps b s) : Keeps b t := by
  unfold execDiv at h; try (conv at h => zeta)
  repeat' (first | (with_reducible refine Keeps.next h ?_; clear h) | split at h)
  all_goals repeat' (first | with_reducible exact hk | with_reducible exact Keeps.rfl | with_reducible refine runVec_keeps ?_ (by assumption) ?_ | with_reducible refine vec2_keeps ?_ | with_reducible refine Keeps.foldl ?_ ?_ | with_reducible refine Keeps.foldl₂ ?_ ?_ | ((with_reducible refine Keeps.iteOver ?_ ?_); focus (simp only [Keeps.rfl, ↓vec2_keeps]; done)) | ((with_reducible refine Keeps.iteUnder ?_ ?_); focus (simp only [Keeps.rfl, ↓vec2_keeps]; done)) | with_reducible refine Keeps.ite ?_ ?_ | (intro; intros) | (split <;> (rename_i heq; with_reducible have e := congrArg Prod.fst heq; with_reducible dsimp only at e; with_reducible subst e)) | split | (fail_if_no_progress with_reducible refine Keeps.lit rfl rfl rfl rfl rfl rfl rfl ?_))

theorem execSqrt_keeps {b : State} {x0 : _} {s : State} {t : State} (h : execSqrt x0 s = .next t) (hk : Keeps b s) : Keeps b t := by
  unfold execSqrt at h; try (conv at h => zeta)
  repeat' (first | (with_reducible refine Keeps.next h ?_; clear h) | split at h)
  all_goals repeat' (first | with_reducible exact hk | with_reducible exact Keeps.rfl | with_reducible refine runVec_keeps ?_ (by assumption) ?_ | with_reducible refine vec1_keeps ?_ | with_reducible refine Keeps.foldl ?_ ?_ | with_reducible refine Keeps.foldl₂ ?_ ?_ | ((with_reducible refine Keeps.iteOver ?_ ?_); focus (simp only [Keeps.rfl, ↓vec1_keeps]; done)) | ((with_reducible refine Keeps.iteUnder ?_ ?_); focus (simp only [Keeps.rfl, ↓vec1_keeps]; done)) | with_reducible refine Keeps.ite ?_ ?_ | (intro; intros) | (split <;> (rename_i heq; with_reducible have e := congrArg Prod.fst heq; with_reducible dsimp only at e; with_reducible subst e)) | split | (fail_if_no_progress with_reducible refine Keeps.lit rfl rfl rfl rfl rfl rfl rfl ?_))

theorem execRcp_keeps {b : State} {x0 : _} {s : State} {t : State} (h : execRcp x0 s = .next t) (hk : Keeps b s) : Keeps b t := by
  unfold execRcp at h; try (conv at h => zeta)
  repeat' (first | (with_reducible refine Keeps.next h ?_; clear h) | split at h)
  all_goals repeat' (first | with_reducible exact hk | with_reducible exact Keeps.rfl | with_reducible refine runVec_keeps ?_ (by assumption) ?_ | with_reducible refine vec1_keeps ?_ | with_reducible refine Keeps.foldl ?_ ?_ | with_reducible refine Keeps.foldl₂ ?_ ?_ | ((with_reducible refine Keeps.iteOver ?_ ?_); focus (simp only [Keeps.rfl, ↓vec1_keeps]; done)) | ((with_reducible refine Keeps.iteUnder ?_ ?_); focus (simp only [Keeps.rfl, ↓vec1_keeps]; done)) | with_reducible refine Keeps.ite ?_ ?_ | (intro; intros) | (split <;> (rename_i heq; with_reducible have e := congrArg Prod.fst heq; with_reducible dsimp only at e; with_reducible subst e)) | split | (fail_if_no_progress with_reducible refine Keeps.lit rfl rfl rfl rfl rfl rfl rfl ?_))

theorem execRsqrt_keeps {b : State} {x0 : _} {s : State} {t : State} (h : execRsqrt x0 s = .next t) (hk : Keeps b s) : Keeps b t := by
  unfold execRsqrt at h; try (conv at h => zeta)
  repeat' (first | (with_reducible refine Keeps.next h ?_; clear h) | split at h)
  all_goals repeat' (first | with_reducible exact hk | with_reducible exact Keeps.rfl | with_reducible refine runVec_keeps ?_ (by assumption) ?_ | with_reducible refine vec1_keeps ?_ | with_reducible refine Keeps.foldl ?_ ?_ | with_reducible refine Keeps.foldl₂ ?_ ?_ | ((with_reducible refine Keeps.iteOver ?_ ?_); focus (simp only [Keeps.rfl, ↓vec1_keeps]; done)) | ((with_reducible refine Keeps.iteUnder ?_ ?_); focus (simp only [Keeps.rfl, ↓vec1_keeps]; done)) | with_reducible refine Keeps.ite ?_ ?_ | (intro; intros) | (split <;> (rename_i heq; with_reducible have e := congrArg Prod.fst heq; with_reducible dsimp only at e; with_reducible subst e)) | split | (fail_if_no_progress with_reducible refine Keeps.lit rfl rfl rfl rfl rfl rfl rfl ?_))

theorem execExp2_keeps {b : State} {x0 : _} {s : State} {t : State} (h : execExp2 x0 s = .next t) (hk : Keeps b s) : Keeps b t := by
  unfold execExp2 at h; try (conv at h => zeta)
  repeat' (first | (with_reducible refine Keeps.next h ?_; clear h) | split at h)
  all_goals repeat' (first | with_reducible exact hk | with_reducible exact Keeps.rfl | with_reducible refine runVec_keeps ?_ (by assumption) ?_ | with_reducible refine vec1_keeps ?_ | with_reducible refine Keeps.foldl ?_ ?_ | with_reducible refine Keeps.foldl₂ ?_ ?_ | ((with_reducible refine Keeps.iteOver ?_ ?_); focus (simp only [Keeps.rfl, ↓vec1_keeps]; done)) | ((with_reducible refine Keeps.iteUnder ?_ ?_); focus (simp only [Keeps.rfl, ↓vec1_keeps]; done)) | with_reducible refine Keeps.ite ?_ ?_ | (intro; intros) | (split <;> (rename_i heq; with_reducible have e := congrArg Prod.fst heq; with_reducible dsimp only at e; with_reducible subst e)) | split | (fail_if_no_progress with_reducible refine Keeps.lit rfl rfl rfl rfl rfl rfl rfl ?_))

theorem execLog2_keeps {b : State} {x0 : _} {s : State} {t : State} (h : execLog2 x0 s = .next t) (hk : Keeps b s) : Keeps b t := by
  unfold execLog2 at h; try (conv at h => zeta)
  repeat' (first | (with_reducible refine Keeps.next h ?_; clear h) | split at h)
  all_goals repeat' (first | with_reducible exact hk | with_reducible exact Keeps.rfl | with_reducible refine runVec_keeps ?_ (by assumption) ?_ | with_reducible refine vec1_keeps ?_ | with_reducible refine Keeps.foldl ?_ ?_ | with_reducible refine Keeps.foldl₂ ?_ ?_ | ((with_reducible refine Keeps.iteOver ?_ ?_); focus (simp only [Keeps.rfl, ↓vec1_keeps]; done)) | ((with_reducible refine Keeps.iteUnder ?_ ?_); focus (simp only [Keeps.rfl, ↓vec1_keeps]; done)) | with_reducible refine Keeps.ite ?_ ?_ | (intro; intros) | (split <;> (rename_i heq; with_reducible have e := congrArg Prod.fst heq; with_reducible dsimp only at e; with_reducible subst e)) | split | (fail_if_no_progress with_reducible refine Keeps.lit rfl rfl rfl rfl rfl rfl rfl ?_))

theorem execMin_keeps {b : State} {x0 : _} {s : State} {t : State} (h : execMin x0 s = .next t) (hk : Keeps b s) : Keeps b t := by
  unfold execMin at h; try (conv at h => zeta)
  repeat' (first | (with_reducible refine Keeps.next h ?_; clear h) | split at h)
  all_goals repeat' (first | with_reducible exact hk | with_reducible exact Keeps.rfl | with_reducible refine runVec_keeps ?_ (by assumption) ?_ | with_reducible refine vec2_keeps ?_ | with_reducible refine Keeps.foldl ?_ ?_ | with_reducible refine Keeps.foldl₂ ?_ ?_ | ((with_reducible refine Keeps.iteOver ?_ ?_); focus (simp only [Keeps.rfl, ↓vec2_keeps]; done)) | ((with_reducible refine Keeps.iteUnder ?_ ?_); focus (simp only [Keeps.rfl, ↓vec2_keeps]; done)) | with_reducible refine Keeps.ite ?_ ?_ | (intro; intros) | (split <;> (rename_i heq; with_reducible have e := congrArg Prod.fst heq; with_reducible dsimp only at e; with_reducible subst e)) | split | (fail_if_no_progress with_reducible refine Keeps.lit rfl rfl rfl rfl rfl rfl rfl ?_))

theorem execMax_keeps {b : State} {x0 : _} {s : State} {t : State} (h : execMax x0 s = .next t) (hk : Keeps b s) : Keeps b t := by
  unfold execMax at h; try (conv at h => zeta)
  repeat' (first | (with_reducible refine Keeps.next h ?_; clear h) | split at h)
  all_goals repeat' (first | with_reducible exact hk | with_reducible exact Keeps.rfl | with_reducible refine runVec_keeps ?_ (by assumption) ?_ | with_reducible refine vec2_keeps ?_ | with_reducible refine Keeps.foldl ?_ ?_ | with_reducible refine Keeps.foldl₂ ?_ ?_ | ((with_reducible refine Keeps.iteOver ?_ ?_); focus (simp only [Keeps.rfl, ↓vec2_keeps]; done)) | ((with_reducible refine Keeps.iteUnder ?_ ?_); focus (simp only [Keeps.rfl, ↓vec2_keeps]; done)) | with_reducible refine Keeps.ite ?_ ?_ | (intro; intros) | (split <;> (rename_i heq; with_reducible have e := congrArg Prod.fst heq; with_reducible dsimp only at e; with_reducible subst e)) | split | (fail_if_no_progress with_reducible refine Keeps.lit rfl rfl rfl rfl rfl rfl rfl ?_))

theorem execCmpEq_keeps {b : State} {x0 : _} {s : State} {t : State} (h : execCmpEq x0 s = .next t) (hk : Keeps b s) : Keeps b t := by
  unfold execCmpEq at h; try (conv at h => zeta)
  repeat' (first | (with_reducible refine Keeps.next h ?_; clear h) | split at h)
  all_goals repeat' (first | with_reducible exact hk | with_reducible exact Keeps.rfl | with_reducible refine runVec_keeps ?_ (by assumption) ?_ | with_reducible refine vecCmp_keeps ?_ | with_reducible refine Keeps.foldl ?_ ?_ | with_reducible refine Keeps.foldl₂ ?_ ?_ | ((with_reducible refine Keeps.iteOver ?_ ?_); focus (simp only [Keeps.rfl, ↓vecCmp_keeps]; done)) | ((with_reducible refine Keeps.iteUnder ?_ ?_); focus (simp only [Keeps.rfl, ↓vecCmp_keeps]; done)) | with_reducible refine Keeps.ite ?_ ?_ | (intro; intros) | (split <;> (rename_i heq; with_reducible have e := congrArg Prod.fst heq; with_reducible dsimp only at e; with_reducible subst e)) | split | (fail_if_no_progress with_reducible refine Keeps.lit rfl rfl rfl rfl rfl rfl rfl ?_))

theorem execCmpNe_keeps {b : State} {x0 : _} {s : State} {t : State} (h : execCmpNe x0 s = .next t) (hk : Keeps b s) : Keeps b t := by
  unfold execCmpNe at h; try (conv at h => zeta)
  repeat' (first | (with_reducible refine Keeps.next h ?_; clear h) | split at h)
  all_goals repeat' (first | with_reducible exact hk | with_reducible exact Keeps.rfl | with_reducible refine runVec_keeps ?_ (by assumption) ?_ | with_reducible refine vecCmp_keeps ?_ | with_reducible refine Keeps.foldl ?_ ?_ | with_reducible refine Keeps.foldl₂ ?_ ?_ | ((with_reducible refine Keeps.iteOver ?_ ?_); focus (simp only [Keeps.rfl, ↓vecCmp_keeps]; done)) | ((with_reducible refine Keeps.iteUnder ?_ ?_); focus (simp only [Keeps.rfl, ↓vecCmp_keeps]; done)) | with_reducible refine Keeps.ite ?_ ?_ | (intro; intros) | (split <;> (rename_i heq; with_reducible have e := congrArg Prod.fst heq; with_reducible dsimp only at e; with_reducible subst e)) | split | (fail_if_no_progress with_reducible refine Keeps.lit rfl rfl rfl rfl rfl rfl rfl ?_))

theorem execCmpLt_keeps {b : State} {x0 : _} {s : State} {t : State} (h : execCmpLt x0 s = .next t) (hk : Keeps b s) : Keeps b t := by
  unfold execCmpLt at h; try (conv at h => zeta)
  repeat' (first | (with_reducible refine Keeps.next h ?_; clear h) | split at h)
  all_goals repeat' (first | with_reducible exact hk | with_reducible exact Keeps.rfl | with_reducible refine runVec_keeps ?_ (by assumption) ?_ | with_reducible refine vecCmp_keeps ?_ | with_reducible refine Keeps.foldl ?_ ?_ | with_reducible refine Keeps.foldl₂ ?_ ?_ | ((with_reducible refine Keeps.iteOver ?_ ?_); focus (simp only [Keeps.rfl, ↓vecCmp_keeps]; done)) | ((with_reducible refine Keeps.iteUnder ?_ ?_); focus (simp only [Keeps.rfl, ↓vecCmp_keeps]; done)) | with_reducible refine Keeps.ite ?_ ?_ | (intro; intros) | (split <;> (rename_i heq; with_reducible have e := congrArg Prod.fst heq; with_reducible dsimp only at e; with_reducible subst e)) | split | (fail_if_no_progress with_reducible refine Keeps.lit rfl rfl rfl rfl rfl rfl rfl ?_))

theorem execCmpLe_keeps {b : State} {x0 : _} {s : State} {t : State} (h : execCmpLe x0 s = .next t) (hk : Keeps b s) : Keeps b t := by
  unfold execCmpLe at h; try (conv at h => zeta)
  repeat' (first | (with_reducible refine Keeps.next h ?_; clear h) | split at h)
  all_goals repeat' (first | with_reducible exact hk | with_reducible exact Keeps.rfl | with_reducible refine runVec_keeps ?_ (by assumption) ?_ | with_reducible refine vecCmp_keeps ?_ | with_reducible refine Keeps.foldl ?_ ?_ | with_reducible refine Keeps.foldl₂ ?_ ?_ | ((with_reducible refine Keeps.iteOver ?_ ?_); focus (simp only [Keeps.rfl, ↓vecCmp_keeps]; done)) | ((with_reducible refine Keeps.iteUnder ?_ ?_); focus (simp only [Keeps.rfl, ↓vecCmp_keeps]; done)) | with_reducible refine Keeps.ite ?_ ?_ | (intro; intros) | (split <;> (rename_i heq; with_reducible have e := congrArg Prod.fst heq; with_reducible dsimp only at e; with_reducible subst e)) | split | (fail_if_no_progress with_reducible refine Keeps.lit rfl rfl rfl rfl rfl rfl rfl ?_))

theorem execAbs_keeps {b : State} {x0 : _} {s : State} {t : State} (h : execAbs x0 s = .next t) (hk : Keeps b s) : Keeps b t := by
  unfold execAbs at h; try (conv at h => zeta)
  repeat' (first | (with_reducible refine Keeps.next h ?_; clear h) | split at h)
  all_goals repeat' (first | with_reducible exact hk | with_reducible exact Keeps.rfl | with_reducible refine runVec_keeps ?_ (by assumption) ?_ | with_reducible refine vec1_keeps ?_ | with_reducible refine Keeps.foldl ?_ ?_ | with_reducible refine Keeps.foldl₂ ?_ ?_ | ((with_reducible refine Keeps.iteOver ?_ ?_); focus (simp only [Keeps.rfl, ↓vec1_keeps]; done)) | ((with_reducible refine Keeps.iteUnder ?_ ?_); focus (simp only [Keeps.rfl, ↓vec1_keeps]; done)) | with_reducible refine Keeps.ite ?_ ?_ | (intro; intros) | (split <;> (rename_i heq; with_reducible have e := congrArg Prod.fst heq; with_reducible dsimp only at e; with_reducible subst e)) | split | (fail_if_no_progress with_reducible refine Keeps.lit rfl rfl rfl rfl rfl rfl rfl ?_))

theorem execNeg_keeps {b : State} {x0 : _} {s : State} {t : State} (h : execNeg x0 s = .next t) (hk : Keeps b s) : Keeps b t := by
  unfold execNeg at h; try (conv at h => zeta)
  repeat' (first | (with_reducible refine Keeps.next h ?_; clear h) | split at h)
  all_goals repeat' (first | with_reducible exact hk | with_reducible exact Keeps.rfl | with_reducible refine runVec_keeps ?_ (by assumption) ?_ | with_reducible refine vec1_keeps ?_ | with_reducible refine Keeps.foldl ?_ ?_ | with_reducible refine Keeps.foldl₂ ?_ ?_ | ((with_reducible refine Keeps.iteOver ?_ ?_); focus (simp only [Keeps.rfl, ↓vec1_keeps]; done)) | ((with_reducible refine Keeps.iteUnder ?_ ?_); focus (simp only [Keeps.rfl, ↓vec1_keeps]; done)) | with_reducible refine Keeps.ite ?_ ?_ | (intro; intros) | (split <;> (rename_i heq; with_reducible have e := congrArg Prod.fst heq; with_reducible dsimp only at e; with_reducible subst e)) | split | (fail_if_no_progress with_reducible refine Keeps.lit rfl rfl rfl rfl rfl rfl rfl ?_))

theorem execCvt_keeps {b : State} {x0 : _} {s : State} {t : State} (h : execCvt x0 s = .next t) (hk : Keeps b s) : Keeps b t := by
  unfold execCvt at h; try (conv at h => zeta)
  repeat' (first | (with_reducible refine Keeps.next h ?_; clear h) | split at h)
  all_goals repeat' (first | with_reducible exact hk | with_reducible exact Keeps.rfl | with_reducible refine runVec_keeps ?_ (by assumption) ?_ | with_reducible refine vecCvt_keeps ?_ | with_reducible refine Keeps.foldl ?_ ?_ | with_reducible refine Keeps.foldl₂ ?_ ?_ | (intro; intros) | split | (fail_if_no_progress with_reducible refine Keeps.lit rfl rfl rfl rfl rfl rfl rfl ?_))

theorem execCvtFx_keeps {b : State} {x0 : _} {s : State} {t : State} (h : execCvtFx x0 s = .next t) (hk : Keeps b s) : Keeps b t := by
  unfold execCvtFx at h; try (conv at h => zeta)
  repeat' (first | (with_reducible refine Keeps.next h ?_; clear h) | split at h)
  all_goals repeat' (first | with_reducible exact hk | with_reducible exact Keeps.rfl | with_reducible refine runVec_keeps ?_ (by assumption) ?_ | with_reducible refine vecFx_keeps ?_ | with_reducible refine Keeps.foldl ?_ ?_ | with_reducible refine Keeps.foldl₂ ?_ ?_ | (intro; intros) | split | (fail_if_no_progress with_reducible refine Keeps.lit rfl rfl rfl rfl rfl rfl rfl ?_))

theorem execIadd_keeps {b : State} {x0 : _} {s : State} {t : State} (h : execIadd x0 s = .next t) (hk : Keeps b s) : Keeps b t := by
  unfold execIadd at h; try (conv at h => zeta)
  repeat' (first | (with_reducible refine Keeps.next h ?_; clear h) | split at h)
  all_goals repeat' (first | with_reducible exact hk | with_reducible exact Keeps.rfl | with_reducible refine runVec_keeps ?_ (by assumption) ?_ | with_reducible refine vecCarry_keeps ?_ | with_reducible refine Keeps.foldl ?_ ?_ | with_reducible refine Keeps.foldl₂ ?_ ?_ | (intro; intros) | split | (fail_if_no_progress with_reducible refine Keeps.lit rfl rfl rfl rfl rfl rfl rfl ?_))

theorem execIsub_keeps {b : State} {x0 : _} {s : State} {t : State} (h : execIsub x0 s = .next t) (hk : Keeps b s) : Keeps b t := by
  unfold execIsub at h; try (conv at h => zeta)
  repeat' (first | (with_reducible refine Keeps.next h ?_; clear h) | split at h)
  all_goals repeat' (first | with_reducible exact hk | with_reducible exact Keeps.rfl | with_reducible refine runVec_keeps ?_ (by assumption) ?_ | with_reducible refine vecCarry_keeps ?_ | with_reducible refine Keeps.foldl ?_ ?_ | with_reducible refine Keeps.foldl₂ ?_ ?_ | (intro; intros) | split | (fail_if_no_progress with_reducible refine Keeps.lit rfl rfl rfl rfl rfl rfl rfl ?_))

theorem execImulLo_keeps {b : State} {x0 : _} {s : State} {t : State} (h : execImulLo x0 s = .next t) (hk : Keeps b s) : Keeps b t := by
  unfold execImulLo at h; try (conv at h => zeta)
  repeat' (first | (with_reducible refine Keeps.next h ?_; clear h) | split at h)
  all_goals repeat' (first | with_reducible exact hk | with_reducible exact Keeps.rfl | with_reducible refine runVec_keeps ?_ (by assumption) ?_ | with_reducible refine vecInt_keeps ?_ | with_reducible refine Keeps.foldl ?_ ?_ | with_reducible refine Keeps.foldl₂ ?_ ?_ | (intro; intros) | split | (fail_if_no_progress with_reducible refine Keeps.lit rfl rfl rfl rfl rfl rfl rfl ?_))

theorem execImulHi_keeps {b : State} {x0 : _} {s : State} {t : State} (h : execImulHi x0 s = .next t) (hk : Keeps b s) : Keeps b t := by
  unfold execImulHi at h; try (conv at h => zeta)
  repeat' (first | (with_reducible refine Keeps.next h ?_; clear h) | split at h)
  all_goals repeat' (first | with_reducible exact hk | with_reducible exact Keeps.rfl | with_reducible refine runVec_keeps ?_ (by assumption) ?_ | with_reducible refine vecInt_keeps ?_ | with_reducible refine Keeps.foldl ?_ ?_ | with_reducible refine Keeps.foldl₂ ?_ ?_ | (intro; intros) | split | (fail_if_no_progress with_reducible refine Keeps.lit rfl rfl rfl rfl rfl rfl rfl ?_))

theorem execImuluHi_keeps {b : State} {x0 : _} {s : State} {t : State} (h : execImuluHi x0 s = .next t) (hk : Keeps b s) : Keeps b t := by
  unfold execImuluHi at h; try (conv at h => zeta)
  repeat' (first | (with_reducible refine Keeps.next h ?_; clear h) | split at h)
  all_goals repeat' (first | with_reducible exact hk | with_reducible exact Keeps.rfl | with_reducible refine runVec_keeps ?_ (by assumption) ?_ | with_reducible refine vecInt_keeps ?_ | with_reducible refine Keeps.foldl ?_ ?_ | with_reducible refine Keeps.foldl₂ ?_ ?_ | (intro; intros) | split | (fail_if_no_progress with_reducible refine Keeps.lit rfl rfl rfl rfl rfl rfl rfl ?_))

theorem execShl_keeps {b : State} {x0 : _} {s : State} {t : State} (h : execShl x0 s = .next t) (hk : Keeps b s) : Keeps b t := by
  unfold execShl at h; try (conv at h => zeta)
  repeat' (first | (with_reducible refine Keeps.next h ?_; clear h) | split at h)
  all_goals repeat' (first | with_reducible exact hk | with_reducible exact Keeps.rfl | with_reducible refine runVec_keeps ?_ (by assumption) ?_ | with_reducible refine vecInt_keeps ?_ | with_reducible refine Keeps.foldl ?_ ?_ | with_reducible refine Keeps.foldl₂ ?_ ?_ | (intro; intros) | split | (fail_if_no_progress with_reducible refine Keeps.lit rfl rfl rfl rfl rfl rfl rfl ?_))

theorem execShr_keeps {b : State} {x0 : _} {s : State} {t : State} (h : execShr x0 s = .next t) (hk : Keeps b s) : Keeps b t := by
  unfold execShr at h; try (conv at h => zeta)
  repeat' (first | (with_reducible refine Keeps.next h ?_; clear h) | split at h)
  all_goals repeat' (first | with_reducible exact hk | with_reducible exact Keeps.rfl | with_reducible refine runVec_keeps ?_ (by assumption) ?_ | with_reducible refine vecInt_keeps ?_ | with_reducible refine Keeps.foldl ?_ ?_ | with_reducible refine Keeps.foldl₂ ?_ ?_ | (intro; intros) | split | (fail_if_no_progress with_reducible refine Keeps.lit rfl rfl rfl rfl rfl rfl rfl ?_))

theorem execSra_keeps {b : State} {x0 : _} {s : State} {t : State} (h : execSra x0 s = .next t) (hk : Keeps b s) : Keeps b t := by
  unfold execSra at h; try (conv at h => zeta)
  repeat' (first | (with_reducible refine Keeps.next h ?_; clear h) | split at h)
  all_goals repeat' (first | with_reducible exact hk | with_reducible exact Keeps.rfl | with_reducible refine runVec_keeps ?_ (by assumption) ?_ | with_reducible refine vecInt_keeps ?_ | with_reducible refine Keeps.foldl ?_ ?_ | with_reducible refine Keeps.foldl₂ ?_ ?_ | (intro; intros) | split | (fail_if_no_progress with_reducible refine Keeps.lit rfl rfl rfl rfl rfl rfl rfl ?_))

theorem execAnd_keeps {b : State} {x0 : _} {s : State} {t : State} (h : execAnd x0 s = .next t) (hk : Keeps b s) : Keeps b t := by
  unfold execAnd at h; try (conv at h => zeta)
  repeat' (first | (with_reducible refine Keeps.next h ?_; clear h) | split at h)
  all_goals repeat' (first | with_reducible exact hk | with_reducible exact Keeps.rfl | with_reducible refine runVec_keeps ?_ (by assumption) ?_ | with_reducible refine vecInt_keeps ?_ | with_reducible refine Keeps.foldl ?_ ?_ | with_reducible refine Keeps.foldl₂ ?_ ?_ | (intro; intros) | split | (fail_if_no_progress with_reducible refine Keeps.lit rfl rfl rfl rfl rfl rfl rfl ?_))

theorem execOr_keeps {b : State} {x0 : _} {s : State} {t : State} (h : execOr x0 s = .next t) (hk : Keeps b s) : Keeps b t := by
  unfold execOr at h; try (conv at h => zeta)
  repeat' (first | (with_reducible refine Keeps.next h ?_; clear h) | split at h)
  all_goals repeat' (first | with_reducible exact hk | with_reducible exact Keeps.rfl | with_reducible refine runVec_keeps ?_ (by assumption) ?_ | with_reducible refine vecInt_keeps ?_ | with_reducible refine Keeps.foldl ?_ ?_ | with_reducible refine Keeps.foldl₂ ?_ ?_ | (intro; intros) | split | (fail_if_no_progress with_reducible refine Keeps.lit rfl rfl rfl rfl rfl rfl rfl ?_))

theorem execXor_keeps {b : State} {x0 : _} {s : State} {t : State} (h : execXor x0 s = .next t) (hk : Keeps b s) : Keeps b t := by
  unfold execXor at h; try (conv at h => zeta)
  repeat' (first | (with_reducible refine Keeps.next h ?_; clear h) | split at h)
  all_goals repeat' (first | with_reducible exact hk | with_reducible exact Keeps.rfl | with_reducible refine runVec_keeps ?_ (by assumption) ?_ | with_reducible refine vecInt_keeps ?_ | with_reducible refine Keeps.foldl ?_ ?_ | with_reducible refine Keeps.foldl₂ ?_ ?_ | (intro; intros) | split | (fail_if_no_progress with_reducible refine Keeps.lit rfl rfl rfl rfl rfl rfl rfl ?_))

theorem execImin_keeps {b : State} {x0 : _} {s : State} {t : State} (h : execImin x0 s = .next t) (hk : Keeps b s) : Keeps b t := by
  unfold execImin at h; try (conv at h => zeta)
  repeat' (first | (with_reducible refine Keeps.next h ?_; clear h) | split at h)
  all_goals repeat' (first | with_reducible exact hk | with_reducible exact Keeps.rfl | with_reducible refine runVec_keeps ?_ (by assumption) ?_ | with_reducible refine vecInt_keeps ?_ | with_reducible refine Keeps.foldl ?_ ?_ | with_reducible refine Keeps.foldl₂ ?_ ?_ | (intro; intros) | split | (fail_if_no_progress with_reducible refine Keeps.lit rfl rfl rfl rfl rfl rfl rfl ?_))

theorem execImax_keeps {b : State} {x0 : _} {s : State} {t : State} (h : execImax x0 s = .next t) (hk : Keeps b s) : Keeps b t := by
  unfold execImax at h; try (conv at h => zeta)
  repeat' (first | (with_reducible refine Keeps.next h ?_; clear h) | split at h)
  all_goals repeat' (first | with_reducible exact hk | with_reducible exact Keeps.rfl | with_reducible refine runVec_keeps ?_ (by assumption) ?_ | with_reducible refine vecInt_keeps ?_ | with_reducible refine Keeps.foldl ?_ ?_ | with_reducible refine Keeps.foldl₂ ?_ ?_ | (intro; intros) | split | (fail_if_no_progress with_reducible refine Keeps.lit rfl rfl rfl rfl rfl rfl rfl ?_))

theorem execIcmp_keeps {b : State} {x0 : _} {s : State} {t : State} (h : execIcmp x0 s = .next t) (hk : Keeps b s) : Keeps b t := by
  unfold execIcmp at h; try (conv at h => zeta)
  repeat' (first | (with_reducible refine Keeps.next h ?_; clear h) | split at h)
  all_goals repeat' (first | with_reducible exact hk | with_reducible exact Keeps.rfl | with_reducible refine runVec_keeps ?_ (by assumption) ?_ | with_reducible refine vecCmp_keeps ?_ | with_reducible refine Keeps.foldl ?_ ?_ | with_reducible refine Keeps.foldl₂ ?_ ?_ | (intro; intros) | split | (fail_if_no_progress with_reducible refine Keeps.lit rfl rfl rfl rfl rfl rfl rfl ?_))

theorem copyReadAt_keeps {b : State} {s : State} {x1 : _} {x2 : _} {x3 : _} {x4 : _} {x5 : _} {x6 : _} {x7 : _} {x8 : _} (hk : Keeps b s) : Keeps b (copyReadAt s x1 x2 x3 x4 x5 x6 x7 x8).1 := by
  unfold copyReadAt; try (conv => zeta)
  repeat' (first | with_reducible exact hk | with_reducible refine hbmFetch_keeps ?_ | split)

theorem copyRead_keeps {b : State} {s : State} {x1 : _} {x2 : _} {x3 : _} {x4 : _} (hk : Keeps b s) : Keeps b (copyRead s x1 x2 x3 x4).1 := by
  unfold copyRead; try (conv => zeta)
  repeat' (first | with_reducible exact hk | with_reducible refine copyReadAt_keeps ?_ | split)

theorem copyWriteAt_keeps {b : State} {s : State} {x1 : _} {x2 : _} {x3 : _} {x4 : _} {x5 : _} {x6 : _} {x7 : _} {x8 : _} {x9 : _} (hk : Keeps b s) : Keeps b (copyWriteAt s x1 x2 x3 x4 x5 x6 x7 x8 x9).1 := by
  unfold copyWriteAt; try (conv => zeta)
  repeat' (first | with_reducible exact hk | ((with_reducible refine setTile_keeps ?_ ?_); focus (intro h; first | exact getTile_wf h _ | with_reducible exact Tile.write_wf _ _ (getTile_wf h _) | exact storeRow_wf (getTile_wf h _) | exact writeMask_wf (getTile_wf h _) | exact tileFold_wf (fun _ _ hy => storeRow_wf hy) (getTile_wf h _) | exact tileFold_wf (fun _ _ hy => writeOuts_wf hy) (getTile_wf h _))) | with_reducible refine hbmWriteP_keeps ?_ | with_reducible refine State.send_keeps ?_ | split)

theorem copyWrite_keeps {b : State} {s : State} {x1 : _} {x2 : _} {x3 : _} {x4 : _} {x5 : _} (hk : Keeps b s) : Keeps b (copyWrite s x1 x2 x3 x4 x5).1 := by
  unfold copyWrite; try (conv => zeta)
  repeat' (first | with_reducible exact hk | with_reducible refine copyWriteAt_keeps ?_ | split)

theorem copyRows_keeps {b s : State} {x0 : Nat} {x1 : TDesc} {x2 : PeerAnswer} {x3 x4 : Nat} {x5 : Bool} (hk : Keeps b s) :
    Keeps b (copyRows x0 x1 x2 x3 x4 s x5).1 := by
  have rows : ∀ {a : State × Nat × List (Nat × Bool)} {w : State × Nat} {c : State × Nat × Nat × Bool} {r : Nat}, Keeps b a.1 → Keeps b w.1 →
      Keeps b c.1 → Keeps b (if a.2.1 ≠ 0 then (a.1, a.2.1, r, true) else if w.2 ≠ 0 then (w.1, w.2, r, true) else c).1 := by
    intro a w c r h1 h2 h3
    split
    · exact h1
    · split
      · exact h2
      · exact h3
  induction x3 generalizing s x4 x5 with
  | zero => exact hk
  | succ n ih =>
    rw [copyRows]
    exact rows (copyRead_keeps hk) (copyWrite_keeps (copyRead_keeps hk)) (ih (copyWrite_keeps (copyRead_keeps hk)))

theorem execCopy_keeps {b : State} {x0 : _} {x1 : _} {x2 : _} {x3 : _} {x4 : _} {s : State} {t : State} (h : execCopy x0 x1 x2 x3 x4 s = .next t) (hk : Keeps b s) : Keeps b t := by
  unfold execCopy at h; try (conv at h => zeta)
  repeat' (first | (with_reducible refine Keeps.next h ?_; clear h) | split at h)
  all_goals repeat' (first | with_reducible exact hk | with_reducible exact Keeps.rfl | with_reducible refine runDesc_keeps ?_ (by assumption) ?_ | with_reducible refine copyRows_keeps ?_ | with_reducible refine Keeps.foldl ?_ ?_ | with_reducible refine Keeps.foldl₂ ?_ ?_ | (intro; intros) | split | (fail_if_no_progress with_reducible refine Keeps.lit rfl rfl rfl rfl rfl rfl rfl ?_))

theorem execFence_keeps {b : State} {x0 : _} {x1 : _} {s : State} {t : State} (h : execFence x0 x1 s = .next t) (hk : Keeps b s) : Keeps b t := by
  unfold execFence at h; try (conv at h => zeta)
  repeat' (first | (with_reducible refine Keeps.next h ?_; clear h) | split at h)
  all_goals repeat' (first | with_reducible exact hk | with_reducible exact Keeps.rfl | with_reducible refine runDesc_keeps ?_ (by assumption) ?_ | with_reducible refine Keeps.foldl ?_ ?_ | with_reducible refine Keeps.foldl₂ ?_ ?_ | (intro; intros) | split | (fail_if_no_progress with_reducible refine Keeps.lit rfl rfl rfl rfl rfl rfl rfl ?_))

/-! ### Machine/Hutch -/

theorem hutCount_keeps {b : State} {s : State} {x1 : _} {x2 : _} {x3 : _} (hk : Keeps b s) : Keeps b (hutCount s x1 x2 x3) := by
  unfold hutCount; try (conv => zeta)
  repeat' (first | with_reducible exact hk | with_reducible refine State.incr_keeps ?_ | with_reducible refine State.free_keeps ?_ | split)

theorem tree_keeps {b : State} {s : State} {x1 : _} {x2 : _} (hk : Keeps b s) : Keeps b (tree s x1 x2).1 := by
  unfold tree; try (conv => zeta)
  repeat' (first | with_reducible exact hk | with_reducible exact Keeps.rfl | with_reducible refine hutCount_keeps ?_ | with_reducible refine State.wr_keeps ?_ | with_reducible refine raise_keeps ?_ | with_reducible refine setFlags_keeps ?_ | ((with_reducible refine setTile_keeps ?_ ?_); focus (intro h; first | exact getTile_wf h _ | with_reducible exact Tile.write_wf _ _ (getTile_wf h _) | exact storeRow_wf (getTile_wf h _) | exact writeMask_wf (getTile_wf h _) | exact tileFold_wf (fun _ _ hy => storeRow_wf hy) (getTile_wf h _) | exact tileFold_wf (fun _ _ hy => writeOuts_wf hy) (getTile_wf h _))) | with_reducible refine Keeps.foldl ?_ ?_ | with_reducible refine Keeps.foldl₂ ?_ ?_ | ((with_reducible refine Keeps.iteOver ?_ ?_); focus (simp only [Keeps.rfl, ↓hutCount_keeps, ↓State.wr_keeps, ↓raise_keeps, ↓setFlags_keeps, ↓setTile_keeps]; done)) | ((with_reducible refine Keeps.iteUnder ?_ ?_); focus (simp only [Keeps.rfl, ↓hutCount_keeps, ↓State.wr_keeps, ↓raise_keeps, ↓setFlags_keeps, ↓setTile_keeps]; done)) | with_reducible refine Keeps.ite ?_ ?_ | (intro; intros) | (split <;> (rename_i heq; with_reducible have e := congrArg Prod.fst heq; with_reducible dsimp only at e; with_reducible subst e)) | split | (fail_if_no_progress with_reducible refine Keeps.lit rfl rfl rfl rfl rfl rfl rfl ?_))

theorem execTree_keeps {b : State} {x0 : _} {s : State} {t : State} (h : execTree x0 s = .next t) (hk : Keeps b s) : Keeps b t := by
  unfold execTree at h; try (conv at h => zeta)
  repeat' (first | (with_reducible refine Keeps.next h ?_; clear h) | split at h)
  all_goals repeat' (first | with_reducible exact hk | with_reducible exact Keeps.rfl | with_reducible refine runDesc_keeps ?_ (by assumption) ?_ | with_reducible refine tree_keeps ?_ | with_reducible refine Keeps.foldl ?_ ?_ | with_reducible refine Keeps.foldl₂ ?_ ?_ | (intro; intros) | split | (fail_if_no_progress with_reducible refine Keeps.lit rfl rfl rfl rfl rfl rfl rfl ?_))

theorem execDescriptorStart_keeps {b : State} {x0 : _} {x1 : _} {s : State} {t : State} (h : execDescriptorStart x0 x1 s = .next t) (hk : Keeps b s) : Keeps b t := by
  unfold execDescriptorStart at h; try (conv at h => zeta)
  repeat' (first | (with_reducible refine Keeps.next h ?_; clear h) | split at h)
  all_goals repeat' (first | with_reducible exact hk | with_reducible refine haltQueue_keeps ?_ | with_reducible refine putQ_keeps ?_ | split)

/-! ### Machine/Orders -/

theorem writeHubWords_keeps {b s : State} {x0 : Page} {x1 : Nat} {x2 : List Nat} (hk : Keeps b s) : Keeps b (writeHubWords x0 x1 x2 s).1 := by
  induction x2 generalizing s x1 with
  | nil => exact hk
  | cons v vs ih =>
    unfold writeHubWords
    dsimp only
    split
    · exact writeCode_keeps hk
    · exact ih (writeCode_keeps hk)

theorem writeHub_keeps {b : State} {s : State} {x1 : _} {x2 : _} {x3 : _} {x4 : _} (hk : Keeps b s) : Keeps b (writeHub s x1 x2 x3 x4) := by
  unfold writeHub; try (conv => zeta)
  repeat' (first | with_reducible exact hk | with_reducible refine writeHubWords_keeps ?_ | with_reducible refine startEntry_keeps ?_ | with_reducible refine endEntry_keeps ?_ | split)

theorem writeUnit_keeps {b : State} {s : State} {x1 : _} {x2 : _} {x3 : _} {x4 : _} {x5 : _} (hk : Keeps b s) : Keeps b (writeUnit s x1 x2 x3 x4 x5) := by
  unfold writeUnit; try (conv => zeta)
  repeat' (first | with_reducible exact hk | with_reducible refine abort_keeps ?_ | with_reducible refine advance_keeps ?_ | with_reducible refine startEntry_keeps ?_ | split)

theorem execRegWrite_keeps {b : State} {x0 : _} {x1 : _} {x2 : _} {x3 : _} {x4 : _} {s : State} {t : State} (h : execRegWrite x0 x1 x2 x3 x4 s = .next t) (hk : Keeps b s) : Keeps b t := by
  unfold execRegWrite at h; try (conv at h => zeta)
  repeat' (first | (with_reducible refine Keeps.next h ?_; clear h) | split at h)
  all_goals repeat' (first | with_reducible exact hk | with_reducible exact Keeps.rfl | with_reducible refine operation_keeps ?_ (by assumption) ?_ | with_reducible refine abort_keeps ?_ | with_reducible refine writeUnit_keeps ?_ | with_reducible refine writeHub_keeps ?_ | with_reducible refine Keeps.foldl ?_ ?_ | with_reducible refine Keeps.foldl₂ ?_ ?_ | (intro; intros) | split | (fail_if_no_progress with_reducible refine Keeps.lit rfl rfl rfl rfl rfl rfl rfl ?_))

theorem execFreeze_keeps {b : State} {x0 : _} {x1 : _} {x2 : _} {x3 : _} {x4 : _} {x5 : _} {s : State} {t : State} (h : execFreeze x0 x1 x2 x3 x4 x5 s = .next t) (hk : Keeps b s) : Keeps b t := by
  unfold execFreeze at h; try (conv at h => zeta)
  repeat' (first | (with_reducible refine Keeps.next h ?_; clear h) | split at h)
  all_goals repeat' (first | with_reducible exact hk | with_reducible exact Keeps.rfl | with_reducible refine operation_keeps ?_ (by assumption) ?_ | with_reducible refine abort_keeps ?_ | with_reducible refine startChange_keeps ?_ | with_reducible refine stageFreeze_keeps ?_ | with_reducible refine Keeps.foldl ?_ ?_ | with_reducible refine Keeps.foldl₂ ?_ ?_ | (intro; intros) | split | (fail_if_no_progress with_reducible refine Keeps.lit rfl rfl rfl rfl rfl rfl rfl ?_))

theorem takeExport_keeps {b : State} {s : State} {x1 : _} (hk : Keeps b s) : Keeps b (takeExport s x1).1 := by
  unfold takeExport; try (conv => zeta)
  repeat' (first | with_reducible exact hk | (with_reducible refine setCabinet_keeps rfl rfl rfl ?_) | split)

theorem exportBlock_keeps {b : State} {s : State} {x1 : _} {x2 : _} {x3 : _} {x4 : _} {x5 : _} (hk : Keeps b s) : Keeps b (exportBlock s x1 x2 x3 x4 x5) := by
  unfold exportBlock; try (conv => zeta)
  repeat' (first | with_reducible exact hk | with_reducible refine hbmFetch_keeps ?_ | with_reducible refine takeExport_keeps ?_ | with_reducible refine State.send_keeps ?_ | split)

theorem exportDie_keeps {b : State} {x0 : _} {x1 : _} {x2 : _} {s : State} {x4 : _} (hk : Keeps b s) : Keeps b (exportDie x0 x1 x2 s x4) := by
  unfold exportDie; try (conv => zeta)
  repeat' (first | with_reducible exact hk | with_reducible exact Keeps.rfl | with_reducible refine State.bump_keeps ?_ | with_reducible refine State.incr_keeps ?_ | with_reducible refine exportBlock_keeps ?_ | with_reducible refine Keeps.foldl ?_ ?_ | with_reducible refine Keeps.foldl₂ ?_ ?_ | (intro; intros) | split | (fail_if_no_progress with_reducible refine Keeps.lit rfl rfl rfl rfl rfl rfl rfl ?_))

theorem exportSet_keeps {b : State} {x0 : _} {x1 : _} {x2 : _} {x3 : _} {s : State} {x5 : _} (hk : Keeps b s) : Keeps b (exportSet x0 x1 x2 x3 s x5) := by
  unfold exportSet; try (conv => zeta)
  repeat' (first | with_reducible exact hk | with_reducible refine State.wr_keeps ?_ | split)

theorem execScanExport_keeps {b : State} {x0 : _} {x1 : _} {x2 : _} {x3 : _} {x4 : _} {x5 : _} {x6 : _} {x7 : _} {s : State} {t : State} (h : execScanExport x0 x1 x2 x3 x4 x5 x6 x7 s = .next t) (hk : Keeps b s) : Keeps b t := by
  unfold execScanExport at h; try (conv at h => zeta)
  repeat' (first | (with_reducible refine Keeps.next h ?_; clear h) | split at h)
  all_goals repeat' (first | with_reducible exact hk | with_reducible exact Keeps.rfl | with_reducible refine operation_keeps ?_ (by assumption) ?_ | with_reducible refine abort_keeps ?_ | with_reducible refine promoteSiteKeys_keeps ?_ | with_reducible refine exportSet_keeps ?_ | with_reducible refine startEntry_keeps ?_ | with_reducible refine exportDie_keeps ?_ | with_reducible refine endEntry_keeps ?_ | with_reducible refine endScan_keeps ?_ | with_reducible refine Keeps.foldl ?_ ?_ | with_reducible refine Keeps.foldl₂ ?_ ?_ | (intro; intros) | split | (fail_if_no_progress with_reducible refine Keeps.lit rfl rfl rfl rfl rfl rfl rfl ?_))

theorem execCorrelate_keeps {b : State} {x0 : _} {x1 : _} {x2 : _} {x3 : _} {x4 : _} {x5 : _} {s : State} {t : State} (h : execCorrelate x0 x1 x2 x3 x4 x5 s = .next t) (hk : Keeps b s) : Keeps b t := by
  unfold execCorrelate at h; try (conv at h => zeta)
  repeat' (first | (with_reducible refine Keeps.next h ?_; clear h) | split at h)
  all_goals repeat' (first | with_reducible exact hk | with_reducible exact Keeps.rfl | with_reducible refine operation_keeps ?_ (by assumption) ?_ | with_reducible refine abort_keeps ?_ | with_reducible refine startEntry_keeps ?_ | (with_reducible refine setCabinet_keeps rfl rfl rfl ?_) | with_reducible refine Keeps.foldl ?_ ?_ | with_reducible refine Keeps.foldl₂ ?_ ?_ | (intro; intros) | split | (fail_if_no_progress with_reducible refine Keeps.lit rfl rfl rfl rfl rfl rfl rfl ?_))

theorem execObsClear_keeps {b : State} {x0 : _} {x1 : _} {x2 : _} {x3 : _} {s : State} {t : State} (h : execObsClear x0 x1 x2 x3 s = .next t) (hk : Keeps b s) : Keeps b t := by
  unfold execObsClear at h; try (conv at h => zeta)
  repeat' (first | (with_reducible refine Keeps.next h ?_; clear h) | split at h)
  all_goals repeat' (first | with_reducible exact hk | with_reducible exact Keeps.rfl | with_reducible refine operation_keeps ?_ (by assumption) ?_ | with_reducible refine abort_keeps ?_ | with_reducible refine modJob_keeps ?_ | with_reducible refine endEntry_keeps ?_ | with_reducible refine startEntry_keeps ?_ | with_reducible refine Keeps.foldl ?_ ?_ | with_reducible refine Keeps.foldl₂ ?_ ?_ | (intro; intros) | split | (fail_if_no_progress with_reducible refine Keeps.lit rfl rfl rfl rfl rfl rfl rfl ?_))

theorem execRetire_keeps {b : State} {x0 : _} {x1 : _} {x2 : _} {s : State} {t : State} (h : execRetire x0 x1 x2 s = .next t) (hk : Keeps b s) : Keeps b t := by
  unfold execRetire at h; try (conv at h => zeta)
  repeat' (first | (with_reducible refine Keeps.next h ?_; clear h) | split at h)
  all_goals repeat' (first | with_reducible exact hk | with_reducible exact Keeps.rfl | with_reducible refine operation_keeps ?_ (by assumption) ?_ | with_reducible refine abort_keeps ?_ | with_reducible refine endEntry_keeps ?_ | with_reducible refine retireForGood_keeps ?_ | with_reducible refine startEntry_keeps ?_ | with_reducible refine Keeps.foldl ?_ ?_ | with_reducible refine Keeps.foldl₂ ?_ ?_ | (intro; intros) | split | (fail_if_no_progress with_reducible refine Keeps.lit rfl rfl rfl rfl rfl rfl rfl ?_))

theorem apptKey_keeps {b : State} {s : State} {x1 : _} {x2 : _} (hk : Keeps b s) : Keeps b (apptKey s x1 x2) := by
  unfold apptKey; try (conv => zeta)
  repeat' (first | with_reducible exact hk | with_reducible refine setHKeys_keeps ?_ | split)

theorem installSite_keeps {b : State} {s : State} {x1 : _} {x2 : _} {x3 : _} {x4 : _} {x5 : _} (hk : Keeps b s) : Keeps b (installSite s x1 x2 x3 x4 x5) := by
  unfold installSite; try (conv => zeta)
  repeat' (first | with_reducible exact hk | with_reducible refine installRecord_keeps ?_ | with_reducible refine abort_keeps ?_ | with_reducible refine advance_keeps ?_ | with_reducible refine startEntry_keeps ?_ | with_reducible refine apptKey_keeps ?_ | split)

theorem execKeyInstall_keeps {b : State} {x0 : _} {x1 : _} {x2 : _} {x3 : _} {x4 : _} {x5 : _} {s : State} {t : State} (h : execKeyInstall x0 x1 x2 x3 x4 x5 s = .next t) (hk : Keeps b s) : Keeps b t := by
  unfold execKeyInstall at h; try (conv at h => zeta)
  repeat' (first | (with_reducible refine Keeps.next h ?_; clear h) | split at h)
  all_goals repeat' (first | with_reducible exact hk | with_reducible exact Keeps.rfl | with_reducible refine operation_keeps ?_ (by assumption) ?_ | with_reducible refine abort_keeps ?_ | with_reducible refine installSite_keeps ?_ | with_reducible refine promoteSiteKeys_keeps ?_ | with_reducible refine Keeps.foldl ?_ ?_ | with_reducible refine Keeps.foldl₂ ?_ ?_ | (intro; intros) | split | (fail_if_no_progress with_reducible refine Keeps.lit rfl rfl rfl rfl rfl rfl rfl ?_))

theorem writeCopy_keeps {b : State} {s : State} {x1 : _} {x2 : _} (hk : Keeps b s) : Keeps b (writeCopy s x1 x2) := by
  unfold writeCopy; try (conv => zeta)
  repeat' (first | with_reducible exact hk | (with_reducible refine setCabinet_keeps rfl rfl rfl ?_) | split)

theorem execImageWrite_keeps {b : State} {x0 : _} {x1 : _} {x2 : _} {x3 : _} {x4 : _} {s : State} {t : State} (h : execImageWrite x0 x1 x2 x3 x4 s = .next t) (hk : Keeps b s) : Keeps b t := by
  unfold execImageWrite at h; try (conv at h => zeta)
  repeat' (first | (with_reducible refine Keeps.next h ?_; clear h) | split at h)
  all_goals repeat' (first | with_reducible exact hk | with_reducible exact Keeps.rfl | with_reducible refine request_keeps ?_ (by assumption) ?_ | with_reducible refine journalled_keeps ?_ ?_ | with_reducible refine abort_keeps ?_ | with_reducible refine endEntry_keeps ?_ | with_reducible refine writeCopy_keeps ?_ | with_reducible refine startEntry_keeps ?_ | with_reducible refine Keeps.foldl ?_ ?_ | with_reducible refine Keeps.foldl₂ ?_ ?_ | (intro; intros) | split | (fail_if_no_progress with_reducible refine Keeps.lit rfl rfl rfl rfl rfl rfl rfl ?_))

theorem execSwitchover_keeps {b : State} {x0 : _} {x1 : _} {x2 : _} {s : State} {t : State} (h : execSwitchover x0 x1 x2 s = .next t) (hk : Keeps b s) : Keeps b t := by
  unfold execSwitchover at h; try (conv at h => zeta)
  repeat' (first | (with_reducible refine Keeps.next h ?_; clear h) | split at h)
  all_goals repeat' (first | with_reducible exact hk | with_reducible exact Keeps.rfl | with_reducible refine operation_keeps ?_ (by assumption) ?_ | with_reducible refine abort_keeps ?_ | with_reducible refine takeOver_keeps ?_ | with_reducible refine endEntry_keeps ?_ | with_reducible refine startEntry_keeps ?_ | with_reducible refine Keeps.foldl ?_ ?_ | with_reducible refine Keeps.foldl₂ ?_ ?_ | (intro; intros) | split | (fail_if_no_progress with_reducible refine Keeps.lit rfl rfl rfl rfl rfl rfl rfl ?_))

theorem execReset_keeps {b : State} {x0 : _} {x1 : _} {x2 : _} {x3 : _} {s : State} {t : State} (h : execReset x0 x1 x2 x3 s = .next t) (hk : Keeps b s) : Keeps b t := by
  unfold execReset at h; try (conv at h => zeta)
  repeat' (first | (with_reducible refine Keeps.next h ?_; clear h) | split at h)
  all_goals repeat' (first | with_reducible exact hk | with_reducible exact Keeps.rfl | with_reducible refine operation_keeps ?_ (by assumption) ?_ | with_reducible refine abort_keeps ?_ | with_reducible refine runBoot_keeps ?_ | with_reducible refine packageReset_keeps ?_ | with_reducible refine Keeps.foldl ?_ ?_ | with_reducible refine Keeps.foldl₂ ?_ ?_ | (intro; intros) | split | (fail_if_no_progress with_reducible refine Keeps.lit rfl rfl rfl rfl rfl rfl rfl ?_))

/-! ### Machine/Spdm -/

theorem spdm_keeps {b : State} {s : State} {x1 : _} {x2 : _} {x3 : _} {x4 : _} (hx4 : ∀ y0, Keeps y0 (x4 y0).1) {t : State} (h : spdm s x1 x2 x3 x4 = .next t) (hk : Keeps b s) : Keeps b t := by
  unfold spdm at h; try (conv at h => zeta)
  repeat' (first | (with_reducible refine Keeps.next h ?_; clear h) | split at h)
  all_goals repeat' (first | with_reducible exact hk | with_reducible exact Keeps.rfl | with_reducible refine request_keeps ?_ (by assumption) ?_ | with_reducible refine replyTo_keeps ?_ | with_reducible refine Keeps.foldl ?_ ?_ | with_reducible refine Keeps.foldl₂ ?_ ?_ | ((with_reducible refine Keeps.iteOver ?_ ?_); focus (simp only [Keeps.rfl, ↓replyTo_keeps]; done)) | ((with_reducible refine Keeps.iteUnder ?_ ?_); focus (simp only [Keeps.rfl, ↓replyTo_keeps]; done)) | with_reducible refine Keeps.ite ?_ ?_ | (intro; intros) | with_reducible exact hx4 _  | with_reducible refine (Keeps.trans ?_ (hx4 _ )) | (split <;> (rename_i heq; with_reducible have e := congrArg Prod.fst heq; with_reducible dsimp only at e; with_reducible subst e)) | split | (fail_if_no_progress with_reducible refine Keeps.lit rfl rfl rfl rfl rfl rfl rfl ?_))

theorem execGetVersion_keeps {b : State} {x0 : _} {x1 : _} {s : State} {t : State} (h : execGetVersion x0 x1 s = .next t) (hk : Keeps b s) : Keeps b t := by
  unfold execGetVersion at h; try (conv at h => zeta)
  repeat' (first | (with_reducible refine Keeps.next h ?_; clear h) | split at h)
  all_goals repeat' (first | with_reducible exact hk | with_reducible exact Keeps.rfl | with_reducible refine spdm_keeps ?_ (by assumption) ?_ | with_reducible refine Keeps.foldl ?_ ?_ | with_reducible refine Keeps.foldl₂ ?_ ?_ | (intro; intros) | split | (fail_if_no_progress with_reducible refine Keeps.lit rfl rfl rfl rfl rfl rfl rfl ?_))

theorem execGetCapabilities_keeps {b : State} {x0 : _} {x1 : _} {s : State} {t : State} (h : execGetCapabilities x0 x1 s = .next t) (hk : Keeps b s) : Keeps b t := by
  unfold execGetCapabilities at h; try (conv at h => zeta)
  repeat' (first | (with_reducible refine Keeps.next h ?_; clear h) | split at h)
  all_goals repeat' (first | with_reducible exact hk | with_reducible exact Keeps.rfl | with_reducible refine spdm_keeps ?_ (by assumption) ?_ | with_reducible refine Keeps.foldl ?_ ?_ | with_reducible refine Keeps.foldl₂ ?_ ?_ | (intro; intros) | split | (fail_if_no_progress with_reducible refine Keeps.lit rfl rfl rfl rfl rfl rfl rfl ?_))

theorem execNegotiateAlgorithms_keeps {b : State} {x0 : _} {x1 : _} {x2 : _} {s : State} {t : State} (h : execNegotiateAlgorithms x0 x1 x2 s = .next t) (hk : Keeps b s) : Keeps b t := by
  unfold execNegotiateAlgorithms at h; try (conv at h => zeta)
  repeat' (first | (with_reducible refine Keeps.next h ?_; clear h) | split at h)
  all_goals repeat' (first | with_reducible exact hk | with_reducible exact Keeps.rfl | with_reducible refine spdm_keeps ?_ (by assumption) ?_ | with_reducible refine Keeps.foldl ?_ ?_ | with_reducible refine Keeps.foldl₂ ?_ ?_ | (intro; intros) | split | (fail_if_no_progress with_reducible refine Keeps.lit rfl rfl rfl rfl rfl rfl rfl ?_))

theorem execGetDigests_keeps {b : State} {x0 : _} {x1 : _} {s : State} {t : State} (h : execGetDigests x0 x1 s = .next t) (hk : Keeps b s) : Keeps b t := by
  unfold execGetDigests at h; try (conv at h => zeta)
  repeat' (first | (with_reducible refine Keeps.next h ?_; clear h) | split at h)
  all_goals repeat' (first | with_reducible exact hk | with_reducible exact Keeps.rfl | with_reducible refine spdm_keeps ?_ (by assumption) ?_ | with_reducible refine Keeps.foldl ?_ ?_ | with_reducible refine Keeps.foldl₂ ?_ ?_ | (intro; intros) | split | (fail_if_no_progress with_reducible refine Keeps.lit rfl rfl rfl rfl rfl rfl rfl ?_))

theorem execGetCertificate_keeps {b : State} {x0 : _} {x1 : _} {x2 : _} {s : State} {t : State} (h : execGetCertificate x0 x1 x2 s = .next t) (hk : Keeps b s) : Keeps b t := by
  unfold execGetCertificate at h; try (conv at h => zeta)
  repeat' (first | (with_reducible refine Keeps.next h ?_; clear h) | split at h)
  all_goals repeat' (first | with_reducible exact hk | with_reducible exact Keeps.rfl | with_reducible refine spdm_keeps ?_ (by assumption) ?_ | with_reducible refine Keeps.foldl ?_ ?_ | with_reducible refine Keeps.foldl₂ ?_ ?_ | (intro; intros) | split | (fail_if_no_progress with_reducible refine Keeps.lit rfl rfl rfl rfl rfl rfl rfl ?_))

theorem execChallenge_keeps {b : State} {x0 : _} {x1 : _} {x2 : _} {x3 : _} {s : State} {t : State} (h : execChallenge x0 x1 x2 x3 s = .next t) (hk : Keeps b s) : Keeps b t := by
  unfold execChallenge at h; try (conv at h => zeta)
  repeat' (first | (with_reducible refine Keeps.next h ?_; clear h) | split at h)
  all_goals repeat' (first | with_reducible exact hk | with_reducible exact Keeps.rfl | with_reducible refine spdm_keeps ?_ (by assumption) ?_ | with_reducible refine Keeps.foldl ?_ ?_ | with_reducible refine Keeps.foldl₂ ?_ ?_ | (intro; intros) | split | (fail_if_no_progress with_reducible refine Keeps.lit rfl rfl rfl rfl rfl rfl rfl ?_))

theorem execGetMeasurements_keeps {b : State} {x0 : _} {x1 : _} {x2 : _} {s : State} {t : State} (h : execGetMeasurements x0 x1 x2 s = .next t) (hk : Keeps b s) : Keeps b t := by
  unfold execGetMeasurements at h; try (conv at h => zeta)
  repeat' (first | (with_reducible refine Keeps.next h ?_; clear h) | split at h)
  all_goals repeat' (first | with_reducible exact hk | with_reducible exact Keeps.rfl | with_reducible refine spdm_keeps ?_ (by assumption) ?_ | with_reducible refine Keeps.foldl ?_ ?_ | with_reducible refine Keeps.foldl₂ ?_ ?_ | (intro; intros) | split | (fail_if_no_progress with_reducible refine Keeps.lit rfl rfl rfl rfl rfl rfl rfl ?_))

theorem execGetCsr_keeps {b : State} {x0 : _} {x1 : _} {s : State} {t : State} (h : execGetCsr x0 x1 s = .next t) (hk : Keeps b s) : Keeps b t := by
  unfold execGetCsr at h; try (conv at h => zeta)
  repeat' (first | (with_reducible refine Keeps.next h ?_; clear h) | split at h)
  all_goals repeat' (first | with_reducible exact hk | with_reducible exact Keeps.rfl | with_reducible refine spdm_keeps ?_ (by assumption) ?_ | (with_reducible refine setCabinet_keeps rfl rfl rfl ?_) | with_reducible refine Keeps.foldl ?_ ?_ | with_reducible refine Keeps.foldl₂ ?_ ?_ | (intro; intros) | split | (fail_if_no_progress with_reducible refine Keeps.lit rfl rfl rfl rfl rfl rfl rfl ?_))

theorem execSetCertificate_keeps {b : State} {x0 : _} {x1 : _} {x2 : _} {x3 : _} {s : State} {t : State} (h : execSetCertificate x0 x1 x2 x3 s = .next t) (hk : Keeps b s) : Keeps b t := by
  unfold execSetCertificate at h; try (conv at h => zeta)
  repeat' (first | (with_reducible refine Keeps.next h ?_; clear h) | split at h)
  all_goals repeat' (first | with_reducible exact hk | with_reducible exact Keeps.rfl | with_reducible refine spdm_keeps ?_ (by assumption) ?_ | (with_reducible refine setCabinet_keeps rfl rfl rfl ?_) | with_reducible refine Keeps.foldl ?_ ?_ | with_reducible refine Keeps.foldl₂ ?_ ?_ | (intro; intros) | split | (fail_if_no_progress with_reducible refine Keeps.lit rfl rfl rfl rfl rfl rfl rfl ?_))

/-! ### Machine/Idle -/

theorem idle_keeps {b : State} {s : State} (hk : Keeps b s) : Keeps b (idle s) := by
  unfold idle; try (conv => zeta)
  repeat' (first | with_reducible exact hk | split | (fail_if_no_progress with_reducible refine Keeps.lit rfl rfl rfl rfl rfl rfl rfl ?_))

end Sys2Proof.Machine
end

