-- ==== Sys2Proof/Laws/State.lean ====
section
/-!
SUPPORT. Sys2Proof/Laws/State.lean: what the base operations leave of the state's fields: one lemma for each field and operation, so that no
proof unfolds an update.
-/
namespace Sys2Proof.Machine

@[simp] theorem State.setCell_cfg (s : State) (k : RegKey) (v : Nat) : (State.setCell s k v).cfg = s.cfg := rfl
@[simp] theorem State.setCell_tally (s : State) (k : RegKey) (v : Nat) : (State.setCell s k v).tally = s.tally := rfl
@[simp] theorem State.setCell_hub (s : State) (k : RegKey) (v : Nat) : (State.setCell s k v).hub = s.hub := rfl
@[simp] theorem State.setCell_out (s : State) (k : RegKey) (v : Nat) : (State.setCell s k v).out = s.out := rfl
@[simp] theorem State.setCell_trace (s : State) (k : RegKey) (v : Nat) : (State.setCell s k v).trace = s.trace := rfl
@[simp] theorem State.setCell_freeCtr (s : State) (k : RegKey) (v : Nat) : (State.setCell s k v).freeCtr = s.freeCtr := rfl
@[simp] theorem State.setCell_pending (s : State) (k : RegKey) (v : Nat) : (State.setCell s k v).pending = s.pending := rfl

@[simp] theorem State.wr_cfg (s : State) (pg : Page) (f : Fld) (v i : Nat) : (State.wr s pg f v i).cfg = s.cfg := rfl
@[simp] theorem State.wr_tally (s : State) (pg : Page) (f : Fld) (v i : Nat) : (State.wr s pg f v i).tally = s.tally := rfl
@[simp] theorem State.wr_hub (s : State) (pg : Page) (f : Fld) (v i : Nat) : (State.wr s pg f v i).hub = s.hub := rfl
@[simp] theorem State.wr_out (s : State) (pg : Page) (f : Fld) (v i : Nat) : (State.wr s pg f v i).out = s.out := rfl
@[simp] theorem State.wr_trace (s : State) (pg : Page) (f : Fld) (v i : Nat) : (State.wr s pg f v i).trace = s.trace := rfl
@[simp] theorem State.wr_freeCtr (s : State) (pg : Page) (f : Fld) (v i : Nat) : (State.wr s pg f v i).freeCtr = s.freeCtr := rfl
@[simp] theorem State.wr_pending (s : State) (pg : Page) (f : Fld) (v i : Nat) : (State.wr s pg f v i).pending = s.pending := rfl

@[simp] theorem State.bump_cfg (s : State) (pg : Page) (f : Fld) (i d : Nat) : (State.bump s pg f i d).cfg = s.cfg := rfl
@[simp] theorem State.bump_tally (s : State) (pg : Page) (f : Fld) (i d : Nat) : (State.bump s pg f i d).tally = s.tally := rfl
@[simp] theorem State.bump_hub (s : State) (pg : Page) (f : Fld) (i d : Nat) : (State.bump s pg f i d).hub = s.hub := rfl
@[simp] theorem State.bump_out (s : State) (pg : Page) (f : Fld) (i d : Nat) : (State.bump s pg f i d).out = s.out := rfl
@[simp] theorem State.bump_trace (s : State) (pg : Page) (f : Fld) (i d : Nat) : (State.bump s pg f i d).trace = s.trace := rfl
@[simp] theorem State.bump_freeCtr (s : State) (pg : Page) (f : Fld) (i d : Nat) : (State.bump s pg f i d).freeCtr = s.freeCtr := rfl
@[simp] theorem State.bump_pending (s : State) (pg : Page) (f : Fld) (i d : Nat) : (State.bump s pg f i d).pending = s.pending := rfl

@[simp] theorem State.incr_cfg (s : State) (pg : Page) (f : Fld) (i d : Nat) : (State.incr s pg f i d).cfg = s.cfg := rfl
@[simp] theorem State.incr_tally (s : State) (pg : Page) (f : Fld) (i d : Nat) : (State.incr s pg f i d).tally = s.tally := rfl
@[simp] theorem State.incr_hub (s : State) (pg : Page) (f : Fld) (i d : Nat) : (State.incr s pg f i d).hub = s.hub := rfl
@[simp] theorem State.incr_out (s : State) (pg : Page) (f : Fld) (i d : Nat) : (State.incr s pg f i d).out = s.out := rfl
@[simp] theorem State.incr_trace (s : State) (pg : Page) (f : Fld) (i d : Nat) : (State.incr s pg f i d).trace = s.trace := rfl
@[simp] theorem State.incr_freeCtr (s : State) (pg : Page) (f : Fld) (i d : Nat) : (State.incr s pg f i d).freeCtr = s.freeCtr := rfl
@[simp] theorem State.incr_pending (s : State) (pg : Page) (f : Fld) (i d : Nat) : (State.incr s pg f i d).pending = s.pending := rfl

@[simp] theorem clearSyn_cfg (s : State) (pg : Page) : (clearSyn s pg).cfg = s.cfg := rfl
@[simp] theorem clearSyn_tally (s : State) (pg : Page) : (clearSyn s pg).tally = s.tally := rfl
@[simp] theorem clearSyn_hub (s : State) (pg : Page) : (clearSyn s pg).hub = s.hub := rfl
@[simp] theorem clearSyn_out (s : State) (pg : Page) : (clearSyn s pg).out = s.out := rfl
@[simp] theorem clearSyn_trace (s : State) (pg : Page) : (clearSyn s pg).trace = s.trace := rfl
@[simp] theorem clearSyn_freeCtr (s : State) (pg : Page) : (clearSyn s pg).freeCtr = s.freeCtr := rfl
@[simp] theorem clearSyn_pending (s : State) (pg : Page) : (clearSyn s pg).pending = s.pending := rfl

@[simp] theorem resetCells_cfg (s : State) (p : RegKey → Bool) : (resetCells s p).cfg = s.cfg := rfl
@[simp] theorem resetCells_tally (s : State) (p : RegKey → Bool) : (resetCells s p).tally = s.tally := rfl
@[simp] theorem resetCells_hub (s : State) (p : RegKey → Bool) : (resetCells s p).hub = s.hub := rfl
@[simp] theorem resetCells_out (s : State) (p : RegKey → Bool) : (resetCells s p).out = s.out := rfl
@[simp] theorem resetCells_trace (s : State) (p : RegKey → Bool) : (resetCells s p).trace = s.trace := rfl
@[simp] theorem resetCells_freeCtr (s : State) (p : RegKey → Bool) : (resetCells s p).freeCtr = s.freeCtr := rfl
@[simp] theorem resetCells_pending (s : State) (p : RegKey → Bool) : (resetCells s p).pending = s.pending := rfl

@[simp] theorem State.send_cfg (s : State) (o : Out) : (State.send s o).cfg = s.cfg := rfl
@[simp] theorem State.send_tally (s : State) (o : Out) : (State.send s o).tally = s.tally := rfl
@[simp] theorem State.send_hub (s : State) (o : Out) : (State.send s o).hub = s.hub := rfl
@[simp] theorem State.send_regs (s : State) (o : Out) : (State.send s o).regs = s.regs := rfl
@[simp] theorem State.send_trace (s : State) (o : Out) : (State.send s o).trace = s.trace := rfl
@[simp] theorem State.send_freeCtr (s : State) (o : Out) : (State.send s o).freeCtr = s.freeCtr := rfl
@[simp] theorem State.send_pending (s : State) (o : Out) : (State.send s o).pending = s.pending := rfl

@[simp] theorem setTile_cfg (s : State) (t : Nat) (x : Tile) : (setTile s t x).cfg = s.cfg := rfl
@[simp] theorem setTile_tally (s : State) (t : Nat) (x : Tile) : (setTile s t x).tally = s.tally := rfl
@[simp] theorem setTile_regs (s : State) (t : Nat) (x : Tile) : (setTile s t x).regs = s.regs := rfl
@[simp] theorem setTile_out (s : State) (t : Nat) (x : Tile) : (setTile s t x).out = s.out := rfl
@[simp] theorem setTile_trace (s : State) (t : Nat) (x : Tile) : (setTile s t x).trace = s.trace := rfl
@[simp] theorem setTile_freeCtr (s : State) (t : Nat) (x : Tile) : (setTile s t x).freeCtr = s.freeCtr := rfl
@[simp] theorem setTile_pending (s : State) (t : Nat) (x : Tile) : (setTile s t x).pending = s.pending := rfl

@[simp] theorem setCabinet_cfg (s : State) (c : Cabinet) : (setCabinet s c).cfg = s.cfg := rfl
@[simp] theorem setCabinet_tally (s : State) (c : Cabinet) : (setCabinet s c).tally = s.tally := rfl
@[simp] theorem setCabinet_regs (s : State) (c : Cabinet) : (setCabinet s c).regs = s.regs := rfl
@[simp] theorem setCabinet_out (s : State) (c : Cabinet) : (setCabinet s c).out = s.out := rfl
@[simp] theorem setCabinet_trace (s : State) (c : Cabinet) : (setCabinet s c).trace = s.trace := rfl
@[simp] theorem setCabinet_freeCtr (s : State) (c : Cabinet) : (setCabinet s c).freeCtr = s.freeCtr := rfl
@[simp] theorem setCabinet_pending (s : State) (c : Cabinet) : (setCabinet s c).pending = s.pending := rfl

@[simp] theorem State.send_out (s : State) (o : Out) : (s.send o).out = s.out ++ [o] := rfl
@[simp] theorem setCabinet_cabinet (s : State) (c : Cabinet) : (setCabinet s c).hub.cabinet = c := rfl
@[simp] theorem setTile_lcs (s : State) (t : Nat) (x : Tile) : (setTile s t x).hub.lcs = s.hub.lcs := rfl
@[simp] theorem setCabinet_lcs (s : State) (c : Cabinet) : (setCabinet s c).hub.lcs = s.hub.lcs := rfl

@[simp] theorem State.setLcs_cfg (s : State) (p : Part) (l : Longcase) : (s.setLcs p l).cfg = s.cfg := by cases p <;> rfl
@[simp] theorem State.setLcs_regs (s : State) (p : Part) (l : Longcase) : (s.setLcs p l).regs = s.regs := by cases p <;> rfl
@[simp] theorem State.setLcs_out (s : State) (p : Part) (l : Longcase) : (s.setLcs p l).out = s.out := by cases p <;> rfl
@[simp] theorem State.setLcs_pending (s : State) (p : Part) (l : Longcase) : (s.setLcs p l).pending = s.pending := by cases p <;> rfl
@[simp] theorem State.setLcs_lcs (s : State) (p : Part) (l : Longcase) : (s.setLcs p l).lcs p = l := by cases p <;> rfl

end Sys2Proof.Machine
end

