-- ==== Sys2Proof/Laws/Regs.lean ====
section
/-!
SUPPORT. Sys2Proof/Laws/Regs.lean: reading a register field after a write, and everything recording a syndrome, raising an interrupt cause and
posting an entry can change.
-/
namespace Sys2Proof.Machine
open Reg

theorem lookCell_put_same (c : Cells) (k : RegKey) (v : Nat) : lookCell (putCell c k v) k = some v := by
  induction c with
  | nil => simp [putCell, lookCell]
  | cons a c ih =>
    unfold putCell
    split
    · simp [lookCell]
    · rename_i h
      simp [lookCell, h, ih]

theorem lookCell_put_other {c : Cells} {k k' : RegKey} {v : Nat} (h : k' ≠ k) : lookCell (putCell c k v) k' = lookCell c k' := by
  induction c with
  | nil => simp [putCell, lookCell, Ne.symm h]
  | cons a c ih =>
    unfold putCell
    split
    · rename_i e
      simp [lookCell, e, Ne.symm h]
    · simp only [lookCell, ih]

/-- A field written reads back, modulo its width. -/
@[simp] theorem rd_wr_same (s : State) (pg : Page) (f : Fld) (v i : Nat) : (s.wr pg f v i).rd pg f i = v % 2 ^ f.w := by
  simp [State.rd, State.wr, State.cell, State.setCell, lookCell_put_same]

/-- Every other field reads as before. -/
theorem rd_wr_other {s : State} {pg pg' : Page} {f f' : Fld} {v i i' : Nat} (h : f'.key pg' i' ≠ f.key pg i) :
    (s.wr pg f v i).rd pg' f' i' = s.rd pg' f' i' := by
  simp only [State.rd, State.wr, State.cell, State.setCell, lookCell_put_other h]

theorem rd_wr_page {s : State} {pg pg' : Page} {f f' : Fld} {v i i' : Nat} (h : pg' ≠ pg) : (s.wr pg f v i).rd pg' f' i' = s.rd pg' f' i' :=
  rd_wr_other (fun e => h (congrArg RegKey.pg e))

theorem rd_wr_off {s : State} {pg pg' : Page} {f f' : Fld} {v i i' : Nat} (h : f'.off ≠ f.off) : (s.wr pg f v i).rd pg' f' i' = s.rd pg' f' i' :=
  rd_wr_other (fun e => h (congrArg RegKey.off e))

theorem rd_wr_lo {s : State} {pg pg' : Page} {f f' : Fld} {v i i' : Nat} (h : f'.lo ≠ f.lo) : (s.wr pg f v i).rd pg' f' i' = s.rd pg' f' i' :=
  rd_wr_other (fun e => h (congrArg RegKey.lo e))

theorem rd_bump_off {s : State} {pg pg' : Page} {f f' : Fld} {i i' d : Nat} (h : f'.off ≠ f.off) :
    (s.bump pg f i d).rd pg' f' i' = s.rd pg' f' i' := rd_wr_off h

theorem rd_bump_lo {s : State} {pg pg' : Page} {f f' : Fld} {i i' d : Nat} (h : f'.lo ≠ f.lo) :
    (s.bump pg f i d).rd pg' f' i' = s.rd pg' f' i' := rd_wr_lo h

theorem rd_incr_off {s : State} {pg pg' : Page} {f f' : Fld} {i i' d : Nat} (h : f'.off ≠ f.off) :
    (s.incr pg f i d).rd pg' f' i' = s.rd pg' f' i' := rd_wr_off h

theorem rd_incr_page {s : State} {pg pg' : Page} {f f' : Fld} {i i' d : Nat} (h : pg' ≠ pg) :
    (s.incr pg f i d).rd pg' f' i' = s.rd pg' f' i' := rd_wr_page h

@[simp] theorem rd_incr_same (s : State) (pg : Page) (f : Fld) (i d : Nat) : (s.incr pg f i d).rd pg f i = (s.rd pg f i + d) % 2 ^ f.w := by
  simp [State.incr]

/-- A state with the same registers and the same part reads the same. -/
theorem rd_congr {s t : State} (hr : t.regs = s.regs) (hc : t.cfg = s.cfg) (pg : Page) (f : Fld) (i : Nat) : t.rd pg f i = s.rd pg f i := by
  simp only [State.rd, State.cell, hr, hc]

@[simp] theorem rd_send (s : State) (o : Out) (pg : Page) (f : Fld) (i : Nat) : (s.send o).rd pg f i = s.rd pg f i := rd_congr rfl rfl _ _ _
@[simp] theorem rd_setTile (s : State) (t : Nat) (x : Tile) (pg : Page) (f : Fld) (i : Nat) : (setTile s t x).rd pg f i = s.rd pg f i :=
  rd_congr rfl rfl _ _ _
@[simp] theorem rd_setCabinet (s : State) (c : Cabinet) (pg : Page) (f : Fld) (i : Nat) : (setCabinet s c).rd pg f i = s.rd pg f i :=
  rd_congr rfl rfl _ _ _
@[simp] theorem rd_setLcs (s : State) (p : Part) (l : Longcase) (pg : Page) (f : Fld) (i : Nat) : (s.setLcs p l).rd pg f i = s.rd pg f i :=
  rd_congr (by simp) (by simp) _ _ _

/-! ### Posting, raising, refusing -/

/-- Posting an entry writes at most three fields of BUR pages (BUR_AOC, BUR_CNT, BLK_IRQ_STAT). -/
theorem rd_post {s : State} {pg pg' : Page} {code sev : Nat} {fw host : Bool} {pl : List Nat} {f : Fld} {i : Nat}
    (h1 : f.off ≠ 0x010) (h2 : f.off ≠ 0x098) (h3 : f.off ≠ 0x0E0) : (post s pg code sev fw host pl).rd pg' f i = s.rd pg' f i := by
  unfold post
  have hA : (s.incr (burPage pg) BUR_AOC 2).rd pg' f i = s.rd pg' f i := rd_incr_off h3
  cases pg with
  | tally p => exact hA
  | hub d p =>
    dsimp only
    split
    · rw [rd_wr_off h1, rd_bump_off h2]; exact hA
    · exact hA

theorem rd_post_page {s : State} {pg pg' : Page} {code sev : Nat} {fw host : Bool} {pl : List Nat} {f : Fld} {i : Nat}
    (h : pg' ≠ burPage pg) : (post s pg code sev fw host pl).rd pg' f i = s.rd pg' f i := by
  unfold post
  have hA : (s.incr (burPage pg) BUR_AOC 2).rd pg' f i = s.rd pg' f i := rd_incr_page h
  cases pg with
  | tally p => exact hA
  | hub d p =>
    dsimp only
    split
    · have h' : pg' ≠ Pg.hBur d := h
      rw [rd_wr_page h']; exact (rd_wr_page h').trans hA
    · exact hA

theorem post_cfg (s : State) (pg : Page) (code sev : Nat) (fw host : Bool) (pl : List Nat) : (post s pg code sev fw host pl).cfg = s.cfg := by
  unfold post; cases pg <;> dsimp only <;> (try split) <;> rfl
theorem post_out (s : State) (pg : Page) (code sev : Nat) (fw host : Bool) (pl : List Nat) : (post s pg code sev fw host pl).out = s.out := by
  unfold post; cases pg <;> dsimp only <;> (try split) <;> rfl
theorem post_pending (s : State) (pg : Page) (code sev : Nat) (fw host : Bool) (pl : List Nat) :
    (post s pg code sev fw host pl).pending = s.pending := by
  unfold post; cases pg <;> dsimp only <;> (try split) <;> rfl
theorem post_lcs (s : State) (pg : Page) (code sev : Nat) (fw host : Bool) (pl : List Nat) (p : Part) :
    (post s pg code sev fw host pl).lcs p = s.lcs p := by
  unfold post; cases pg <;> cases p <;> dsimp only <;> (try split) <;> rfl

/-- Raising a cause sets its BLK_IRQ_STAT bit; beside it only a posted entry's fields of BUR pages are written. -/
theorem rd_raise {s : State} {pg pg' : Page} {n : Nat} {e : EvInfo} {f : Fld} {i : Nat}
    (h1 : f.off ≠ 0x010) (h2 : f.off ≠ 0x098) (h3 : f.off ≠ 0x0E0) : (raise s pg n e).rd pg' f i = s.rd pg' f i := by
  unfold raise
  dsimp only
  have hw : (s.wr pg (BLK_IRQ_STAT n) 1).rd pg' f i = s.rd pg' f i := rd_wr_off h1
  repeat' split
  all_goals first | exact hw | exact (rd_post h1 h2 h3).trans hw

/-- The cause is pending after it is raised. -/
theorem rd_raise_irq {s : State} {pg : Page} {n : Nat} {e : EvInfo} (h : pg ≠ burPage pg) :
    (raise s pg n e).rd pg (BLK_IRQ_STAT n) = 1 := by
  unfold raise
  dsimp only
  have hw : (s.wr pg (BLK_IRQ_STAT n) 1).rd pg (BLK_IRQ_STAT n) = 1 := by simp [BLK_IRQ_STAT]
  repeat' split
  all_goals first | exact hw | exact (rd_post_page h).trans hw

theorem raise_cfg (s : State) (pg : Page) (n : Nat) (e : EvInfo) : (raise s pg n e).cfg = s.cfg := by
  unfold raise; dsimp only; repeat' split
  all_goals first | rfl | exact post_cfg ..
theorem raise_out (s : State) (pg : Page) (n : Nat) (e : EvInfo) : (raise s pg n e).out = s.out := by
  unfold raise; dsimp only; repeat' split
  all_goals first | rfl | exact post_out ..
theorem raise_lcs (s : State) (pg : Page) (n : Nat) (e : EvInfo) (p : Part) : (raise s pg n e).lcs p = s.lcs p := by
  unfold raise; dsimp only; repeat' split
  all_goals first | (cases p <;> rfl) | (rw [post_lcs]; cases p <;> rfl)

/-- Recording a syndrome: beside the syndrome registers of the page, its SYN cause and the BUR page nothing is written. -/
theorem rd_syn {s : State} {pg pg' : Page} {code off detail : Nat} {ag : Agent} {st : Bool} {f : Fld} {i : Nat}
    (h0 : f.off ≠ 0x018) (h0' : f.off ≠ 0x01C) (h1 : f.off ≠ 0x010) (h2 : f.off ≠ 0x098) (h3 : f.off ≠ 0x0E0) :
    (syn s pg code ag st off detail).rd pg' f i = s.rd pg' f i := by
  have hb : ∀ u : State, ((((((((u.wr pg BLK_SYNDROME_CODE code).bump pg BLK_SYNDROME_COUNT).wr pg BLK_SYNDROME_INFO_OFFSET off).wr pg
      BLK_SYNDROME_INFO_AGENT ag.code).wr pg BLK_SYNDROME_INFO_STAGED (b2n st)).wr pg BLK_SYNDROME_INFO_DETAIL detail).wr pg
      (BLK_IRQ_STAT Irq.SYN) 1).incr (burPage pg) BUR_AOC 1).rd pg' f i = u.rd pg' f i := by
    intro u
    rw [rd_incr_off h3, rd_wr_off h1, rd_wr_off h0', rd_wr_off h0', rd_wr_off h0', rd_wr_off h0', rd_bump_off h0, rd_wr_off h0]
  unfold syn
  dsimp only
  split
  · rw [rd_post h1 h2 h3]; exact hb s
  · exact hb s

/-- After a refusal BLK_SYNDROME.CODE is its code. -/
theorem rd_syn_code {s : State} {pg : Page} {code off detail : Nat} {ag : Agent} {st : Bool} (h : code < 256) :
    (syn s pg code ag st off detail).rd pg BLK_SYNDROME_CODE = code := by
  have hc : (s.wr pg BLK_SYNDROME_CODE code).rd pg BLK_SYNDROME_CODE = code := by
    rw [rd_wr_same]; exact Nat.mod_eq_of_lt h
  unfold syn
  dsimp only
  split
  · rw [rd_post (by decide) (by decide) (by decide), rd_incr_off (by decide), rd_wr_off (by decide), rd_wr_off (by decide), rd_wr_off (by decide),
      rd_wr_off (by decide), rd_wr_off (by decide), rd_bump_lo (by decide)]; exact hc
  · rw [rd_incr_off (by decide), rd_wr_off (by decide), rd_wr_off (by decide), rd_wr_off (by decide),
      rd_wr_off (by decide), rd_wr_off (by decide), rd_bump_lo (by decide)]; exact hc

theorem syn_cfg (s : State) (pg : Page) (code : Nat) (ag : Agent) (st : Bool) (off detail : Nat) : (syn s pg code ag st off detail).cfg = s.cfg := by
  unfold syn; dsimp only; split
  · rw [post_cfg]; simp only [State.incr_cfg, State.wr_cfg, State.bump_cfg]
  · simp only [State.incr_cfg, State.wr_cfg, State.bump_cfg]
theorem syn_out (s : State) (pg : Page) (code : Nat) (ag : Agent) (st : Bool) (off detail : Nat) : (syn s pg code ag st off detail).out = s.out := by
  unfold syn; dsimp only; split
  · rw [post_out]; simp only [State.incr_out, State.wr_out, State.bump_out]
  · simp only [State.incr_out, State.wr_out, State.bump_out]
theorem syn_lcs (s : State) (pg : Page) (code : Nat) (ag : Agent) (st : Bool) (off detail : Nat) (p : Part) :
    (syn s pg code ag st off detail).lcs p = s.lcs p := by
  unfold syn; dsimp only; split
  · rw [post_lcs]; simp only [State.lcs, State.incr_tally, State.wr_tally, State.bump_tally, State.incr_hub, State.wr_hub, State.bump_hub]
  · simp only [State.lcs, State.incr_tally, State.wr_tally, State.bump_tally, State.incr_hub, State.wr_hub, State.bump_hub]

end Sys2Proof.Machine
end

