-- ==== Sys2Proof/WellFormed.lean ====
section
/-!
DEFINITION. Sys2Proof/WellFormed.lean: the ranges of operands the types do not already bound: what a sender of the spec can
say (dies, tiles, ports and pages that can be named, aligned addresses). `exec` is total on every operand all the same.
-/
namespace Sys2Proof

/-- An aligned register address: registers are words (R12). -/
def RegAddr.aligned : RegAddr → Bool
  | .tally a => a.toNat % 4 == 0
  | .hub a => a.toNat % 4 == 0

/-- A page number a part has room for (R14, R15). -/
def Page.inRange : Page → Bool
  | .tally p => decide (p < 64)
  | .hub d p => decide (d < 64) && decide (p < 4096)

/-- The operands of a command lie in the ranges the spec gives them: die fields 0–63 (R14), tiles 0–1,535, job slots 0–255 of a Hub and 0–3 of
a Tally, key slots 0–2,063 (R431), Reach ports and protection lines 0–1, peer ports 0–3, fabric ports 0–9, memory-side dies 0–7, UCIe modules 0–3,
the SFD position 0–5,439 (R81), 32-bit jobs and 24-bit units. The types of the other commands bound their operands. -/
def Instr.wf : Instr → Bool
  | .registerWrite a _ _ => a.aligned
  | .synClr pg _ => pg.inRange
  | .softReset pg _ => pg.inRange
  | .apptArm pg _ => pg.inRange
  | .apptCancel pg _ => pg.inRange
  | .apptApply pg => pg.inRange
  | .lcsNowRead pg => pg.inRange
  | .followerCheck die _ => decide (die < 64)
  | .ptpMessageRx port _ pos _ _ => decide (port < 14) && decide (pos < 5440)
  | .ptpMessageTx port => decide (port < 14)
  | .ttExchangeDone _ _ pos => decide (pos < 5440)
  | .pseRise port => decide (port < 2)
  | .pseFall port => decide (port < 2)
  | .pauseTimeout port => decide (port < 2)
  | .lockWrite pg _ _ => pg.inRange
  | .stewardStart pg _ => pg.inRange
  | .stewardVerifyDone pg _ _ _ => pg.inRange
  | .stewardHalt pg _ => pg.inRange
  | .stewardFault pg _ => pg.inRange
  | .stewardLoadWord pg _ _ => pg.inRange
  | .prevKeyDiscard slot => decide (slot < 4)
  | .qrpFrameRx port pos _ => decide (port < 10) && decide (pos < 5440)
  | .recordRx d _ => decide (d < 64)
  | .reasmTimeout d => decide (d < 64)
  | .digestReportRx d _ _ => decide (d < 64)
  | .responseRx d => decide (d < 64)
  | .sealDeadline slot _ _ _ => decide (slot < 256)
  | .hubAggregateIssue slot _ _ => decide (slot < 256)
  | .reReductionDone slot _ _ => decide (slot < 256)
  | .mergeLate slot _ => decide (slot < 256)
  | .lateHorizon slot _ _ _ => decide (slot < 256)
  | .aggregateRx d _ => decide (d < 64)
  | .groupAggregateIssue slot _ _ => decide (slot < 256)
  | .siteAggregateIssue slot _ _ => decide (slot < 256)
  | .fleetAggregateIssue slot _ _ => decide (slot < 256)
  | .aggregateHoldExpiry slot _ => decide (slot < 256)
  | .dpush t _ _ _ => decide (t < 1536)
  | .dtry t _ _ _ => decide (t < 1536)
  | .dwait t _ _ _ => decide (t < 1536)
  | .dpoll t _ _ => decide (t < 1536)
  | .tflagsClear t _ => decide (t < 1536)
  | .tsleep t _ => decide (t < 1536)
  | .teventClear t _ => decide (t < 1536)
  | .tdone t _ => decide (t < 1536)
  | .tmboxOut t _ => decide (t < 1536)
  | .sequencerException t _ _ _ => decide (t < 1536)
  | .descriptorStart t _ => decide (t < 1536)
  | .matmul t => decide (t < 1536)
  | .tree t => decide (t < 1536)
  | .copy t _ _ _ _ => decide (t < 1536)
  | .fence t _ => decide (t < 1536)
  | .add t => decide (t < 1536)
  | .sub t => decide (t < 1536)
  | .mul t => decide (t < 1536)
  | .fma t => decide (t < 1536)
  | .div t => decide (t < 1536)
  | .sqrt t => decide (t < 1536)
  | .rcp t => decide (t < 1536)
  | .rsqrt t => decide (t < 1536)
  | .exp2 t => decide (t < 1536)
  | .log2 t => decide (t < 1536)
  | .min t => decide (t < 1536)
  | .max t => decide (t < 1536)
  | .cmpEq t => decide (t < 1536)
  | .cmpNe t => decide (t < 1536)
  | .cmpLt t => decide (t < 1536)
  | .cmpLe t => decide (t < 1536)
  | .abs t => decide (t < 1536)
  | .neg t => decide (t < 1536)
  | .cvt t => decide (t < 1536)
  | .cvtFx t => decide (t < 1536)
  | .iadd t => decide (t < 1536)
  | .isub t => decide (t < 1536)
  | .imulLo t => decide (t < 1536)
  | .imulHi t => decide (t < 1536)
  | .imuluHi t => decide (t < 1536)
  | .shl t => decide (t < 1536)
  | .shr t => decide (t < 1536)
  | .sra t => decide (t < 1536)
  | .and t => decide (t < 1536)
  | .or t => decide (t < 1536)
  | .xor t => decide (t < 1536)
  | .imin t => decide (t < 1536)
  | .imax t => decide (t < 1536)
  | .icmp t => decide (t < 1536)
  | .descriptorComplete t _ => decide (t < 1536)
  | .queueFlush t _ _ => decide (t < 1536)
  | .wake t _ => decide (t < 1536)
  | .gate t _ => decide (t < 1536)
  | .park t _ => decide (t < 1536)
  | .tileSleepEntered t => decide (t < 1536)
  | .tileWakeDone t => decide (t < 1536)
  | .seqStart t _ => decide (t < 1536)
  | .seqHalt t _ => decide (t < 1536)
  | .tileRetire t _ => decide (t < 1536)
  | .mboxInWrite t _ _ => decide (t < 1536)
  | .scheduledWake t => decide (t < 1536)
  | .activeInstant t => decide (t < 1536)
  | .verdictAssembly slot _ => decide (slot < 256)
  | .verdictIssue slot _ _ _ _ => decide (slot < 256)
  | .verdictAbandon slot _ => decide (slot < 256)
  | .checkWindow slot _ _ _ => decide (slot < 256)
  | .selftestChunk t _ => decide (t < 1536)
  | .partitionRecovery job _ _ => decide (job < 2 ^ 32)
  | .tapeWindow slot _ _ => decide (slot < 256)
  | .blockCompressDone m _ _ _ => decide (m < 8)
  | .scanStart m _ _ => decide (m < 8)
  | .scanAbort m _ _ => decide (m < 8)
  | .scanDeliver m _ _ _ => decide (m < 8)
  | .scanTimeout m => decide (m < 8)
  | .patrol m _ _ => decide (m < 8)
  | .tapRecoveryDone m => decide (m < 8)
  | .errorInject m _ _ => decide (m < 8)
  | .engineEnableWrite pg _ _ => pg.inRange
  | .reportWaitExpiry job _ => decide (job < 2 ^ 32)
  | .dpartialRx d _ => decide (d < 64)
  | .outcomeWaitExpiry job _ => decide (job < 2 ^ 32)
  | .replayWaitExpiry job => decide (job < 2 ^ 32)
  | .replayExpired job => decide (job < 2 ^ 32)
  | .observationEnd job unit => decide (job < 2 ^ 32) && decide (unit < 2 ^ 24)
  | .reachHelloTx l => decide (l < 2)
  | .reachHello l _ _ _ _ _ => decide (l < 2)
  | .helloLoss l => decide (l < 2)
  | .dataTx l => decide (l < 2)
  | .data l pos _ => decide (l < 2) && decide (pos < 5440)
  | .rxDeliver l => decide (l < 2)
  | .ack l _ _ => decide (l < 2)
  | .ackTx l => decide (l < 2)
  | .rtoExpiry l _ => decide (l < 2)
  | .sessionReset l => decide (l < 2)
  | .frameAbandon l => decide (l < 2)
  | .gsiUpdate l slot _ => decide (l < 2) && decide (slot < 256)
  | .peerHelloTx p => decide (p < 4)
  | .peerHello p _ _ _ => decide (p < 4)
  | .peerHelloLoss p => decide (p < 4)
  | .vrAlert k => decide (k < 8)
  | .boardThrottle k => decide (k < 2)
  | .ceilingRaise c => decide (1 ≤ c) && decide (c < 7)
  | .thermalReading die _ => decide (die < 64)
  | .install d _ => decide (d < 64)
  | .erase d _ _ => decide (d < 64)
  | .zeroize d _ _ => decide (d < 64)
  | .keyDiscard slot => decide (slot < 2064)
  | .keyRoll job => decide (job < 2 ^ 32)
  | .mgmtSessionOpen port _ _ _ _ => decide (port < 2)
  | .getCertificate _ _ slot => decide (slot < 256)
  | .challenge _ _ slot _ => decide (slot < 256)
  | .setCertificate _ _ slot _ => decide (slot < 256)
  | .firmwarePost pg _ _ _ => pg.inRange
  | .traceArm pg _ => pg.inRange
  | .traceStop pg _ => pg.inRange
  | .traceClear pg _ => pg.inRange
  | .traceComparator pg _ => pg.inRange
  | .traceOverflow pg _ _ => pg.inRange
  | .timedRelease pg => pg.inRange
  | .autoRelease pg => pg.inRange
  | .cabSwitchover d _ _ _ => decide (d < 64)
  | .resetPkg d _ _ _ => decide (d < 64)
  | .responseTimeout unit _ => decide (unit < 2 ^ 24)
  | .regRead _ _ a unit _ => a.aligned && decide (unit < 2 ^ 24)
  | .regWrite _ _ a unit _ => a.aligned && decide (unit < 2 ^ 24)
  | .jobCreate _ _ job _ _ _ _ _ _ _ _ _ => decide (job < 2 ^ 32)
  | .rosterChange _ _ job _ _ _ => decide (job < 2 ^ 32)
  | .policySet _ _ job _ _ _ _ => decide (job < 2 ^ 32)
  | .jobDelete _ _ job _ => decide (job < 2 ^ 32)
  | .imageLoad _ _ job _ _ _ => decide (job < 2 ^ 32)
  | .scanExport _ _ _ job _ _ _ _ => decide (job < 2 ^ 32)
  | .obsClear _ _ job unit => decide (job < 2 ^ 32) && decide (unit < 2 ^ 24)
  | .verdictsGet _ _ job _ _ => decide (job < 2 ^ 32)
  | .summaryGet _ _ job _ _ => decide (job < 2 ^ 32)
  | .energyGet _ _ job _ _ => decide (job < 2 ^ 32)
  | .tstModeWrite d _ _ => decide (d < 64)
  | .inject d _ => decide (d < 64)
  | .clear d _ => decide (d < 64)
  | .halfFail d m half => decide (d < 64) && decide (m < 4) && decide (half < 2)
  | .checkerLocked d _ _ lane => decide (d < 64) && decide (lane < 64)
  | .lockLost d _ _ lane _ => decide (d < 64) && decide (lane < 64)
  | .traceLineWrite pg _ => pg.inRange
  | .ttExchangeRx port pos _ => decide (port < 2) && decide (pos < 5440)
  | .vrAlertDeassert k => decide (k < 8)
  | .boardThrottleDeassert k => decide (k < 2)
  | .laneAlignment port _ _ => decide (port < 18)
  | .partitionRecoveryDone job => decide (job < 2 ^ 32)
  | .longcaseReset .. => true
  | .lcsStep .. => true
  | .clrCnt .. => true
  | .lcsGenWrite .. => true
  | .tbAnnouncement .. => true
  | .tbPulse .. => true
  | .pulseMiss => true
  | .measurementMissLimit .. => true
  | .siteQualExpiry => true
  | .announceTimeout .. => true
  | .sourceStable => true
  | .switchedExpiry => true
  | .ppsEdge => true
  | .ttExchangeTx .. => true
  | .tallyPor => true
  | .tallyHrst => true
  | .chainAddress .. => true
  | .tlyUnitWrite .. => true
  | .fclkRequest => true
  | .fclkAck => true
  | .windowBoundary => true
  | .slowBoundary => true
  | .recordSeal => true
  | .powerSample .. => true
  | .freqSample => true
  | .gaugeHostWrite .. => true
  | .cntValRead .. => true
  | .stepMark .. => true
  | .capCodeWrite .. => true
  | .capAck => true
  | .capAckTimeout => true
  | .shaperRefill => true
  | .frameStart => true
  | .frameSent => true
  | .gateEntryAdvance => true
  | .write .. => true
  | .read .. => true
  | .arm .. => true
  | .cap .. => true
  | .keyload .. => true
  | .digest .. => true
  | .replay .. => true
  | .observe .. => true
  | .bootstrap .. => true
  | .verdictAccept .. => true
  | .cmdKeyOverlapEnd => true
  | .correlationDone .. => true
  | .digestComplete .. => true
  | .rplReady .. => true
  | .rplDecline .. => true
  | .powerEstimateSample .. => true
  | .levelApply => true
  | .pmbusPoll .. => true
  | .pmbusAlert => true
  | .calibration => true
  | .hubPwrLockWrite .. => true
  | .sessionIdle .. => true
  | .getVersion .. => true
  | .getCapabilities .. => true
  | .negotiateAlgorithms .. => true
  | .getDigests .. => true
  | .getMeasurements .. => true
  | .getCsr .. => true
  | .bureauPost .. => true
  | .bureauLookup .. => true
  | .bureauLookupDone .. => true
  | .hubPor .. => true
  | .hubReset .. => true
  | .chainFrame .. => true
  | .chainEnumTx => true
  | .heartbeatTx => true
  | .takeover .. => true
  | .commitPoint .. => true
  | .hello .. => true
  | .bootStatus .. => true
  | .freeze .. => true
  | .correlate .. => true
  | .retire .. => true
  | .keyInstall .. => true
  | .journalGet .. => true
  | .journalList .. => true
  | .bureauRead .. => true
  | .subscribe .. => true
  | .imageWrite .. => true
  | .switchover .. => true
  | .reset .. => true
  | .eventLaneCount .. => true
  | .trackerMissLimit .. => true
  | .tlyTestMode => true

end Sys2Proof
end

