-- ==== Sys2Proof/Tests/Slice0.lean ====
section
/-!
SUPPORT. Sys2Proof/Tests/Slice0.lean: tests on small states (expected values from the spec's words and worked examples), ill-formed terms, and the
witnesses of the statements: for each statement with hypotheses, states and operands that meet the hypotheses of its clauses.
-/
section
set_option Elab.async false
open Sys2Proof Sys2Proof.Machine Sys2Proof.Machine.Reg

/-! ### Helpers -/

/-- A small state: some fields of bank index 0 written over a state. -/
def tst (l : List (Page × Fld × Nat)) (s : State := State.reset) : State := l.foldl (fun s x => s.wr x.1 x.2.1 x.2.2) s

/-- The command answers a next state of which p holds. -/
def after (c : Instr) (s : State) (p : State → Bool) : Bool :=
  match exec c s with
  | .next t => p t
  | .fault _ => false
  | .refused _ => false

/-- The state's hub, tally changed. -/
def onHub (f : Hub → Hub) (s : State := State.reset) : State := { s with hub := f s.hub }
def onTally (f : Tally → Tally) (s : State := State.reset) : State := { s with tally := f s.tally }

/-- Both Longcases run at a time. -/
def atTime (ns : Nat) (s : State := State.reset) : State :=
  { s with tally := { s.tally with lcs := { s.tally.lcs with ns, servo := .locked } }, hub := { s.hub with lcs := { s.hub.lcs with ns, servo := .locked } } }

/-! ### Witnesses: the machine, the common page -/

theorem witness_FrontCommandIsExecuted : State.reset.pending = [] := by decide

/-- A step on the reset state answers a next state, and the invariants hold there. -/
theorem witness_StepKeepsInvariants : (∃ t, step State.reset = .next t) ∧ RegsOne State.reset.regs ∧ JournalIds State.reset.hub.cabinet ∧
    Memory.wf State.reset.hub.hbm = true ∧ SramsOk State.reset.hub.tiles :=
  ⟨⟨_, rfl⟩, List.Pairwise.nil, ⟨by decide, [], rfl, List.Pairwise.nil, by decide⟩, by decide, fun _ h => (List.not_mem_nil h).elim⟩

theorem witness_CausesAndEntries : (Pg.tly ≠ burPage Pg.tly) ∧ (pageBlk State.reset.cfg Pg.tBur = some .bur) ∧ intakeCount State.reset 57 < 64 ∧
    (57 ≠ xd0 ∧ 64 ≤ intakeCount (onHub fun h => { h with intake := List.replicate 64 (57, mkEntry State.reset (Pg.hBur 57) 0 0 false false []) }) 57) := by
  and_intros <;> decide

/-- Register addresses: an unassigned Tally page; no register; a fault-free write; a staged one; a misaligned one. -/
theorem witness_RegisterAccesses :
    pageBlk State.reset.cfg (addrPage (.tally 0x20000)) = none ∧
    (pageBlk State.reset.cfg (addrPage (.tally 0x007F0)) = some .tly ∧ findReg State.reset.cfg .tly (addrPage (.tally 0x007F0)) 0x7F0 = none) ∧
    (pageBlk State.reset.cfg (addrPage (.tally 0x00848)) = some .tly ∧ addrOff (.tally 0x00848) = 0x848 ∧
      (findReg State.reset.cfg .tly (addrPage (.tally 0x00848)) 0x048).all (fun r => r.ty != .rwa) = true) ∧
    (tst [(Pg.cab 56, CAB_STATE_ROLE, 1)]).rd (Pg.cab 56) CAB_STATE_ROLE = 1 ∧
    ((tst [(Pg.cab 57, CAB_STATE_ROLE, 1)]).rd (Pg.cab 56) CAB_STATE_ROLE ≠ 1 ∧ (tst [(Pg.cab 57, CAB_STATE_ROLE, 1)]).rd (Pg.cab 57) CAB_STATE_ROLE = 1) ∧
    addrOff (.tally 0x00041) % 4 ≠ 0 ∧
    (addrPage (.tally 0x0F044) = Pg.tFrz ∧ pageBlk State.reset.cfg Pg.tFrz = some .frz ∧ (actWrite State.reset .frz Pg.tFrz 0x040 .regPort 1).isNone = true ∧
      (findReg State.reset.cfg .frz Pg.tFrz 0x040).any (fun r => r.ty != .ro && keepRefusal State.reset .frz Pg.tFrz r true .regPort 1 == 0 &&
        keepRefusal (tst [(Pg.tFrz, BLK_APPT_CTRL_STATE, 1)]) .frz Pg.tFrz r true .regPort 1 != 0) = true) ∧
    (∃ o, (findReg State.reset.cfg .frz Pg.tFrz (o - 0x800)).any (fun r => r.ty == .rwa) = true ∧ 0x840 ≤ o) :=
  ⟨by decide, by decide, by decide, by decide, by decide, by decide, by decide, ⟨0x840, by decide, by decide⟩⟩

/-- The FRZ page of a Tally ARMED. -/
def armedFrz : State := tst [(Pg.tFrz, BLK_APPT_CTRL_STATE, 1)]

theorem witness_ArmedPageRefusesWrites : pageBlk armedFrz.cfg (addrPage (.tally 0x0F020)) = some .frz ∧ isArmed armedFrz (addrPage (.tally 0x0F020)) = true ∧
    addrOff (.tally 0x0F020) = 0x020 ∧ (cabinetOnly .frz (addrPage (.tally 0x0F020)) 0x020 = false ∧ apptAuth .frz .regPort = true) ∧
    ((findReg armedFrz.cfg .frz (addrPage (.tally 0x0F840)) 0x040).any (fun r => r.ty == .rwa) = true ∧ accessCheck armedFrz .frz Pg.tFrz 0x040 .regPort = 0) ∧
    addrOff (.tally 0x0F040) = 0x040 := by and_intros <;> decide

theorem witness_SyndromeClearAndSoftReset : (pageBlk State.reset.cfg Pg.tly = some .tly ∧ cabinetOnly .tly Pg.tly 0x008 = false) ∧
    (pageBlk State.reset.cfg Pg.stp = some .stp ∧ srstRefusal State.reset .stp Pg.stp .regPort = 0) ∧
    (pageBlk State.reset.cfg (Pg.sec 56) = some .sec ∧ srstRefusal State.reset .sec (Pg.sec 56) .steward ≠ 0) := by and_intros <;> decide

/-- The FRZ page staged with FREEZE for second 1, the Longcases at a time. -/
def stagedFrz (ns : Nat) : State := tst [(Pg.tFrz, FRZ_CTRL.staged, 1), (Pg.tFrz, BLK_APPT_TIME_SLO, 1)] (atTime ns)

theorem witness_AppointmentTransitions : pageBlk State.reset.cfg Pg.tFrz = some .frz ∧ apptAccess State.reset (Pg.hPwr) .pwrH .steward ≠ 0 ∧
    (apptAccess armedFrz Pg.tFrz .frz .regPort = 0 ∧ isArmed armedFrz Pg.tFrz = true) ∧
    (apptAccess State.reset Pg.tFrz .frz .regPort = 0 ∧ isArmed State.reset Pg.tFrz = false ∧ State.reset.isUnset .tally = true) ∧
    ((stagedFrz 0).isUnset .tally = false ∧ (stagedFrz 0).now .tally < apptTime (stagedFrz 0) Pg.tFrz ∧ armCheck (stagedFrz 0) Pg.tFrz .frz = 0) ∧
    apptTime (stagedFrz 2000000000) Pg.tFrz ≤ (stagedFrz 2000000000).now .tally ∧
    armCheck (tst [(Pg.tFrz, BLK_APPT_TIME_SLO, 1)] (atTime 0)) Pg.tFrz .frz ≠ 0 ∧
    apptDue (tst [(Pg.tFrz, BLK_APPT_CTRL_STATE, 1)]) Pg.tFrz = true ∧
    (pageBlk State.reset.cfg (Pg.ing 56) = some .ing ∧ apptDue (tst [(Pg.ing 56, BLK_APPT_CTRL_STATE, 1)]) (Pg.ing 56) = true) ∧
    (pageBlk State.reset.cfg (Pg.hFrz 0) = some .frz ∧ apptDue (tst [(Pg.hFrz 0, BLK_APPT_CTRL_STATE, 1)]) (Pg.hFrz 0) = true) ∧
    isRwa .frz 0x040 = true := by and_intros <;> decide

/-! ### Witnesses: the Longcase -/

theorem witness_LongcaseResetRefusesArmedPages : (Pg.tFrz ∈ armedPages armedFrz .tally ∧ Pg.tFrz ≠ lcsPage .tally) ∧
    (pageBlk State.reset.cfg (lcsPage .hub) = some .lcs ∧ srstRefusal State.reset .lcs (lcsPage .hub) .cabinet = 0) ∧
    (pageBlk State.reset.cfg (Pg.hLcs 0) = some .lcs ∧ 0 ≠ xd0) := by and_intros <;> decide

theorem witness_LongcaseStepsOnce : (State.reset.isUnset .tally = true ∧ (tst [(Pg.tLcs, LCS_CTRL_AUTO_STEP, 0)]).rd (lcsPage .tally) LCS_CTRL_AUTO_STEP = 0) ∧
    ¬ ((atTime 5).isUnset .tally = true ∧ (atTime 5).rd (lcsPage .tally) LCS_CTRL_AUTO_STEP = 0) ∧
    (tst [(Pg.tLcs, LCS_CTRL_AUTO_STEP, 1)]).rd (lcsPage .tally) LCS_CTRL_AUTO_STEP = 1 := by and_intros <;> decide

theorem witness_ServoBoundsAndRegisters : (sra (0 + 0) 8 < 500000 ∧ -500000 < sra (0 + 0) 8 ∧ sra 0 2 < (100 : Nat) * 1000 ∧ -((100 : Nat) * 1000 : Int) < sra 0 2) ∧
    (atTime 0).isUnset .tally = false ∧ (State.reset.isUnset .hub = true ∧ State.reset.rd (lcsPage .hub) LCS_GEN_LOADED = 0) ∧
    ¬ ((atTime 0).isUnset .hub = true ∧ (atTime 0).rd (lcsPage .hub) LCS_GEN_LOADED = 0) ∧
    pageBlk State.reset.cfg Pg.tLcs = some .lcs ∧ pageBlk State.reset.cfg Pg.tFrz ≠ some .lcs := by and_intros <;> decide

/-- A valid announcement stands, the last pulse was 1.5 ms ago. -/
def pulsed (ok : Bool) : State := onTally (fun t => { t with ann := some ⟨2000000000, ok, 0⟩, pulseAt := some 0 }) (atTime 1500000)

theorem witness_TimeBusPulses : (pulsed true).tally.ann = some ⟨2000000000, true, 0⟩ ∧ 10000 ≤ (pulsed true).now .tally - 0 ∧
    ((pulsed false).tally.ann.any (fun a => a.ok) = false) ∧ ((pulsed true).tally.pulseAt = some 0 ∧ 1002000 < (pulsed true).now .tally - 0) ∧
    (State.reset.tally.ann = none ∧ (onTally (fun t => { t with pulseAt := some 0 })).now .tally - 0 ≤ 1002000) := by and_intros <;> decide

/-- A tracker valid since 0, measured each 1,000 ns. -/
def validTracker (src : Nat) (s : State) : State := setTracker s src { s.tracker src with valid := true, interval := 1000, ofs := some 0 }

/-- Slot 0 of the Tally live; its 16 windows since a verdict. -/
def liveSlot0 (n : Nat) : State :=
  onTally (fun t => { t with slots := t.slots.set 0 { t.slots.headD TSlot.reset with verdWins := n } })
    (tst [(Pg.hot, HOT_JOB 0, 7), (Pg.tly, TLY_UNIT_LOCKED, 1)] (atTime 1000))

theorem witness_HoldoverAndExpiry : State.reset.rd Pg.tLcs LCS_SERVO_MISS_LIMIT < (onTally fun t => { t with lcs := { t.lcs with miss := 300 } }).tally.lcs.miss ∧
    State.reset.tally.lcs.miss ≤ State.reset.rd Pg.tLcs LCS_SERVO_MISS_LIMIT ∧ (∀ src ∈ prioList State.reset, src < 2 ∨ missedOut State.reset src = true) ∧
    ((atTime 0).lcs .tally).servo = .locked ∧ (State.reset.lcs .tally).servo = .unset ∧
    (diePresent State.reset.cfg 0 = true ∧ 0 ≠ xd0 ∧ 2 ≤ (-3 : Int).natAbs) ∧ (1 : Int).natAbs < 2 ∧
    (0 ∈ liveSlots (liveSlot0 16) ∧ 16 ≤ (getSlot (liveSlot0 16) 0).verdWins) ∧ (∀ i ∈ liveSlots (liveSlot0 3), (getSlot (liveSlot0 3) i).verdWins < 16) ∧
    ((onHub (fun h => { h with switchedAt := some 0 }) (atTime 1000000000)).hub.switchedAt = some 0) := by and_intros <;> decide

/-- PTP on domain A gives a source; the Hub transmits on B and on the board; the REACH exchange is under way. -/
def hubTime : State := onHub (fun h => { h with tt := { h.tt with started := some 0, t1 := some 0, rtt := none } })
  (tst [(Pg.xLcs, LCS_SRC_CFG_DOM_A, 24), (Pg.xLcs, LCS_SRC_CFG_DOM_B, 25), (Pg.xLcs, LCS_ROLE_DOM_BOARD, 26), (Pg.xLcs, LCS_ROLE_TX_B, 1),
    (Pg.xLcs, LCS_ROLE_BOARD_LEAD, 1), (Pg.xLcs, LCS_ROLE_REF_SITE, 1), (Pg.xLcs, LCS_SRC_CFG_PRIO0, 2), (Pg.xLcs, LCS_SRC_CFG_PRIO1, 3)] (atTime 5000000000))

theorem witness_HubTimeSources :
    (let s := validTracker 2 hubTime
     (s.tracker 2).valid = true ∧ (s.tracker 2).last + max 1 (s.rd Pg.xLcs LCS_SERVO_MISS_LIMIT) * (s.tracker 2).interval < s.hub.lcs.ns ∧
     (higherSources (s.wr Pg.xLcs LCS_STATUS_SOURCE 3)).head? = some 2 ∧ (s.tracker 2).since + s.rd Pg.xLcs LCS_HOLD_STABLE_MS * 1000000 ≤ s.hub.lcs.ns) ∧
    ¬ (5 = 5 ∧ hubTime.rd Pg.xLcs LCS_REACH_STAT_TRACKER = 2) ∧
    24 = hubTime.rd Pg.xLcs LCS_SRC_CFG_DOM_A ∧ 25 = hubTime.rd Pg.xLcs LCS_SRC_CFG_DOM_B ∧ 26 = hubTime.rd Pg.xLcs LCS_ROLE_DOM_BOARD ∧
    (hubTime.wr Pg.xLcs LCS_STATUS_SOURCE 3).rd Pg.xLcs LCS_STATUS_SOURCE = 3 ∧
    (ptpSource hubTime 0 24 ≠ 0 ∧ hubSafe hubTime = false ∧ portTest hubTime 0 = false) ∧
    ((setTracker hubTime 2 { hubTime.tracker 2 with syncRx := some 0 }).tracker 2).syncRx = some 0 ∧
    (hubTime.isUnset .hub = false ∧ hubTime.rd Pg.xLcs LCS_ROLE_TX_B = 1 ∧ hubTime.rd Pg.xLcs LCS_ROLE_BOARD_LEAD = 1) ∧
    (hubTime.hub.tt.started = some 0 ∧ 0 + 1000000000 / reachDen hubTime ≤ hubTime.hub.lcs.ns) ∧ hubTime.hub.tt.t1 = some 0 ∧
    hubTime.rd Pg.xLcs LCS_ROLE_REF_SITE = 1 ∧ hubTime.hub.tt.rtt = none ∧ State.reset.isUnset .hub = true := by
  refine ⟨?_, ?_⟩
  · exact ⟨by decide, by decide, by decide, by decide⟩
  · and_intros <;> decide

/-! ### Witnesses: the Tally -/

/-- The limiter in a state, with samples taken. -/
def limiter (st lim hold clean : Nat) (samples : List Nat) : State :=
  onTally (fun t => { t with samples, clean }) (tst [(Pg.tPwr, BLK_CTRL_EN, 1), (Pg.tPwr, PWR_LIM_INST, lim), (Pg.tPwr, PWR_STAT_STATE, st), (Pg.tPwr, PWR_HOLD, hold)])

theorem witness_TallyResetsAndBoundaries :
    (State.reset.rd Pg.tly TLY_CHAIN_ADDRESSED ≠ 1 ∧ State.reset.tally.chainDead = false ∧ (15 : BitVec 5).toNat ≤ 15 ∧ 16 ≤ (16 : BitVec 5).toNat) ∧
    (tst [(Pg.tly, TLY_CHAIN_ADDRESSED, 1)]).rd Pg.tly TLY_CHAIN_ADDRESSED = 1 ∧
    (State.reset.rd Pg.tly TLY_UNIT_LOCKED ≠ 1 ∧ (5 : BitVec 24).toNat % 2 ^ 21 < 131072) ∧ (liveSlot0 0).rd Pg.tly TLY_UNIT_LOCKED = 1 ∧
    (leadDue (liveSlot0 0) = true ∨ fclkWork (tst [(Pg.tStw, STW_STAT_STATE, 2)]) = true) ∧ State.reset.tally.fclkReq = false ∧
    (let s := onTally (fun t => { t with fclkReq := true }) (atTime 2000)
     s.tally.fclkReq = true ∧ s.tally.fclkAck = false ∧ s.now .tally ≤ s.tally.fclkAt + 2000) ∧
    (let s := onTally (fun t => { t with fclkReq := true }) (atTime 3000)
     s.tally.fclkAt + 2000 < s.now .tally) ∧
    dueSlots (tst [(Pg.hot, HOT_JOB 0, 7)] (atTime 1000000000)) ≠ [] ∧ dueSlots State.reset = [] ∧ 0 < State.reset.tally.slots.length ∧
    (let s := tst [(Pg.tly, TLY_UNIT_LOCKED, 1)] (atTime 9000000000)
     s.tally.slowWin < windowIndex (s.rd Pg.hot HOT_SLOW_SLOW_S) (s.now .tally) ∧ mayBuild s = true) ∧
    (onTally fun t => { t with fclkAck := true }).tally.fclkAck = true ∧
    keyFor State.reset 0 1 = none ∧ keyFor (onTally fun t => { t with keys := t.keys.modify 0 (fun k => { k with cur := some ⟨1, 5⟩ }) }) 0 1 = some ⟨1, 5⟩ := by
  and_intros <;> decide

theorem witness_TallyCountersAndLimiter :
    (∃ c, (tst [(Pg.cnt, CNT_MAP_DATA0_MODE, 1)]).rd Pg.cnt CNT_MAP_DATA0_MODE c = 1) ∧ (∃ c, (tst [(Pg.cnt, CNT_MAP_DATA0_MODE, 2)]).rd Pg.cnt CNT_MAP_DATA0_MODE c = 2) ∧
    State.reset.rd Pg.cnt CNT_MAP_DATA0_MODE 0 = 0 ∧
    (tst [(Pg.cnt, CNT_GAUGE_CFG_SRC, 1)]).rd Pg.cnt CNT_GAUGE_CFG_SRC (State.reset.rd Pg.cnt CNT_GAUGE_IDX) = 1 ∧
    State.reset.rd Pg.cnt CNT_GAUGE_CFG_SRC (State.reset.rd Pg.cnt CNT_GAUGE_IDX) ≠ 1 ∧ State.reset.tally.freqAt + 125000 ≤ (atTime 200000).now .tally ∧
    State.reset.rd Pg.tPwr PWR_STAT_STATE = Lim.OFF ∧
    (let s := limiter Lim.WATCH 1 10 0 []
     s.rd Pg.tPwr PWR_STAT_STATE = Lim.WATCH ∧ violations { s with tally := { s.tally with limCount := s.tally.limCount + 1 } } = 0) ∧
    (let s := limiter Lim.WATCH 1 10 0 [1000001]
     violations { s with tally := { s.tally with limCount := s.tally.limCount + 1 } } ≠ 0 ∧ s.tally.testMode = false) ∧
    (let s := limiter Lim.THROTTLE 1 10 0 [1000001]
     s.rd Pg.tPwr PWR_STAT_STATE = Lim.THROTTLE ∧ violations { s with tally := { s.tally with limCount := s.tally.limCount + 1 } } ≠ 0) ∧
    (let s := limiter Lim.THROTTLE 1 10 0 [1000000]
     violations { s with tally := { s.tally with limCount := s.tally.limCount + 1 } } = 0 ∧ s.tally.clean + 1 < s.rd Pg.tPwr PWR_HOLD) ∧
    (let s := limiter Lim.THROTTLE 1 10 9 []
     violations { s with tally := { s.tally with limCount := s.tally.limCount + 1 } } = 0 ∧ s.rd Pg.tPwr PWR_HOLD ≤ s.tally.clean + 1) ∧
    (limiterOn (limiter Lim.OFF 1 10 0 []) = true ∧ (limiter Lim.OFF 1 10 0 []).rd Pg.tPwr PWR_STAT_STATE = Lim.OFF) ∧ limiterOn State.reset = false := by
  refine ⟨⟨0, by decide⟩, ⟨0, by decide⟩, ?_⟩
  and_intros <;> decide

theorem witness_StepMarks : (slotLive (liveSlot0 0) 0 = true ∧ mayBuild (liveSlot0 0) = true) ∧
    (slotLive State.reset 0 = false ∧ State.reset.rd Pg.tly TLY_UNIT_LOCKED ≠ 1 ∧ State.reset.isUnset .tally = true) ∧
    (Agent.cabinet ≠ .regPort ∧ (1 : BitVec 2) ≠ 3) ∧ State.reset.tally.marks.length < markCap State.reset.cfg := by and_intros <;> decide

/-- A steward page in a state, with an image. -/
def steward (st : Nat) : State := tst [(Pg.tStw, STW_STAT_STATE, st), (Pg.tStw, STW_IMG_LEN, 4)]
/-- cap_upd given at 0 and not yet acknowledged. -/
def capGiven (ns : Nat) (b : Bool) : State := onTally (fun t => { t with capUpd := some (0, b) }) (atTime ns)

theorem witness_HostLocksClocksAndStewards :
    (State.reset.rd Pg.tPwr (lockFld Pg.tPwr) ≠ 1 ∧ (tst [(Pg.cap, lockFld Pg.cap, 1)]).rd Pg.cap (lockFld Pg.cap) = 1) ∧
    (isArmed State.reset Pg.cap = false ∧ Agent.regPort ≠ .cabinet) ∧
    (let s := tst [(Pg.cap, CAP_FLOOR, 400), (Pg.cap, CAP_TOP, 800), (Pg.cap, CAP_STEP, 100), (Pg.cap, CAP_CODE, 500)]
     s.rd Pg.cap CAP_FLOOR ≤ (600 : BitVec 12).toNat ∧ (600 : BitVec 12).toNat ≤ s.rd Pg.cap CAP_TOP ∧
     (600 : BitVec 12).toNat ≤ s.rd Pg.cap CAP_CODE + s.rd Pg.cap CAP_STEP ∧ (399 : BitVec 12).toNat < s.rd Pg.cap CAP_FLOOR ∧
     s.rd Pg.cap CAP_TOP < (801 : BitVec 12).toNat ∧ (801 : BitVec 12).toNat ≠ 0xFFF ∧ s.rd Pg.cap CAP_CODE + s.rd Pg.cap CAP_STEP < (601 : BitVec 12).toNat) ∧
    ((capGiven 100000 false).tally.capUpd = some (0, false) ∧ (capGiven 100000 false).now .tally - 0 ≤ 100000) ∧
    (capGiven 200000 true).tally.capUpd = some (0, true) ∧ 100000 < (capGiven 100004 false).now .tally - 0 ∧
    (pageBlk State.reset.cfg Pg.tStw = some .stw ∧ isFrozen State.reset Pg.tStw = false ∧ stwAuth Pg.tStw .regPort = true) ∧
    (stwAuth (Pg.hStw 0) .cabinet = true ∧ pageBlk State.reset.cfg (Pg.hStw 0) = some .stw) ∧
    ((steward Stw.HALTED).rd Pg.tStw STW_STAT_STATE = Stw.HALTED ∧ 0 < (steward Stw.HALTED).rd Pg.tStw STW_IMG_LEN) ∧
    (State.reset.rd Pg.tStw STW_IMG_LEN = 0) ∧ (steward Stw.RUNNING).rd Pg.tStw STW_STAT_STATE = Stw.RUNNING ∧
    (steward Stw.FAULT).rd Pg.tStw STW_STAT_STATE = Stw.FAULT ∧ (steward Stw.VERIFYING).rd Pg.tStw STW_STAT_STATE = Stw.VERIFYING := by and_intros <;> decide

/-! ### Witnesses: shaper, inlet, digests -/

def hdr (kind unit epoch window rev len : Nat) : QrpHdr :=
  { ver := 1, kind, flags := 0, job := 7, unit, k := 0, epoch, window, tgen := 0, tq := 0, rev, sealedLen := len }
def egFrame : EgFrame :=
  { cls := 2, head := [], hdr := hdr 0 5 1 0 0 0, seg := 0, segs := 1, len := 0, body := ⟨0, hdr 0 5 1 0 0 0, [], true⟩, slot := none, due := none }

/-- The shaper runs; a frame waits and may start. -/
def shaping (pend : Bool) (sending : Option EgFrame) : State :=
  onTally (fun t => { t with fclkAck := true, egress := [egFrame], sending, shpPend := pend, refillAt := 3, clsTok := List.replicate 8 (64 * 1024 * 1024), ceilTok := 64 * 1024 * 1024 })
    (tst [(Pg.shp, SHP_CEIL, 100)] ((State.wr (State.wr (atTime 1000) Pg.shp SHP_CLS_RATE 1 2) Pg.shp SHP_CLS_BURST 64 2)))

theorem witness_ShaperAndGates : ((shaping false none).tally.fclkAck = true ∧ (shaping false none).tally.refillAt < slotNow (shaping false none) ∧
      (shaping false none).tally.shpPend = false ∧ (shaping true none).tally.shpPend = true) ∧ State.reset.tally.fclkAck = false ∧
    ((shaping false none).tally.sending = none ∧ nextStart (shaping false none) = some 0 ∧ (shaping false none).tally.egress[0]? = some egFrame ∧
      mayStart (shaping false none) egFrame = true) ∧ (shaping false (some egFrame)).tally.sending = some egFrame := by and_intros <;> decide

theorem witness_EgressBufferIsAllOrNothing : frameBytes State.reset.tally.egress + frameBytes [egFrame] ≤ bufCap State.reset.cfg ∧
    bufCap State.reset.cfg < frameBytes State.reset.tally.egress + frameBytes [{ egFrame with len := 50000 }] := by and_intros <;> decide

def inFrame (kind epoch window : Nat) : InFrame := { hdr := hdr kind 5 epoch window 0 16, seg := 0, bytes := 16, key := 9, intact := true }

/-- Unit 5, with a command key of epoch 3, slot 0 live for job 7. -/
def keyed (action : Option Nat := none) : State :=
  onTally (fun t => { t with cmd := { cur := some ⟨3, 9⟩, prev := none, next := none }, identity := true, anchor := some 4,
                             keys := t.keys.set 0 { t.keys.headD SlotKeys.reset with cur := some ⟨3, 9⟩, prev := some ⟨2, 8⟩, action } })
    (tst [(Pg.tly, TLY_UNIT_UNIT, 5), (Pg.tly, TLY_UNIT_LOCKED, 1), (Pg.hot, HOT_JOB 0, 7)] (atTime 1000000000))
def noKey : State := { keyed with tally := { keyed.tally with cmd := { cur := none, prev := none, next := none } } }

theorem witness_InletChecksAndBootstrap : ({ inFrame Kind.COMMAND 3 1 with hdr := { (inFrame Kind.COMMAND 3 1).hdr with ver := 2 } } : InFrame).hdr.ver ≠ 1 ∧
    ((inFrame Kind.COMMAND 3 1).hdr.ver = 1 ∧ (inFrame Kind.COMMAND 3 1).hdr.kind = Kind.COMMAND ∧ (inFrame Kind.COMMAND 3 1).seg = 0 ∧
      (inFrame Kind.COMMAND 3 1).hdr.sealedLen ≤ 2048 ∧ (inFrame Kind.COMMAND 3 1).bytes = (inFrame Kind.COMMAND 3 1).hdr.sealedLen) ∧
    State.reset.rd Pg.tly TLY_UNIT_LOCKED = 0 ∧
    (keyed.rd Pg.tly TLY_UNIT_LOCKED ≠ 0 ∧ (inFrame Kind.COMMAND 3 1).hdr.unit = keyed.rd Pg.tly TLY_UNIT_UNIT) ∧
    cmdKeyFor keyed 4 = none ∧ cmdKeyFor keyed 3 = some ⟨3, 9⟩ ∧ ((inFrame Kind.COMMAND 3 1).key = 9 ∧ (inFrame Kind.COMMAND 3 1).intact = true) ∧
    (inFrame Kind.COMMAND 3 0).hdr.window ≤ keyed.rd Pg.sealP SEAL_CMD_SEQ ∧ keyed.rd Pg.sealP SEAL_CMD_SEQ < (inFrame Kind.COMMAND 3 1).hdr.window ∧
    bootstrapCheck (noKey.incr Pg.tBur BUR_AOC 19) (inFrame Kind.COMMAND 0 1) 4 true true 2 6 = .accept ⟨6, 0⟩ ∧
    (inletHead (noKey.incr Pg.tBur BUR_AOC 19) (inFrame Kind.COMMAND 0 1) Kind.COMMAND = none ∧ (noKey.incr Pg.tBur BUR_AOC 19).tally.cmd.cur = none ∧
      (noKey.incr Pg.tBur BUR_AOC 19).tally.anchor = some 4 ∧ (noKey.incr Pg.tBur BUR_AOC 19).tally.identity = true) ∧
    (inletVerdict (keyed.incr Pg.tBur BUR_AOC 19) (inFrame Kind.VERDICT 3 1) = .accept ⟨3, 9⟩ ∧ slotOfJob (keyed.incr Pg.tBur BUR_AOC 19) 7 = some 0) ∧
    inletVerdict (State.reset.incr Pg.tBur BUR_AOC 19) (inFrame 0 3 1) = .refuse Syn.RANGE false ∧
    ((getKeys keyed 0).prev.isSome = true ∧ (getKeys keyed 0).prevEnd + 4 * (125000 * 2 ^ (getKeys keyed 0).prevK) + 1100000 ≤ keyed.now .tally) ∧
    State.reset.now .tally < (getKeys State.reset 0).prevEnd + 4 * (125000 * 2 ^ (getKeys State.reset 0).prevK) + 1100000 ∧
    (cmdPromote (onTally fun t => { t with cmd := { t.cmd with prev := some (⟨1, 1⟩, 5) } })).tally.cmd.prev = some (⟨1, 1⟩, 5) := by
  and_intros <;> decide

theorem witness_InletCommandsAndKeys :
    inletCommand ((cmdPromote keyed).incr Pg.tBur BUR_AOC 19) (inFrame Kind.COMMAND 3 1) = .accept ⟨3, 9⟩ ∧
    inletCommand ((cmdPromote keyed).incr Pg.tBur BUR_AOC 19) (inFrame Kind.COMMAND 4 1) = .refuse Syn.AUTH false ∧
    ((2 : Byte).toNat ≤ 64 ∧ (2 : Byte).toNat ≤ [0, (1 : Word)].length ∧ 64 < (65 : Byte).toNat) ∧ keyed.tally.identity = true ∧
    slotForKey keyed 8 = none ∧ slotForKey keyed 7 = some 0 ∧ ((getKeys keyed 0).cur = some ⟨3, 9⟩ ∧ 3 < 4 ∧ 3 ≤ 3) ∧
    (onTally (fun t => { t with cmd := { t.cmd with next := some (⟨6, 6⟩, 0) } })).tally.cmd.next = some (⟨6, 6⟩, 0) := by and_intros <;> decide

theorem witness_InletActions :
    (let u (s : State) := inletAccepted ((cmdPromote s).incr Pg.tBur BUR_AOC 19) (inFrame Kind.COMMAND 3 1)
     slotOfJob (u keyed) 8 = none ∧ slotOfJob (u keyed) 7 = some 0 ∧ (getKeys (u keyed) 0).action ≠ some (getSlot (u keyed) 0).win ∧
     (getKeys (u (keyed (some 0))) 0).action = some (getSlot (u (keyed (some 0))) 0).win) ∧
    isArmed (tst [(Pg.cap, BLK_APPT_CTRL_STATE, 1)]) Pg.cap = true ∧ (isArmed keyed Pg.cap = false ∧ capCodeCheck (tst [(Pg.cap, CAP_FLOOR, 9)]) 0 ≠ 0) ∧
    (capCodeCheck keyed 0xFFF = 0 ∧ keyed.isUnset .tally = false ∧ keyed.now .tally < 2 * 1000000000 + 0 ∧ keyed.tally.capLast = none) := by
  and_intros <;> decide

def digests (st : Nat) (rpl : Option DigRpl) : State :=
  onTally (fun t => { t with digRun := some { slot := 0, step := 4, mark := 0, exts := [], epoch := 3, key := 9 }, digRpl := rpl })
    (tst [(Pg.dgs, DGS_STAT_STATE, st)] ((State.reset.wr Pg.dgs DGS_CAD_EVERY 2 0).wr Pg.dgs DGS_CAD_FIRST 2 0))
def aReplay : DigRpl := { slot := 0, step := 4, id := 1, shift := 3, key := 9, ready := 0 }

theorem witness_DigestEngineTransitions : dgsState State.reset = Dgs.IDLE ∧ (meetsCadence (digests 0 none) 0 4 = true ∧ meetsCadence (digests 0 none) 0 5 = false) ∧
    dgsState (digests Dgs.RPL_WAIT (some aReplay)) = Dgs.RPL_WAIT ∧
    (dgsState (digests Dgs.RUNNING none) = Dgs.RUNNING ∧ (digests Dgs.RUNNING none).tally.digRun.isSome = true) ∧
    (dgsState (digests Dgs.REPLAYING (some aReplay)) = Dgs.REPLAYING ∧ (digests Dgs.REPLAYING (some aReplay)).tally.digRpl = some aReplay) ∧
    (digests 0 none).tally.digRpl = none ∧ dgsState State.reset ≠ Dgs.RPL_WAIT ∧ Agent.cabinet ≠ .regPort := by and_intros <;> decide

/-! ### Witnesses: ingest, reduction -/

def gen1 (k late : Nat) (fields : List TField := []) : JobGen :=
  { from_ := 0, slot := 0, job := 7, k, late, home := 0, pg := 0, sealO := 60, verdO := 200, hold := 0, gen := 1, epoch := 1, fields }
def member5 : Member := { unit := 5, hub := 0, slot := 0, rgroup := 0, pgroup := 0, shard := [], lite := false }
def roster1 : Roster := { job := 7, gen := 1, k := 3, epoch := 1, groups := 1, members := [member5], leads := [(0, 0)] }
def aField : TField := { src := 0, sum := true, ext := false, hist := false, mkind := 0, index := 0, shift := 0, bias := 0 }

/-- Job 7 in slot 0 of every ingest die, its roster and key installed, at a time; segments in the buffer of XD0, windows held. -/
def job (ns : Nat) (late : Nat := 1) (reasm : List Reasm := []) (wins : List JobWin := []) (fields : List TField := []) : State :=
  onHub (fun h => { h with
    ing := h.ing.map (fun x => { x with gens := [gen1 3 late fields], reasm }), wins, rosters := [roster1],
    keys := [{ slot := 0, kind := 1, jslot := 0, job := 7, epoch := 1, val := 9, state := KSt.CURRENT, appt := none, until_ := 0 }] })
    (tst [(Pg.ing 56, ING_JOB_ID, 7), (Pg.ing 56, ING_JOB_EPOCH, 1)] (atTime ns))

def recHdr (epoch len : Nat) : QrpHdr := { hdr 1 5 epoch 0 0 len with k := 3 }
def recBody (len : Nat) (plain : List Nat) : Sealed := ⟨9, recHdr 1 len, plain, true⟩
/-- A complete RECORD set of one segment with 16 bytes of plaintext, received at t. -/
def recSet (kind t epoch : Nat) (segs : Nat := 1) : Reasm :=
  { hdr := { recHdr epoch 32 with kind }, segs, parts := [(0, 32, ⟨9, { recHdr epoch 32 with kind }, List.replicate 16 0, true⟩)], tFirst := t, tLast := t, port := 0 }
def qFrame (seg segs kind len : Nat) : QFrame :=
  { fcs := true, udp := State.reset.rd (Pg.ing 56) ING_CFG_UDP_PORT, hdr := { hdr kind 5 1 0 0 32 with k := 3 }, seg, segs, len, body := recBody 32 [] }

theorem witness_FramesAndReassembly : (hubSafe State.reset = false ∧ portTest State.reset 0 = false ∧ (qFrame 0 1 1 32).fcs = true ∧
      isFrozen (State.reset.incr (Pg.hBur (portDie 0)) BUR_AOC 12) (Pg.ing (portDie 0)) = false) ∧
    isFrozen ((tst [(Pg.ing 56, BLK_STAT_FROZEN, 1)]).incr (Pg.hBur 56) BUR_AOC 12) (Pg.ing 56) = true ∧
    portTest (State.reset.wr (Pg.tst 56) TST_MODE_TEST 1 (portKey 0)) 0 = true ∧
    ((qFrame 0 1 1 32).udp = State.reset.rd (Pg.ing 56) ING_CFG_UDP_PORT ∧ (qFrame 0 1 1 32).hdr.ver = 1 ∧ (qFrame 0 1 1 32).hdr.kind = 1) ∧
    ((qFrame 1 1 1 32).segs ≤ (qFrame 1 1 1 32).seg ∧ (qFrame 0 1 1 32).seg < (qFrame 0 1 1 32).segs ∧ (qFrame 0 1 1 32).hdr.sealedLen ≤ 13916) ∧
    ((getIng State.reset 56).reasm.find? (fun r => sameSet r.hdr (qFrame 0 1 1 32).hdr && r.segs == (qFrame 0 1 1 32).segs) = none ∧
      bufUsed (getIng State.reset 56) + (qFrame 0 1 1 32).len ≤ 4194304 ∧ 4194304 < bufUsed (getIng State.reset 56) + (qFrame 0 1 1 4194305).len) ∧
    ((getIng (job 0 1 [recSet 1 0 1]) 56).reasm.any (fun r => sameSet r.hdr (qFrame 0 1 1 32).hdr && r.segs == 1 && r.holds 0) = true) ∧
    (isXD 56 = true ∧ isFrozen State.reset (Pg.ing 56) = false) := by and_intros <;> decide

/-- The shortest plaintext of R131: MARK without marks, ENERGY without queues, RESIDENCY. -/
def emptyRecord : List Nat :=
  [4, 0, 0, 0, 0, 0, 0, 0, 5, 0, 0, 0] ++ List.replicate 20 0 ++ [6, 0, 0, 5] ++ List.replicate 20 0
def passes (r : RecRes) : Bool :=
  match r with
  | .pass _ _ => true
  | .refuse _ _ _ => false
def refusesWith (r : RecRes) (check code cnt : Nat) : Bool :=
  match r with
  | .pass _ _ => false
  | .refuse a b c => a == check && b == code && c == cnt

theorem witness_RecordsAreCheckedAndAccepted :
    (let r := recSet 1 1000100 1
     let s := job 1000000 1 [r]
     isXD 56 = true ∧ isFrozen s (Pg.ing 56) = false ∧ firstSet (drainHeld s 56) 56 1 = some r ∧ r.lengthsOk = true ∧ slotOf s 56 r.hdr.job = some 0 ∧
     genAt s 56 0 r.hdr.job (windowStart (recWin r.hdr) r.hdr.k) = some (gen1 3 1) ∧ r.hdr.flags % 2 = 0 ∧
     passes (checkRecord s 56 r) = true ∧
     (recSet 1 0 1).tFirst + 100 < windowEnd (recWin r.hdr) r.hdr.k ∧ windowEnd (recWin r.hdr) r.hdr.k ≤ r.tFirst + 100 ∧
     lateHorizon (gen1 3 1) (recWin r.hdr) < (recSet 1 3000000 1).tLast ∧ r.tLast ≤ lateHorizon (gen1 3 1) (recWin r.hdr) ∧
     r.hdr.k = (gen1 3 1).k ∧ r.hdr.k ≠ (gen1 4 1).k ∧ memberOf s 7 1 5 = some member5 ∧ memberOf State.reset 7 1 5 = none ∧ member5.hub = selfId s ∧
     (recSet 1 1000100 2).hdr.epoch ≠ (gen1 3 1).epoch ∧ (jobKey s 7 1).any (fun k => k.val == 9) = true ∧ r.data.isSome = true) ∧
    refusesWith (checkRecord State.reset 56 (recSet 1 1000100 1)) 5 Syn.ROSTER Cnt.NOJOB = true ∧
    (let t : TabRec := { body := recBody 32 [], late := false, snapshot := false, tLast := 0, die := 56 }
     seenRecord { theWin (job 0) (gen1 3 1) 0 with table := [t] } (recHdr 1 32) = some t ∧ recBody 32 [0] ≠ recBody 32 []) ∧
    seenRecord (theWin (job 0) (gen1 3 1) 0) (recHdr 1 32) = none ∧ (readRecord emptyRecord).isSome = true ∧ readRecord [0] = none ∧
    (gen1 3 1 [aField]).fields ≠ [] ∧
    (firstSet (drainHeld (job 0 1 [recSet 2 0 1]) 56) 56 2).isSome = true ∧ (firstSet (drainHeld (promoteSiteKeys (job 0 1 [recSet 3 0 1])) 56) 56 3).isSome = true := by
  refine ⟨?_, ?_⟩
  · and_intros <;> decide
  · and_intros <;> decide

/-- Window 0 of job 7 as held, changed. -/
def win0 (f : JobWin → JobWin) (fields : List TField := []) : JobWin := f (theWin (job 0 1 [] [] fields) (gen1 3 1 fields) 0)

theorem witness_WindowsAreSealed :
    (genOfWin (drainAll (job 2000000)) 0 0 = some (gen1 3 1) ∧ isFrozen (drainAll (job 2000000)) (Pg.trs (homeDie (gen1 3 1))) = false ∧
      sealDeadline (gen1 3 1) 0 ≤ (drainAll (job 2000000)).now .hub ∧ (theWin (drainAll (job 2000000)) (gen1 3 1) 0).sealed = false ∧
      onTimeWaiting (drainAll (job 2000000)) (gen1 3 1) 0 = false) ∧ (drainAll (job 0)).now .hub < sealDeadline (gen1 3 1) 0 ∧
    (let w := win0 (fun w => { w with sealed := true, parts := [{ fields := [], records := 1, late := 1 }] })
     lateHorizon (gen1 3 1) 0 ≤ (drainAll (job 3000000 1 [] [w])).now .hub ∧ (theWin (drainAll (job 3000000 1 [] [w])) (gen1 3 1) 0).sealed = true ∧
     (theWin (drainAll (job 3000000 1 [] [w])) (gen1 3 1) 0).closed = false ∧ (∃ p ∈ w.parts, 0 < p.late)) ∧
    (∀ p ∈ (win0 fun w => { w with sealed := true }).parts, p.late = 0) ∧
    (theWin (drainAll (job 0 1 [] [win0 fun w => { w with closed := true }])) (gen1 3 1) 0).closed = true ∧
    (let p : Snap := { rev := 0, parts := [], failed := [1] }
     let s := job 2000000 1 [] [win0 fun w => { w with snap := some p }]
     genOfWin s 0 0 = some (gen1 3 1) ∧ (theWin s (gen1 3 1) 0).snap = some p ∧ p.failed ≠ [] ∧ sealDeadline (gen1 3 1) 0 + 40000 ≤ s.now .hub ∧
     (theWin s (gen1 3 1) 0).mergeLate = false) := by
  refine ⟨?_, ?_, ?_, ?_, ?_, ?_⟩ <;> first | decide | (and_intros <;> decide)

def aggFrame (rev : Nat) : AggFrame :=
  { ver := 1, level := 1, job := 7, contrib := 1, k := 3, epoch := 1, window := 0, tgen := 0, tq := 0, rev, key := 9, intact := true,
    agg := { expected := 1, records := 1, late := 0, missing := 0, flags := 0, pg := 0, fields := [] } }

theorem witness_AggregatesAreIssuedAndTaken :
    (let p : Snap := { rev := 0, parts := [], failed := [] }
     let s := job 2000000 1 [] [win0 (fun w => { w with snap := some p }) [aField]] [aField]
     genOfWin s 0 0 = some (gen1 3 1 [aField]) ∧ (theWin s (gen1 3 1 [aField]) 0).snap = some p ∧ p.failed = [] ∧
     isFrozen s (Pg.trs (homeDie (gen1 3 1))) = false ∧ (gen1 3 1 [aField]).fields ≠ [] ∧ issuedRev (theWin s (gen1 3 1 [aField]) 0) 2 = none ∧
     sealDeadline (gen1 3 1) 0 + 340000 ≤ s.now .hub ∧ isLead s 0 0 = true) ∧
    (let s := job 0 1 [] [win0 (fun w => { w with issued := [(2, 0), (3, 255)] }) [aField]] [aField]
     issuedRev (theWin s (gen1 3 1 [aField]) 0) 2 = some 0 ∧ issuedRev (theWin s (gen1 3 1 [aField]) 0) 3 = some 255 ∧ s.now .hub ≤ holdEnd (gen1 3 1) 0) ∧
    holdEnd (gen1 3 1) 0 < (job 4000000000000).now .hub ∧
    (let s := job 0
     aggCheck s 56 (aggFrame 0) = none ∧ aggGen s 56 (aggFrame 0) = some (gen1 3 1) ∧ (jobKey s 7 1).any (fun k => k.val == (aggFrame 0).key) = true ∧
     contribOf (theWin s (gen1 3 1) 0) 1 1 = none ∧ issuedRev (theWin s (gen1 3 1) 0) 2 ≠ some 255) ∧
    aggCheck State.reset 56 (aggFrame 0) = some (Syn.ROSTER, Cnt.NOJOB) ∧ aggCheck (job 4000000000000) 56 (aggFrame 0) = some (0, Cnt.STALE) ∧
    (let c : Machine.Contrib := { level := 1, contrib := 1, rev := 0, agg := (aggFrame 0).agg }
     contribOf (theWin (job 0 1 [] [win0 fun w => { w with contribs := [c] }]) (gen1 3 1) 0) 1 1 = some c ∧ (aggFrame 0).rev ≤ c.rev) := by
  refine ⟨?_, ?_, ?_, ?_, ?_, ?_, ?_⟩ <;> first | decide | (and_intros <;> decide)

/-! ### Witnesses: tiles -/

/-- Tile 0 ACTIVE with its sequencer RUNNING, its contents changed. -/
def tile0 (f : Tile → Tile) (l : List (Page × Fld × Nat) := []) (s : State := State.reset) : State :=
  let s := tst ([(Pg.til 0, TIL_STAT_PSTATE, PS.ACTIVE), (Pg.til 0, TIL_STAT_SEQ, Seq.RUNNING), (Pg.hut 0, BLK_CTRL_EN, 1)] ++ l) s
  setTile s 0 (f Tile.reset)
def tdesc (ticket : Nat) (words : List Nat) : TDesc := { ticket, words := words ++ List.replicate (16 - words.length) 0, flushed := false }
def tfence (ticket : Nat) : TDesc := tdesc ticket [0x05000000]
def queue (q : Nat) (v : TQueue) (x : Tile) : Tile := { x with queues := x.queues.set q v }
/-- A descriptor of an operation, of one element or of none. -/
def opDesc (op vop n : Nat) : TDesc := tdesc 1 [op * 2 ^ 24, 0, 0, 0, 0, vop, 0, 0, 0, n * 65537, n]
def running (q : Nat) (d : TDesc) (l : List (Page × Fld × Nat) := []) (f : Tile → Tile := id) : State :=
  tile0 (fun x => queue q { held := [d], run := .running, next := 2, hist := [] } (f x)) l

theorem witness_SequencerInstructions : seqRuns (tile0 id) 0 = true ∧ (65 : Word).toNat % 64 ≠ 0 ∧
    ((0x400000 : Word).toNat % 64 = 0 ∧ 0x400000 < (0x400000 : Word).toNat + 64) ∧ (getTile (tile0 fun x => { x with poison := [3] }) 0).poisoned 0 64 = true ∧
    ((0x3FFFC0 : Word).toNat % 64 = 0 ∧ (0x3FFFC0 : Word).toNat + 64 ≤ 0x400000 ∧ (getTile (tile0 id) 0).poisoned 0x3FFFC0 64 = false ∧
      (getQ (getTile (tile0 id) 0) 0).held.length < 16 ∧
      16 ≤ (getQ (getTile (tile0 (queue 0 { held := List.replicate 16 (tfence 1), run := .waiting, next := 17, hist := [] })) 0) 0).held.length) ∧
    (let s := tile0 (queue 2 { held := [], run := .waiting, next := 2, hist := [(1, 0)] }) [(Pg.til 0, TIL_QSTAT_DONE 2, 1)]
     seqRuns s 0 = true ∧ ticketDone s 0 2 ((1 : Word).toNat % 65536) = true ∧
     (getQ (getTile s 0) 2).hist.find? (fun h => h.1 == (1 : Word).toNat % 65536) = some (1, 0) ∧ ticketDone s 0 2 ((2 : Word).toNat % 65536) = false) ∧
    (ticketDone (tile0 id) 0 0 0 = true ∧ (getQ (getTile (tile0 id) 0) 0).hist.find? (fun h => h.1 == (0 : Word).toNat % 65536) = none) ∧
    ((1 : Word) = 1 ∨ (1 : Word) = 2) ∧ (0 : Word) ≠ 1 ∧ (0 : Word) ≠ 2 ∧ (0x100 : Word) ≠ 0 := by and_intros <;> decide

/-- A descriptor that depends on ticket 1 of queue 1, at the head of queue 0. -/
def waits : TDesc := tdesc 1 [0x05200000, 1 * 65536]

theorem witness_QueueHeadsStartAndComplete :
    (let s := tile0 (queue 0 { held := [waits], run := .waiting, next := 2, hist := [] })
     (getQ (getTile s 0) 0).held = waits :: [] ∧ (getQ (getTile s 0) 0).run = .waiting ∧ tileRuns s 0 = true ∧ isHalted s 0 0 = false ∧
     headCheck s 0 0 waits = 0 ∧ headCheck s 0 0 (tdesc 1 []) ≠ 0 ∧ bit (dDepV waits) 1 = true ∧ ticketDone s 0 1 (dDep waits 1) = false) ∧
    (let s := tile0 (queue 0 { held := [waits], run := .waiting, next := 2, hist := [] }) [(Pg.til 0, TIL_QSTAT_DONE 1, 1)]
     headCheck s 0 0 waits = 0 ∧ ∀ p < 4, bit (dDepV waits) p = true → ticketDone s 0 p (dDep waits p) = true) ∧
    (let s := tile0 (queue 3 { held := [tfence 1], run := .done 0 0 false, next := 2, hist := [] })
     (getQ (getTile s 0) 3).held = [tfence 1] ∧ (getQ (getTile s 0) 3).run = .done 0 0 false ∧ tileRuns s 0 = true ∧ 0 ≠ Syn.POISON ∧
     (getTile s 0).queues.length = 4) ∧ Syn.RANGE < 256 ∧ Syn.RANGE ≠ 0 ∧
    (0 < tileCount State.reset.cfg ∧ isFrozen State.reset (Pg.til 0) = false) ∧
    (let s := tile0 (queue 3 { held := [tdesc 1 []], run := .refused Syn.RANGE, next := 2, hist := [] })
     (getQ (getTile s 0) 3).held = [tdesc 1 []] ∧ (getQ (getTile s 0) 3).run = .refused Syn.RANGE) := by
  refine ⟨?_, ?_, ?_, ?_, ?_, ?_, ?_⟩ <;> first | decide | (and_intros <;> decide)

/-- For each operation: a state in which a descriptor of it runs, with work and without. -/
def opRuns (q op vop : Nat) : Bool :=
  runningDesc (running q (opDesc op vop 1)) 0 q op vop == some (opDesc op vop 1) && !zeroWork (opDesc op vop 1) &&
  runningDesc (running q (opDesc op vop 0)) 0 q op vop == some (opDesc op vop 0) && (zeroWork (opDesc op vop 0) || op == 3 || op == 5)

theorem witness_DescriptorsRun_units :
    opRuns 0 1 0 = true ∧ opRuns 2 3 0 = true ∧ opRuns 3 4 0 = true ∧ opRuns 0 5 0 = true ∧ opRuns 1 5 0 = true ∧ opRuns 2 5 0 = true ∧
    opRuns 3 5 0 = true := by and_intros <;> decide
theorem witness_DescriptorsRun_floating :
    ∀ v ∈ [1, 2, 3, 4, 5, 6, 7, 8, 9, 10, 11, 12, 13, 14, 15, 16, 17, 18, 19, 20], opRuns 1 2 v = true := by decide
theorem witness_DescriptorsRun_integer :
    ∀ v ∈ [0x20, 0x21, 0x22, 0x23, 0x24, 0x25, 0x26, 0x27, 0x28, 0x29, 0x2A, 0x2B, 0x2C, 0x2D], opRuns 1 2 v = true := by decide

/-- A COPY of one row of 4 bytes from 0 to 64 of the tile's own SRAM. -/
def copyD : TDesc := tdesc 1 [0x04000000, 0, 0, 0, 0, 0, 0, 64, 0, 4, 1]
def noAnswer : PeerAnswer := { rows := 0, code := 0, data := [], poison := false }
/-- A tree whose first node names a feature beyond them. -/
def badTree : Tile := (Tile.reset).write 0 (((leBytes 4 0x54545548 ++ [1, 1, 0, 0] ++ leBytes 4 1 ++ leBytes 4 1 ++ leBytes 4 64).map (fun b => (b, false))) ++ List.replicate 44 (0, false) ++ (leBytes 8 (5 * 2 ^ 48)).map (fun b => (b, false)))
theorem witness_CopiesAndTreeAccumulator :
    (Memory.wf (Tile.reset).sram = true ∧ Memory.wf State.reset.hub.hbm = true ∧ (63 < 64 ∨ 64 + [(1, false)].length ≤ 63) ∧
      [(1, false)][0]? = some (1, false)) ∧ (Syn.STATE ≠ 0 ∧ (0 < noAnswer.rows ∨ noAnswer.code = 0) ∧ Syn.STATE ≠ 0 ∧ noAnswer.rows ≤ 0) ∧
    (copyRead (tile0 id) 0 copyD noAnswer 0).2.1 = 0 ∧
    (copyWrite (copyRead (tile0 id) 0 copyD noAnswer 0).1 0 copyD noAnswer 0 (copyRead (tile0 id) 0 copyD noAnswer 0).2.2).2 = 0 ∧
    (let d := tdesc 1 [0x04000000, 0, 0, 0, 0, 0, 0, 64, 1 * 2 ^ 28, 4, 1]
     (copyRead (tile0 id) 0 d noAnswer 0).2.1 = 0 ∧
     (copyWrite (copyRead (tile0 id) 0 d noAnswer 0).1 0 d noAnswer 0 (copyRead (tile0 id) 0 d noAnswer 0).2.2).2 ≠ 0) ∧
    (-(2 ^ 95) ≤ (5 : Int) ∧ (5 : Int) < 2 ^ 95) ∧ tRows (opDesc 3 0 0) = 0 ∧
    (let d := tdesc 1 [0x03000000, 0, 0, 0, 0, 0, 0, 1, 0, 65536]
     tRows d ≠ 0 ∧ (firstFault badTree (ensAt badTree (tEns d)) d).isSome = true) := by
  refine ⟨?_, ?_, ?_, ?_, ?_, ?_, ?_, ?_⟩ <;> first | decide | (and_intros <;> decide)

theorem witness_TilePowerStates :
    (let st (p : Nat) := tile0 id [(Pg.til 0, TIL_STAT_PSTATE, p)]
     0 < tileCount State.reset.cfg ∧ isFrozen (st PS.RETIRED) (Pg.til 0) = false ∧ pstate (st PS.RETIRED) 0 = PS.RETIRED ∧
     pstate (st PS.ACTIVE) 0 = PS.ACTIVE ∧ pstate (st PS.GATED) 0 = PS.GATED ∧ pstate (st PS.PARKED) 0 = PS.PARKED) ∧
    (pstate (tile0 id) 0 = PS.ACTIVE ∧ queuesEmpty (getTile (tile0 id) 0) = true ∧ schedOn (tile0 id) 0 = false ∧
      2 ≤ (tile0 id [(Pg.til 0, TIL_SCHED_SLEEP, 2)]).rd (Pg.til 0) TIL_SCHED_SLEEP) ∧
    (let s := tile0 (fun x => { x with depth := 2 }) [(Pg.til 0, TIL_STAT_PSTATE, PS.ENTERING)]
     pstate s 0 = PS.ENTERING ∧ seqState s 0 = Seq.RUNNING ∧ queuesEmpty (getTile s 0) = true ∧ (getTile s 0).wakeP = false ∧ (getTile s 0).sleep = none ∧
     schedOn s 0 = false ∧ isFrozen s (Pg.til 0) = false) ∧
    (let s := tile0 id [(Pg.til 0, TIL_STAT_PSTATE, PS.WAKING), (Pg.til 0, TIL_STAT_SEQ, Seq.ASLEEP)]
     pstate s 0 = PS.WAKING ∧ seqState s 0 = Seq.ASLEEP) ∧
    (seqState (tile0 id [(Pg.til 0, TIL_STAT_SEQ, Seq.HALTED)]) 0 = Seq.HALTED ∧ seqState (tile0 id) 0 ≠ Seq.HALTED ∧ Agent.steward ≠ Agent.cabinet) ∧
    (let s := tile0 id [(Pg.til 0, TIL_STAT_PSTATE, PS.GATED), (Pg.til 0, TIL_SCHED_EN, 1), (Pg.til 0, TIL_SCHED_ACTIVE_OFS, 10)] (atTime 9000)
     pstate s 0 = PS.GATED ∧ wakeDue s 0 (pstate s 0) = true) ∧
    (let s := tile0 id [(Pg.til 0, TIL_SCHED_EN, 1), (Pg.til 0, TIL_SCHED_K, 0), (Pg.til 0, TIL_SCHED_ACTIVE_OFS, 10)] (atTime 140000)
     lastActive s 0 = some 0 ∧ schedOn s 0 = true ∧ pstate s 0 ≠ PS.RETIRED ∧ (getTile s 0).active ≠ some 0 ∧ TReq.active 0 ∉ (getTile s 0).held) := by
  refine ⟨?_, ?_, ?_, ?_, ?_, ?_, ?_⟩ <;> first | decide | (and_intros <;> decide)

/-! ### Witnesses: verdicts, checks, recovery, the tape, digests -/

/-- A model image of one rank, placed on tile 0 with check tile 1. -/
def wrank : WRank := { sram := 0, entry := 0, aNs := 0, bNs := 0, aIn := 0, inA := true, inB := false, fold := false }
def weaja : Weaja :=
  { magic := 0, version := 1, flags := 0, fplan := 0, modelId := 0, total := 0, hbmWork := 0, binding := 0, ranks := [wrank], edges := [], sections := [],
    sig := true, tag := true }
def place1 (check : Option Nat) : Placement := { places := [⟨0, 0, 0, 0⟩], check, base := 0, size := 0 }
def himage : HImage := { img := weaja, place := place1 (some 1), aUs := 1, bUs := 1 }
def vpolicy : VPolicy :=
  { level := 0, absNs := 1, mult := 0, markWait := 125, minUnits := 3, freqGauge := 0, levelTop := 0, levelFloor := 0, raisePct := 1, headroom := 3,
    migrate := 0, driftThr := 0, driftWin := 1 }
def hj (f : HJob → HJob := id) : HJob := f { HJob.new 7 0 3 0 with vpol := [(0, vpolicy)], image := some himage }
/-- The job of the ingest witnesses with its verdict side. -/
def vjob (ns : Nat) (f : HJob → HJob := id) (wins : List JobWin := []) (s : State := job ns 1 [] wins) : State :=
  onHub (fun h => { h with jobs := [hj f] }) s
def withTile (t : Nat) (l : List (Page × Fld × Nat)) (f : Tile → Tile) (s : State) : State := setTile (tst l s) t (f (getTile s t))
/-- A tile of the job's set. -/
def inSet (t : Nat) (f : Tile → Tile) (s : State) : State :=
  withTile t [(Pg.til t, TIL_STAT_PSTATE, PS.ACTIVE), (Pg.til t, TIL_JOB_VALID, 1), (Pg.til t, TIL_JOB_SLOT, 0)] f s
def vrec (rev : Nat) : VRec := missingRec (vjob 0) (hj) (gen1 3 1) 0 rev

/-- A QH-40: 768 tiles. -/
def qh40 (s : State) : State := { s with cfg := { s.cfg with qh40 := true } }
theorem no_tile_of_the_job : tileSet (qh40 (vjob 2000000)) 0 = [] := by decide +kernel

theorem witness_VerdictsAreIssuedOnce :
    (verdictJob (qh40 (vjob 2000000)) 0 0 = some (hj, gen1 3 1, vpolicy) ∧ asmInstant (gen1 3 1) 0 ≤ (qh40 (vjob 2000000)).now .hub ∧ (hj).asm ≤ 0 ∧
      tileSet (qh40 (vjob 2000000)) 0 = []) ∧
    (let s := inSet 0 id (qh40 (vjob 2000000))
     verdictJob s 0 0 = some (hj, gen1 3 1, vpolicy) ∧ asmInstant (gen1 3 1) 0 ≤ s.now .hub ∧ tileSet s 0 = [0] ∧ isFrozen s (Pg.til 0) = false ∧
     (getTile s 0).doneWins.contains (0 % 2 ^ 32) = false ∧ (getTile s 0).doneRun < 2 ∧ setDone s (hj) (gen1 3 1) 0 [] = false) ∧
    ((vjob 0).now .hub < asmInstant (gen1 3 1) 0 ∧ verdictJob (vjob 0) 0 0 = some (hj, gen1 3 1, vpolicy) ∧
      (vjob 0).now .hub < abandonAt (gen1 3 1) 0) ∧
    (inRing (hj) 0 0 = false ∧ (vjob 2000000).now .hub < abandonAt (gen1 3 1) 0 ∧ (hj).missing.contains 0 = false ∧ (hj).faultWaits = false ∧
      (hj).recovery = none ∧ setDone (qh40 (vjob 2000000)) (hj) (gen1 3 1) 0 [] = true) ∧
    (hj fun j => { j with faultWaits := true }).faultWaits = true ∧
    (let f (j : HJob) : HJob := { j with ring := [vrec 0] }
     let s := vjob 3000000 f [{ theWin (job 0) (gen1 3 1) 0 with issued := [(1, 1)] }]
     verdictJob s 0 0 = some (hj f, gen1 3 1, vpolicy) ∧ inRing (hj f) 0 0 = true ∧ inRing (hj f) 0 1 = false ∧
     issuedRev (theWin s (gen1 3 1) 0) 1 = some 1 ∧ lateHorizon (gen1 3 1) 0 ≤ s.now .hub) ∧
    (verdictJob (vjob 9000000) 0 0 = some (hj, gen1 3 1, vpolicy) ∧ abandonAt (gen1 3 1) 0 ≤ (vjob 9000000).now .hub) ∧ [(1 : Int), 2].Perm [2, 1] := by
  refine ⟨⟨by decide, by decide, by decide, no_tile_of_the_job⟩, ?_, ?_, ⟨by decide, by decide, by decide, by decide, by decide, ?_⟩, ?_, ?_, ?_, ?_⟩
  · and_intros <;> decide +kernel
  · and_intros <;> decide
  · unfold setDone
    rw [show (gen1 3 1).slot = 0 from rfl, no_tile_of_the_job]
    decide
  · decide
  · and_intros <;> decide
  · and_intros <;> decide
  · exact List.Perm.swap ..

/-- Tile t under a test: GATED, its last self-test as given. -/
def tested (t : Nat) (ns : Nat) (x : Nat × Nat × Option Nat) : State :=
  setTest (tst [(Pg.til t, TIL_STAT_PSTATE, PS.GATED)] (atTime ns)) t x

theorem witness_ChecksSelftestsAndRecovery :
    (hjobAt (vjob 1000000) 0 = some (hj) ∧ (hj).image = some himage ∧ himage.place.check = some 1 ∧ 0 % 64 = 0 % 64 ∧ (hj).checked.contains 0 = false ∧
      windowEnd 0 (hj).k ≤ (vjob 1000000).now .hub ∧ (hj).recovery = none) ∧
    (rankPlace himage (checkRankOf himage 0) = some ⟨0, 0, 0, 0⟩ ∧ 0 = ownIndex (vjob 0) ∧
      (Tile.read (getTile (vjob 0) 0) 0 4).map (·.1) = (Tile.read (getTile (vjob 0) 1) 0 4).map (·.1) ∧
      (let s := withTile 0 [] (fun x => x.write 0 [(1, false)]) (vjob 0)
       (Tile.read (getTile s 0) 0 4).map (·.1) ≠ (Tile.read (getTile s 1) 0 4).map (·.1))) ∧
    (let s := tested 0 700000000000 (0, 0, none)
     0 < tileCount s.cfg ∧ pstate s 0 ≠ PS.RETIRED ∧ isFrozen s (Pg.til 0) = false ∧ testRoom s 0 = true ∧ testDue s 0 = true ∧ (testOf s 0).2.1 < 15) ∧
    (let s := tested 0 700000000000 (0, 15, none)
     testRoom s 0 = true ∧ testDue s 0 = true ∧ (testOf s 0).2.1 = 15) ∧ testDue (tested 0 0 (0, 0, none)) 0 = false ∧
    isCharged (tested 0 0 (0, 0, some 1)) 0 = true ∧ isCharged (tested 0 0 (0, 0, none)) 0 = false ∧
    (let f (j : HJob) : HJob := { j with faultWaits := true, faults := 1 }
     let s := vjob 2000000 f
     hjob s 7 = some (hj f) ∧ jobNow s (hj f) = some (gen1 3 1) ∧ (hj f).recovery = none ∧ enginesBusy s < 2 ∧ (hj f).faults ≤ 1) ∧
    (let f (j : HJob) : HJob := { j with faultWaits := true, faults := 3 }
     3 ≤ (hj f).faults) ∧
    (let f (j : HJob) : HJob := { j with recovery := some (2, none) }
     hjob (vjob 0 f) 7 = some (hj f) ∧ (hj f).recovery = some (2, none)) := by
  refine ⟨?_, ?_, ?_, ?_, ?_, ?_, ?_, ?_, ?_, ?_⟩ <;> first | decide | (and_intros <;> decide)

def isPlaced (x : Except Nat HImage) : Bool :=
  match x with
  | .ok _ => true
  | .error _ => false

theorem witness_ChecksSelftestsAndRecovery_engines :
    (let s := vjob 0 (fun j => { j with faultWaits := true, faults := 1 })
     2 ≤ enginesBusy (onHub (fun h => { h with jobs := h.jobs ++ [{ hj with job := 8, recovery := some (2, none) },
       { hj with job := 9, recovery := some (3, none) }] }) s)) ∧
    (let s := tst [(Pg.til 0, TIL_STAT_PSTATE, PS.PARKED), (Pg.til 1, TIL_STAT_PSTATE, PS.PARKED), (Pg.til 2, TIL_STAT_PSTATE, PS.PARKED)] (vjob 0)
     isPlaced (placeImage s (hj) (gen1 3 1) weaja (some { places := [⟨0, 0, 0, 2⟩], check := none, base := 0x1640000, size := 0 })) = true) := by
  refine ⟨?_, ?_⟩ <;> first | decide | (and_intros <;> decide)

def taped (n : Nat) (closed taped : Bool) : JobWin := { theWin (job 0) (gen1 3 1) n with closed, taped }
def tblock (tries : List Nat) : TBlock := { job := 7, k := 3, tier := 0, b := 0, content := [1, 2], entries := 1, first := 0, last := 0, tries }
def withTap (m : Nat) (f : TapMd → TapMd) (s : State := State.reset) : State := setTap s m (f (getTap s m))
def tentry : TEntry :=
  { seq := 1, job := 7, k := 3, state := 1, poison := false, entries := 1, first := 0, last := 0, stream := 0, ofs := 0, clen := 15, ulen := 2, secs := 0,
    nanos := 0 }

theorem witness_TapeCommitsVerifiedFrames :
    (let s := vjob 3000000 id [taped 0 true false]
     genOfWin s 0 0 = some (gen1 3 1) ∧ findJob s (gen1 3 1).job = some (hj) ∧ findWin s 0 7 0 = some (taped 0 true false) ∧
     (taped 0 true false).closed = true ∧ (taped 0 true false).taped = false ∧ isFrozen s (tapPg (hj).tableMd) = false ∧
     (getTap s (hj).tableMd).ready = true ∧ (taped 0 true false).table = [] ∧
     ∀ v ∈ s.hub.wins, v.slot = 0 → v.job = (gen1 3 1).job → v.win < 0 → v.taped = true) ∧ (taped 0 false false).closed = false ∧
    (let s := withTap 2 (fun t => { t with work := [tblock []] })
     2 < 8 ∧ (getTap s 2).work[0]? = some (tblock []) ∧ isFrozen s (tapPg 2) = false ∧ isFrozen s (cmpPg 2) = false ∧
     (enginesIn s 2).contains 5 = true ∧ (tblock []).tries.contains 5 = false ∧ (tblock []).tries.length < 2 ∧
     (emitted [] && decodeFrame [] == some (tblock []).content) = false) ∧
    (2 ≤ (tblock [3, 4]).tries.length ∧ ([] == rawFrame (tblock [3, 4]).content) = false) ∧
    tentry.seq < 2 ^ 64 ∧ tentry.state < 8 ∧ [1, 2].length ≤ 65536 ∧ 2 < State.reset.hub.taps.length := by
  and_intros <;> decide
/-- A frame that matches: that of its own content. -/
theorem witness_TapeCommitsVerifiedFrames_good : (rawFrame (tblock [3, 4]).content == rawFrame (tblock [3, 4]).content) = true := beq_self_eq_true _

def scan1 (next head produced consumed since : Nat) : Scan := { next, head, produced, consumed, since }
/-- A scan of MD 0 that runs, the block of SEQ 1 in the index, one slot in the ring. -/
def scanning (sc : Scan) (ns : Nat := 0) (l : List (Page × Fld × Nat) := []) : State :=
  putEntry (withTap 0 (fun t => { t with scan := some sc }) (tst ([(tapPg 0, TAP_SCAN_CTRL_STATE, 1), (tapPg 0, TAP_SCAN_SLOTS, 1),
    (tapPg 0, TAP_SCAN_TO_LO, 2000), (tapPg 0, TAP_SCAN_CTRL_TIMEOUT, 1), (tapPg 0, TAP_SCAN_RING, 0x1640000)] ++ l) (atTime ns))) 0 0 1 tentry
/-- The scan's state once CONSUMED is read and the blocks that do not match are passed over. -/
def sought (s : State) (sc : Scan) : Scan := (scanSeek s 0 (noteConsumed s 0 sc) (sc.head - sc.next)).2

theorem witness_ScansPatrolAndInjection :
    (isFrozen State.reset (tapPg 0) = false ∧ bit (0x10001 : Word).toNat 1 = false ∧ bits (0x10001 : Word).toNat 31 16 ≠ 0 ∧
      scanState State.reset 0 ≠ ScanSt.RUNNING ∧ (getTap State.reset 0).ready = true) ∧
    (let s := tst [(tapPg 0, TAP_SCAN_FROM_LO, 1)]
     scanTo s 0 < scanFrom s 0) ∧
    (let s := qh40 (tst [(tapPg 0, TAP_SCAN_SLOTS, 65535)])
     scanFrom s 0 ≤ scanTo s 0 ∧ (HbmRegion.work.span s.cfg).2 < ringSize (ringSlots s 0)) ∧
    (let s := tst [(tapPg 0, TAP_SCAN_SLOTS, 1), (tapPg 0, TAP_SCAN_RING, 0x1640000)]
     scanFrom s 0 = scanTo s 0 ∧ ringSize (ringSlots s 0) ≤ (HbmRegion.work.span s.cfg).2 ∧
     inRegion s.cfg .work (ringBase s 0) (ringSize (ringSlots s 0)) = true ∧ mdOf s.cfg (ringBase s 0) = 48 + 0) ∧
    (bit (0x10002 : Word).toNat 0 = false ∧ scanState (scanning (scan1 1 2 0 0 0)) 0 = ScanSt.RUNNING) := by
  refine ⟨?_, ?_, ?_, ?_, ?_⟩ <;> (and_intros <;> decide)
theorem witness_ScansPatrolAndInjection_deliver :
    ((getTap (scanning (scan1 1 2 0 0 0)) 0).scan = some (scan1 1 2 0 0 0) ∧ isFrozen (scanning (scan1 1 2 0 0 0)) (tapPg 0) = false ∧
      sought (scanning (scan1 1 2 0 0 0)) (scan1 1 2 0 0 0) = scan1 1 2 0 0 0 ∧ ringSlots (scanning (scan1 1 2 0 0 0)) 0 = 1) ∧
    sought (scanning (scan1 1 2 1 0 0)) (scan1 1 2 1 0 0) = scan1 1 2 1 0 0 ∧
    sought (scanning (scan1 1 1 0 0 0)) (scan1 1 1 0 0 0) = scan1 1 1 0 0 0 ∧
    (let s := hbmWrite (scanning (scan1 1 2 0 0 0)) (0x1640000 * 4096 + 8) [3]
     (sought s (scan1 1 2 0 0 0)).produced < (sought s (scan1 1 2 0 0 0)).consumed) ∧
    (scan1 1 2 0 0 0).since + 1 * 1000000 ≤ (scanning (scan1 1 2 0 0 0) 1000000).now .hub ∧
    (scanning (scan1 1 2 0 0 0)).now .hub < (scan1 1 2 0 0 0).since + 1 * 1000000 := by
  and_intros <;> decide +kernel
theorem witness_ScansPatrolAndInjection_rest :
    (let s := tst [(Pg.mem 48, MEM_SCRUB_HOURS, 1)] (atTime 3600000000000)
     s.rd (Pg.mem (48 + 0)) MEM_SCRUB_HOURS ≠ 0 ∧ (getTap s 0).patrol + s.rd (Pg.mem (48 + 0)) MEM_SCRUB_HOURS * 3600000000000 ≤ s.now .hub) ∧
    Agent.regPort ≠ Agent.cabinet ∧ (3 : Word).toNat % 4 = 3 ∧ (2 : Word).toNat % 4 ≠ 3 ∧ pageBlk State.reset.cfg (cmpPg 0) = some .cmp ∧
    isFrozen State.reset (cmpPg 0) = false ∧ bit 4 2 = true := by and_intros <;> decide

def drep : DRep := { unit := 5, epoch := 1, status := 0, shard := true, a := 1, b := 2, bins := [], mark := 0 }
def dcmp (reports : List DRep) : DCmp :=
  { step := 4, round := 0, epoch := 1, shift := 0, first := 0, siteFirst := 0, reports, sent := false, partials := [], decided := none }
def dgroup (state : Nat) : DGroup := { group := 0, state, units := 1, expected := 1, a := 1, b := 2 }
def dpart (contrib rev state : Nat) : DPart :=
  { ver := 1, job := 7, contrib, epoch := 1, step := 4, round := 0, rev, key := 9, intact := true, groups := [dgroup state], named := [], bins := [] }
def withCmp (c : DCmp) (j : HJob) : HJob := { j with cmps := [c] }
def rpl (waited : Bool) : Rpl := { step := 4, id := 1, shift := 0, epoch := 1, ordered := 1, waited, named := [] }
def away : Member := { member5 with unit := 6, hub := 2097152 }
/-- The job with a second member at another site. -/
def twoSites (f : HJob → HJob) : State :=
  onHub (fun h => { h with rosters := [{ roster1 with members := [member5, away], leads := [(0, 0), (1, 2097152)] }] }) (tst [(Pg.ing 56, ING_JOB_GEN, 1)] (vjob 0 f))

theorem witness_DigestOutcomesAndWaits_outcomes : outcomeOf [dpart 0 0 0] [member5] = 0 ∧ 0 ∈ groupsOf [member5] ∧
    outcomeOf [dpart 0 0 0, { dpart 1 0 0 with groups := [{ dgroup 0 with group := 1, a := 3 }] }] [member5, { away with rgroup := 1 }] = 1 := by
  and_intros <;> decide
theorem witness_DigestOutcomesAndWaits_waits :
    (let f := withCmp (dcmp [drep])
     let s := vjob 100000000000 f
     hjob s 7 = some (hj f) ∧ cmpOf (hj f) 4 0 = some (dcmp [drep]) ∧ (dcmp [drep]).decided = none ∧ (dcmp [drep]).sent = false ∧ (dcmp [drep]).reports ≠ [] ∧
     (dcmp [drep]).first + reportWait s (hj f) ≤ s.now .hub ∧ (dcmp [drep]).siteFirst + 2 * reportWait s (hj f) ≤ s.now .hub ∧
     cmpGen s (hj f) (dcmp [drep]) = some (gen1 3 1) ∧ leads s (gen1 3 1) = true) ∧
    (let f := withCmp (dcmp [drep])
     (vjob 0 f).now .hub < (dcmp [drep]).first + reportWait (vjob 0 f) (hj f)) ∧
    (let f (j : HJob) : HJob := { withCmp (dcmp [drep]) j with rpl := some (rpl false) }
     let s := twoSites f
     isXD 56 = true ∧ isFrozen s (Pg.ing 56) = false ∧ (dpart 2097152 0 0).ver = 1 ∧ slotOf s 56 7 = some 0 ∧ hjob s 7 = some (hj f) ∧
     (liveJobKey s 7 1).any (fun k => k.val == (dpart 2097152 0 0).key) = true ∧ leads s (liveGen s 56 0) = true ∧
     (servingHubs s (liveGen s 56 0)).contains 2097152 = true ∧ (cmpFor s (hj f) (dpart 2097152 0 0)).partials = [] ∧
     (cmpFor s (hj f) (dpart 2097152 0 0)).decided = none ∧ siteOf 2097152 ≠ siteOf (selfId s)) := by
  refine ⟨?_, ?_, ?_⟩ <;> first | decide | (and_intros <;> decide)

def watched (until_ : Nat) : Obs := { unit := 5, until_, events := 0, first := 0, quarantine := none, started := true }
theorem witness_DigestOutcomesAndWaits_replays :
    (let f (j : HJob) : HJob := { j with cmps := [dcmp [drep], { dcmp [drep] with round := 1 }], rpl := some (rpl false) }
     let s := vjob 100000000000 f
     hjob s 7 = some (hj f) ∧ (hj f).rpl = some (rpl false) ∧ (rpl false).ordered ≠ 0 ∧ (rpl false).ordered + replayWait s (hj f) ≤ s.now .hub ∧
     cmpOf (hj f) 4 1 = some { dcmp [drep] with round := 1 } ∧ cmpGen s (hj f) { dcmp [drep] with round := 1 } = some (gen1 3 1) ∧
     (cmpOf (hj f) 4 0).bind (cmpGen s (hj f)) = some (gen1 3 1) ∧
     (rpl false).ordered + replayWait s (hj f) + 2 * reportWait s (hj f) + reachD s (gen1 3 1) ≤ s.now .hub) ∧
    (let f (j : HJob) : HJob := { j with cmps := [dcmp [drep]], rpl := some (rpl false) }
     (vjob 0 f).now .hub < (rpl false).ordered + replayWait (vjob 0 f) (hj f)) ∧
    (let f (j : HJob) : HJob := { j with obs := [watched 5] }
     let s := vjob 5 f
     hjob s 7 = some (hj f) ∧ (hj f).obs.find? (fun o => o.unit == 5) = some (watched 5) ∧ (watched 5).until_ ≠ 0 ∧ (watched 5).until_ ≤ s.now .hub) := by
  refine ⟨?_, ?_, ?_⟩ <;> first | decide | (and_intros <;> decide)
def aSearch : Search := { entry := 3, field := aField, from_ := 0, to_ := 1, threshold := 0 }
theorem witness_DigestOutcomesAndWaits_search :
    ∃ x ∈ (setCabinet State.reset { State.reset.hub.cabinet with searches := [aSearch] }).hub.cabinet.searches, x.entry = 3 := ⟨aSearch, by decide, rfl⟩

/-! ### Witnesses: Reach, the gateway pages, power -/

/-- Reach port 0 in a state, aligned, its page's fields and its contents changed. -/
def reach (st : Nat) (f : RchPort → RchPort := id) (l : List (Page × Fld × Nat) := []) (ns : Nat := 0) : State :=
  setRch (onHub (fun h => { h with aligned := h.aligned.set 14 true }) (tst ([(Pg.rch 0, RCH_STATE_STATE, st), (Pg.rch 0, RCH_WIN, 1),
    (Pg.rch 0, RCH_RETX_HELLO_LOSS_MS, 5), (Pg.rch 0, RCH_RETX_RETX_MAX_MS, 100), (Pg.rch 0, RCH_RTO_RTO_MIN_US, 500),
    (Pg.rch 0, RCH_RTO_RTO_INIT_MS, 10), (Pg.rch 0, RCH_RTO_PSE_MAX_MS, 10)] ++ l) (atTime ns))) 0 (f RchPort.reset)
def rseg (a : RInner) : RSeg := { inner := a, seg := 0, segs := 1, bytes := 100 }
def rtx (seq : Nat) (first : Option Nat) (lost : Bool := false) (size : Nat := 100) : RTx :=
  { seq, pos := 0, size, born := 0, first, timer := 0, tries := 0, lost, sacked := false, reoffer := false, dest := 2097152, cls := 1,
    seg := rseg (.agg (aggFrame 0)) }
def rdata (session seq : Nat) : RData :=
  { ver := 1, type := 1, flags := 0, cls := 1, session, seq, lenOk := true, dest := 0, seg := rseg (.agg (aggFrame 0)) }
def rrx (seq dest : Nat) (a : RInner) : RRx := { seq, size := 100, at_ := 0, dest, seg := rseg a }

theorem witness_ReachSessionsAndFrames_hello :
    (let s := reach Rch.UP
     rchState s 0 ≠ Rch.DISABLED ∧ s.hub.aligned.getD (14 + 0) false = true ∧ (getRch s 0).helloTx = none) ∧
    (let s := reach Rch.UP (fun r => { r with helloTx := some 0 }) [] 1000000
     (getRch s 0).helloTx = some 0 ∧ 0 + 1000000 ≤ s.now .hub) ∧
    (3 ≠ (reach Rch.UP).rd (Pg.rch 0) RCH_PEER_HUB ∧ rchState (reach Rch.UP) 0 ≠ Rch.MISWIRED) ∧
    (let s := reach Rch.CONNECT id [] 5000000
     rchState s 0 = Rch.CONNECT ∧ (getRch s 0).helloRx + s.rd (Pg.rch 0) RCH_RETX_HELLO_LOSS_MS * 1000000 ≤ s.now .hub) ∧
    State.reset.hub.aligned.getD (14 + 0) false = false ∧
    (rchState (reach Rch.UP) 0 = Rch.UP ∧ Rch.DOWN ≠ Rch.UP ∧ rchState (reach Rch.CONNECT) 0 ≠ Rch.UP) := by
  refine ⟨?_, ?_, ?_, ?_, ?_, ?_⟩ <;> first | decide | (and_intros <;> decide)

theorem witness_ReachSessionsAndFrames_send :
    maySend (noteLimited (feed (reach Rch.CONNECT) 0) 0) 0 = false ∧
    (let s := reach Rch.UP (fun r => { r with ring := [rtx 1 (some 0) true] })
     maySend (noteLimited (feed s 0) 0) 0 = true ∧ nextLost (getRch (noteLimited (feed s 0) 0) 0) = some (rtx 1 (some 0) true)) ∧
    (let s := reach Rch.UP (fun r => { r with ring := [rtx 1 none] })
     let u := noteLimited (feed s 0) 0
     maySend u 0 = true ∧ nextLost (getRch u 0) = none ∧ nextNew (getRch u 0) = some (rtx 1 none) ∧ windowOpen u 0 (rtx 1 none) = true) ∧
    (let s := reach Rch.UP (fun r => { r with ring := [rtx 1 none false 2000000] })
     let u := noteLimited (feed s 0) 0
     maySend u 0 = true ∧ nextLost (getRch u 0) = none ∧ nextNew (getRch u 0) = some (rtx 1 none false 2000000) ∧
     windowOpen u 0 (rtx 1 none false 2000000) = false) ∧
    (let s := reach Rch.UP
     maySend (noteLimited (feed s 0) 0) 0 = true ∧ nextNew (getRch (noteLimited (feed s 0) 0) 0) = none) ∧
    (let s := reach Rch.UP (fun r => { r with ring := [rtx 1 (some 0)] }) [] 10000000
     (getRch s 0).ring.find? (fun f => f.seq == 1) = some (rtx 1 (some 0)) ∧ (rtx 1 (some 0)).timer + frameTimer s 0 (rtx 1 (some 0)) ≤ s.now .hub ∧
     isFrozen s (Pg.rch 0) = false ∧ (getRch s 0).pause = none) ∧
    (let s := reach Rch.UP (fun r => { r with ring := [rtx 1 (some 0)] })
     s.now .hub < (rtx 1 (some 0)).timer + frameTimer s 0 (rtx 1 (some 0))) ∧
    (let s := reach Rch.UP (fun r => { r with ring := [rtx 1 (some 0)] }) [] 100000000
     ∃ f ∈ (getRch s 0).ring, f.sacked = false ∧ ∃ t, f.first = some t ∧ t + retxMax s 0 ≤ s.now .hub) := by
  refine ⟨?_, ?_, ?_, ?_, ?_, ?_, ?_, ⟨rtx 1 (some 0), by decide, rfl, 0, rfl, by decide⟩⟩ <;> first | decide | (and_intros <;> decide)

theorem witness_ReachSessionsAndFrames_receive :
    (let s := reach Rch.UP (fun r => { r with rxSession := 4, rxCum := 2, cum := 3 })
     rchState s 0 = Rch.UP ∧ (2 : Nat) < (getRch s 0).cum ∧ (rdata 4 2).ver = 1 ∧ (rdata 4 2).type = 1 ∧ (rdata 4 2).lenOk = true ∧ (rdata 4 2).cls = 1 ∧
     (rdata 5 1).session ≠ (getRch s 0).rxSession ∧ (rdata 4 2).session = (getRch s 0).rxSession ∧ (getRch s 0).rxSession ≠ 0 ∧
     (rdata 4 2).seq ≤ (getRch s 0).rxCum ∧ (rdata 4 3).seq = (getRch s 0).rxCum + 1 ∧ ∀ g ∈ (getRch s 0).rxOoo, g.seq ≠ (rdata 4 3).seq) ∧
    (getRch (reach Rch.UP fun r => { r with ackNow := true }) 0).ackNow = true ∧
    (∀ f ∈ (getRch (reach Rch.UP) 0).ring, f.sacked = true) ∧
    (let s := reach Rch.UP (fun r => { r with rxQ := [rrx 1 5 (.agg (aggFrame 0))] })
     isFrozen s (Pg.rch 0) = false ∧ (getRch s 0).rxQ = [rrx 1 5 (.agg (aggFrame 0))] ∧ (rrx 1 5 (.agg (aggFrame 0))).dest ≠ selfId s) ∧
    (let s := reach Rch.UP (fun r => { r with rxQ := [rrx 1 0 (.agg (aggFrame 0))] })
     (rrx 1 0 (.agg (aggFrame 0))).dest = selfId s ∧ isFrozen s (Pg.ing (62 + 0)) = false ∧
     collect (getRch s 0).reasm (rrx 1 0 (.agg (aggFrame 0))).seg = ([], some (.agg (aggFrame 0))) ∧
     collect (getRch s 0).reasm (rrx 1 0 (.dpart (dpart 1 0 0))).seg = ([], some (.dpart (dpart 1 0 0)))) := by
  refine ⟨?_, ?_, ?_, ?_, ?_⟩ <;> first | decide | (and_intros <;> decide)

theorem witness_GatewayPages :
    (State.reset.rd (gsiPg 0) GSI_PSE_LEVEL = 0 ∧ (State.reset.rd Pg.xLcs LCS_ROLE_TX_B ≠ 1 ∨ State.reset.rd Pg.xLcs LCS_REACH_CFG_PORT ≠ 0)) ∧
    (tst [(gsiPg 0, GSI_PSE_LEVEL, 1)]).rd (gsiPg 0) GSI_PSE_LEVEL = 1 ∧
    (let s := reach Rch.UP (fun r => { r with pause := some (0, 0) }) [] 10000000
     (getRch s 0).pause = some (0, 0) ∧ isFrozen s (Pg.rch 0) = false ∧ 0 + s.rd (Pg.rch 0) RCH_RTO_PSE_MAX_MS * 1000000 ≤ s.now .hub) ∧
    (let s := reach Rch.UP (fun r => { r with pause := some (0, 0) })
     s.now .hub < 0 + s.rd (Pg.rch 0) RCH_RTO_PSE_MAX_MS * 1000000) ∧
    (0 < State.reset.hub.rch.length ∧ rchState (reach Rch.UP) 0 ≠ Rch.DISABLED ∧ (getRch (reach Rch.UP) 0).pause = none) ∧
    (let s := tst [(gsiPg 0, GSI_JOB, 7)] (vjob 0 id [{ taped 0 true false with sealed := true }])
     genOfWin s 0 0 = some (gen1 3 1) ∧ s.rd (gsiPg 0) GSI_JOB ≠ 0 ∧ (gen1 3 1).job = s.rd (gsiPg 0) GSI_JOB ∧
     (theWin s (gen1 3 1) 0).sealed = true ∧ (getRch s 0).gsiWin = none ∧
     ((List.range 8).filter (fun i => s.rd (gsiPg 0) GSI_LINE_CFG_ROLE i != 0)).find? (fun i => s.rd (gsiPg 0) GSI_LINE_CFG_ROLE i == 1) = none) ∧
    (let s := State.wr (tst [(gsiPg 0, GSI_JOB, 7)] (vjob 0 id [{ taped 0 true false with sealed := true }])) (gsiPg 0) GSI_LINE_CFG_ROLE 1 2
     ((List.range 8).filter (fun i => s.rd (gsiPg 0) GSI_LINE_CFG_ROLE i != 0)).find? (fun i => s.rd (gsiPg 0) GSI_LINE_CFG_ROLE i == 1) = some 2) := by
  refine ⟨?_, ?_, ?_, ?_, ?_, ?_, ?_⟩ <;> first | decide | (and_intros <;> decide)

def power (f : HPower → HPower) (l : List (Page × Fld × Nat) := []) (ns : Nat := 0) : State :=
  let s := tst l (atTime ns)
  setPower s (f s.hub.power)
def causes (c : HCause) (i : Nat) (p : HPower) : HPower := { p with causes := p.causes.set (i - 1) c }

theorem witness_HubPowerControl_level :
    (let s := power (fun p => { p with bcast := some (5, 2000) }) [] 2000
     s.hub.power.bcast = some (5, 2000) ∧ 2000 ≤ s.now .hub) ∧
    (let s := power (fun p => { p with bcast := some (5, 2000) })
     s.now .hub < 2000) ∧
    (let s := power id [(Pg.hPwr, HPWR_STATUS_LEVEL, 3)]
     targetLevel s ≠ s.rd Pg.hPwr HPWR_STATUS_LEVEL ∧ s.hub.power.bcast = none) ∧
    (let s := power id
     targetLevel (s.wr Pg.hPwr HPWR_STATUS_LEVEL (targetLevel s)) = (s.wr Pg.hPwr HPWR_STATUS_LEVEL (targetLevel s)).rd Pg.hPwr HPWR_STATUS_LEVEL) ∧
    (bit (power fun p => { p with vrEn := 2 }).hub.power.vrEn 1 = true ∧ bit (power id).hub.power.vrEn 1 = false) ∧
    (vrOn (power (fun p => { p with vrEn := 3 }) [(Pg.hPwr, HPWR_VR_ALERT, 1)]) = true ∧ vrOn (power id) = false) ∧
    ((tst [(Pg.hPwr, HPWR_VR_BRD, 1)]).rd Pg.hPwr HPWR_VR_BRD ≠ 0 ∧ State.reset.rd Pg.hPwr HPWR_VR_BRD = 0) ∧
    mayRaise (power (causes { ceil := 20, active := false, low := 0, raised := 0 } 1) [] 100000) 1 = true ∧
    mayRaise (power (causes { ceil := 20, active := false, low := 0, raised := 0 } 4) [] 1000000) 4 = true ∧
    mayRaise (power (causes { ceil := 20, active := false, low := 0, raised := 0 } 5) [] 100000000) 5 = true ∧
    mayRaise (power (causes { ceil := 20, active := false, low := 0, raised := 0 } 6) [(Pg.hPwr, HPWR_TJ_TJ_THR, 95)] 10000000) 6 = true ∧
    mayRaise State.reset 1 = false := by
  refine ⟨?_, ?_, ?_, ?_, ?_, ?_, ?_, ?_, ?_, ?_, ?_, ?_⟩ <;> first | decide | (and_intros <;> decide)

theorem witness_HubPowerControl_rest :
    (let s := tst [(Pg.hPwr, HPWR_TJ_TJ_THR, 95), (Pg.hPwr, HPWR_TJ_TJ_CRIT, 105)]
     let u := s.wr Pg.hPwr HPWR_DIE_STAT_TJ (min 50 255) 3
     diePresent s.cfg 3 = true ∧ 50 < u.rd Pg.hPwr HPWR_TJ_TJ_CRIT ∧ (∀ d < 64, u.rd Pg.hPwr HPWR_DIE_STAT_TJ d < u.rd Pg.hPwr HPWR_TJ_TJ_THR) ∧
     mayRaise u 6 = false) ∧
    State.reset.hub.power.pmb = [] ∧ (power fun p => { p with pmb := [(0x40, 1)] }).hub.power.pmb = [(0x40, 1)] ∧
    State.reset.hub.power.pollAt = none ∧ (power fun p => { p with calAt := some 0 }).hub.power.calAt = some 0 ∧ (32768 ≤ 65536 ∧ 65536 ≤ 131072) ∧
    (let s := tst [(Pg.til 0, TIL_JOB_VALID, 1)]
     s.rd (Pg.til 0) TIL_JOB_VALID = 1 ∧ s.hub.retired.contains 0 = false) ∧ State.reset.rd (Pg.til 0) TIL_JOB_VALID ≠ 1 ∧
    hpwrCheck State.reset HPWR_LOCK.off (b2n true) = 0 ∧ (tst [(Pg.hPwr, HPWR_LOCK, 1)]).rd Pg.hPwr HPWR_LOCK = 1 := by
  refine ⟨?_, ?_, ?_, ?_, ?_, ?_, ?_, ?_, ?_, ?_⟩ <;> first | decide | (and_intros <;> decide)

/-! ### Witnesses: keys, the Bureau, trace, freeze, resets, ports, test pages -/

def hkey (slot kind state until_ : Nat) : HKey := { slot, kind, jslot := 0, job := if kind = 1 then 7 else 0, epoch := 1, val := 9, state, appt := none, until_ }
def withKeys (l : List HKey) (s : State := State.reset) : State := setHKeys s l
def keyOk (x : Except Nat (Nat × Nat)) (i js : Nat) : Bool :=
  match x with
  | .ok y => y == (i, js)
  | .error _ => false

theorem witness_KeyStoreOperations :
    isXD 56 = true ∧ (2063 : BitVec 12).toNat ≤ 2063 ∧ 2063 < (2064 : BitVec 12).toNat ∧ (0 : Word) ≠ 0x5A45524F ∧ Agent.steward ≠ Agent.cabinet ∧
    State.reset.rd (Pg.sec 56) SEC_STAT_ID ≠ 1 ∧ (tst [(Pg.sec 56, SEC_STAT_ID, 1)]).rd (Pg.sec 56) SEC_STAT_ID = 1 ∧ keyAt State.reset 2048 = none ∧
    keyOk (keyPlace (tst [(Pg.ing 56, ING_JOB_ID, 7)]) 1 7 1) 0 0 = true ∧ keyOk (keyPlace (withKeys [hkey 2048 2 2 0]) 2 0 2) 2049 0 = true ∧
    (keyAt (withKeys [hkey 2048 2 3 5] (atTime 5)) 2048 = some (hkey 2048 2 3 5) ∧ (hkey 2048 2 3 5).state = KSt.PREVIOUS ∧
      (hkey 2048 2 3 5).until_ ≤ (withKeys [hkey 2048 2 3 5] (atTime 5)).now .hub) ∧
    (withKeys [hkey 2048 2 3 5] (atTime 4)).now .hub < (hkey 2048 2 3 5).until_ := by and_intros <;> decide

/-- Entries of the Bureau, of a severity. -/
def burEnt (seq sev : Nat) : BurEntry :=
  { seq, sev, prov := false, fw := false, leap := false, host := false, die := 0, blk := 0, inst := 0, code := 0, sec := 0, ns := 0, tgen := 0, tq := 0,
    utcOfs := 0, year := 0, month := 0, day := 0, hour := 0, minute := 0, second := 0, payload := [] }
/-- A Tally-L, whose Bureau store holds 256, full of entries of a severity, one entry waiting. -/
def burFull (n sev wait : Nat) : State :=
  onTally (fun t => { t with burStore := List.replicate n (burEnt 0 sev), burPend := [burEnt 0 wait] }) { State.reset with cfg := ⟨true, false, 0⟩ }
def posted (s : State) : Option BurEntry := (nextPost s .tally).map (·.1)

theorem witness_BureauStoreAndLookups :
    pageBlk State.reset.cfg Pg.tBur = some .bur ∧ 5 < (6 : BitVec 3).toNat ∧ (5 : BitVec 3).toNat ≤ 5 ∧ nextPost State.reset .tally = none ∧
    (posted (burFull 0 2 3) = some (burEnt 0 3) ∧ (burStore (burFull 0 2 3) .tally).length < storeCap (burFull 0 2 3).cfg .tally) ∧
    (storeCap (burFull 256 2 3).cfg .tally ≤ (burStore (burFull 256 2 3) .tally).length ∧
      (burStore (burFull 256 2 3) .tally).find? (fun v => v.sev ≤ 3) = some (burEnt 0 2)) ∧
    (storeCap (burFull 256 4 3).cfg .tally ≤ (burStore (burFull 256 4 3) .tally).length ∧ ∀ v ∈ burStore (burFull 256 4 3) .tally, 3 < v.sev) ∧
    (let s := State.wr (onTally (fun t => { t with burStore := [burEnt 1 2] })) Pg.tBur BUR_RD_STAT_BUSY 1 Agent.steward.code
     s.rd (storePage .tally) BUR_RD_STAT_BUSY Agent.steward.code = 1 ∧
     (burStore s .tally).find? (fun e => s.rd (storePage .tally) BUR_RD_SEQ_LO Agent.steward.code ≤ e.seq) = some (burEnt 1 2)) ∧
    State.reset.rd (storePage .tally) BUR_RD_STAT_BUSY Agent.steward.code ≠ 1 := by
  refine ⟨?_, ?_, ?_, ?_, ?_, ?_, ?_, ?_, ?_⟩ <;> first | decide +kernel | (and_intros <;> decide +kernel)

/-- The trace unit of die 0 of the Hub. -/
def trc (st : Nat) (l : List (Page × Fld × Nat) := []) : State := tst ([(Pg.hTrc 0, TRC_STAT_STATE, st), (Pg.hTrc 0, BLK_CTRL_EN, 1)] ++ l)
def afterArm (s : State) : State :=
  setTrc ((((s.wr (Pg.hTrc 0) TRC_WPTR 0).wr (Pg.hTrc 0) TRC_STAT_WRAPPED 0).wr (Pg.hTrc 0) TRC_STAT_TRIGGERED 0).wr (Pg.hTrc 0) TRC_STAT_TRIG_CMP 0)
    (Pg.hTrc 0) Trc.reset

theorem witness_TraceUnitsAndFreezes_trace :
    (let s := trc TrcSt.IDLE [(Pg.hTrc 0, TRC_BUF_SIZE, 1), (Pg.hTrc 0, TRC_BUF_LO, 0x40000), (Pg.hTrc 0, TRC_BUF_HI, 0x15), (Pg.hTrc 0, TRC_SRC_LO, 1)]
     isTrc s (Pg.hTrc 0) = true ∧ trcState s (Pg.hTrc 0) = TrcSt.IDLE ∧ s.rd (Pg.hTrc 0) BLK_CTRL_EN ≠ 0 ∧
     inRegion s.cfg .chest (trcBase s (Pg.hTrc 0)) (trcBytes s (Pg.hTrc 0)) = true ∧ s.rd (Pg.hTrc 0) TRC_POST * 1024 ≤ trcBytes s (Pg.hTrc 0) ∧
     (∀ i < 32, bit (s.rd (Pg.hTrc 0) TRC_SRC_LO) i = true → i < sourcesOf (Pg.hTrc 0)) ∧ trcHas (afterArm s) (Pg.hTrc 0) 0 = false ∧
     trcBytes (afterArm s) (Pg.hTrc 0) ≠ 0 ∧ trcHas (afterArm (s.wr (Pg.hTrc 0) TRC_CMP_CFG_KIND 1 3)) (Pg.hTrc 0) 0 = true) ∧
    trcState (trc TrcSt.ARMED) (Pg.hTrc 0) = TrcSt.ARMED ∧ trcState (trc TrcSt.HOLD) (Pg.hTrc 0) = TrcSt.HOLD ∧
    trcState (trc TrcSt.RUN) (Pg.hTrc 0) = TrcSt.RUN ∧
    (let s (st a : Nat) := trc st [(Pg.hTrc 0, TRC_CMP_CFG_KIND, 1), (Pg.hTrc 0, TRC_CMP_CFG_ACTION, a), (Pg.hTrc 0, TRC_BUF_SIZE, 1)]
     trcMeets (s 1 0) (Pg.hTrc 0) 0 = true ∧ (s 1 0).rd (Pg.hTrc 0) TRC_CMP_CFG_ACTION 0 = 0 ∧
     trcBytes ((s 1 0).wr (Pg.hTrc 0) TRC_STAT_STATE TrcSt.RUN) (Pg.hTrc 0) ≠ 0 ∧ trcMeets (s 2 1) (Pg.hTrc 0) 0 = true ∧
     (s 2 1).rd (Pg.hTrc 0) TRC_CMP_CFG_ACTION 0 = 1 ∧ (s 2 2).rd (Pg.hTrc 0) TRC_CMP_CFG_ACTION 0 = 2) ∧
    (trc TrcSt.RUN [(Pg.hTrc 0, TRC_STAT_TRIGGERED, 1)]).flag (Pg.hTrc 0) TRC_STAT_TRIGGERED = true ∧ (1 : Nat) ≠ 0 ∧
    ([1] ∈ [[1], [2]] ∧ ∀ p ∈ [[1], [2]], p.length ≤ 64) := by
  refine ⟨?_, ?_, ?_, ?_, ?_, ?_, ?_, ?_⟩ <;> first | decide | (and_intros <;> decide)
theorem witness_TraceUnitsAndFreezes_freeze :
    (let s (a : Nat) := tst [(Pg.hFrz 0, FRZ_STAT_FROZEN, 1), (Pg.hFrz 0, FRZ_CTRL, a), (Pg.hFrz 0, FRZ_DUR, 1), (Pg.hFrz 0, FRZ_LIMIT, 1)] (atTime 1000000)
     pageBlk (s 3).cfg (Pg.hFrz 0) = some .frz ∧ (s 3).rd (Pg.hFrz 0) FRZ_STAT_FROZEN = 1 ∧ (s 3).rd (Pg.hFrz 0) FRZ_CTRL = Frz.TIMED ∧
     (s 1).rd (Pg.hFrz 0) FRZ_CTRL ≠ Frz.TIMED ∧ ofTime96 ((s 3).rd (Pg.hFrz 0) FRZ_T) + (s 3).rd (Pg.hFrz 0) FRZ_DUR * 1000 ≤ (s 3).now .hub ∧
     ofTime96 ((s 3).rd (Pg.hFrz 0) FRZ_T) + (s 3).rd (Pg.hFrz 0) FRZ_LIMIT * 1000000 ≤ (s 3).now .hub) ∧
    (let s := tst [(Pg.hFrz 0, FRZ_STAT_FROZEN, 1), (Pg.hFrz 0, FRZ_CTRL, 3), (Pg.hFrz 0, FRZ_DUR, 1), (Pg.hFrz 0, FRZ_LIMIT, 1)]
     s.now .hub < ofTime96 (s.rd (Pg.hFrz 0) FRZ_T) + s.rd (Pg.hFrz 0) FRZ_DUR * 1000 ∧
     s.now .hub < ofTime96 (s.rd (Pg.hFrz 0) FRZ_T) + s.rd (Pg.hFrz 0) FRZ_LIMIT * 1000000) ∧ State.reset.rd (Pg.hFrz 0) FRZ_STAT_FROZEN = 0 := by
  refine ⟨?_, ?_, ?_⟩ <;> first | decide | (and_intros <;> decide)

def bootIn : BootIn :=
  { qh40 := false, identity := [false, false], inTime := [true, true], voucher := true, minSerial := 0, cabinet := [], config := [], chainLow := false,
    chainNone := false, package := true, steward := true, hbm := true, listOk := true, failTiles := [] }
theorem witness_ResetsOfTheHub : Page.isTally (Pg.tLcs) = true ∧ (Pg.xLcs).isTally = false ∧ packageKeeps (LCS_ROLE_TX_B.key Pg.xLcs 0) = true ∧
    packageKeeps (HPWR_LOCK.key Pg.hPwr 0) = false ∧ bootIn.identity.getD 0 false = false ∧ bootIn.identity.getD 1 false = false := by and_intros <;> decide

def roles (a b : Nat) (l : List (Page × Fld × Nat) := []) (ns : Nat := 0) : State :=
  tst ([(Pg.cab 56, CAB_STATE_ROLE, a), (Pg.cab 57, CAB_STATE_ROLE, b)] ++ l) (atTime ns)
theorem witness_ChainAndComplexes : (0 : BitVec 4) ≠ 1 ∧
    (let s := setCabinet (roles 0 2) { State.reset.hub.cabinet with boot := some bootIn }
     s.hub.cabinet.boot = some bootIn ∧ complexIn s Role.BOOTING = some 56) ∧
    (let s := roles 1 2 [(Pg.cab 56, CAB_STATE_INDEXED, 1), (Pg.cab 56, CAB_STATE_HUB_INDEX, 1)]
     s.hub.cabinet.boot = none ∧ s.rd (Pg.cab 56) CAB_STATE_INDEXED = 1 ∧ (3 : BitVec 4).toNat + 1 ≠ s.rd (Pg.cab 56) CAB_STATE_HUB_INDEX ∧
     (0 : BitVec 4).toNat + 1 = s.rd (Pg.cab 56) CAB_STATE_HUB_INDEX ∧ s.hub.cabinet.chainTx = none ∧ s.hub.cabinet.hbAt = none ∧
     (complexIn s Role.ACTIVE).isSome = true ∧ complexIn s Role.STANDBY = some 57) ∧
    (let s := setCabinet (roles 1 2 [] 10000001) { State.reset.hub.cabinet with hbAt := some 0, chainTx := some 0 }
     s.hub.cabinet.hbAt = some 0 ∧ 0 + 10000001 ≤ s.now .hub ∧ 0 + 1000000 ≤ s.now .hub) ∧ (roles 1 2).now .hub ≤ 0 + 10000000 ∧
    complexIn (roles 1 3) Role.STANDBY = none ∧ Agent.regPort ≠ Agent.cabinet := by
  refine ⟨?_, ?_, ?_, ?_, ?_, ?_, ?_⟩ <;> first | decide | (and_intros <;> decide)

def peer (x : PeerPort) (ns : Nat := 0) : State :=
  onHub (fun h => { h with peers := h.peers.set 1 x, aligned := h.aligned.set 11 true }) (atTime ns)
theorem witness_PeerPortsFollowHellos :
    ((peer ⟨0, 0, none⟩).hub.peers[1]? = some ⟨0, 0, none⟩ ∧ hubSafe (peer ⟨0, 0, none⟩) = false ∧ 1 ≠ ownIndex (peer ⟨0, 0, none⟩) ∧
      (peer ⟨0, 0, none⟩).hub.aligned.getD (10 + 1) false = true ∧ portTest (peer ⟨0, 0, none⟩) (10 + 1) = false ∧ 2 ≠ 1) ∧
    (∀ st : Nat, (peer ⟨st, 0, some 0⟩ 4000000).hub.peers[1]? = some ⟨st, 0, some 0⟩) ∧
    (0 + 4000000 ≤ (peer ⟨1, 0, some 0⟩ 4000000).now .hub ∧ 0 + 1000000 ≤ (peer ⟨1, 0, some 0⟩ 4000000).now .hub) ∧
    (peer ⟨1, 0, none⟩).now .hub < 0 + 4000000 := by
  refine ⟨?_, fun _ => rfl, ?_, ?_⟩ <;> first | decide | (and_intros <;> decide)

def tstPort (l : List (Page × Fld × Nat) := []) : State := tst l
theorem witness_ElectricalTest : pageBlk State.reset.cfg (Pg.tst 56) = some .tst ∧ tstHolds State.reset.cfg 56 (tstSel State.reset 56) = true ∧
    State.reset.rd (Pg.tst 56) TST_GEN_PATTERN (laneKey (tstSel State.reset 56)) = 0 ∧
    (State.reset.wr (Pg.tst 56) TST_GEN_PATTERN 1 (laneKey (tstSel State.reset 56))).rd (Pg.tst 56) TST_GEN_PATTERN (laneKey (tstSel State.reset 56)) ≠ 0 ∧
    tstHolds State.reset.cfg 56 (tstSel (tst [(Pg.tst 56, TST_SEL_KIND, 3)]) 56) = false ∧ tstModeRefusal State.reset 56 .cabinet 0x80000001 = 0 ∧
    tstHolds State.reset.cfg 0 (2, 0, 0) = true ∧
    ((State.reset.wr (Pg.tst 56) TST_CHK_PATTERN 1 (tstKey 0 0 0)).rd (Pg.tst 56) TST_CHK_PATTERN (tstKey 0 0 0) ≠ 0 ∧
      State.reset.rd (Pg.tst 56) TST_CHK_LOCKED (tstKey 0 0 0) = 0 ∧
      (State.reset.wr (Pg.tst 56) TST_CHK_LOCKED 1 (tstKey 0 0 0)).rd (Pg.tst 56) TST_CHK_LOCKED (tstKey 0 0 0) ≠ 0) ∧
    ((across State.reset.cfg 0 0).isSome = true ∧ halfFailed State.reset 0 0 0 = false ∧ halfFailed State.reset 0 0 (1 - 0) = false ∧
      linkWidth State.reset 0 0 = 0 ∧ (linkEnds State.reset.cfg 0 0) ≠ []) := by and_intros <;> decide

/-! ### Witnesses: management -/

def ses1 (operator anon : Bool) (jobs : List Nat := []) (last : Nat := 0) : Session :=
  { id := 1, port := 0, operator, anon, jobs, cert := 4, last, journal := false, bureau := none }
/-- One session, the serving Cabinet at die 56, the session key of the commands CURRENT. -/
def mgmt (x : Session) (c : Cabinet → Cabinet := id) (s : State := atTime 1000000000) : State :=
  let s := tst [(Pg.cab 56, CAB_STATE_ROLE, 1)] s
  let s := withKeys (hkey 2048 2 2 0 :: s.hub.keys) s
  setCabinet s (c { s.hub.cabinet with sessions := [x], nextSession := 2 })
def op1 (c : Cabinet → Cabinet := id) (s : State := atTime 1000000000) : State := mgmt (ses1 true false) c s

theorem witness_ManagementSessions :
    (let s := onHub (fun h => { h with aligned := h.aligned.set 16 true }) (op1)
     s.hub.aligned.getD (16 + 0) false = true ∧ portTest s (16 + 0) = false ∧ hubSafe s = false ∧ (complexIn s Role.ACTIVE).isSome = true ∧
     sessionRoom s true = true ∧ sessionRoom s false = true ∧ [7].length ≤ 16) ∧
    sessionRoom (op1 fun c => { c with sessions := List.replicate 8 (ses1 true false) }) true = false ∧
    sessionRoom (op1 fun c => { c with sessions := List.replicate 56 (ses1 false false) }) false = false ∧
    (let s := tst [(Pg.cab 56, CAB_STATE_ROLE, 3), (Pg.cab 57, CAB_STATE_ROLE, 3), (Pg.sec 56, SEC_STAT_ID, 1)]
     hubSafe s = true ∧ s.rd (Pg.sec 56) SEC_STAT_ID = 1 ∧ sessionRoom s false = true) ∧
    (let s := op1 id (atTime 300000000000)
     findSession s 1 = some (ses1 true false) ∧ (ses1 true false).last + 300000000000 ≤ s.now .hub) ∧
    (op1).now .hub < (ses1 true false).last + 300000000000 ∧ findSession State.reset 1 = none ∧
    (findSession (mgmt (ses1 false false [7])) 1 = some (ses1 false false [7]) ∧ (ses1 false false [7]).operator = false ∧
      (ses1 false false [7]).anon = false ∧ (ses1 false false [7]).jobs.contains 8 = false) ∧ (ses1 false true).anon = true := by
  refine ⟨?_, ?_, ?_, ?_, ?_, ?_, ?_, ?_, ?_⟩ <;> first | decide | (and_intros <;> decide)

theorem witness_ManagementReadsAndSpdm :
    (findSession (op1) 1 = some (ses1 true false) ∧ (ses1 true false).operator = true ∧ (ses1 true false).anon = false) ∧
    (256 < 257 ∧ addrPage (.hub 0x38010000) = .hub 56 0x010 ∧ addrPage (.tally 0x1000) = .tally 1) ∧
    canCommand (modSession (mgmt (ses1 true false) id (atTime 5)) 1 id) = true ∧ canCommand State.reset = false ∧
    (let s := op1 (fun c => { c with journal := [newEntry State.reset 3 0x33 7 1 4 1], energy := [(7, 0, 0), (7, 100000000, 5)] }) (vjob 0)
     jentry s 3 = some (newEntry State.reset 3 0x33 7 1 4 1) ∧ jentry s 4 = none ∧ hjob s 7 = some (hj) ∧ energyAt s 7 0 = some 0 ∧
     energyAt s 7 100000000 = some 5) ∧ (0 % 100000000 = 0 ∧ 0 < 100000000) ∧ 1 % 100000000 ≠ 0 ∧ certOf State.reset 0 = some 0 ∧ certOf State.reset 1 = none ∧
    (setCabinet State.reset { State.reset.hub.cabinet with tlsKey := true }).hub.cabinet.tlsKey = true := by
  refine ⟨?_, ?_, ?_, ?_, ?_, ?_, ?_, ?_, ?_, ?_⟩ <;> first | decide | (and_intros <;> decide)

/-- The state and entry an operation of session 1 is accepted into. -/
def accepted (s : State) (op req job : Nat) : State :=
  replyTo (enterJournal (modSession s 1 (fun x => { x with last := s.now .hub })) op job req 4 1).1 1 op req 0
    (.journalId (journalId s.hub.cabinet.boots s.hub.cabinet.nextId))
def acceptedId (s : State) : Nat := journalId s.hub.cabinet.boots s.hub.cabinet.nextId

/-- A state of the management witnesses accepts an operation, whatever it is. -/
theorem op1_accepts (op job : Nat) : Accepts (op1) 1 op 1 job (accepted (op1) op 1 job) (acceptedId (op1)) :=
  ⟨ses1 true false, by decide, rfl, rfl, by decide, by decide, rfl, rfl⟩
/-- The same beside the job of the verdict witnesses. -/
def opJob (f : HJob → HJob := id) : State := op1 id (tst [(Pg.trs 56, BLK_CTRL_EN, 1)] (vjob 1000000000 f))
theorem opJob_accepts (f : HJob → HJob) (op job : Nat) : Accepts (opJob f) 1 op 1 job (accepted (opJob f) op 1 job) (acceptedId (opJob f)) :=
  ⟨ses1 true false, rfl, rfl, rfl, rfl, by show 0 < 65536; decide, rfl, rfl⟩

def jent (f : JEntry → JEntry := id) : JEntry := f { newEntry State.reset 3 0x22 7 1 4 1 with st := 1 }
def cmdOut (rounds boots : Nat) : CmdOut :=
  { unit := 5, seq := 9, epoch := 1, key := 9, job := 7, cmd := .read 0 0 1, for_ := .step 3 0, rounds, boots, last := 0, answers := [] }

theorem witness_JournalEntriesAndCommitPoint :
    JournalIds (op1).hub.cabinet ∧
    (let s := op1 (fun c => { c with journal := [jent (fun e => { e with req := 1, accepted := 0 })] })
     (repeated s (ses1 true false) 1).isSome = true ∧ jentry s 3 = some (jent (fun e => { e with req := 1, accepted := 0 })) ∧ jentry s 4 = none ∧
     repeated s (ses1 true false) 2 = none) ∧
    ((jent (fun e => { e with cancelled := true })).cancelled = true) ∧
    (let e := jent (fun e => { e with appt := 5000000000, lead := 2000000 })
     let s := op1 (fun c => { c with journal := [e] })
     jentry s 3 = some e ∧ e.final = false ∧ e.appt ≠ 0 ∧ e.cancelled = false ∧ e.committed = false ∧ s.now .hub + e.lead < e.appt) ∧
    (let e := jent (fun e => { e with appt := 1000000001, lead := 2000000 })
     let s := op1 (fun c => { c with journal := [e] })
     jentry s 3 = some e ∧ e.final = false ∧ e.committed = false ∧ e.appt ≤ s.now .hub + e.lead ∧ allArmed (promoteSiteKeys s) e = true) ∧
    (let e := jent (fun e => { e with appt := 1000000000, committed := true })
     let s := op1 (fun c => { c with journal := [e] })
     jentry s 3 = some e ∧ e.final = false ∧ e.committed = true ∧ e.cancelled = false ∧ e.appt ≤ s.now .hub ∧ e.appt ≠ 0 ∧
     (∀ pg ∈ e.pages, isArmed (promoteSiteKeys s) pg = false)) ∧
    (let s := op1 (fun c => { c with cmds := [cmdOut 0 0] })
     findCmd (promoteSiteKeys s) 5 9 = some (cmdOut 0 0) ∧ (cmdOut 0 0).primary = true ∧ (cmdOut 0 0).last + 5000000 ≤ s.now .hub ∧
     canCommand (promoteSiteKeys s) = true ∧ (cmdOut 0 0).rounds < 3) ∧
    (let s := op1 (fun c => { c with cmds := [cmdOut 3 2] }) (atTime 1)
     findCmd (promoteSiteKeys s) 5 9 = some (cmdOut 3 2) ∧ s.now .hub < (cmdOut 3 2).last + 5000000 ∧ 3 ≤ (cmdOut 3 2).rounds ∧ (cmdOut 3 2).boots < 3 ∧
     3 ≤ (cmdOut 3 3).boots) := by
  refine ⟨⟨by decide, [], rfl, List.Pairwise.nil, by simp⟩, ?_, ?_, ?_, ?_, ?_, ?_, ?_⟩ <;> first | decide | (and_intros <;> decide)

/-- A journal full of entries that are not ended. -/
theorem no_room (s : State) (n : Nat) (e : JEntry) (h : s.hub.cabinet.journal = List.replicate n e) (hn : 65536 ≤ n) (f : e.final = false) :
    journalRoom s = none := by
  have g : (List.replicate n e).find? (fun e => e.final && decide (e.ended + 3600000000000 ≤ s.now .hub)) = none := by
    rw [List.find?_eq_none]
    intro x hx
    rw [List.eq_of_mem_replicate hx, f]
    simp
  simp only [journalRoom, h, List.length_replicate, List.reverse_replicate, g]
  rw [if_neg (by omega)]
theorem witness_JournalEntriesAndCommitPoint_full : ∃ n, journalRoom (op1 fun c => { c with journal := List.replicate n (jent) }) = none :=
  ⟨65536, no_room _ 65536 (jent) rfl (Nat.le_refl _) (by decide)⟩

def dpolicy : DPolicy := { every := 0, reportWait := 100, replayWait := 10000, obsH := 24, testS := 60 }
def kpolicy : KPolicy := { overlap := 10000, rollS := 60, powerMask := 0 }
def roster2 (members : List Member) : Roster := { roster1 with job := 8, members }
/-- The checks of a JOB_CREATE of job 8 in slot 0: of the definitions, of the appointment. -/
def createOf (members : List Member) : Nat :=
  createCheck (accepted (op1) 0x20 1 8) { roster2 members with k := 3, gen := 1, epoch := 1 } [] vpolicy dpolicy kpolicy [] 0 0 0

theorem witness_ChangesOfAJob_create :
    Accepts (op1) 1 0x20 1 8 (accepted (op1) 0x20 1 8) (acceptedId (op1)) ∧
    (let v := accepted (op1) 0x20 1 8
     freeJobSlot v = some 0 ∧ leadOfHubs v 8 [0] = 2000000 ∧ otherRosters v 8 1002000000 = [] ∧ sharedKs v 8 1002000000 [5] = [] ∧
     pickAppt v 2000000 [3] none = 1002000000 ∧ apptCheck v 2000000 [3] 1002000000 = 0 ∧ apptCheck v 2000000 [3] 1000000000 ≠ 0 ∧
     apptCheck v 2000000 [3] 1002000001 ≠ 0 ∧ canCommand v = true ∧ anyArmed v jobPages = false) ∧ createOf [member5] = 0 ∧ createOf [] ≠ 0 := by
  refine ⟨op1_accepts 0x20 8, ?_, ?_, ?_⟩ <;> first | decide +kernel | (and_intros <;> decide +kernel)

theorem witness_ChangesOfAJob_changes :
    (∀ op : Nat, Accepts (opJob) 1 op 1 7 (accepted (opJob) op 1 7) (acceptedId (opJob))) ∧
    (let v := accepted (opJob) 0x21 1 7
     let r : Roster := { roster1 with gen := 2, epoch := 2 }
     hjob v 7 = some (hj) ∧ jobNow v (hj) = some (gen1 3 1) ∧ rosterCheck r (otherRosters v 7 1002000000) = 0 ∧
     rosterCheck { r with members := [] } (otherRosters v 7 1002000000) ≠ 0 ∧ r.epoch < 2 ^ 32 ∧ addrsGiven v (winMembers v (gen1 3 1)) r.members [] = true ∧
     polAt (hj).kpol (v.now .hub) = none ∧ canCommand v = true ∧ anyArmed v jobPages = false ∧
     pickAppt v 2000000 [3, 3] none = 1002000000 ∧ apptCheck v 2000000 [3, 3] 1002000000 = 0) ∧
    kpolCheck (opJob) kpolicy (gen1 3 1) = true ∧
    (let v := accepted (opJob) 0x22 1 7
     vpolCheck vpolicy = true ∧ vpolFloor vpolicy (hj) ((servedMembers v (gen1 3 1)).map (·.unit)) = true ∧ dpolCheck dpolicy = true ∧
     kpolCheck v kpolicy (gen1 3 1) = true ∧ apptCheck v 2000000 [3] 1 ≠ 0 ∧ apptCheck v 2000000 [3] 1002000000 = 0) ∧
    hjob (accepted (op1) 0x23 1 9) 9 = none := by
  refine ⟨fun op => opJob_accepts id op 7, ?_, ?_, ?_, ?_⟩ <;> first | decide +kernel | (and_intros <;> decide +kernel)

theorem witness_ChangesOfAJob_delete :
    let v := accepted (qh40 (opJob)) 0x23 1 7
    hjob v 7 = some (hj) ∧ jobNow v (hj) = some (gen1 3 1) ∧ apptCheck v 2000000 [3] 1002000000 = 0 ∧ canCommand v = true ∧
    anyArmed v (jobPages ++ (tileSet v (hj).slot).map Pg.til) = false := by and_intros <;> decide +kernel

/-- An image of R238 for this Hub, and a bind set that opens it. -/
def goodImage : Weaja := { weaja with magic := 0x4A414557, fplan := 400, binding := 1, sections := [{ rank := 0, dest := 0, len := 0, source := 0, data := [] }] }
def goodBind : BindSet := { setId := 1, modelId := 0, devices := [Config.deviceId.toNat], sig := true, unwraps := true }

theorem witness_ChangesOfAJob_image :
    bindCheck { goodBind with setId := 0 } ≠ 0 ∧ bindCheck goodBind = 0 ∧ imageCheck (accepted (opJob) 0x24 1 7) weaja ≠ 0 ∧
    imageCheck (installBind (accepted (opJob) 0x24 1 7) goodBind) goodImage = 0 ∧ (hj).recovery = none ∧ (hj).faultWaits = false ∧
    isPlaced (placeImage (installBind (accepted (opJob) 0x24 1 7) goodBind) (hj) (gen1 3 1) goodImage none) = false ∧
    isPlaced (placeImage (installBind (accepted (opJob) 0x24 1 7) goodBind) (hj) (gen1 3 1) goodImage
      (some { places := [⟨0, 0, 0, 2⟩], check := none, base := 0x1640000, size := 0 })) = true := by
  refine ⟨by decide, rfl, by decide, ?_, by decide, by decide, by decide, by decide⟩
  have h1 : imageRange goodImage = true := by decide
  have h2 : imageSize goodImage = true := by decide
  have h3 : (installBind (accepted (opJob) 0x24 1 7) goodBind).hub.cabinet.binds.find? (fun b => b.setId == goodImage.binding) = some goodBind := rfl
  unfold imageCheck
  rw [h1, h2, h3]
  simp [goodImage, goodBind, weaja]

theorem witness_ChangesOfAJob_roll :
    (let f (j : HJob) : HJob := { j with kpol := [(0, kpolicy)] }
     let s := vjob 60000000000 f
     hjob s 7 = some (hj f) ∧ jobNow s (hj f) = some (gen1 3 1) ∧ polAt (hj f).kpol (s.now .hub) = some kpolicy ∧ kpolicy.rollS * 1000000000 ≠ 0 ∧
     s.hub.cabinet.rolls = [] ∧ 0 + kpolicy.rollS * 1000000000 ≤ s.now .hub ∧ rolling s 7 = false) ∧ polAt (hj).kpol ((vjob 0).now .hub) = none := by
  refine ⟨?_, ?_⟩ <;> first | decide | (and_intros <;> decide)

/-! Orders. -/

/-- Every tile belongs to a job. -/
def allTaken (n : Nat) (s : State) : State := (List.range n).foldl (fun s t => s.wr (Pg.til t) TIL_JOB_VALID 1) s
theorem allTaken_valid (n : Nat) (s : State) : (allTaken n s).cfg = s.cfg ∧ ∀ t < n, (allTaken n s).rd (Pg.til t) TIL_JOB_VALID = 1 := by
  induction n with
  | zero => exact ⟨rfl, fun t h => absurd h (Nat.not_lt_zero t)⟩
  | succ n ih =>
    have e : allTaken (n + 1) s = (allTaken n s).wr (Pg.til n) TIL_JOB_VALID 1 := by simp [allTaken, List.range_succ]
    refine ⟨by rw [e]; exact ih.1, fun t h => ?_⟩
    rw [e]
    by_cases q : t = n
    · subst q
      rw [rd_wr_same]
      rfl
    · have := ih.2 t (by omega)
      rw [rd_wr_page (by intro c; simp [Pg.til] at c; omega)]
      exact this
theorem taken_of (s : State) (n : Nat) (hn : tileCount s.cfg = n) (h : ∀ t < n, s.rd (Pg.til t) TIL_JOB_VALID = 1) :
    anyFreeTile (accepted (op1 id s) 0x32 1 0) = false := by
  have hr : ∀ t, (accepted (op1 id s) 0x32 1 0).rd (Pg.til t) TIL_JOB_VALID = s.rd (Pg.til t) TIL_JOB_VALID := by
    intro t
    rw [accepted, replyTo, rd_send, enterJournal, rd_setCabinet, modSession, setSessions, rd_setCabinet, op1, mgmt, rd_setCabinet]
    exact (rd_congr (s := s.wr (Pg.cab 56) CAB_STATE_ROLE 1) rfl rfl _ _ _).trans (rd_wr_off (by decide))
  have hc : tileCount (accepted (op1 id s) 0x32 1 0).cfg = n := by
    simp only [accepted, replyTo, State.send, enterJournal, setCabinet, modSession, setSessions, op1, mgmt, withKeys, setHKeys, tst, List.foldl, State.wr,
      State.setCell]
    exact hn
  simp only [anyFreeTile, hc, List.any_eq_false, List.mem_range, State.flag]
  intro t ht
  simp [hr, h t ht]
theorem witness_JournalledOrders_taken : ∃ s, anyFreeTile (accepted (op1 id s) 0x32 1 0) = false :=
  have h := allTaken_valid (tileCount State.reset.cfg) State.reset
  ⟨_, taken_of _ _ (congrArg tileCount h.1) h.2⟩

def badKey : List Byte := List.replicate 151 0
/-- A wrapped record of a site key of epoch 1. -/
def keyRecord : List Byte := [2, 0, 0, 0, 0, 0, 0, 0, 0, 0, 0, 1] ++ List.replicate 140 0

theorem witness_JournalledOrders :
    (∀ op job : Nat, Accepts (op1) 1 op 1 job (accepted (op1) op 1 job) (acceptedId (op1))) ∧
    (256 < (List.replicate 257 (0 : Word)).length ∧ addrPage (.hub 0x38010000) = .hub 56 0x010 ∧ addrPage (.tally 0x1000) = .tally 1) ∧
    (let v := accepted (op1) 0x11 1 0
     let w (l : List Nat) := writeHubWords (Pg.til 0) TIL_MBOX_IN.off l (startEntry v (acceptedId (op1)) (fun e => e))
     (w [5]).2.1 = 0 ∧ (w []).2.1 = 0 ∧ canCommand v = true) ∧
    (let v := accepted (op1) 0x30 1 0
     v.now .hub + 2000000 ≤ 1002000000 ∧ anyArmed v ([0].map Pg.hFrz) = false ∧ canCommand v = true ∧ (1002000000 : Nat) < 1003000000 ∧
     1001999999 < v.now .hub + 2000000) ∧
    (siteKey (promoteSiteKeys (accepted (op1) 0x31 1 7)) 3 = none ∧
      siteKey (promoteSiteKeys (withKeys [hkey 2050 3 2 0])) 3 = some (hkey 2050 3 2 0) ∧
      ∀ m < 8, (getTap (op1) m).scan = none ∧ (getTap (op1) m).ready = true ∧ isFrozen (op1) (tapPg m) = false) ∧
    (fieldCheck aField = 0 ∧ anyFreeTile (op1) = true) ∧
    (hjob (accepted (op1) 0x33 1 7) 7 = none ∧ hjob (accepted (opJob) 0x33 1 7) 7 = some (hj)) ∧
    (let v := accepted (op1) 0x34 1 0
     tileCount v.cfg ≤ 1536 ∧ 1535 < tileCount v.cfg ∧ pstate v 1535 ≠ PS.RETIRED ∧
     pstate (v.wr (Pg.til 3) TIL_STAT_PSTATE PS.RETIRED) 3 = PS.RETIRED) ∧
    (let v := accepted (op1) 0x35 1 0
     let r := keyRecord.map (·.toNat)
     r.length = 152 ∧ r.headD 0 = 2 ∧ ofBe ((r.drop 8).take 4) = 1 ∧ apptCheck v 2000000 [] 1 ≠ 0 ∧ apptCheck v 2000000 [] 1002000000 = 0 ∧
     v.isUnset .hub = false) ∧
    (findSession (mgmt (ses1 false true)) 1 = some (ses1 false true) ∧
      repeated (modSession (mgmt (ses1 false true)) 1 (fun x => { x with last := 0 })) (ses1 false true) 1 = none) ∧
    complexIn (accepted (op1) 0x71 1 0) Role.STANDBY = none ∧ complexIn (roles 1 2) Role.STANDBY ≠ none := by
  refine ⟨fun op job => op1_accepts op job, ?_, ?_, ?_, ?_, ?_, ?_, ?_, ?_, ?_, ?_, ?_⟩ <;> first | decide +kernel | (and_intros <;> decide +kernel)
/-- A REG_WRITE that is refused at its first word, and one that is refused after the first. -/
theorem witness_JournalledOrders_refused :
    let v := startEntry (accepted (op1) 0x11 1 0) (acceptedId (op1)) (fun e => e)
    let r := writeHubWords Pg.hPwr 0x048 [1] v
    let p := writeHubWords Pg.hPwr 0x044 [1, 1] v
    (r.2.1 ≠ 0 ∧ r.2.2 = 0) ∧ p.2.1 ≠ 0 ∧ p.2.2 = 1 := by decide +kernel

/-! ### Ill-formed terms: for each check of Instr.wf a term that fails it and no other, refused; its neighbour in range, accepted -/

theorem test_illFormed0_refused : ([
    .registerWrite (.hub 2) .cabinet 0, .synClr (.hub 64 0) .cabinet, .softReset (.hub 64 0) .cabinet, .apptArm (.hub 64 0) .cabinet,
    .apptCancel (.hub 64 0) .cabinet, .apptApply (.hub 64 0), .lcsNowRead (.hub 64 0), .followerCheck 64 0, .ptpMessageRx 14 0 0 0 .signaling,
    .ptpMessageRx 0 0 5440 0 .signaling, .ptpMessageTx 14, .ttExchangeDone 0 0 5440, .pseRise 2, .pseFall 2, .pauseTimeout 2,
    .lockWrite (.hub 64 0) .cabinet true, .stewardStart (.hub 64 0) .cabinet, .stewardVerifyDone (.hub 64 0) true 0 true,
    .stewardHalt (.hub 64 0) .cabinet, .stewardFault (.hub 64 0) 0, .stewardLoadWord (.hub 64 0) .cabinet 0, .prevKeyDiscard 4,
    .qrpFrameRx 10 0 (qFrame 0 1 1 32), .qrpFrameRx 0 5440 (qFrame 0 1 1 32), .recordRx 64 true, .reasmTimeout 64, .digestReportRx 64 0 true,
    .responseRx 64, .sealDeadline 256 0 [] [], .hubAggregateIssue 256 0 true] : List Instr).all (fun i => !i.wf) = true := by decide
theorem test_illFormed1_refused : ([
    .reReductionDone 256 0 true, .mergeLate 256 0, .lateHorizon 256 0 [] [], .aggregateRx 64 (aggFrame 0), .groupAggregateIssue 256 0 true,
    .siteAggregateIssue 256 0 true, .fleetAggregateIssue 256 0 true, .aggregateHoldExpiry 256 0, .dpush 1536 0 0 0, .dtry 1536 0 0 0,
    .dwait 1536 0 0 0, .dpoll 1536 0 0, .tflagsClear 1536 0, .tsleep 1536 0, .teventClear 1536 0, .tdone 1536 0, .tmboxOut 1536 0,
    .sequencerException 1536 0 0 0, .descriptorStart 1536 0, .matmul 1536, .tree 1536, .copy 1536 0 0 [] true, .fence 1536 0, .add 1536, .sub 1536,
    .mul 1536, .fma 1536, .div 1536, .sqrt 1536, .rcp 1536] : List Instr).all (fun i => !i.wf) = true := by decide
theorem test_illFormed2_refused : ([
    .rsqrt 1536, .exp2 1536, .log2 1536, .min 1536, .max 1536, .cmpEq 1536, .cmpNe 1536, .cmpLt 1536, .cmpLe 1536, .abs 1536, .neg 1536, .cvt 1536,
    .cvtFx 1536, .iadd 1536, .isub 1536, .imulLo 1536, .imulHi 1536, .imuluHi 1536, .shl 1536, .shr 1536, .sra 1536, .and 1536, .or 1536, .xor 1536,
    .imin 1536, .imax 1536, .icmp 1536, .descriptorComplete 1536 0, .queueFlush 1536 .cabinet 0, .wake 1536 .cabinet] : List Instr).all (fun i => !i.wf) = true := by decide
theorem test_illFormed3_refused : ([
    .gate 1536 .cabinet, .park 1536 .cabinet, .tileSleepEntered 1536, .tileWakeDone 1536, .seqStart 1536 .cabinet, .seqHalt 1536 .cabinet,
    .tileRetire 1536 .cabinet, .mboxInWrite 1536 .cabinet 0, .scheduledWake 1536, .activeInstant 1536, .verdictAssembly 256 0,
    .verdictIssue 256 0 0 [] [], .verdictAbandon 256 0, .checkWindow 256 0 none [], .selftestChunk 1536 true, .partitionRecovery 4294967296 none none,
    .tapeWindow 256 0 [], .blockCompressDone 8 0 0 [], .scanStart 8 .cabinet 0, .scanAbort 8 .cabinet 0, .scanDeliver 8 0 true true, .scanTimeout 8,
    .patrol 8 [] [], .tapRecoveryDone 8, .errorInject 8 .cabinet 0, .engineEnableWrite (.hub 64 0) .cabinet 0, .reportWaitExpiry 4294967296 0,
    .dpartialRx 64 (dpart 0 0 0), .outcomeWaitExpiry 4294967296 0, .replayWaitExpiry 4294967296] : List Instr).all (fun i => !i.wf) = true := by decide
theorem test_illFormed4_refused : ([
    .replayExpired 4294967296, .observationEnd 4294967296 0, .observationEnd 0 16777216, .reachHelloTx 2, .reachHello 2 true 0 0 0 0, .helloLoss 2,
    .dataTx 2, .data 2 0 (rdata 1 1), .data 0 5440 (rdata 1 1), .rxDeliver 2,
    .ack 2 true { cum := 0, credit := 0, echo := 0, hold := 0, blocks := [] }, .ackTx 2, .rtoExpiry 2 0, .sessionReset 2, .frameAbandon 2,
    .gsiUpdate 2 0 0, .gsiUpdate 0 256 0, .peerHelloTx 4, .peerHello 4 0 0 0, .peerHelloLoss 4, .vrAlert 8, .boardThrottle 2, .ceilingRaise 0,
    .ceilingRaise 7, .thermalReading 64 0, .install 64 .cabinet, .erase 64 .cabinet 0, .zeroize 64 .cabinet 0, .keyDiscard 2064, .keyRoll 4294967296] : List Instr).all (fun i => !i.wf) = true := by decide
theorem test_illFormed5_refused : ([
    .mgmtSessionOpen 2 true true none 0, .getCertificate 0 0 256, .challenge 0 0 256 0, .setCertificate 0 0 256 0,
    .firmwarePost (.hub 64 0) .cabinet 0 0, .traceArm (.hub 64 0) .cabinet, .traceStop (.hub 64 0) .cabinet, .traceClear (.hub 64 0) .cabinet,
    .traceComparator (.hub 64 0) 0, .traceOverflow (.hub 64 0) 0 [], .timedRelease (.hub 64 0), .autoRelease (.hub 64 0),
    .cabSwitchover 64 .cabinet 0 true, .resetPkg 64 .cabinet 0 bootIn, .responseTimeout 16777216 0, .regRead 0 0 (.hub 2) 0 0,
    .regRead 0 0 (.hub 0) 16777216 0, .regWrite 0 0 (.hub 2) 0 [], .regWrite 0 0 (.hub 0) 16777216 [],
    .jobCreate 0 0 4294967296 roster1 0 vpolicy dpolicy kpolicy [] 0 0 none, .rosterChange 0 0 4294967296 roster1 [] none,
    .policySet 0 0 4294967296 none none none none, .jobDelete 0 0 4294967296 none, .imageLoad 0 0 4294967296 weaja none none,
    .scanExport 0 0 0 4294967296 0 0 [] 0, .obsClear 0 0 4294967296 0, .obsClear 0 0 0 16777216, .verdictsGet 0 0 4294967296 0 0,
    .summaryGet 0 0 4294967296 0 0, .energyGet 0 0 4294967296 0 0] : List Instr).all (fun i => !i.wf) = true := by decide
theorem test_illFormed6_refused : ([
    .tstModeWrite 64 .cabinet 0, .inject 64 .cabinet, .clear 64 .cabinet, .halfFail 64 0 0, .halfFail 0 4 0, .halfFail 0 0 2,
    .checkerLocked 64 0 0 0, .checkerLocked 0 0 0 64, .lockLost 64 0 0 0 0, .lockLost 0 0 0 64 0, .traceLineWrite (.hub 64 0) [],
    .ttExchangeRx 2 0 0, .ttExchangeRx 0 5440 0, .vrAlertDeassert 8, .boardThrottleDeassert 2, .laneAlignment 18 true 0,
    .partitionRecoveryDone 4294967296] : List Instr).all (fun i => !i.wf) = true := by decide
theorem test_wellFormed0_accepted : ([
    .registerWrite (.hub 0) .cabinet 0, .synClr Pg.tLcs .cabinet, .softReset Pg.tLcs .cabinet, .apptArm Pg.tLcs .cabinet,
    .apptCancel Pg.tLcs .cabinet, .apptApply Pg.tLcs, .lcsNowRead Pg.tLcs, .followerCheck 0 0, .followerCheck 63 0, .ptpMessageRx 0 0 0 0 .signaling,
    .ptpMessageRx 13 0 0 0 .signaling, .ptpMessageRx 0 0 5439 0 .signaling, .ptpMessageTx 0, .ptpMessageTx 13, .ttExchangeDone 0 0 0,
    .ttExchangeDone 0 0 5439, .pseRise 0, .pseRise 1, .pseFall 0, .pseFall 1, .pauseTimeout 0, .pauseTimeout 1, .lockWrite Pg.tLcs .cabinet true,
    .stewardStart Pg.tLcs .cabinet, .stewardVerifyDone Pg.tLcs true 0 true, .stewardHalt Pg.tLcs .cabinet, .stewardFault Pg.tLcs 0,
    .stewardLoadWord Pg.tLcs .cabinet 0, .prevKeyDiscard 0, .prevKeyDiscard 3] : List Instr).all Instr.wf = true := by decide
theorem test_wellFormed1_accepted : ([
    .qrpFrameRx 0 0 (qFrame 0 1 1 32), .qrpFrameRx 9 0 (qFrame 0 1 1 32), .qrpFrameRx 0 5439 (qFrame 0 1 1 32), .recordRx 0 true, .recordRx 63 true,
    .reasmTimeout 0, .reasmTimeout 63, .digestReportRx 0 0 true, .digestReportRx 63 0 true, .responseRx 0, .responseRx 63, .sealDeadline 0 0 [] [],
    .sealDeadline 255 0 [] [], .hubAggregateIssue 0 0 true, .hubAggregateIssue 255 0 true, .reReductionDone 0 0 true, .reReductionDone 255 0 true,
    .mergeLate 0 0, .mergeLate 255 0, .lateHorizon 0 0 [] [], .lateHorizon 255 0 [] [], .aggregateRx 0 (aggFrame 0), .aggregateRx 63 (aggFrame 0),
    .groupAggregateIssue 0 0 true, .groupAggregateIssue 255 0 true, .siteAggregateIssue 0 0 true, .siteAggregateIssue 255 0 true,
    .fleetAggregateIssue 0 0 true, .fleetAggregateIssue 255 0 true, .aggregateHoldExpiry 0 0] : List Instr).all Instr.wf = true := by decide
theorem test_wellFormed2_accepted : ([
    .aggregateHoldExpiry 255 0, .dpush 0 0 0 0, .dpush 1535 0 0 0, .dtry 0 0 0 0, .dtry 1535 0 0 0, .dwait 0 0 0 0, .dwait 1535 0 0 0, .dpoll 0 0 0,
    .dpoll 1535 0 0, .tflagsClear 0 0, .tflagsClear 1535 0, .tsleep 0 0, .tsleep 1535 0, .teventClear 0 0, .teventClear 1535 0, .tdone 0 0,
    .tdone 1535 0, .tmboxOut 0 0, .tmboxOut 1535 0, .sequencerException 0 0 0 0, .sequencerException 1535 0 0 0, .descriptorStart 0 0,
    .descriptorStart 1535 0, .matmul 0, .matmul 1535, .tree 0, .tree 1535, .copy 0 0 0 [] true, .copy 1535 0 0 [] true, .fence 0 0] : List Instr).all Instr.wf = true := by decide
theorem test_wellFormed3_accepted : ([
    .fence 1535 0, .add 0, .add 1535, .sub 0, .sub 1535, .mul 0, .mul 1535, .fma 0, .fma 1535, .div 0, .div 1535, .sqrt 0, .sqrt 1535, .rcp 0,
    .rcp 1535, .rsqrt 0, .rsqrt 1535, .exp2 0, .exp2 1535, .log2 0, .log2 1535, .min 0, .min 1535, .max 0, .max 1535, .cmpEq 0, .cmpEq 1535,
    .cmpNe 0, .cmpNe 1535, .cmpLt 0] : List Instr).all Instr.wf = true := by decide
theorem test_wellFormed4_accepted : ([
    .cmpLt 1535, .cmpLe 0, .cmpLe 1535, .abs 0, .abs 1535, .neg 0, .neg 1535, .cvt 0, .cvt 1535, .cvtFx 0, .cvtFx 1535, .iadd 0, .iadd 1535, .isub 0,
    .isub 1535, .imulLo 0, .imulLo 1535, .imulHi 0, .imulHi 1535, .imuluHi 0, .imuluHi 1535, .shl 0, .shl 1535, .shr 0, .shr 1535, .sra 0, .sra 1535,
    .and 0, .and 1535, .or 0] : List Instr).all Instr.wf = true := by decide
theorem test_wellFormed5_accepted : ([
    .or 1535, .xor 0, .xor 1535, .imin 0, .imin 1535, .imax 0, .imax 1535, .icmp 0, .icmp 1535, .descriptorComplete 0 0, .descriptorComplete 1535 0,
    .queueFlush 0 .cabinet 0, .queueFlush 1535 .cabinet 0, .wake 0 .cabinet, .wake 1535 .cabinet, .gate 0 .cabinet, .gate 1535 .cabinet,
    .park 0 .cabinet, .park 1535 .cabinet, .tileSleepEntered 0, .tileSleepEntered 1535, .tileWakeDone 0, .tileWakeDone 1535, .seqStart 0 .cabinet,
    .seqStart 1535 .cabinet, .seqHalt 0 .cabinet, .seqHalt 1535 .cabinet, .tileRetire 0 .cabinet, .tileRetire 1535 .cabinet,
    .mboxInWrite 0 .cabinet 0] : List Instr).all Instr.wf = true := by decide
theorem test_wellFormed6_accepted : ([
    .mboxInWrite 1535 .cabinet 0, .scheduledWake 0, .scheduledWake 1535, .activeInstant 0, .activeInstant 1535, .verdictAssembly 0 0,
    .verdictAssembly 255 0, .verdictIssue 0 0 0 [] [], .verdictIssue 255 0 0 [] [], .verdictAbandon 0 0, .verdictAbandon 255 0, .checkWindow 0 0 none [],
    .checkWindow 255 0 none [], .selftestChunk 0 true, .selftestChunk 1535 true, .partitionRecovery 0 none none, .partitionRecovery 4294967295 none none,
    .tapeWindow 0 0 [], .tapeWindow 255 0 [], .blockCompressDone 0 0 0 [], .blockCompressDone 7 0 0 [], .scanStart 0 .cabinet 0,
    .scanStart 7 .cabinet 0, .scanAbort 0 .cabinet 0, .scanAbort 7 .cabinet 0, .scanDeliver 0 0 true true, .scanDeliver 7 0 true true,
    .scanTimeout 0, .scanTimeout 7, .patrol 0 [] []] : List Instr).all Instr.wf = true := by decide
theorem test_wellFormed7_accepted : ([
    .patrol 7 [] [], .tapRecoveryDone 0, .tapRecoveryDone 7, .errorInject 0 .cabinet 0, .errorInject 7 .cabinet 0,
    .engineEnableWrite Pg.tLcs .cabinet 0, .reportWaitExpiry 0 0, .reportWaitExpiry 4294967295 0, .dpartialRx 0 (dpart 0 0 0),
    .dpartialRx 63 (dpart 0 0 0), .outcomeWaitExpiry 0 0, .outcomeWaitExpiry 4294967295 0, .replayWaitExpiry 0, .replayWaitExpiry 4294967295,
    .replayExpired 0, .replayExpired 4294967295, .observationEnd 0 0, .observationEnd 4294967295 0, .observationEnd 0 16777215, .reachHelloTx 0,
    .reachHelloTx 1, .reachHello 0 true 0 0 0 0, .reachHello 1 true 0 0 0 0, .helloLoss 0, .helloLoss 1, .dataTx 0, .dataTx 1, .data 0 0 (rdata 1 1),
    .data 1 0 (rdata 1 1), .data 0 5439 (rdata 1 1)] : List Instr).all Instr.wf = true := by decide
theorem test_wellFormed8_accepted : ([
    .rxDeliver 0, .rxDeliver 1, .ack 0 true { cum := 0, credit := 0, echo := 0, hold := 0, blocks := [] },
    .ack 1 true { cum := 0, credit := 0, echo := 0, hold := 0, blocks := [] }, .ackTx 0, .ackTx 1, .rtoExpiry 0 0, .rtoExpiry 1 0, .sessionReset 0,
    .sessionReset 1, .frameAbandon 0, .frameAbandon 1, .gsiUpdate 0 0 0, .gsiUpdate 1 0 0, .gsiUpdate 0 255 0, .peerHelloTx 0, .peerHelloTx 3,
    .peerHello 0 0 0 0, .peerHello 3 0 0 0, .peerHelloLoss 0, .peerHelloLoss 3, .vrAlert 0, .vrAlert 7, .boardThrottle 0, .boardThrottle 1,
    .ceilingRaise 1, .ceilingRaise 6, .thermalReading 0 0, .thermalReading 63 0, .install 0 .cabinet] : List Instr).all Instr.wf = true := by decide
theorem test_wellFormed9_accepted : ([
    .install 63 .cabinet, .erase 0 .cabinet 0, .erase 63 .cabinet 0, .zeroize 0 .cabinet 0, .zeroize 63 .cabinet 0, .keyDiscard 0, .keyDiscard 2063,
    .keyRoll 0, .keyRoll 4294967295, .mgmtSessionOpen 0 true true none 0, .mgmtSessionOpen 1 true true none 0, .getCertificate 0 0 0,
    .getCertificate 0 0 255, .challenge 0 0 0 0, .challenge 0 0 255 0, .setCertificate 0 0 0 0, .setCertificate 0 0 255 0,
    .firmwarePost Pg.tLcs .cabinet 0 0, .traceArm Pg.tLcs .cabinet, .traceStop Pg.tLcs .cabinet, .traceClear Pg.tLcs .cabinet,
    .traceComparator Pg.tLcs 0, .traceOverflow Pg.tLcs 0 [], .timedRelease Pg.tLcs, .autoRelease Pg.tLcs, .cabSwitchover 0 .cabinet 0 true,
    .cabSwitchover 63 .cabinet 0 true, .resetPkg 0 .cabinet 0 bootIn, .resetPkg 63 .cabinet 0 bootIn, .responseTimeout 0 0] : List Instr).all Instr.wf = true := by decide
theorem test_wellFormed10_accepted : ([
    .responseTimeout 16777215 0, .regRead 0 0 (.hub 0) 0 0, .regRead 0 0 (.hub 0) 16777215 0, .regWrite 0 0 (.hub 0) 0 [],
    .regWrite 0 0 (.hub 0) 16777215 [], .jobCreate 0 0 0 roster1 0 vpolicy dpolicy kpolicy [] 0 0 none,
    .jobCreate 0 0 4294967295 roster1 0 vpolicy dpolicy kpolicy [] 0 0 none, .rosterChange 0 0 0 roster1 [] none,
    .rosterChange 0 0 4294967295 roster1 [] none, .policySet 0 0 0 none none none none, .policySet 0 0 4294967295 none none none none,
    .jobDelete 0 0 0 none, .jobDelete 0 0 4294967295 none, .imageLoad 0 0 0 weaja none none, .imageLoad 0 0 4294967295 weaja none none,
    .scanExport 0 0 0 0 0 0 [] 0, .scanExport 0 0 0 4294967295 0 0 [] 0, .obsClear 0 0 0 0, .obsClear 0 0 4294967295 0, .obsClear 0 0 0 16777215,
    .verdictsGet 0 0 0 0 0, .verdictsGet 0 0 4294967295 0 0, .summaryGet 0 0 0 0 0, .summaryGet 0 0 4294967295 0 0, .energyGet 0 0 0 0 0,
    .energyGet 0 0 4294967295 0 0, .tstModeWrite 0 .cabinet 0, .tstModeWrite 63 .cabinet 0, .inject 0 .cabinet, .inject 63 .cabinet] : List Instr).all Instr.wf = true := by decide
theorem test_wellFormed11_accepted : ([
    .clear 0 .cabinet, .clear 63 .cabinet, .halfFail 0 0 0, .halfFail 63 0 0, .halfFail 0 3 0, .halfFail 0 0 1, .checkerLocked 0 0 0 0,
    .checkerLocked 63 0 0 0, .checkerLocked 0 0 0 63, .lockLost 0 0 0 0 0, .lockLost 63 0 0 0 0, .lockLost 0 0 0 63 0, .traceLineWrite Pg.tLcs [],
    .ttExchangeRx 0 0 0, .ttExchangeRx 1 0 0, .ttExchangeRx 0 5439 0, .vrAlertDeassert 0, .vrAlertDeassert 7, .boardThrottleDeassert 0,
    .boardThrottleDeassert 1, .laneAlignment 0 true 0, .laneAlignment 17 true 0, .partitionRecoveryDone 0, .partitionRecoveryDone 4294967295] : List Instr).all Instr.wf = true := by decide
theorem test_hub_page_out_of_range : (Instr.synClr (.hub 0 4096) .cabinet).wf = false ∧ (Instr.synClr (.tally 64) .cabinet).wf = false ∧
    (Instr.registerWrite (.tally 1) .cabinet 0).wf = false := by decide

/-! ### Tests: the spec's worked examples and single commands. Expected values are the spec's own, or hand calculation from its rules. -/

/-! Addresses (01_conventions.md, "Worked address"; 09, R256; 10, R280; 11, R305; 19, "Worked half-width test"). -/
theorem test_worked_address : addrPage (.hub 0x3B01502C) = .hub 59 0x015 ∧ addrOff (.hub 0x3B01502C) = 0x02C ∧ addrPage (.hub 0x1F048000) = Pg.til 1000 ∧
    addrPage (.hub 0x1F068000) = Pg.hut 1000 ∧ addrPage (.hub 0x30030000) = Pg.mem 48 ∧ addrPage (.hub 0x0A019040) = Pg.tst 10 := by decide

/-- 06, "Worked discovery": BLK_ID of a present die, of an absent one on a QH-40, and the ABSENT it records. -/
theorem test_worked_discovery : (busRead State.reset (.hub 0 0x010) 0 .cabinet).2 = 0x00100010 ∧
    (busRead (qh40 State.reset) (.hub 24 0x010) 0 .cabinet).2 = 0 := by decide

/-- R28: a hot-set count of 512 is refused with SIZE on a Tally-L and accepted on a Tally-F. -/
theorem test_hot_count_512 :
    (writeCode { State.reset with cfg := ⟨true, false, 0⟩ } Pg.hot (HOT_COUNT.off + 0x800) .regPort 512).2 = Syn.SIZE ∧
    (writeCode State.reset Pg.hot (HOT_COUNT.off + 0x800) .regPort 512).2 = 0 := by decide

/-- R92 (LCS_HOLD on a Tally), R123 (HOT_WIN on a Tally-L): what is written to bits reserved on the part is ignored. -/
theorem test_reserved_on_the_part :
    (busRead (writeCode State.reset (Pg.tLcs) 0x074 .regPort 0x64FFFF).1 Pg.tLcs 0x074 .regPort).2 = 0x640000 ∧
    (let l : State := { State.reset with cfg := ⟨true, false, 0⟩ }
     (busRead (writeCode l Pg.hot 0x850 .regPort 0x3245).1 Pg.hot 0x850 .regPort).2 = 5 ∧ (busRead l Pg.hot 0x050 .regPort).2 = 3) := by decide

/-! Windows (02_fleet_and_window.md, "Worked index"). -/
theorem test_worked_index : windowIndex 3 1786000001000000000 = 1786000001000 ∧ isBoundary 3 1786000001000000000 = true ∧
    windowIndex 13 1786000001000000000 = 1744140625 ∧ isBoundary 13 1786000001000000000 = false ∧ windowStart 1744140625 13 = 1786000000000000000 ∧
    windowEnd 1744140625 13 = 1786000001024000000 ∧ boundaryAt 13 1786000001000000001 = 1786000001024000000 := by decide

/-! Appointments (R22–R26; "Worked appointment"). -/
def lateArm (t ns : Nat) : State := tst [(Pg.shp, BLK_APPT_TIME_NS, t % 1000000000), (Pg.shp, BLK_APPT_TIME_SLO, t / 1000000000)] (atTime ns)
theorem test_arm_to_come : after (.apptArm Pg.shp .regPort) (lateArm 1786000001000000000 1786000000250004000)
    (fun t => t.rd Pg.shp BLK_APPT_CTRL_STATE == 1) = true := by decide
theorem test_arm_past_is_refused : after (.apptArm Pg.shp .regPort) (lateArm 1786000001000000000 1786000001000000800)
    (fun t => t.rd Pg.shp BLK_APPT_CTRL_STATE == 3 && t.rd Pg.shp BLK_SYNDROME_CODE == Syn.LATE) = true := by decide
theorem test_appointment_applies : after (.apptApply Pg.shp)
    (tst [(Pg.shp, BLK_APPT_CTRL_STATE, 1), (Pg.shp, SHP_OVH.staged, 24)] (lateArm 1786000001000000000 1786000001000000000))
    (fun t => t.rd Pg.shp SHP_OVH == 24 && t.rd Pg.shp BLK_APPT_CTRL_APPLIED_CNT == 1) = true := by decide +kernel
theorem test_appointment_waits : after (.apptApply Pg.shp)
    (tst [(Pg.shp, BLK_APPT_CTRL_STATE, 1), (Pg.shp, SHP_OVH.staged, 24)] (lateArm 1786000001000000000 1786000000999999996))
    (fun t => t.rd Pg.shp SHP_OVH == 20) = true := by decide

/-! The Longcase: a STEP in UNSET sets the time (R62); the exchange of "Worked re-route", whose offset is +0.9 ns. -/
theorem test_step_sets_the_time : after (.lcsStep .hub .cabinet) (tst [(Pg.xLcs, LCS_CTRL_AUTO_STEP, 0), (Pg.xLcs, LCS_STEP_SLO, 5), (Pg.xLcs, LCS_STEP_NS, 7)])
    (fun t => t.hub.lcs.ns == 5000000007) = true := by decide

/-! Tally: energies ("Worked split"), the record of "Worked egress sizing". -/
theorem test_worked_split : shares 800000032000000 [(0, 200000000), (1, 200000000), (16, 200000000)] =
    [(0, 266666677333333), (1, 266666677333333), (16, 266666677333333)] ∧ 800000032000000 - sumSnd (shares 800000032000000 [(0, 200000000), (1, 200000000),
      (16, 200000000)]) = 1 := by decide
def egressRec : WinRec :=
  { slot := 0, job := 7, k := 0, win := 0, start := 0, stop := 125000, snapshot := false, hot := List.replicate 384 1 ++ List.replicate 128 0, slow := [],
    gauges := List.replicate 8 (0, 0, 0, 0), marks := List.replicate 12 { kind := 0, slot := 0, id := 0, tag := 0, step := 0, time := 0 }, markDrops := 0,
    owned := [0, 1, 2, 3], shares := [], total := 0, unattr := 0, res := [0, 0, 0, 0, 0], tgen := 0, tq := 0, epoch := 1, dst := [] }
theorem test_worked_egress_plaintext : (recordPlain false true egressRec 0).length = 2544 := by decide +kernel
theorem test_worked_egress_frames : segLens 2560 1420 = [1420, 1140] ∧ { egFrame with len := 1420 }.bytes = 1522 ∧ { egFrame with len := 1140 }.bytes = 1242 ∧
    counted State.reset { egFrame with len := 1420 } = 1542 ∧ counted State.reset { egFrame with len := 1140 } = 1262 := by decide

/-- R109: a STEP mark counts the slot's steps. -/
theorem test_step_mark : after (.stepMark .regPort 0 1 5 9) (State.wr (tst [(Pg.hot, HOT_JOB 1, 7), (Pg.tly, TLY_UNIT_LOCKED, 1)] (atTime 1000)) Pg.stp (STP_STEP 1) 41)
    (fun t => t.rd Pg.stp (STP_STEP 1) == 42) = true := by decide

/-! Digests ("Worked two-replica mismatch"): the term of a difference of 16 in each lane, k2 zero. -/
theorem test_worked_digest_terms : dgsTerm (0x00000123456789AB, 0) 0x0003000000100000 16 = 0x0030123457789AB0 ∧
    dgsTerm (0x00000ABCDEF01357, 0) 0x0003000000100000 16 = 0x0030ABCDEE013570 ∧ (0x0A3C5E217F049B12 + 0x0030123457789AB0) % dgsP = 0x0A6C7055D67D35C2 ∧
    binOf 15 0x0003000000100000 = 0x0003000000000020 := by decide

/-! Reduction (07, "Worked three-die reduction"). -/
def wattField : TField := { src := 3, sum := true, ext := true, hist := true, mkind := 0, index := 2, shift := 24, bias := 0 }
def rev0 : FState := addValue wattField 1 (addValue wattField 1 (FState.empty 3) 13631488000 false 0x1203 0) 13258194944 false 0x1204 0
def rev1 : FState := addValue wattField 1 rev0 13631488000 false 0x2A00 0
theorem test_worked_reduction : rev0.sum = 26889682944 ∧ rev0.count = 2 ∧ rev0.minU = 0x1204 ∧ rev0.maxU = 0x1203 ∧ median wattField rev0 0 = some 13153337344 ∧
    rev1.sum = 40521170944 ∧ rev1.maxU = 0x1203 ∧ histGet rev1.hist 60 = 3 ∧ median wattField rev1 0 = some 13421772800 := by decide +kernel

/-! Tile arithmetic (08, "Worked stochastic rounding", "Worked MX block"). -/
def bytesAt (a : Nat) (l : List Nat) (x : Tile) : Tile := x.write a (l.map (fun b => (b, false)))
def words32 (l : List Nat) : List Nat := l.flatMap (leBytes 4)
def cvtDesc (arith seed n : Nat) : TDesc := tdesc 1 [0x02000000, 0, 0, arith, seed, 0x13, 0, 0, 0, 0x400, n, 0, 0, 0x800]
def cvt (arith seed : Nat) (src : List Nat) : State := running 1 (cvtDesc arith seed src.length) [] (bytesAt 0 (words32 src))
def flagsOf (s : State) : List Nat := (List.range 5).map (fun i => s.rd (Pg.til 0) (flagFld i))
theorem test_worked_stochastic_rounding : after (.cvt 0) (cvt 0x00410000 1 [0x3F866666])
    (fun t => le (getTile t 0) 0x400 1 == 0x39 && flagsOf t == [1, 0, 0, 0, 0]) = true := by decide +kernel
theorem test_worked_nearest_even : after (.cvt 0) (cvt 0x00400000 0 [0x3F866666]) (fun t => le (getTile t 0) 0x400 1 == 0x38) = true := by decide +kernel
theorem test_worked_mx_block : after (.cvt 0) (cvt 0x00420000 0 ([0x447A0000, 0x3E99999A, 0x3C4985F0, 0x40880000] ++ List.replicate 28 0))
    (fun t => memReadN (getTile t 0).sram 0x400 5 == [0x7E, 0x22, 0x03, 0x40, 0x00] && le (getTile t 0) 0x800 1 == 0x80 && flagsOf t == [1, 1, 0, 1, 0]) = true := by
  decide +kernel

/-- A vector operation on FP32 lanes (or words), its sources at 0x100, 0x200 and 0x300, its destination at 0x400. -/
def vecOp (vop arith : Nat) (a b c : Nat) : State :=
  running 1 (tdesc 1 [0x02000000, 0, 0, arith, 0, vop, 0x100, 0x200, 0x300, 0x400, 1]) []
    (fun x => bytesAt 0x300 (leBytes 4 c) (bytesAt 0x200 (leBytes 4 b) (bytesAt 0x100 (leBytes 4 a) x)))
def out32 (t : State) : Nat := le (getTile t 0) 0x400 4
/-- 1 + 2; 1/3 rounded to nearest; the square root of 2; 2^3; log2 8; 1.5 × 2 + 0.25. -/
theorem test_add : after (.add 0) (vecOp 1 0 0x3F800000 0x40000000 0) (fun t => out32 t == 0x40400000) = true := by decide +kernel
theorem test_div : after (.div 0) (vecOp 5 0 0x3F800000 0x40400000 0) (fun t => out32 t == 0x3EAAAAAB && flagsOf t == [1, 0, 0, 0, 0]) = true := by decide +kernel
theorem test_sqrt : after (.sqrt 0) (vecOp 6 0 0x40000000 0 0) (fun t => out32 t == 0x3FB504F3) = true := by decide +kernel
theorem test_exp2 : after (.exp2 0) (vecOp 9 0 0x40400000 0 0) (fun t => out32 t == 0x41000000 && flagsOf t == [0, 0, 0, 0, 0]) = true := by decide +kernel
theorem test_log2 : after (.log2 0) (vecOp 10 0 0x41000000 0 0) (fun t => out32 t == 0x40400000) = true := by decide +kernel
theorem test_fma : after (.fma 0) (vecOp 4 0 0x3FC00000 0x40000000 0x3E800000) (fun t => out32 t == 0x40500000) = true := by decide +kernel
/-- -1 × 2 as signed high word; -8 shifted right by 1 keeps the sign; a shift by 33 is one by 1. -/
theorem test_imul_hi : after (.imulHi 0) (vecOp 0x23 0xBBB00000 0xFFFFFFFF 2 0) (fun t => out32 t == 0xFFFFFFFF) = true := by decide +kernel
theorem test_sra : after (.sra 0) (vecOp 0x27 0xBBB00000 0xFFFFFFF8 1 0) (fun t => out32 t == 0xFFFFFFFC) = true := by decide +kernel
theorem test_shl_modulo_32 : after (.shl 0) (vecOp 0x25 0xBBB00000 3 33 0) (fun t => out32 t == 6) = true := by decide +kernel
/-- 1.5 × 4 + 2 × 0.5 = 7 in FP32. -/
theorem test_matmul : after (.matmul 0) (running 0 (tdesc 1 [0x01000000, 0, 0, 0, 0, 0, 0x100, 0, 0x400, 0x10001, 2]) []
    (fun x => bytesAt 0x100 (words32 [0x40800000, 0x3F000000]) (bytesAt 0 (words32 [0x3FC00000, 0x40000000]) x))) (fun t => out32 t == 0x40E00000) = true := by
  decide +kernel
/-- A COPY of one row of 4 bytes from 0x100 to 0x400 of the tile's own SRAM. -/
theorem test_copy : after (.copy 0 0 0 [] false) (running 3 (tdesc 1 [0x04000000, 0, 0, 0, 0, 0x100, 0, 0x400, 0, 4, 1]) []
    (bytesAt 0x100 [1, 2, 3, 4, 5])) (fun t => memReadN (getTile t 0).sram 0x3FF 6 == [0, 1, 2, 3, 4, 0]) = true := by decide +kernel

/-! Hutch (10, "Worked depth-3 tree"); below f0 = 0.25 the score is -1.75, on segment 0, whose Y and SLOPE are 0 here. -/
def words64 (l : List Nat) : List Nat := l.flatMap (leBytes 8)
def hutTile (f0 : Nat) (x : Tile) : Tile :=
  bytesAt 0x500 (words32 [0xC0800000, 0, 0, 0, 0xBF800000, 0, 0, 0, 0x3F800000, 0x3F400000, 0x3DA00000, 0, 0x40800000, 0, 0, 0])
    (bytesAt 0x400 (words32 [f0, 0x7FC00000, 0x5DC])
    (bytesAt 0x40 (words64 [0x00003E8000000000, 0x0002000007D08000, 0x000142AA00002000, 0x1000, 0x000142B400000000, 0x0002000003E88000, 0x00003F0000004000] ++
      words32 [0xBFA00000, 0, 0xBF000000, 0x3F400000, 0x3EC00000, 0x3FD00000, 0x40000000, 0x40400000])
    (bytesAt 0 (words32 [0x48435448] ++ [3, 1, 0, 4] ++ words32 [1, 3, 128] ++ [4] ++ List.replicate 11 0 ++ words32 [0xBF000000]) x)))
def hutDesc : TDesc := tdesc 1 [0x03060000, 0, 0, 0, 0, 0, 0, 1, 0x400, 0x10001, 0, 0x600, 0x500]
def hut (f0 : Nat) : State := running 2 hutDesc [] (hutTile f0)
theorem test_worked_tree : headCheck (hut 0x3E800000) 0 2 hutDesc = 0 ∧
    after (.tree 0) (hut 0x3E800000) (fun t => le (getTile t 0) 0x600 4 == 0x3F428000 && flagsOf t == [0, 0, 0, 0, 0]) = true := by
  refine ⟨?_, ?_⟩ <;> decide +kernel
theorem test_worked_tree_left : (treeAcc (hutTile 0x3E7FFFFF Tile.reset) (ensAt (hutTile 0x3E7FFFFF Tile.reset) 0) hutDesc 0 0).1 = -7 * 2 ^ 46 := by decide +kernel

/-! Placement (09, "Worked placement") and routes (06, "Worked discovery"). -/
def rankA : WRank := { sram := 0, entry := 0, aNs := 30000, bNs := 48000, aIn := 262144, inA := true, inB := true, fold := true }
def rankB : WRank := { sram := 0, entry := 0, aNs := 0, bNs := 12000, aIn := 0, inA := false, inB := true, fold := false }
def image17 : Weaja := { weaja with fplan := 1800, ranks := List.replicate 16 rankA ++ [rankB], edges := (List.range 16).map (fun i => ⟨i, 16, 16384, 1⟩) }
def level63 : State := tst [(Pg.hPwr, HPWR_STATUS_LEVEL, 63)]
def tiles17 : List Place := (List.range 17).map (fun i => ⟨i, 0, 0, i⟩)
def folded17 : List Place := (List.range 17).filterMap (fun i => if i = 6 then none else some ⟨i, if i = 5 then 1 else 0, 0, if i = 5 then 6 else i⟩)
theorem test_worked_placement : (stageA level63 0 0 image17 tiles17, stageB level63 0 image17 tiles17) = (47, 63) := by decide +kernel
theorem test_worked_placement_folded : (stageA level63 0 0 image17 folded17, stageB level63 0 image17 folded17) = (77, 111) := by decide +kernel
theorem test_worked_active_offset : activeOffset (gen1 3 1) { himage with aUs := 47, bUs := 63 } = 40 := by decide
theorem test_worked_routes : dieRoute level63 61 21 = [61, 9, 35, 34, 33, 32, 31, 30, 22, 21] ∧
    dieRoute (qh40 level63) 61 21 = [61, 9, 10, 11, 12, 13, 14, 15, 16, 17, 18, 19, 20, 21] := by refine ⟨?_, ?_⟩ <;> decide +kernel

/-! The tape (11, "Worked block and scan"). -/
theorem test_worked_block : zstdHead 64600 = [0x28, 0xB5, 0x2F, 0xFD, 0x64, 0x58, 0xFB] ∧ indexBase State.reset.cfg 3 0 = 0x4800000000 ∧
    dataBase State.reset.cfg 3 0 = 0x4820000000 ∧ ringSize 64 = 4202496 := by decide

/-! Verdicts (12, "Worked window"): the lower cap, the raise of 5 %, the RELEASE at the top; the lower median is the 2nd of 4. -/
def levelPolicy : VPolicy := { vpolicy with level := 1, raisePct := 5, freqGauge := 5 }
def capped (cap : Nat) (j : HJob) : HJob := { j with cap, capAt := some 0, headRun := 3, bounds := [(5, 1000, 1700, 100)] }
def levelAt (cap : Nat) : Level := levelOf levelPolicy (hj (capped cap)) [5] [] 3 454000000 false
theorem test_worked_raises : (levelAt 1360).cap = 1428 ∧ (levelAt 1428).cap = 1499 ∧ (levelAt 1499).cap = 1573 ∧ (levelAt 1573).cap = 1651 ∧
    (levelAt 1428).code = 2 ∧ (levelAt 1651).code = 4 ∧ (levelAt 1651).cap = 0xFFF := by decide
theorem test_lower_median : lowerMedian [4, 1, 3, 2] = 2 ∧ lowerMedian [5, 1, 3] = 3 := by decide

/-! Reach (14, "Worked protection switch": the first sample after the pause). -/
theorem test_worked_rto : (rttSample RchPort.reset 9874112).srtt = 9874112 ∧ (rttSample RchPort.reset 9874112).rttvar = 4937056 ∧
    rto (reach Rch.UP (fun r => rttSample r 9874112)) 0 = 29622336 := by decide
theorem test_pse_rise_pauses : after (.pseRise 0) (reach Rch.UP)
    (fun t => t.rd (Pg.rch 0) RCH_STATE_PAUSED == 1 && t.rd (gsiPg 0) GSI_PSE_LEVEL == 1) = true := by decide

/-! Power (15, "Worked throttle in a window"; R427). -/
theorem test_worked_levels : levelMhz 63 = 1800 ∧ levelMhz 31 = 1088 ∧ levelMhz 32 = 1111 := by decide
theorem test_worked_throttle : after (.boardThrottle 0) (tst [(Pg.hPwr, HPWR_THR_LEVEL, 31), (Pg.hPwr, HPWR_LEVEL, 63), (Pg.hPwr, HPWR_STATUS_LEVEL, 63)] (atTime 130000))
    (fun t => t.hub.power.bcast == some (31, 132000) && t.rd Pg.hPwr (BLK_IRQ_STAT Irq.HPWR_FAST) == 1) = true := by decide
theorem test_served_power : powerOf 61234567890 100000000 = 610 := by decide

/-! The Bureau (17, "Worked flood"; "Worked freeze": the calendar fields). -/
def flood (sev : Nat) : State :=
  State.wr (onTally (fun t => { t with burStore := burEnt 4096 6 :: burEnt 4401 2 :: List.replicate 254 (burEnt 4402 2), burPend := [burEnt 0 sev] })
    { State.reset with cfg := ⟨true, false, 0⟩ }) Pg.tBur BUR_HEAD 4652
def seqs (s : State) : List Nat := s.tally.burStore.map (·.seq)
theorem test_worked_flood_severity_2 : after (.bureauPost .tally) (flood 2)
    (fun t => seqs t == 4096 :: List.replicate 254 4402 ++ [4652] && t.rd Pg.tBur BUR_HEAD == 4653) = true := by decide +kernel
theorem test_worked_flood_severity_1 : after (.bureauPost .tally) (flood 1)
    (fun t => seqs t == seqs (flood 1) && t.rd Pg.tBur BUR_HEAD == 4652 && t.rd Pg.tBur BUR_CNT_DROPPED 1 == 1) = true := by decide +kernel
theorem test_worked_flood_severity_7 : after (.bureauPost .tally) (flood 7)
    (fun t => seqs t == 4401 :: List.replicate 254 4402 ++ [4652]) = true := by decide +kernel
theorem test_worked_calendar : civil (1786000500 - 37) = (2026, 8, 6, 7, 14, 23) := by decide

/-! Test pages (19, "Worked half-width test", steps 1 and 2). -/
theorem test_worked_half_width : after (.tstModeWrite 10 .cabinet 0x203)
    (tst [(Pg.tst 10, TST_SEL_KIND, 2), (Pg.tst 10, TST_SEL_INDEX, 1), (Pg.tst 10, TST_SEL_LANE, 40)])
    (fun t => t.rd (Pg.tst 10) TST_LINK_WIDTH (tstKey 2 1 0) == 1) = true := by decide
theorem test_tst_mode_is_the_cabinets : after (.tstModeWrite 10 .steward 0x203) State.reset
    (fun t => t.rd (Pg.tst 10) BLK_SYNDROME_CODE == Syn.AUTH) = true := by decide

end
end

section
/-!
PROOFS. Writes of a register: which meaning `busWrite` gives a write that reaches a register, and what an ARMED appointment refuses (R22 to R24).
-/
namespace Sys2Proof.Machine
open Sys2Proof.Laws

/-! ### Where a write goes -/

section
variable {s : State} {b : Blk} {pg : Page} {ag : Agent} {off v : Nat} {r : RegS}

theorem busWrite_common (hb : pageBlk s.cfg pg = some b) (ha : off % 4 = 0) (hlt : off < 0x030) :
    busWrite s pg off ag v = commonWrite s b pg ag off v := by
  simp [busWrite, hb, ha, hlt]

theorem busWrite_staged (hb : pageBlk s.cfg pg = some b) (ha : off % 4 = 0) (hle : 0x840 ≤ off)
    (hr : findReg s.cfg b pg (off - 0x800) = some r) (hrwa : r.ty = .rwa) :
    busWrite s pg off ag v = keepWrite s b pg r true ag v := by
  have hlt : ¬ off < 0x030 := by omega
  simp [busWrite, hb, ha, hlt, hle, hr, hrwa]

theorem busWrite_live_kept (hb : pageBlk s.cfg pg = some b) (ha : off % 4 = 0) (hle : 0x030 ≤ off) (hlt : off < 0x840)
    (hr : findReg s.cfg b pg off = some r) (hact : actWrite s b pg off ag v = none) (hro : r.ty ≠ .ro) :
    busWrite s pg off ag v = keepWrite s b pg r false ag v := by
  simp [busWrite, hb, ha, hr, hact, hro, Nat.not_lt.mpr hle, Nat.not_le.mpr hlt]

theorem commonWrite_apptTime (hoff : off = 0x020 ∨ off = 0x024 ∨ off = 0x028) :
    commonWrite s b pg ag off v =
      if cabinetOnly b pg off ∧ ag ≠ .cabinet then syn s pg Syn.AUTH ag false off else apptTimeWrite s b pg ag off v := by
  rcases hoff with rfl | rfl | rfl <;> rfl

/-! ### RWA registers only keep what is written -/

theorem isRwa_of_findReg {c : Parts} (hr : findReg c b pg off = some r) (hrwa : r.ty = .rwa) : isRwa b off = true := by
  unfold findReg at hr
  split at hr
  next r' hfind =>
    obtain ⟨-, rfl⟩ : regPresent c b pg off = true ∧ r' = r := by simpa using hr
    have hoff : r'.off = off := by simpa using List.find?_some hfind
    exact List.any_eq_true.mpr ⟨r', List.mem_of_find?_eq_some hfind, by simp [hrwa, hoff]⟩
  next => cases hr

/-- The registers that act when they are written and the RWA registers are disjoint: in each arm of `actWrite` the register table of the block
holds no RWA register at the arm's offset. -/
theorem actWrite_eq_none_of_isRwa (hrwa : isRwa b off = true) : actWrite s b pg off ag v = none := by
  unfold actWrite
  split
  case h_27 => rfl
  all_goals exact absurd hrwa (by decide)

/-! ### What ARMED refuses (R24) -/

theorem apptTimeWrite_of_isArmed (harm : isArmed s pg = true) :
    apptTimeWrite s b pg ag off v = syn s pg (if apptAuth b ag then Syn.STATE else Syn.AUTH) ag false off := by
  unfold apptTimeWrite apptAccess
  cases apptAuth b ag with
  | false => simp [Syn.AUTH]
  | true => cases isFrozen s pg <;> simp [harm]

theorem keepRefusal_of_isArmed {st : Bool} (harm : isArmed s pg = true) (hrwa : r.ty = .rwa) :
    keepRefusal s b pg r st ag v =
      if accessCheck s b pg r.off ag = 0 then Syn.STATE else accessCheck s b pg r.off ag := by
  simp [keepRefusal, harm, hrwa]

theorem keepWrite_of_keepRefusal {st : Bool} {code : Nat} (hc : keepRefusal s b pg r st ag v = code) (hne : code ≠ 0) :
    keepWrite s b pg r st ag v = syn s pg code ag st (r.off + if st then 0x800 else 0) := by
  simp [keepWrite, hc, hne]

theorem keepWrite_of_isArmed {st : Bool} (harm : isArmed s pg = true) (hrwa : r.ty = .rwa) :
    ∃ code, keepWrite s b pg r st ag v = syn s pg code ag st (r.off + if st then 0x800 else 0) ∧
      (accessCheck s b pg r.off ag = 0 → code = Syn.STATE) := by
  have hc := keepRefusal_of_isArmed (b := b) (ag := ag) (v := v) (st := st) harm hrwa
  refine ⟨_, keepWrite_of_keepRefusal hc ?_, fun h => if_pos h⟩
  split
  · decide
  · assumption

theorem commonWrite_apptTime_of_isArmed (harm : isArmed s pg = true) (hoff : off = 0x020 ∨ off = 0x024 ∨ off = 0x028) :
    ∃ code, commonWrite s b pg ag off v = syn s pg code ag false off ∧
      (cabinetOnly b pg off = false ∨ ag = .cabinet → apptAuth b ag = true → code = Syn.STATE) := by
  rw [commonWrite_apptTime hoff]
  split
  next hcab =>
    obtain ⟨honly, hother⟩ := hcab
    exact ⟨_, rfl, fun hmay _ => absurd hmay (by simp [honly, hother])⟩
  next => exact ⟨_, apptTimeWrite_of_isArmed harm, fun _ hauth => if_pos hauth⟩

end

/-- Settles O12: a write of the appointment time is refused in `apptTimeWrite`, one of an RWA register, staged or live, in `keepWrite`, because no
RWA register acts when it is written. -/
theorem armedPageRefusesWrites : Obligations.ArmedPageRefusesWrites := by
  unfold Obligations.ArmedPageRefusesWrites
  intro s a ag v b hb harm ha
  simp only [exec_registerWrite, execRegisterWrite, Host.Outcome.next.injEq]
  refine ⟨fun hoff => ?apptTime, fun r hle hr hrwa => ?staged, fun r hle hlt hr hrwa => ?live⟩
  case apptTime =>
    rw [busWrite_common hb ha (by omega)]
    exact commonWrite_apptTime_of_isArmed harm hoff
  case staged =>
    rw [busWrite_staged hb ha hle hr hrwa]
    exact keepWrite_of_isArmed harm hrwa
  case live =>
    have hact := actWrite_eq_none_of_isRwa (s := s) (pg := addrPage a) (ag := ag) (v := v.toNat) (isRwa_of_findReg hr hrwa)
    rw [busWrite_live_kept hb ha hle hlt hr hact (by simp [hrwa])]
    exact keepWrite_of_isArmed harm hrwa

end Sys2Proof.Machine
end

section
/-!
PROOFS. The Longcase's counter: what one tick of the timebase clock makes of its nanoseconds, its fraction and its increment (R57, R58).
-/
namespace Sys2Proof.Machine

/-! ### One tick (R57) -/

namespace Longcase

@[simp] theorem tick_incr (l : Longcase) : l.tick.incr = l.incr := rfl

theorem tick_frac_lt (l : Longcase) : l.tick.frac < 2 ^ 32 :=
  Nat.mod_lt _ (by decide)

/-- The carry out of the fraction goes to the nanoseconds: the quotient and the remainder of one division by 2^32 lose nothing of the sum. -/
theorem tick_time (l : Longcase) : l.tick.ns * 2 ^ 32 + l.tick.frac = l.ns * 2 ^ 32 + l.frac + l.incr :=
  calc (l.ns + (l.frac + l.incr) / 2 ^ 32) * 2 ^ 32 + (l.frac + l.incr) % 2 ^ 32
    _ = l.ns * 2 ^ 32 + ((l.frac + l.incr) / 2 ^ 32 * 2 ^ 32 + (l.frac + l.incr) % 2 ^ 32) := by rw [Nat.add_mul, Nat.add_assoc]
    _ = l.ns * 2 ^ 32 + (l.frac + l.incr) := by rw [Nat.div_add_mod']
    _ = l.ns * 2 ^ 32 + l.frac + l.incr := (Nat.add_assoc _ _ _).symm

end Longcase

/-- Settles O3: a tick splits the fraction plus the increment into its carry and its new fraction, and the nominal increments are the model's
constants. -/
theorem timebaseTickAddsIncrement : Obligations.TimebaseTickAddsIncrement := by
  unfold Obligations.TimebaseTickAddsIncrement
  exact ⟨fun l => ⟨l.tick_time, l.tick_frac_lt, l.tick_incr⟩, rfl, rfl⟩

end Sys2Proof.Machine
end

section
/-!
PROOFS. Step marks: what one write of STP_MARK does, accepted or refused, and what putting a mark into the buffer leaves of the registers
(R109, R110).
-/
namespace Sys2Proof.Machine
open Reg Sys2Proof.Laws

section
variable {s : State} {ag : Agent} {pg : Page} {f : Fld} {i kind slot id tag : Nat}

/-! ### When the Tally may not build records (R101) -/

theorem mayBuild_eq_false_iff : mayBuild s = false ↔ s.rd Pg.tly TLY_UNIT_LOCKED ≠ 1 ∨ s.isUnset .tally = true := by
  simp [mayBuild, ← imp_iff_not_or]

/-! ### The mark buffer (R110) -/

@[simp] theorem rd_setSlot (t : TSlot) : (setSlot s slot t).rd pg f i = s.rd pg f i := rd_congr rfl rfl _ _ _

theorem bufferMark_marks {m : Mark} (hroom : s.tally.marks.length < markCap s.cfg) :
    (bufferMark s m).tally.marks = s.tally.marks ++ [m] := by
  simp [bufferMark, hroom]

/-- Buffered or dropped, a mark writes STP_STAT alone. -/
theorem rd_bufferMark {m : Mark} (hoff : f.off ≠ 0x054) : (bufferMark s m).rd pg f i = s.rd pg f i := by
  unfold bufferMark
  split
  · exact (rd_wr_off hoff).trans (rd_congr rfl rfl _ _ _)
  · exact (rd_bump_off hoff).trans (rd_setSlot _)

/-- The step number of a slot is none of STP_STAT's fields. -/
theorem rd_bufferMark_step {m : Mark} (hslot : slot < 4) :
    (bufferMark s m).rd Pg.stp (STP_STEP slot) = s.rd Pg.stp (STP_STEP slot) :=
  rd_bufferMark (show 0x044 + 4 * slot ≠ 0x054 by omega)

/-! ### Accepted and refused writes of STP_MARK (R109) -/

theorem now_incr (p : Part) : (s.incr pg f).now p = s.now p := by cases p <;> rfl

theorem stepMark_of_accepted (hkind : kind ≠ 3) (hlive : slotLive s slot = true) (hbuild : mayBuild s = true) :
    stepMark s .regPort kind slot id tag =
      if kind = 0 then digestMark (acceptMark s kind slot id tag) slot ((acceptMark s kind slot id tag).rd Pg.stp (STP_STEP slot))
      else acceptMark s kind slot id tag := by
  simp [stepMark, hkind, hlive, hbuild]

theorem acceptMark_of_ne_zero (hkind : kind ≠ 0) :
    acceptMark s kind slot id tag =
      bufferMark s { kind, slot, id, tag, step := s.rd Pg.stp (STP_STEP slot), time := s.now .tally } := by
  simp [acceptMark, hkind]

theorem acceptMark_zero :
    acceptMark s 0 slot id tag =
      bufferMark (s.incr Pg.stp (STP_STEP slot))
        { kind := 0, slot, id, tag, step := (s.incr Pg.stp (STP_STEP slot)).rd Pg.stp (STP_STEP slot), time := s.now .tally } := by
  simp only [acceptMark, if_true, now_incr]

theorem stepMark_of_not_ready (hkind : kind ≠ 3) (hready : slotLive s slot = false ∨ mayBuild s = false) :
    stepMark s .regPort kind slot id tag = syn s Pg.stp Syn.STATE .regPort false 0x040 := by
  simp [stepMark, hkind, hready]

theorem stepMark_of_ne_regPort (hag : ag ≠ .regPort) : stepMark s ag kind slot id tag = syn s Pg.stp Syn.AUTH ag false 0x040 :=
  if_pos hag

theorem stepMark_of_kind_eq_three (hkind : kind = 3) : stepMark s .regPort kind slot id tag = syn s Pg.stp Syn.RANGE .regPort false 0x040 := by
  simp [stepMark, hkind]

end

/-- Settles O23: an accepted mark is `acceptMark`'s; a STEP mark's digest sees the step number that the mark carries, because the buffer leaves
STP_STEP as it is; the refusals are `stepMark`'s first three conditions. -/
theorem stepMarks : Obligations.StepMarks := by
  unfold Obligations.StepMarks
  intro s slot id tag
  simp only [exec_stepMark, execStepMark, Host.Outcome.next.injEq]
  refine ⟨fun hlive hbuild => ⟨fun kind hkind => ?entryOrExit, ?step, ?number⟩, fun kind hkind href => ?state,
    stepMark_of_kind_eq_three rfl, fun _ _ hag => stepMark_of_ne_regPort hag, fun _ hroom => bufferMark_marks hroom⟩
  case entryOrExit =>
    obtain ⟨hne0, hne3⟩ : kind.toNat ≠ 0 ∧ kind.toNat ≠ 3 := by rcases hkind with rfl | rfl <;> decide
    rw [stepMark_of_accepted hne3 hlive hbuild, if_neg hne0, acceptMark_of_ne_zero hne0]
  case step =>
    have hzero : (0 : BitVec 2).toNat = 0 := rfl
    rw [hzero, stepMark_of_accepted (by decide) hlive hbuild, if_pos rfl, acceptMark_zero, rd_bufferMark_step slot.isLt]
  case number => exact rd_incr_same ..
  case state =>
    have hne3 : kind.toNat ≠ 3 := fun h => hkind (BitVec.eq_of_toNat_eq h)
    exact stepMark_of_not_ready hne3 (href.imp_right mayBuild_eq_false_iff.mpr)

end Sys2Proof.Machine
end

section
/-!
What every command keeps. A command's meaning is a tree of choices whose leaves are next states, so every command answers one; what a meaning
keeps (Laws/Keeps.lean) is then kept by every command, and by every step.
-/
namespace Sys2Proof.Machine

/-! ### Every command answers a next state -/

/-- The outcome is a next state. -/
def Answers (o : Host.Outcome State Fault Refusal) : Prop := ∃ t, o = .next t

theorem Answers.next {s : State} : Answers (.next s) := ⟨s, rfl⟩

theorem Answers.ite {c : Prop} [Decidable c] {a b : Host.Outcome State Fault Refusal} (ha : Answers a) (hb : Answers b) :
    Answers (if c then a else b) := by
  split <;> assumption

theorem request_answers (s : State) (ses op req : Nat) (opOnly : Bool) (f : State → Session → State) :
    Answers (request s ses op req opOnly f) := by
  unfold request
  split
  · exact .next
  · exact .ite .next (.ite .next .next)

theorem runDesc_answers (s : State) (t q op vop : Nat) (f : TDesc → State × Nat × Nat × Bool) : Answers (runDesc s t q op vop f) := by
  unfold runDesc
  split
  · exact .next
  · exact .ite .next .next

/-- Every command answers a next state: each meaning is a tree of choices whose leaves are next states. -/
theorem exec_answers (c : Instr) (s : State) : Answers (exec c s) := by
  cases c
  all_goals dsimp only [exec]
  all_goals
    delta
      execRegisterWrite execSynClr execSoftReset execApptArm execApptCancel execApptApply execLongcaseReset execLcsStep execClrCnt execLcsGenWrite
      execLcsNowRead execTbAnnouncement execTbPulse execPulseMiss execMeasurementMissLimit execSiteQualExpiry execFollowerCheck execPtpMessageRx
      execPtpMessageTx execAnnounceTimeout execSourceStable execSwitchedExpiry execPpsEdge execTtExchangeTx execTtExchangeDone execPseRise execPseFall
      execPauseTimeout execTallyPor execTallyHrst execChainAddress execTlyUnitWrite execFclkRequest execFclkAck execWindowBoundary execSlowBoundary
      execRecordSeal execPowerSample execFreqSample execGaugeHostWrite execCntValRead execStepMark execLockWrite execCapCodeWrite execCapAck
      execCapAckTimeout execStewardStart execStewardVerifyDone execStewardHalt execStewardFault execStewardLoadWord execShaperRefill execFrameStart
      execFrameSent execGateEntryAdvance execWrite execRead execArm execCap execKeyload execDigest execReplay execObserve execBootstrap
      execVerdictAccept execPrevKeyDiscard execCmdKeyOverlapEnd execQrpFrameRx execRecordRx execReasmTimeout execDigestReportRx execResponseRx
      execSealDeadline execHubAggregateIssue execReReductionDone execMergeLate execLateHorizon execAggregateRx execGroupAggregateIssue
      execSiteAggregateIssue execFleetAggregateIssue execAggregateHoldExpiry execDpush execDtry execDwait execDpoll execTflagsClear execTsleep
      execTeventClear execTdone execTmboxOut execSequencerException execDescriptorStart execMatmul execTree execCopy execFence execAdd execSub execMul
      execFma execDiv execSqrt execRcp execRsqrt execExp2 execLog2 execMin execMax execCmpEq execCmpNe execCmpLt execCmpLe execAbs execNeg execCvt
      execCvtFx execIadd execIsub execImulLo execImulHi execImuluHi execShl execShr execSra execAnd execOr execXor execImin execImax execIcmp
      execDescriptorComplete execQueueFlush execWake execGate execPark execTileSleepEntered execTileWakeDone execSeqStart execSeqHalt execTileRetire
      execMboxInWrite execScheduledWake execActiveInstant execVerdictAssembly execVerdictIssue execVerdictAbandon execCheckWindow execSelftestChunk
      execPartitionRecovery execTapeWindow execBlockCompressDone execScanStart execScanAbort execScanDeliver execScanTimeout execPatrol
      execTapRecoveryDone execErrorInject execEngineEnableWrite execCorrelationDone execDigestComplete execRplReady execRplDecline
      execReportWaitExpiry execDpartialRx execOutcomeWaitExpiry execReplayWaitExpiry execReplayExpired execObservationEnd execReachHelloTx
      execReachHello execHelloLoss execDataTx execData execRxDeliver execAck execAckTx execRtoExpiry execSessionReset execFrameAbandon execGsiUpdate
      execPeerHelloTx execPeerHello execPeerHelloLoss execPowerEstimateSample execVrAlert execBoardThrottle execCeilingRaise execLevelApply
      execPmbusPoll execPmbusAlert execCalibration execThermalReading execHubPwrLockWrite execInstall execErase execZeroize execKeyDiscard execKeyRoll
      execMgmtSessionOpen execSessionIdle execGetVersion execGetCapabilities execNegotiateAlgorithms execGetDigests execGetCertificate execChallenge
      execGetMeasurements execGetCsr execSetCertificate execFirmwarePost execBureauPost execBureauLookup execBureauLookupDone execTraceArm
      execTraceStop execTraceClear execTraceComparator execTraceOverflow execTimedRelease execAutoRelease execHubPor execHubReset execChainFrame
      execChainEnumTx execHeartbeatTx execTakeover execCabSwitchover execResetPkg execCommitPoint execResponseTimeout execHello execBootStatus
      execRegRead execRegWrite execJobCreate execRosterChange execPolicySet execJobDelete execImageLoad execFreeze execScanExport execCorrelate
      execObsClear execRetire execKeyInstall execJournalGet execJournalList execVerdictsGet execSummaryGet execEnergyGet execBureauRead execSubscribe
      execImageWrite execSwitchover execReset execTstModeWrite execInject execClear execHalfFail execEventLaneCount execCheckerLocked execLockLost
      execTraceLineWrite execTtExchangeRx execVrAlertDeassert execBoardThrottleDeassert execLaneAlignment execTrackerMissLimit
      execPartitionRecoveryDone execTlyTestMode
  all_goals try delta spdm
  all_goals try delta jobRequest operation runVec
  all_goals conv => zeta
  all_goals with_reducible repeat'
    (first | exact Answers.next | exact request_answers .. | exact runDesc_answers .. | refine Answers.ite ?_ ?_ | split)

/-- What each command keeps is what its meaning keeps. -/
theorem exec_keeps {c : Instr} {s t : State} (h : exec c s = .next t) : Keeps s t := by
  cases c
  all_goals dsimp only [exec] at h
  case registerWrite => exact execRegisterWrite_keeps h .rfl
  case synClr => exact execSynClr_keeps h .rfl
  case softReset => exact execSoftReset_keeps h .rfl
  case apptArm => exact execApptArm_keeps h .rfl
  case apptCancel => exact execApptCancel_keeps h .rfl
  case apptApply => exact execApptApply_keeps h .rfl
  case longcaseReset p ag => exact execLongcaseReset_keeps (x1 := ag) h .rfl
  case lcsStep => exact execLcsStep_keeps h .rfl
  case clrCnt => exact execClrCnt_keeps h .rfl
  case lcsGenWrite => exact execLcsGenWrite_keeps h .rfl
  case lcsNowRead => exact execLcsNowRead_keeps h .rfl
  case tbAnnouncement => exact execTbAnnouncement_keeps h .rfl
  case tbPulse => exact execTbPulse_keeps h .rfl
  case pulseMiss => exact execPulseMiss_keeps h .rfl
  case measurementMissLimit => exact execMeasurementMissLimit_keeps h .rfl
  case siteQualExpiry => exact execSiteQualExpiry_keeps h .rfl
  case followerCheck => exact execFollowerCheck_keeps h .rfl
  case ptpMessageRx => exact execPtpMessageRx_keeps h .rfl
  case ptpMessageTx => exact execPtpMessageTx_keeps h .rfl
  case announceTimeout => exact execAnnounceTimeout_keeps h .rfl
  case sourceStable => exact execSourceStable_keeps h .rfl
  case switchedExpiry => exact execSwitchedExpiry_keeps h .rfl
  case ppsEdge => exact execPpsEdge_keeps h .rfl
  case ttExchangeTx => exact execTtExchangeTx_keeps h .rfl
  case ttExchangeDone => exact execTtExchangeDone_keeps h .rfl
  case pseRise => exact execPseRise_keeps h .rfl
  case pseFall => exact execPseFall_keeps h .rfl
  case pauseTimeout => exact execPauseTimeout_keeps h .rfl
  case tallyPor => exact execTallyPor_keeps h .rfl
  case tallyHrst => exact execTallyHrst_keeps h .rfl
  case chainAddress => exact execChainAddress_keeps h .rfl
  case tlyUnitWrite => exact execTlyUnitWrite_keeps h .rfl
  case fclkRequest => exact execFclkRequest_keeps h .rfl
  case fclkAck => exact execFclkAck_keeps h .rfl
  case windowBoundary => exact execWindowBoundary_keeps h .rfl
  case slowBoundary => exact execSlowBoundary_keeps h .rfl
  case recordSeal => exact execRecordSeal_keeps h .rfl
  case powerSample => exact execPowerSample_keeps h .rfl
  case freqSample => exact execFreqSample_keeps h .rfl
  case gaugeHostWrite => exact execGaugeHostWrite_keeps h .rfl
  case cntValRead => exact execCntValRead_keeps h .rfl
  case stepMark => exact execStepMark_keeps h .rfl
  case lockWrite => exact execLockWrite_keeps h .rfl
  case capCodeWrite => exact execCapCodeWrite_keeps h .rfl
  case capAck => exact execCapAck_keeps h .rfl
  case capAckTimeout => exact execCapAckTimeout_keeps h .rfl
  case stewardStart => exact execStewardStart_keeps h .rfl
  case stewardVerifyDone => exact execStewardVerifyDone_keeps h .rfl
  case stewardHalt => exact execStewardHalt_keeps h .rfl
  case stewardFault => exact execStewardFault_keeps h .rfl
  case stewardLoadWord => exact execStewardLoadWord_keeps h .rfl
  case shaperRefill => exact execShaperRefill_keeps h .rfl
  case frameStart => exact execFrameStart_keeps h .rfl
  case frameSent => exact execFrameSent_keeps h .rfl
  case gateEntryAdvance => exact execGateEntryAdvance_keeps h .rfl
  case write => exact execWrite_keeps h .rfl
  case read => exact execRead_keeps h .rfl
  case arm => exact execArm_keeps h .rfl
  case cap => exact execCap_keeps h .rfl
  case keyload => exact execKeyload_keeps h .rfl
  case digest => exact execDigest_keeps h .rfl
  case replay => exact execReplay_keeps h .rfl
  case observe => exact execObserve_keeps h .rfl
  case bootstrap => exact execBootstrap_keeps h .rfl
  case verdictAccept => exact execVerdictAccept_keeps h .rfl
  case prevKeyDiscard => exact execPrevKeyDiscard_keeps h .rfl
  case cmdKeyOverlapEnd => exact execCmdKeyOverlapEnd_keeps h .rfl
  case qrpFrameRx => exact execQrpFrameRx_keeps h .rfl
  case recordRx => exact execRecordRx_keeps h .rfl
  case reasmTimeout => exact execReasmTimeout_keeps h .rfl
  case digestReportRx => exact execDigestReportRx_keeps h .rfl
  case responseRx => exact execResponseRx_keeps h .rfl
  case sealDeadline => exact execSealDeadline_keeps h .rfl
  case hubAggregateIssue => exact execHubAggregateIssue_keeps h .rfl
  case reReductionDone => exact execReReductionDone_keeps h .rfl
  case mergeLate => exact execMergeLate_keeps h .rfl
  case lateHorizon => exact execLateHorizon_keeps h .rfl
  case aggregateRx => exact execAggregateRx_keeps h .rfl
  case groupAggregateIssue => exact execGroupAggregateIssue_keeps h .rfl
  case siteAggregateIssue => exact execSiteAggregateIssue_keeps h .rfl
  case fleetAggregateIssue => exact execFleetAggregateIssue_keeps h .rfl
  case aggregateHoldExpiry => exact execAggregateHoldExpiry_keeps h .rfl
  case dpush => exact execDpush_keeps h .rfl
  case dtry => exact execDtry_keeps h .rfl
  case dwait => exact execDwait_keeps h .rfl
  case dpoll => exact execDpoll_keeps h .rfl
  case tflagsClear => exact execTflagsClear_keeps h .rfl
  case tsleep => exact execTsleep_keeps h .rfl
  case teventClear => exact execTeventClear_keeps h .rfl
  case tdone => exact execTdone_keeps h .rfl
  case tmboxOut => exact execTmboxOut_keeps h .rfl
  case sequencerException => exact execSequencerException_keeps h .rfl
  case descriptorStart => exact execDescriptorStart_keeps h .rfl
  case matmul => exact execMatmul_keeps h .rfl
  case tree => exact execTree_keeps h .rfl
  case copy => exact execCopy_keeps h .rfl
  case fence => exact execFence_keeps h .rfl
  case add => exact execAdd_keeps h .rfl
  case sub => exact execSub_keeps h .rfl
  case mul => exact execMul_keeps h .rfl
  case fma => exact execFma_keeps h .rfl
  case div => exact execDiv_keeps h .rfl
  case sqrt => exact execSqrt_keeps h .rfl
  case rcp => exact execRcp_keeps h .rfl
  case rsqrt => exact execRsqrt_keeps h .rfl
  case exp2 => exact execExp2_keeps h .rfl
  case log2 => exact execLog2_keeps h .rfl
  case min => exact execMin_keeps h .rfl
  case max => exact execMax_keeps h .rfl
  case cmpEq => exact execCmpEq_keeps h .rfl
  case cmpNe => exact execCmpNe_keeps h .rfl
  case cmpLt => exact execCmpLt_keeps h .rfl
  case cmpLe => exact execCmpLe_keeps h .rfl
  case abs => exact execAbs_keeps h .rfl
  case neg => exact execNeg_keeps h .rfl
  case cvt => exact execCvt_keeps h .rfl
  case cvtFx => exact execCvtFx_keeps h .rfl
  case iadd => exact execIadd_keeps h .rfl
  case isub => exact execIsub_keeps h .rfl
  case imulLo => exact execImulLo_keeps h .rfl
  case imulHi => exact execImulHi_keeps h .rfl
  case imuluHi => exact execImuluHi_keeps h .rfl
  case shl => exact execShl_keeps h .rfl
  case shr => exact execShr_keeps h .rfl
  case sra => exact execSra_keeps h .rfl
  case and => exact execAnd_keeps h .rfl
  case or => exact execOr_keeps h .rfl
  case xor => exact execXor_keeps h .rfl
  case imin => exact execImin_keeps h .rfl
  case imax => exact execImax_keeps h .rfl
  case icmp => exact execIcmp_keeps h .rfl
  case descriptorComplete => exact execDescriptorComplete_keeps h .rfl
  case queueFlush => exact execQueueFlush_keeps h .rfl
  case wake => exact execWake_keeps h .rfl
  case gate => exact execGate_keeps h .rfl
  case park => exact execPark_keeps h .rfl
  case tileSleepEntered => exact execTileSleepEntered_keeps h .rfl
  case tileWakeDone => exact execTileWakeDone_keeps h .rfl
  case seqStart => exact execSeqStart_keeps h .rfl
  case seqHalt => exact execSeqHalt_keeps h .rfl
  case tileRetire => exact execTileRetire_keeps h .rfl
  case mboxInWrite => exact execMboxInWrite_keeps h .rfl
  case scheduledWake => exact execScheduledWake_keeps h .rfl
  case activeInstant => exact execActiveInstant_keeps h .rfl
  case verdictAssembly => exact execVerdictAssembly_keeps h .rfl
  case verdictIssue => exact execVerdictIssue_keeps h .rfl
  case verdictAbandon => exact execVerdictAbandon_keeps h .rfl
  case checkWindow => exact execCheckWindow_keeps h .rfl
  case selftestChunk => exact execSelftestChunk_keeps h .rfl
  case partitionRecovery => exact execPartitionRecovery_keeps h .rfl
  case tapeWindow => exact execTapeWindow_keeps h .rfl
  case blockCompressDone => exact execBlockCompressDone_keeps h .rfl
  case scanStart => exact execScanStart_keeps h .rfl
  case scanAbort => exact execScanAbort_keeps h .rfl
  case scanDeliver => exact execScanDeliver_keeps h .rfl
  case scanTimeout => exact execScanTimeout_keeps h .rfl
  case patrol => exact execPatrol_keeps h .rfl
  case tapRecoveryDone => exact execTapRecoveryDone_keeps h .rfl
  case errorInject => exact execErrorInject_keeps h .rfl
  case engineEnableWrite => exact execEngineEnableWrite_keeps h .rfl
  case correlationDone => exact execCorrelationDone_keeps h .rfl
  case digestComplete => exact execDigestComplete_keeps h .rfl
  case rplReady => exact execRplReady_keeps h .rfl
  case rplDecline => exact execRplDecline_keeps h .rfl
  case reportWaitExpiry => exact execReportWaitExpiry_keeps h .rfl
  case dpartialRx => exact execDpartialRx_keeps h .rfl
  case outcomeWaitExpiry => exact execOutcomeWaitExpiry_keeps h .rfl
  case replayWaitExpiry => exact execReplayWaitExpiry_keeps h .rfl
  case replayExpired => exact execReplayExpired_keeps h .rfl
  case observationEnd => exact execObservationEnd_keeps h .rfl
  case reachHelloTx => exact execReachHelloTx_keeps h .rfl
  case reachHello => exact execReachHello_keeps h .rfl
  case helloLoss => exact execHelloLoss_keeps h .rfl
  case dataTx => exact execDataTx_keeps h .rfl
  case data => exact execData_keeps h .rfl
  case rxDeliver => exact execRxDeliver_keeps h .rfl
  case ack => exact execAck_keeps h .rfl
  case ackTx => exact execAckTx_keeps h .rfl
  case rtoExpiry => exact execRtoExpiry_keeps h .rfl
  case sessionReset => exact execSessionReset_keeps h .rfl
  case frameAbandon => exact execFrameAbandon_keeps h .rfl
  case gsiUpdate => exact execGsiUpdate_keeps h .rfl
  case peerHelloTx => exact execPeerHelloTx_keeps h .rfl
  case peerHello => exact execPeerHello_keeps h .rfl
  case peerHelloLoss => exact execPeerHelloLoss_keeps h .rfl
  case powerEstimateSample => exact execPowerEstimateSample_keeps h .rfl
  case vrAlert => exact execVrAlert_keeps h .rfl
  case boardThrottle => exact execBoardThrottle_keeps h .rfl
  case ceilingRaise => exact execCeilingRaise_keeps h .rfl
  case levelApply => exact execLevelApply_keeps h .rfl
  case pmbusPoll => exact execPmbusPoll_keeps h .rfl
  case pmbusAlert => exact execPmbusAlert_keeps h .rfl
  case calibration => exact execCalibration_keeps h .rfl
  case thermalReading => exact execThermalReading_keeps h .rfl
  case hubPwrLockWrite => exact execHubPwrLockWrite_keeps h .rfl
  case install => exact execInstall_keeps h .rfl
  case erase => exact execErase_keeps h .rfl
  case zeroize => exact execZeroize_keeps h .rfl
  case keyDiscard => exact execKeyDiscard_keeps h .rfl
  case keyRoll => exact execKeyRoll_keeps h .rfl
  case mgmtSessionOpen => exact execMgmtSessionOpen_keeps h .rfl
  case sessionIdle => exact execSessionIdle_keeps h .rfl
  case getVersion => exact execGetVersion_keeps h .rfl
  case getCapabilities => exact execGetCapabilities_keeps h .rfl
  case negotiateAlgorithms => exact execNegotiateAlgorithms_keeps h .rfl
  case getDigests => exact execGetDigests_keeps h .rfl
  case getCertificate => exact execGetCertificate_keeps h .rfl
  case challenge => exact execChallenge_keeps h .rfl
  case getMeasurements => exact execGetMeasurements_keeps h .rfl
  case getCsr => exact execGetCsr_keeps h .rfl
  case setCertificate => exact execSetCertificate_keeps h .rfl
  case firmwarePost => exact execFirmwarePost_keeps h .rfl
  case bureauPost => exact execBureauPost_keeps h .rfl
  case bureauLookup => exact execBureauLookup_keeps h .rfl
  case bureauLookupDone => exact execBureauLookupDone_keeps h .rfl
  case traceArm => exact execTraceArm_keeps h .rfl
  case traceStop => exact execTraceStop_keeps h .rfl
  case traceClear => exact execTraceClear_keeps h .rfl
  case traceComparator => exact execTraceComparator_keeps h .rfl
  case traceOverflow => exact execTraceOverflow_keeps h .rfl
  case timedRelease => exact execTimedRelease_keeps h .rfl
  case autoRelease => exact execAutoRelease_keeps h .rfl
  case hubPor => exact execHubPor_keeps h .rfl
  case hubReset => exact execHubReset_keeps h .rfl
  case chainFrame => exact execChainFrame_keeps h .rfl
  case chainEnumTx => exact execChainEnumTx_keeps h .rfl
  case heartbeatTx => exact execHeartbeatTx_keeps h .rfl
  case takeover => exact execTakeover_keeps h .rfl
  case cabSwitchover => exact execCabSwitchover_keeps h .rfl
  case resetPkg => exact execResetPkg_keeps h .rfl
  case commitPoint => exact execCommitPoint_keeps h .rfl
  case responseTimeout => exact execResponseTimeout_keeps h .rfl
  case hello => exact execHello_keeps h .rfl
  case bootStatus => exact execBootStatus_keeps h .rfl
  case regRead => exact execRegRead_keeps h .rfl
  case regWrite => exact execRegWrite_keeps h .rfl
  case jobCreate => exact execJobCreate_keeps h .rfl
  case rosterChange => exact execRosterChange_keeps h .rfl
  case policySet => exact execPolicySet_keeps h .rfl
  case jobDelete => exact execJobDelete_keeps h .rfl
  case imageLoad => exact execImageLoad_keeps h .rfl
  case freeze => exact execFreeze_keeps h .rfl
  case scanExport => exact execScanExport_keeps h .rfl
  case correlate => exact execCorrelate_keeps h .rfl
  case obsClear => exact execObsClear_keeps h .rfl
  case retire => exact execRetire_keeps h .rfl
  case keyInstall => exact execKeyInstall_keeps h .rfl
  case journalGet => exact execJournalGet_keeps h .rfl
  case journalList => exact execJournalList_keeps h .rfl
  case verdictsGet => exact execVerdictsGet_keeps h .rfl
  case summaryGet => exact execSummaryGet_keeps h .rfl
  case energyGet => exact execEnergyGet_keeps h .rfl
  case bureauRead => exact execBureauRead_keeps h .rfl
  case subscribe => exact execSubscribe_keeps h .rfl
  case imageWrite => exact execImageWrite_keeps h .rfl
  case switchover => exact execSwitchover_keeps h .rfl
  case reset => exact execReset_keeps h .rfl
  case tstModeWrite => exact execTstModeWrite_keeps h .rfl
  case inject => exact execInject_keeps h .rfl
  case clear => exact execClear_keeps h .rfl
  case halfFail => exact execHalfFail_keeps h .rfl
  case eventLaneCount => exact execEventLaneCount_keeps h .rfl
  case checkerLocked => exact execCheckerLocked_keeps h .rfl
  case lockLost => exact execLockLost_keeps h .rfl
  case traceLineWrite => exact execTraceLineWrite_keeps h .rfl
  case ttExchangeRx => exact execTtExchangeRx_keeps h .rfl
  case vrAlertDeassert => exact execVrAlertDeassert_keeps h .rfl
  case boardThrottleDeassert => exact execBoardThrottleDeassert_keeps h .rfl
  case laneAlignment => exact execLaneAlignment_keeps h .rfl
  case trackerMissLimit => exact execTrackerMissLimit_keeps h .rfl
  case partitionRecoveryDone => exact execPartitionRecoveryDone_keeps h .rfl
  case tlyTestMode => exact execTlyTestMode_keeps h .rfl

/-- What every step keeps: with a command waiting, what the command keeps; with none, what passing time keeps. -/
theorem step_keeps {s t : State} (h : step s = .next t) :
    (RegsOne s.regs → RegsOne t.regs) ∧ (JournalIds s.hub.cabinet → JournalIds t.hub.cabinet) ∧
    (Memory.wf s.hub.hbm = true → Memory.wf t.hub.hbm = true) ∧ (SramsOk s.hub.tiles → SramsOk t.hub.tiles) := by
  unfold step at h
  split at h
  · obtain ⟨-, hregs, hjournal, hhbm, hsrams⟩ := Keeps.next h (idle_keeps .rfl)
    exact ⟨hregs, hjournal, hhbm, hsrams⟩
  · obtain ⟨-, hregs, hjournal, hhbm, hsrams⟩ := exec_keeps h
    exact ⟨hregs, hjournal, hhbm, hsrams⟩

/-- Settles O2: every command answers, and each meaning keeps the queue. -/
theorem everyCommandCompletesAndKeepsTheQueue : Obligations.EveryCommandCompletesAndKeepsTheQueue := by
  intro c s
  obtain ⟨t, ht⟩ := exec_answers c s
  exact ⟨t, ht, (exec_keeps ht).pending⟩

/-- Settles O4: register fields are only set where they stand, appended where they stand nowhere, or dropped. -/
theorem stepKeepsOneHomePerField : Obligations.StepKeepsOneHomePerField := by
  intro s t hstep
  obtain ⟨hregs, -, -, -⟩ := step_keeps hstep
  exact hregs

/-- Settles O5: an entry gets the next count as it is made, and entries are otherwise only rewritten under their ID or taken out. -/
theorem stepKeepsJournalIds : Obligations.StepKeepsJournalIds := by
  intro s t hstep
  obtain ⟨-, hjournal, -, -⟩ := step_keeps hstep
  exact hjournal

/-- Settles O6: memories change by writes of bytes, which keep the canonical form. -/
theorem stepKeepsMemoriesCanonical : Obligations.StepKeepsMemoriesCanonical := by
  intro s t hstep ⟨hwf, hok⟩
  obtain ⟨-, -, hhbm, hsrams⟩ := step_keeps hstep
  exact ⟨hhbm hwf, hsrams hok⟩

end Sys2Proof.Machine
end

section
/-!
PROOFS. Frames: what a write of a register field, a posted entry, a raised cause and a recorded syndrome leave as they were
(R18, R21, R433, R436, R439).
-/
namespace Sys2Proof.Machine
open Reg

/-! ### Fields that may change -/

section
variable {s t u : State} {p q : RegKey → Prop} {pg pg' : Page} {f : Fld} {i v d : Nat}

theorem cell_congr (hr : t.regs = s.regs) (hc : t.cfg = s.cfg) (k : RegKey) : t.cell k = s.cell k := by
  simp only [State.cell, hr, hc]

theorem cell_wr_same : (s.wr pg f v i).cell (f.key pg i) = v % 2 ^ f.w := rd_wr_same ..

theorem cell_wr_other {k : RegKey} (hk : k ≠ f.key pg i) : (s.wr pg f v i).cell k = s.cell k := by
  simp only [State.wr, State.cell, State.setCell, lookCell_put_other hk]

theorem OnlyFields.refl : OnlyFields s s p := fun _ _ => rfl

theorem OnlyFields.trans (h : OnlyFields s t p) (h' : OnlyFields t u p) : OnlyFields s u p :=
  fun k hk => (h' k hk).trans (h k hk)

theorem OnlyFields.mono (h : OnlyFields s t p) (hpq : ∀ k, p k → q k) : OnlyFields s t q :=
  fun k hk => h k (fun hp => hk (hpq k hp))

theorem OnlyFields.of_regs (hr : t.regs = s.regs) (hc : t.cfg = s.cfg) : OnlyFields s t p := fun k _ => cell_congr hr hc k

theorem OnlyFields.wr (h : OnlyFields s t p) (hp : p (f.key pg i)) : OnlyFields s (t.wr pg f v i) p :=
  h.trans (fun _ hk => cell_wr_other (fun e => hk (e ▸ hp)))

theorem OnlyFields.bump (h : OnlyFields s t p) (hp : p (f.key pg i)) : OnlyFields s (t.bump pg f i d) p := h.wr hp

theorem OnlyFields.incr (h : OnlyFields s t p) (hp : p (f.key pg i)) : OnlyFields s (t.incr pg f i d) p := h.wr hp

/-- A field outside the frame reads as before. -/
theorem OnlyFields.rd_eq (h : OnlyFields s t p) (hp : ¬ p (f.key pg i)) : t.rd pg f i = s.rd pg f i := h _ hp

theorem OnlyRegs.refl : OnlyRegs s s := ⟨rfl, rfl, rfl, rfl, rfl, rfl, rfl⟩

theorem OnlyRegs.wr (h : OnlyRegs s t) : OnlyRegs s (t.wr pg f v i) := h

theorem rd_bump_same : (s.bump pg f i d).rd pg f i = min (s.rd pg f i + d) (2 ^ f.w - 1) := by
  have hpos : 0 < 2 ^ f.w := Nat.two_pow_pos _
  unfold State.bump satAdd
  rw [rd_wr_same]
  split
  · next hlt => rw [Nat.mod_eq_of_lt hlt, Nat.min_eq_left (by omega)]
  · next hge => rw [Nat.mod_eq_of_lt (by omega), Nat.min_eq_right (by omega)]

/-! ### Beside the registers -/

theorem PostFrame.refl : PostFrame s s := ⟨rfl, rfl, rfl, rfl, rfl, rfl, rfl⟩

theorem PostFrame.trans (h : PostFrame s t) (h' : PostFrame t u) : PostFrame s u := by
  obtain ⟨hcfg, hout, htr, hfree, hpend, htally, hhub⟩ := h
  obtain ⟨hcfg', hout', htr', hfree', hpend', htally', hhub'⟩ := h'
  refine ⟨hcfg'.trans hcfg, hout'.trans hout, htr'.trans htr, hfree'.trans hfree, hpend'.trans hpend, ?_, ?_⟩
  · rw [htally', htally]
  · rw [hhub', hhub]

theorem PostFrame.wr (h : PostFrame s t) : PostFrame s (t.wr pg f v i) := h

end

/-! ### Posted entries -/

/-- The fields posting an entry can write: counters and the drop cause of the die's BUR page. -/
def PostFields (pg : Page) (k : RegKey) : Prop :=
  k.pg = burPage pg ∧ (k.off = 0x0E0 ∨ k.off = 0x098 ∨ (k.off = 0x010 ∧ k.lo = Irq.BUR_DROP))

section
variable {s : State} {pg : Page} {code sev : Nat} {fw host : Bool} {pl : List Nat}

theorem post_onlyFields : OnlyFields s (post s pg code sev fw host pl) (PostFields pg) := by
  have hcount : OnlyFields s (s.incr (burPage pg) BUR_AOC 2) (PostFields pg) := OnlyFields.refl.incr ⟨rfl, .inl rfl⟩
  unfold post
  split
  next => exact hcount.trans (.of_regs rfl rfl)
  next =>
    dsimp only
    split
    · exact (hcount.bump ⟨rfl, .inr (.inl rfl)⟩).wr ⟨rfl, .inr (.inr ⟨rfl, rfl⟩)⟩
    · exact hcount.trans (.of_regs rfl rfl)

theorem post_frame : PostFrame s (post s pg code sev fw host pl) := by
  unfold post
  split
  next => exact ⟨rfl, rfl, rfl, rfl, rfl, rfl, rfl⟩
  next => dsimp only; split <;> exact ⟨rfl, rfl, rfl, rfl, rfl, rfl, rfl⟩

theorem post_tally_burPend {p : Nat} :
    (post s (.tally p) code sev fw host pl).tally.burPend = s.tally.burPend ++ [mkEntry s (.tally p) code sev fw host pl] := rfl

variable {d : Nat} {p : Nat}

theorem post_hub_intake_of_room (h : d = xd0 ∨ intakeCount s d < 64) :
    (post s (.hub d p) code sev fw host pl).hub.intake = s.hub.intake ++ [(d, mkEntry s (.hub d p) code sev fw host pl)] := by
  have hroom : ¬ (d ≠ xd0 ∧ intakeCount (s.incr (burPage (.hub d p)) BUR_AOC 2) d ≥ 64) :=
    fun ⟨hne, hfull⟩ => h.elim hne (Nat.not_lt.mpr hfull)
  simp only [post, hroom, if_false, State.incr_hub]

theorem post_hub_of_full (hne : d ≠ xd0) (hfull : 64 ≤ intakeCount s d) :
    post s (.hub d p) code sev fw host pl =
      ((s.incr (Pg.hBur d) BUR_AOC 2).bump (Pg.hBur d) BUR_CNT_DROPPED sev).wr (Pg.hBur d) (BLK_IRQ_STAT Irq.BUR_DROP) 1 :=
  if_pos ⟨hne, hfull⟩

end

/-! ### Raised causes -/

section
variable {s : State} {pg : Page} {n : Nat} {e : EvInfo}

/-- Raising a cause sets its bit; only where the page is no BUR page may an entry be posted beside it. -/
theorem raise_eq_or_post :
    raise s pg n e = s.wr pg (BLK_IRQ_STAT n) 1 ∨
    (pageBlk s.cfg pg ≠ some .bur ∧ ∃ sev, raise s pg n e = post (s.wr pg (BLK_IRQ_STAT n) 1) pg (0x2000 + n) sev false false e.bytes) := by
  unfold raise
  dsimp only [State.wr_cfg]
  split
  · exact .inl rfl
  · next b hb =>
    split
    · exact .inl rfl
    · next hbur =>
      have hne : pageBlk s.cfg pg ≠ some .bur := fun h => hbur (.inr (Option.some.inj (hb.symm.trans h)))
      split
      · exact .inr ⟨hne, _, rfl⟩
      · split
        · exact .inr ⟨hne, _, rfl⟩
        · exact .inl rfl

theorem raise_onlyFields : OnlyFields s (raise s pg n e) (RaiseFields pg n) := by
  have hbit : OnlyFields s (s.wr pg (BLK_IRQ_STAT n) 1) (RaiseFields pg n) := OnlyFields.refl.wr (.inl ⟨rfl, rfl, rfl⟩)
  rcases raise_eq_or_post with heq | ⟨-, sev, heq⟩ <;> rw [heq]
  · exact hbit
  · exact hbit.trans (post_onlyFields.mono fun k ⟨hpg, hoff⟩ => .inr ⟨hpg, hoff.imp_right (Or.imp_right And.left)⟩)

theorem raise_frame : PostFrame s (raise s pg n e) := by
  rcases raise_eq_or_post with heq | ⟨-, sev, heq⟩ <;> rw [heq]
  · exact PostFrame.refl.wr
  · exact PostFrame.refl.wr.trans post_frame

theorem rd_raise_of_not_posted (h : pg ≠ burPage pg ∨ pageBlk s.cfg pg = some .bur) : (raise s pg n e).rd pg (BLK_IRQ_STAT n) = 1 := by
  rcases h with hpg | hbur
  · exact rd_raise_irq hpg
  · rcases raise_eq_or_post with heq | ⟨hne, -⟩
    · rw [heq, rd_wr_same]; rfl
    · exact absurd hbur hne

end

/-! ### Recorded syndromes -/

/-- What recording a syndrome writes before an entry may be posted. -/
def synWrites (s : State) (pg : Page) (code : Nat) (ag : Agent) (st : Bool) (off detail : Nat) : State :=
  ((((((((s.wr pg BLK_SYNDROME_CODE code).bump pg BLK_SYNDROME_COUNT).wr pg BLK_SYNDROME_INFO_OFFSET off).wr pg
    BLK_SYNDROME_INFO_AGENT ag.code).wr pg BLK_SYNDROME_INFO_STAGED (b2n st)).wr pg BLK_SYNDROME_INFO_DETAIL detail).wr pg
    (BLK_IRQ_STAT Irq.SYN) 1).incr (burPage pg) BUR_AOC 1)

section
variable {s : State} {pg : Page} {code : Nat} {ag : Agent} {st : Bool} {off detail : Nat}

theorem syn_eq_or_post : syn s pg code ag st off detail = synWrites s pg code ag st off detail ∨
    ∃ sev pl, syn s pg code ag st off detail = post (synWrites s pg code ag st off detail) pg (0x1000 + code) sev false false pl := by
  unfold syn
  dsimp only
  split
  · exact .inr ⟨2, _, rfl⟩
  · exact .inl rfl

theorem synWrites_onlyFields : OnlyFields s (synWrites s pg code ag st off detail) (SynFields pg) := by
  have hsyn (f : Fld) (h : f.off = 0x018 ∨ f.off = 0x01C ∨ (f.off = 0x010 ∧ f.lo = 0)) : SynFields pg (f.key pg 0) := .inl ⟨rfl, h⟩
  unfold synWrites
  exact (((((((OnlyFields.refl.wr (hsyn _ (by decide))).bump (hsyn _ (by decide))).wr (hsyn _ (by decide))).wr (hsyn _ (by decide))).wr
    (hsyn _ (by decide))).wr (hsyn _ (by decide))).wr (hsyn _ (by decide))).incr (.inr ⟨rfl, .inl rfl⟩)

theorem synWrites_frame : PostFrame s (synWrites s pg code ag st off detail) := by
  unfold synWrites
  exact PostFrame.refl.wr.wr.wr.wr.wr.wr.wr.wr

theorem syn_onlyFields : OnlyFields s (syn s pg code ag st off detail) (SynFields pg) := by
  rcases syn_eq_or_post with heq | ⟨sev, pl, heq⟩ <;> rw [heq]
  · exact synWrites_onlyFields
  · exact synWrites_onlyFields.trans (post_onlyFields.mono fun k ⟨hpg, hoff⟩ => .inr ⟨hpg, hoff.imp_right (Or.imp_right And.left)⟩)

theorem syn_frame : PostFrame s (syn s pg code ag st off detail) := by
  rcases syn_eq_or_post with heq | ⟨sev, pl, heq⟩ <;> rw [heq]
  · exact synWrites_frame
  · exact synWrites_frame.trans post_frame

variable {f : Fld} {pg' : Page} {i : Nat}

/-- The entry a syndrome posts leaves the syndrome as it was written. -/
theorem rd_syn_eq_synWrites (hf : f.off = 0x018 ∨ f.off = 0x01C ∨ (f.off = 0x010 ∧ f.lo = Irq.SYN)) :
    (syn s pg code ag st off detail).rd pg' f i = (synWrites s pg code ag st off detail).rd pg' f i := by
  have hno : ∀ pg'', ¬ PostFields pg'' (f.key pg' i) := by
    rintro pg'' ⟨-, hoff⟩
    have h17 : Irq.BUR_DROP ≠ Irq.SYN := by decide
    simp only [Fld.key] at hoff
    grind
  rcases syn_eq_or_post with heq | ⟨sev, pl, heq⟩ <;> rw [heq]
  exact post_onlyFields.rd_eq (hno _)

end

/-- Settles O9: each field of the syndrome reads as its own write left it, because the later writes are of other fields. -/
theorem syndromeRecording : Obligations.SyndromeRecording := by
  unfold Obligations.SyndromeRecording
  intro s pg code ag st off detail
  dsimp only
  iterate 7 rw [rd_syn_eq_synWrites (by decide)]
  refine ⟨?code, ?count, ?off, ?agent, ?staged, ?detail, ?irq, syn_onlyFields, syn_frame⟩
  all_goals
    unfold synWrites
    simp (disch := decide) only [rd_incr_off, rd_wr_off, rd_wr_lo, rd_bump_lo, rd_wr_same, rd_bump_same]
  case code | off | agent | detail | count | irq => rfl
  case staged => cases st <;> rfl

/-- Settles O10: the bit set is the one write of raising that stays, and posting appends to the Tally's entries or to the die's intake, or
counts the drop. -/
theorem causesAndEntries : Obligations.CausesAndEntries := by
  unfold Obligations.CausesAndEntries
  refine ⟨fun s pg n e hpg => ⟨rd_raise_of_not_posted hpg, raise_onlyFields, raise_frame⟩,
    fun s p code sev fw host pl => post_tally_burPend, fun s d p code sev fw host pl hroom => post_hub_intake_of_room hroom,
    fun s d p code sev fw host pl hne hfull => ?_⟩
  rw [post_hub_of_full hne hfull]
  refine ⟨rfl, ?_⟩
  rw [rd_wr_off (by decide), rd_bump_same, rd_incr_off (by decide)]

end Sys2Proof.Machine
end

section
/-!
PROOFS. Accesses of registers and pages (R12, R16, R18, R20, R22): writes that reach no register, writes that are kept or refused, SYN_CLR and the
soft reset of a page.
-/
namespace Sys2Proof.Machine
open Reg Sys2Proof.Laws

/-! ### Writes that reach nothing, and writes that are kept -/

section
variable {s : State} {b : Blk} {pg : Page} {ag : Agent} {off v : Nat} {r : RegS} {st : Bool}

theorem busWrite_no_page (hb : pageBlk s.cfg pg = none) : busWrite s pg off ag v = absent s pg ag off := by
  simp [busWrite, hb]

theorem busWrite_misaligned (hb : pageBlk s.cfg pg = some b) (ha : off % 4 ≠ 0) : busWrite s pg off ag v = syn s pg Syn.RANGE ag false off := by
  simp [busWrite, hb, ha]

theorem busWrite_no_register (hb : pageBlk s.cfg pg = some b) (ha : off % 4 = 0) (hle : 0x030 ≤ off) (hlt : off < 0x840)
    (hr : findReg s.cfg b pg off = none) : busWrite s pg off ag v = absent s pg ag off := by
  simp [busWrite, hb, ha, hr, Nat.not_lt.mpr hle, Nat.not_le.mpr hlt]

theorem busWrite_no_staged (hb : pageBlk s.cfg pg = some b) (ha : off % 4 = 0) (hle : 0x840 ≤ off)
    (hr : ∀ r, findReg s.cfg b pg (off - 0x800) = some r → r.ty ≠ .rwa) : busWrite s pg off ag v = absent s pg ag off := by
  have hlt : ¬ off < 0x030 := by omega
  cases hfind : findReg s.cfg b pg (off - 0x800) with
  | none => simp [busWrite, hb, ha, hlt, hle, hfind]
  | some r => simp [busWrite, hb, ha, hlt, hle, hfind, hr r hfind]

theorem absent_live (hlt : off < 0x840) : absent s pg ag off = syn s (absentPage s pg.part) Syn.ABSENT ag false off := by
  simp [absent, Nat.not_le.mpr hlt]

theorem absent_staged (hle : 0x840 ≤ off) : absent s pg ag off = syn s (absentPage s pg.part) Syn.ABSENT ag true off := by
  simp [absent, hle]

theorem keepWrite_of_accepted (hc : keepRefusal s b pg r st ag v = 0) :
    keepWrite s b pg r st ag v = keptHook s (r.flds.foldl (fun u f => keepField u pg (bankIdx s b pg r.off ag) st (r.ty == .rwa && !st)
      (reservedOut s.cfg b pg r.off v) f) s) b pg r st := by
  simp [keepWrite, hc]

theorem absentPage_of_first (h : s.rd (Pg.cab 56) CAB_STATE_ROLE = 1) : absentPage s .hub = Pg.cab 56 := by
  simp [absentPage, h]

theorem absentPage_of_second (h : s.rd (Pg.cab 56) CAB_STATE_ROLE ≠ 1) (h' : s.rd (Pg.cab 57) CAB_STATE_ROLE = 1) :
    absentPage s .hub = Pg.cab 57 := by
  simp [absentPage, h, h']

end

/-- Settles O11: each clause is one of the branches of `busWrite`. -/
theorem registerAccesses : Obligations.RegisterAccesses := by
  unfold Obligations.RegisterAccesses
  simp only [exec_registerWrite, execRegisterWrite, Host.Outcome.next.injEq]
  refine ⟨fun s a ag v => ⟨busWrite_no_page, fun b hb ha hle hlt hr => ?_, fun b hb ha hle hr => ?_, rfl, absentPage_of_first,
      absentPage_of_second⟩,
    fun s a ag v b hb => ⟨busWrite_misaligned hb, fun r ha hle hlt hr hact hro => busWrite_live_kept hb ha hle hlt hr hact hro,
      fun r ha hle hr hrwa => busWrite_staged hb ha hle hr hrwa, fun pg r st w hne => keepWrite_of_keepRefusal rfl hne,
      fun pg r st w hc => keepWrite_of_accepted hc⟩⟩
  · rw [busWrite_no_register hb ha hle hlt hr, absent_live hlt]
  · rw [busWrite_no_staged hb ha hle hr, absent_staged hle]

/-! ### Clearing a syndrome (R18) -/

section
variable {s : State} {pg : Page}

theorem clearSyn_onlyFields : OnlyFields s (clearSyn s pg) (fun k => k.pg = pg ∧ (k.off = 0x018 ∨ k.off = 0x01C)) := by
  unfold clearSyn
  exact (((((OnlyFields.refl.wr ⟨rfl, .inl rfl⟩).wr ⟨rfl, .inl rfl⟩).wr ⟨rfl, .inr rfl⟩).wr ⟨rfl, .inr rfl⟩).wr ⟨rfl, .inr rfl⟩).wr
    ⟨rfl, .inr rfl⟩

theorem clearSyn_onlyRegs : OnlyRegs s (clearSyn s pg) := by
  unfold clearSyn
  exact OnlyRegs.refl.wr.wr.wr.wr.wr.wr

theorem clearSyn_cleared : (clearSyn s pg).rd pg BLK_SYNDROME_CODE = 0 ∧ (clearSyn s pg).rd pg BLK_SYNDROME_COUNT = 0 ∧
    (clearSyn s pg).rd pg BLK_SYNDROME_INFO_OFFSET = 0 ∧ (clearSyn s pg).rd pg BLK_SYNDROME_INFO_AGENT = 0 ∧
    (clearSyn s pg).rd pg BLK_SYNDROME_INFO_STAGED = 0 ∧ (clearSyn s pg).rd pg BLK_SYNDROME_INFO_DETAIL = 0 := by
  unfold clearSyn
  simp (disch := decide) only [rd_wr_off, rd_wr_lo, rd_wr_same, Nat.zero_mod, and_self]

theorem execSynClr_of_authorised {b : Blk} {ag : Agent} (hb : pageBlk s.cfg pg = some b) (hag : cabinetOnly b pg 0x008 = false ∨ ag = .cabinet) :
    execSynClr pg ag s = .next (clearSyn s pg) := by
  rcases hag with hag | hag <;> simp [execSynClr, hb, hag]

end

/-! ### The soft reset of a page (R20) -/

section
variable {s t : State} {pg : Page} {k : RegKey}

theorem lookCell_filter_of_pos {c : Cells} {p : RegKey → Bool} (hk : p k = true) : lookCell (c.filter (fun x => p x.1)) k = lookCell c k := by
  induction c with
  | nil => rfl
  | cons a c ih =>
    by_cases ha : p a.1 = true
    · simp only [List.filter_cons, ha, if_true, lookCell, ih]
    · have hne : a.1 ≠ k := fun e => ha (e ▸ hk)
      rw [List.filter_cons_of_neg (by simpa using ha), lookCell, if_neg hne, ih]

theorem lookCell_eq_none {c : Cells} (hk : ∀ x ∈ c, x.1 ≠ k) : lookCell c k = none := by
  induction c with
  | nil => rfl
  | cons a c ih =>
    rw [lookCell, if_neg (hk a List.mem_cons_self)]
    exact ih (fun x hx => hk x (List.mem_cons_of_mem _ hx))

theorem cell_resetCells_of_pos {p : RegKey → Bool} (hk : p k = true) : (resetCells s p).cell k = resetVal s.cfg k := by
  have hnone : lookCell (s.regs.filter (fun x => !p x.1)) k = none :=
    lookCell_eq_none fun x hx e => by
      have hx' := (List.mem_filter.mp hx).2
      rw [e, hk] at hx'
      exact Bool.false_ne_true hx'
  simp only [State.cell, resetCells, hnone, Option.getD_none]

theorem cell_resetCells_of_neg {p : RegKey → Bool} (hk : p k = false) : (resetCells s p).cell k = s.cell k := by
  simp only [State.cell, resetCells, lookCell_filter_of_pos (p := fun k => !p k) (k := k) (by simp [hk])]

/-- A plain reset of a page: every field of the page is back at its reset value; beside the page's registers only the state of its own block,
none of it read through the bus, may have changed. -/
structure PageReset (s t : State) (pg : Page) : Prop where
  regs : t.regs = (resetPage s pg keepNone).regs
  cfg : t.cfg = s.cfg
  out : t.out = s.out
  hbm : t.hub.hbm = s.hub.hbm
  tiles : t.hub.tiles = s.hub.tiles
  cabinet : t.hub.cabinet = s.hub.cabinet
  lcs : ∀ p, t.lcs p = s.lcs p

theorem PageReset.cell_page (h : PageReset s t pg) (hk : k.pg = pg) : t.cell k = resetVal s.cfg k := by
  rw [cell_congr (s := resetPage s pg keepNone) h.regs h.cfg]
  exact cell_resetCells_of_pos (by simp [hk, keepNone])

theorem PageReset.onlyFields (h : PageReset s t pg) : OnlyFields s t (fun k => k.pg = pg) := by
  intro k hk
  rw [cell_congr (s := resetPage s pg keepNone) h.regs h.cfg]
  exact cell_resetCells_of_neg (by simp [hk])

end

/-- The one page of a Tally that some blocks have. -/
def tallyPageOf : Blk → Page
  | .hot => Pg.hot
  | .stp => Pg.stp
  | .nrg => Pg.nrg
  | .pwrT => Pg.tPwr
  | .cap => Pg.cap
  | .seal => Pg.sealP
  | .dgs => Pg.dgs
  | _ => Pg.tly

/-- The blocks of a Hub's pages. -/
theorem hubBlk_mem {c : Parts} {d p : Nat} {b : Blk} (hb : hubBlk c d p = some b) :
    b ∈ [Blk.lcs, .stw, .pwrH, .bur, .trc, .frz, .cab, .tst, .ing, .trs, .mem, .tap, .cmp, .rch, .gsi, .sec, .til, .hut] := by
  unfold hubBlk at hb
  repeat' split at hb
  all_goals cases hb
  all_goals decide

/-- The blocks whose soft reset resets their page and keeps nothing are a Tally's one page of its block, or a MEM or GSI page of the Hub. -/
theorem page_of_plainReset {c : Parts} {pg : Page} {b : Blk} (hb : pageBlk c pg = some b)
    (hmem : b ∈ [Blk.hot, .stp, .nrg, .pwrT, .cap, .seal, .dgs, .mem, .gsi]) :
    (pg = tallyPageOf b ∧ b ∈ [Blk.hot, .stp, .nrg, .pwrT, .cap, .seal, .dgs]) ∨ (pg.isTally = false ∧ b ∈ [Blk.mem, .gsi]) := by
  cases pg with
  | tally p =>
    left
    unfold pageBlk tallyBlk at hb
    split at hb <;> grind [tallyPageOf, Pg.hot, Pg.stp, Pg.nrg, Pg.tPwr, Pg.cap, Pg.sealP, Pg.dgs]
  | hub d p =>
    refine .inr ⟨rfl, ?_⟩
    have hhub := hubBlk_mem hb
    clear hb
    revert b
    decide

theorem softReset_of_accepted {s : State} {b : Blk} {pg : Page} {ag : Agent} (hb : pageBlk s.cfg pg = some b) (hacc : srstRefusal s b pg ag = 0) :
    exec (.softReset pg ag) s =
      .next (if pg.isTally then (if b = .trc then dropTrc s pg else tallySoftReset s b pg) else hubSoftReset s b pg) := by
  simp [exec_softReset, execSoftReset, hb, softReset, hacc]

theorem softReset_of_refused {s : State} {b : Blk} {pg : Page} {ag : Agent} (hb : pageBlk s.cfg pg = some b) (href : srstRefusal s b pg ag ≠ 0) :
    exec (.softReset pg ag) s = .next (syn s pg (srstRefusal s b pg ag) ag false 0x008) := by
  simp [exec_softReset, execSoftReset, hb, softReset, href]

theorem resetPage_pageReset {s : State} {pg : Page} : PageReset s (resetPage s pg keepNone) pg :=
  ⟨rfl, rfl, rfl, rfl, rfl, rfl, fun p => by cases p <;> rfl⟩

/-- A reset of a page with other values of the Tally's fields, the Longcase apart. -/
theorem PageReset.tally {s : State} {pg : Page} {t : Tally} (hlcs : t.lcs = s.tally.lcs) :
    PageReset s { resetPage s pg keepNone with tally := t } pg :=
  ⟨rfl, rfl, rfl, rfl, rfl, rfl, fun p => by cases p; exacts [hlcs, rfl]⟩

theorem tallySoftReset_pageReset {s : State} {b : Blk} (hmem : b ∈ [Blk.hot, .stp, .nrg, .pwrT, .cap, .seal, .dgs]) :
    PageReset s (tallySoftReset s b (tallyPageOf b)) (tallyPageOf b) := by
  simp only [List.mem_cons, List.not_mem_nil, or_false] at hmem
  rcases hmem with rfl | rfl | rfl | rfl | rfl | rfl | rfl
  · exact resetPage_pageReset
  all_goals exact PageReset.tally rfl

theorem hubSoftReset_pageReset {s : State} {b : Blk} {pg : Page} (hmem : b ∈ [Blk.mem, .gsi]) : PageReset s (hubSoftReset s b pg) pg := by
  simp only [List.mem_cons, List.not_mem_nil, or_false] at hmem
  rcases hmem with rfl | rfl <;> exact ⟨rfl, rfl, rfl, rfl, rfl, rfl, fun p => by cases p <;> rfl⟩

theorem softReset_pageReset {s : State} {b : Blk} {pg : Page} {ag : Agent} (hb : pageBlk s.cfg pg = some b)
    (hmem : b ∈ [Blk.hot, .stp, .nrg, .pwrT, .cap, .seal, .dgs, .mem, .gsi]) (hacc : srstRefusal s b pg ag = 0) :
    ∃ t, exec (.softReset pg ag) s = .next t ∧ PageReset s t pg := by
  refine ⟨_, softReset_of_accepted hb hacc, ?_⟩
  rcases page_of_plainReset hb hmem with ⟨rfl, htally⟩ | ⟨hhub, hmem⟩
  · have hpage : (tallyPageOf b).isTally = true ∧ b ≠ .trc := by
      clear hb hmem hacc
      revert b
      decide
    rw [if_pos hpage.1, if_neg hpage.2]
    exact tallySoftReset_pageReset htally
  · rw [hhub, if_neg Bool.false_ne_true]
    exact hubSoftReset_pageReset hmem

/-- Settles O13: SYN_CLR writes the six fields of the syndrome; a plain soft reset forgets what is stored of the page. -/
theorem syndromeClearAndSoftReset : Obligations.SyndromeClearAndSoftReset := by
  unfold Obligations.SyndromeClearAndSoftReset
  refine ⟨fun s pg ag b hb hag => ?clear, fun s pg ag b hb hmem hacc => ?plain, fun s pg ag b hb hacc => softReset_of_accepted hb hacc,
    fun s pg ag b hb href => softReset_of_refused hb href⟩
  case clear =>
    obtain ⟨hcode, hcount, hoff, hagent, hstaged, hdetail⟩ := clearSyn_cleared (s := s) (pg := pg)
    exact ⟨_, execSynClr_of_authorised hb hag, hcode, hcount, hoff, hagent, hstaged, hdetail, clearSyn_onlyFields, clearSyn_onlyRegs⟩
  case plain =>
    obtain ⟨t, ht, hreset⟩ := softReset_pageReset hb hmem hacc
    exact ⟨t, ht, fun k hk => hreset.cell_page hk, hreset.onlyFields, hreset.out, hreset.hbm, hreset.tiles, hreset.cabinet, hreset.lcs⟩

end Sys2Proof.Machine
end

section
/-!
PROOFS. Appointments (R23, R26, R507): ARM and CANCEL, and the application of staged copies.
-/
namespace Sys2Proof.Machine
open Reg Sys2Proof.Laws

/-! ### ARM and CANCEL -/

section
variable {s : State} {pg : Page} {b : Blk} {ag : Agent}

theorem apptArm_of_access_refused (hb : pageBlk s.cfg pg = some b) (hacc : apptAccess s pg b ag ≠ 0) :
    exec (.apptArm pg ag) s = .next (syn s pg (apptAccess s pg b ag) ag false 0x02C) := by
  simp [exec_apptArm, execApptArm, hb, apptCtrlWrite, hacc]

theorem apptCancel_of_access_refused (hb : pageBlk s.cfg pg = some b) (hacc : apptAccess s pg b ag ≠ 0) :
    exec (.apptCancel pg ag) s = .next (syn s pg (apptAccess s pg b ag) ag false 0x02C) := by
  simp [exec_apptCancel, execApptCancel, hb, apptCtrlWrite, hacc]

/-- An ARM that may be made is checked. -/
theorem apptArm_of_access (hb : pageBlk s.cfg pg = some b) (hacc : apptAccess s pg b ag = 0) :
    exec (.apptArm pg ag) s = .next (armChecked s pg b ag) := by
  simp [exec_apptArm, execApptArm, hb, apptCtrlWrite, hacc, show bit 1 0 = true from rfl, show bit 1 1 = false from rfl]

theorem apptCancel_of_access (hb : pageBlk s.cfg pg = some b) (hacc : apptAccess s pg b ag = 0) :
    exec (.apptCancel pg ag) s = .next (cancelChecked s pg ag) := by
  simp [exec_apptCancel, execApptCancel, hb, apptCtrlWrite, hacc, show bit 2 0 = false from rfl, show bit 2 1 = true from rfl]

end

/-! ### The application of staged copies -/

section
variable {s : State} {pg : Page} {b : Blk}

/-- RWA registers are live registers: their offsets leave room for the staged copies (R22). -/
theorem isRwa_off_lt {off : Nat} (h : isRwa b off = true) : off < 0x800 := by
  obtain ⟨r, hr, hrwa⟩ := List.any_eq_true.mp h
  simp only [Bool.and_eq_true, beq_iff_eq] at hrwa
  have hall : ∀ r ∈ blkRegs b, r.off < 0x800 := by cases b <;> decide
  exact hrwa.2 ▸ hall r hr

theorem lookCell_append (c d : Cells) (k : RegKey) : lookCell (c ++ d) k = (lookCell c k).or (lookCell d k) := by
  induction c with
  | nil => rfl
  | cons a c ih =>
    simp only [List.cons_append, lookCell]
    split
    · rfl
    · exact ih

/-- The key is not that of a live RWA register of the page. -/
def notLiveRwa (pg : Page) (b : Blk) (k : RegKey) : Bool := !(k.pg == pg && isRwa b k.off)

/-- The cells of a page's staged copies, moved to the live registers. -/
def stagedToLive (c : Cells) (pg : Page) (b : Blk) : Cells :=
  (c.filter (fun c => c.1.pg == pg && decide (0x800 ≤ c.1.off) && isRwa b (c.1.off - 0x800))).map
    (fun c => ({ c.1 with off := c.1.off - 0x800 }, c.2))

theorem copyStaged_regs : (copyStaged s pg b).regs =
    s.regs.filter (fun c => notLiveRwa pg b c.1) ++ stagedToLive s.regs pg b := rfl

theorem stagedToLive_key {c : Cells} {x : RegKey × Nat} (hx : x ∈ stagedToLive c pg b) : x.1.pg = pg ∧ isRwa b x.1.off = true := by
  obtain ⟨y, hy, rfl⟩ := List.mem_map.mp hx
  have hy' := (List.mem_filter.mp hy).2
  simp only [Bool.and_eq_true, beq_iff_eq, decide_eq_true_eq] at hy'
  exact ⟨hy'.1.1, hy'.2⟩

theorem lookCell_stagedToLive {c : Cells} {off i lo : Nat} (hrwa : isRwa b off = true) :
    lookCell (stagedToLive c pg b) ⟨pg, off, i, lo⟩ = lookCell c ⟨pg, off + 0x800, i, lo⟩ := by
  induction c with
  | nil => rfl
  | cons a c ih =>
    obtain ⟨⟨pg', off', i', lo'⟩, v⟩ := a
    by_cases hkey : pg' = pg ∧ off' = off + 0x800 ∧ i' = i ∧ lo' = lo
    · obtain ⟨rfl, rfl, rfl, rfl⟩ := hkey
      simp [stagedToLive, lookCell, hrwa]
    · have hne : ¬ (⟨pg', off', i', lo'⟩ : RegKey) = ⟨pg, off + 0x800, i, lo⟩ := by simpa using hkey
      rw [lookCell, if_neg hne, ← ih, stagedToLive, List.filter_cons]
      split
      · next hsel =>
        simp only [Bool.and_eq_true, beq_iff_eq, decide_eq_true_eq] at hsel
        have hne' : ¬ (⟨pg', off' - 0x800, i', lo'⟩ : RegKey) = ⟨pg, off, i, lo⟩ := by
          rintro ⟨⟩
          exact hkey ⟨rfl, by omega, rfl, rfl⟩
        rw [List.map_cons, lookCell, if_neg hne']
        rfl
      · rfl

theorem copyStaged_cell {off i lo : Nat} (hrwa : isRwa b off = true) :
    (copyStaged s pg b).cell ⟨pg, off, i, lo⟩ = s.cell ⟨pg, off + 0x800, i, lo⟩ := by
  have hlive : lookCell (s.regs.filter (fun c => notLiveRwa pg b c.1)) ⟨pg, off, i, lo⟩ = none := by
    refine lookCell_eq_none fun x hx e => ?_
    have hx' := (List.mem_filter.mp hx).2
    simp [e, hrwa, notLiveRwa] at hx'
  have hreset : resetVal s.cfg ⟨pg, off, i, lo⟩ = resetVal s.cfg ⟨pg, off + 0x800, i, lo⟩ := by
    simp [resetVal, Nat.not_le.mpr (isRwa_off_lt hrwa)]
  rw [State.cell, copyStaged_regs, lookCell_append, hlive, Option.none_or, lookCell_stagedToLive hrwa]
  exact congrArg _ hreset

theorem copyStaged_onlyFields : OnlyFields s (copyStaged s pg b) (fun k => k.pg = pg ∧ isRwa b k.off = true) := by
  intro k hk
  have hnone : lookCell (stagedToLive s.regs pg b) k = none := lookCell_eq_none fun x hx e => hk (e ▸ stagedToLive_key hx)
  rw [State.cell, copyStaged_regs, lookCell_append, hnone, Option.or_none, lookCell_filter_of_pos (by simpa [notLiveRwa, imp_iff_not_or] using hk)]
  rfl

theorem copyStaged_onlyRegs : OnlyRegs s (copyStaged s pg b) := ⟨rfl, rfl, rfl, rfl, rfl, rfl, rfl⟩

/-- On a page of the Hub nothing comes before the copy. -/
theorem applyPage_hub (hb : pageBlk s.cfg pg = some b) (hhub : pg.isTally = false) (hdue : apptDue s pg = true) :
    applyPage s pg = appliedHook s (raise (((copyStaged s pg b).wr pg BLK_APPT_CTRL_STATE Appt.APPLIED).incr pg
      BLK_APPT_CTRL_APPLIED_CNT) pg Irq.APPT_APPLIED) pg b := by
  obtain ⟨d, p, rfl⟩ : ∃ d p, pg = .hub d p := by
    cases pg with
    | tally p => cases hhub
    | hub d p => exact ⟨d, p, rfl⟩
  have hnot : ¬ (b = .cnt ∨ b = .hot ∨ b = .nrg) := by
    have hmem := hubBlk_mem hb
    clear hb
    revert b
    decide
  simp only [applyPage, hb, hdue, Bool.not_true, Bool.false_eq_true, if_false, hnot]

theorem apptApply_of_due (hdue : apptDue s pg = true) : exec (.apptApply pg) s = .next (applyDue s pg) := by
  simp [exec_apptApply, execApptApply, hdue]

theorem applyDue_hub (hhub : pg.isTally = false) :
    applyDue s pg = if pageBlk s.cfg pg = some .frz then applyPage ((dueOfUnit s pg).foldl applyPage s) pg else applyPage s pg := by
  cases pg with
  | tally p => cases hhub
  | hub d p => rfl

end

/-- Settles O14: ARM and CANCEL are the branches of `armChecked` and `cancelChecked`; the staged copies are moved as cells, and no other cell is
touched. -/
theorem appointmentTransitions : Obligations.AppointmentTransitions := by
  unfold Obligations.AppointmentTransitions
  refine ⟨fun s pg ag b hb => ⟨fun hacc => ⟨apptArm_of_access_refused hb hacc, apptCancel_of_access_refused hb hacc⟩, fun hacc harm => ?armed,
      fun hacc harm => ?idle⟩,
    fun s pg b hb hhub hne hdue => ?apply, fun s pg hb hhub hdue => ?freeze, fun s p hdue => apptApply_of_due hdue,
    fun s pg b off i lo hrwa => copyStaged_cell hrwa, fun s pg b => ⟨copyStaged_onlyFields, copyStaged_onlyRegs⟩⟩
  case armed =>
    rw [apptArm_of_access hb hacc, apptCancel_of_access hb hacc]
    simp only [armChecked, cancelChecked, harm, if_true, and_self]
  case idle =>
    rw [apptArm_of_access hb hacc, apptCancel_of_access hb hacc]
    simp only [armChecked, cancelChecked, harm, Bool.false_eq_true, if_false, Host.Outcome.next.injEq]
    refine ⟨trivial, fun hunset => if_pos hunset, fun hset hlate => ?_, fun hset hahead hbad => ?_, fun hset hahead hok => ?_⟩
    · simp [hset, hlate]
    · simp [hset, Nat.not_le.mpr hahead, hbad]
    · simp [hset, Nat.not_le.mpr hahead, hok]
  case apply =>
    rw [apptApply_of_due hdue, applyDue_hub hhub, if_neg (by simpa [hb] using hne), applyPage_hub hb hhub hdue]
  case freeze =>
    rw [apptApply_of_due hdue, applyDue_hub hhub, if_pos hb]

end Sys2Proof.Machine
end

section
/-!
PROOFS. The Longcase's reset and its one step (R59, R62, R67, R92).
-/
namespace Sys2Proof.Machine
open Reg Sys2Proof.Laws

/-! ### What refusing an appointment writes (R23, R507) -/

section
variable {s t : State} {pg pg' : Page} {code : Nat} {ag : Agent} {p : Part}

/-- The fields refusing the appointment of a page can write: common registers of the page, and what its BUR page counts. -/
def RefuseFields (pg : Page) (k : RegKey) : Prop :=
  (k.pg = pg ∧ k.off < 0x030) ∨ (k.pg = burPage pg ∧ (k.off = 0x0E0 ∨ k.off = 0x098 ∨ k.off = 0x010))

theorem SynFields.refuse {k : RegKey} (h : SynFields pg k) : RefuseFields pg k := by
  rcases h with ⟨hpg, hoff⟩ | hbur
  · exact .inl ⟨hpg, by omega⟩
  · exact .inr hbur

theorem RaiseFields.refuse {k : RegKey} {n : Nat} (h : RaiseFields pg n k) : RefuseFields pg k := by
  rcases h with ⟨hpg, hoff, -⟩ | hbur
  · exact .inl ⟨hpg, by omega⟩
  · exact .inr hbur

theorem apptRefuse_onlyFields : OnlyFields s (apptRefuse s pg code ag) (RefuseFields pg) := by
  unfold apptRefuse
  exact ((OnlyFields.refl.wr (.inl ⟨rfl, (by decide : BLK_APPT_CTRL_STATE.off < 0x030)⟩)).trans (syn_onlyFields.mono fun _ => SynFields.refuse)).trans
    (raise_onlyFields.mono fun _ => RaiseFields.refuse)

theorem apptRefuse_frame : PostFrame s (apptRefuse s pg code ag) := by
  unfold apptRefuse
  exact (PostFrame.refl.wr.trans syn_frame).trans raise_frame

theorem PostFrame.lcs (h : PostFrame s t) : t.lcs p = s.lcs p := by
  obtain ⟨-, -, -, -, -, htally, hhub⟩ := h
  cases p
  · simp only [State.lcs]; rw [htally]
  · simp only [State.lcs]; rw [hhub]

/-- After the refusal the page shows it, with its syndrome. -/
theorem apptRefuse_shown (hcode : code < 256) :
    (apptRefuse s pg code ag).rd pg BLK_APPT_CTRL_STATE = Appt.REFUSED ∧ (apptRefuse s pg code ag).rd pg BLK_SYNDROME_CODE = code := by
  unfold apptRefuse
  rw [rd_raise (by decide) (by decide) (by decide), rd_syn (by decide) (by decide) (by decide) (by decide) (by decide), rd_wr_same,
    rd_raise (by decide) (by decide) (by decide), rd_syn_code hcode]
  exact ⟨rfl, rfl⟩

/-- A refusal of another page's appointment leaves them as they are; a second one of the same page shows the same. -/
theorem apptRefuse_keeps_shown (hcode : code < 256)
    (h : s.rd pg BLK_APPT_CTRL_STATE = Appt.REFUSED ∧ s.rd pg BLK_SYNDROME_CODE = code) :
    (apptRefuse s pg' code ag).rd pg BLK_APPT_CTRL_STATE = Appt.REFUSED ∧ (apptRefuse s pg' code ag).rd pg BLK_SYNDROME_CODE = code := by
  by_cases hpg : pg' = pg
  · exact hpg ▸ apptRefuse_shown hcode
  · have hno : ∀ f : Fld, f.off ≠ 0x0E0 ∧ f.off ≠ 0x098 ∧ f.off ≠ 0x010 → ¬ RefuseFields pg' (f.key pg 0) := by
      rintro f ⟨h1, h2, h3⟩ (⟨e, -⟩ | ⟨-, hoff⟩)
      · exact hpg e.symm
      · simp only [Fld.key] at hoff
        omega
    rw [apptRefuse_onlyFields.rd_eq (hno _ (by decide)), apptRefuse_onlyFields.rd_eq (hno _ (by decide))]
    exact h

/-! ### The refusal of every armed page (R67) -/

theorem foldl_apptRefuse_onlyFields {l : List Page} :
    OnlyFields s (l.foldl (fun s pg => apptRefuse s pg code) s) (fun k => ∃ pg ∈ l, RefuseFields pg k) := by
  induction l generalizing s with
  | nil => exact .refl
  | cons a l ih =>
    exact (apptRefuse_onlyFields.mono fun k hk => ⟨a, List.mem_cons_self, hk⟩).trans
      (ih.mono fun k ⟨pg, hpg, hk⟩ => ⟨pg, List.mem_cons_of_mem _ hpg, hk⟩)

theorem foldl_apptRefuse_frame {l : List Page} : PostFrame s (l.foldl (fun s pg => apptRefuse s pg code) s) := by
  induction l generalizing s with
  | nil => exact .refl
  | cons a l ih => exact apptRefuse_frame.trans ih

theorem foldl_apptRefuse_keeps_shown {l : List Page} (hcode : code < 256)
    (h : s.rd pg BLK_APPT_CTRL_STATE = Appt.REFUSED ∧ s.rd pg BLK_SYNDROME_CODE = code) :
    (l.foldl (fun s pg => apptRefuse s pg code) s).rd pg BLK_APPT_CTRL_STATE = Appt.REFUSED ∧
      (l.foldl (fun s pg => apptRefuse s pg code) s).rd pg BLK_SYNDROME_CODE = code := by
  induction l generalizing s with
  | nil => exact h
  | cons a l ih => exact ih (apptRefuse_keeps_shown hcode h)

theorem foldl_apptRefuse_shown {l : List Page} (hcode : code < 256) (hpg : pg ∈ l) :
    (l.foldl (fun s pg => apptRefuse s pg code) s).rd pg BLK_APPT_CTRL_STATE = Appt.REFUSED ∧
      (l.foldl (fun s pg => apptRefuse s pg code) s).rd pg BLK_SYNDROME_CODE = code := by
  induction l generalizing s with
  | nil => cases hpg
  | cons a l ih =>
    rcases List.mem_cons.mp hpg with rfl | hpg
    · exact foldl_apptRefuse_keeps_shown (s := apptRefuse s pg code) hcode (apptRefuse_shown hcode)
    · exact ih hpg

/-! ### The reset itself -/

/-- The registers after the refusals, with the reset of the LCS page and the next time generation. -/
theorem longcaseReset_regs : (longcaseReset s p).regs =
    ((resetPage (refuseArmed s p) (lcsPage p) (fun k => k.off == 0x054)).wr (lcsPage p) LCS_GEN_GEN (tgen (refuseArmed s p) p + 1)).regs := by
  cases p <;> rfl

theorem longcaseReset_cfg : (longcaseReset s p).cfg = (refuseArmed s p).cfg := by
  cases p <;> rfl

theorem longcaseReset_lcs : (longcaseReset s p).lcs p = { Longcase.reset p with ticks := ((refuseArmed s p).lcs p).ticks } := by
  cases p <;> rfl

theorem longcaseReset_onlyFields : OnlyFields (refuseArmed s p) (longcaseReset s p) (fun k => k.pg = lcsPage p) := by
  intro k hk
  have hgen : k ≠ LCS_GEN_GEN.key (lcsPage p) 0 := fun e => hk (congrArg RegKey.pg e)
  rw [cell_congr longcaseReset_regs longcaseReset_cfg, cell_wr_other hgen]
  exact cell_resetCells_of_neg (by simp [hk])

theorem tgen_refuseArmed : tgen (refuseArmed s p) p = tgen s p := by
  refine foldl_apptRefuse_onlyFields.rd_eq ?_
  rintro ⟨pg, -, ⟨-, hoff⟩ | ⟨-, hoff⟩⟩ <;> simp [Fld.key, LCS_GEN_GEN] at hoff

theorem tgen_longcaseReset : tgen (longcaseReset s p) p = (tgen s p + 1) % 2 ^ 16 := by
  rw [tgen, rd_congr longcaseReset_regs longcaseReset_cfg, rd_wr_same, tgen_refuseArmed]
  rfl

theorem longcaseReset_refuses (hpg : pg ∈ armedPages s p) (hne : pg ≠ lcsPage p) :
    (longcaseReset s p).rd pg BLK_APPT_CTRL_STATE = Appt.REFUSED ∧ (longcaseReset s p).rd pg BLK_SYNDROME_CODE = Syn.STATE := by
  have hmem : pg ∈ (armedPages s p).filter (fun pg => pg != lcsPage p) := List.mem_filter.mpr ⟨hpg, by simpa using hne⟩
  rw [longcaseReset_onlyFields.rd_eq hne, longcaseReset_onlyFields.rd_eq hne]
  exact foldl_apptRefuse_shown (by decide) hmem

theorem longcaseReset_writes : OnlyFields s (longcaseReset s p) (fun k => k.pg = lcsPage p ∨ (k.pg ∈ armedPages s p ∧ k.off < 0x030) ∨
    ∃ pg ∈ armedPages s p, k.pg = burPage pg ∧ (k.off = 0x0E0 ∨ k.off = 0x098 ∨ k.off = 0x010)) := by
  refine OnlyFields.trans (foldl_apptRefuse_onlyFields.mono ?_) (longcaseReset_onlyFields.mono fun k hk => .inl hk)
  rintro k ⟨pg, hpg, hk⟩
  have harmed : pg ∈ armedPages s p := (List.mem_filter.mp hpg).1
  rcases hk with ⟨rfl, hoff⟩ | hbur
  · exact .inr (.inl ⟨harmed, hoff⟩)
  · exact .inr (.inr ⟨pg, harmed, hbur⟩)

/-- SRST of the page that holds a part's Longcase is its reset. -/
theorem softReset_lcsPage (hb : pageBlk s.cfg (lcsPage p) = some .lcs) (hacc : srstRefusal s .lcs (lcsPage p) ag = 0) :
    exec (.softReset (lcsPage p) ag) s = exec (.longcaseReset p ag) s := by
  rw [softReset_of_accepted hb hacc]
  cases p <;> rfl

theorem srstRefusal_follower {d : Nat} (hd : d ≠ xd0) : srstRefusal s .lcs (Pg.hLcs d) ag = Syn.STATE := by
  have hpage : Pg.hLcs d ≠ Pg.xLcs := fun e => hd (Page.hub.inj e).1
  have hfollower : isFollower (Pg.hLcs d) = true := bne_iff_ne.mpr hd
  have hhub : (Pg.hLcs d).isTally = false := rfl
  simp [srstRefusal, cabinetOnly, hpage, hfollower, hhub]

end

/-- Settles O15: the refusals are a fold of refusals of single pages, none of which undoes another; the reset then touches the LCS page alone. -/
theorem longcaseResetRefusesArmedPages : Obligations.LongcaseResetRefusesArmedPages := by
  unfold Obligations.LongcaseResetRefusesArmedPages
  refine ⟨fun s p ag => ⟨rfl, ?reset⟩, fun s p ag hb hacc => softReset_lcsPage hb hacc, fun s d ag hb hd => ?follower, fun s => ⟨_, rfl, rfl⟩⟩
  case reset =>
    have hlcs := longcaseReset_lcs (s := s) (p := p)
    refine ⟨?_, ?_, ?_, tgen_longcaseReset, fun pg hpg hne => longcaseReset_refuses hpg hne, longcaseReset_writes⟩
    · rw [State.isUnset, hlcs]; rfl
    · rw [State.now, hlcs]; rfl
    · rw [hlcs]; rfl
  case follower =>
    have href := srstRefusal_follower (s := s) (ag := ag) hd
    rw [softReset_of_refused hb (by rw [href]; decide), href]

/-! ### The step (R62) -/

section
variable {s : State} {p : Part} {ns u v : Nat} {e : Int}

/-- Opening a window and restarting a Tally leave the registers and the Longcase. -/
theorem restartSlots_regs_lcs : (restartSlots s).regs = s.regs ∧ (restartSlots s).cfg = s.cfg ∧ (restartSlots s).tally.lcs = s.tally.lcs := by
  unfold restartSlots
  generalize liveSlots s = l
  induction l generalizing s with
  | nil => exact ⟨rfl, rfl, rfl⟩
  | cons i l ih => exact ih

/-- The Longcase after a step. -/
def stepped (l : Longcase) (p : Part) (ns : Nat) : Longcase :=
  { l with
    ns, frac := 0, integ := 0, freq := 0, slew := false, servo := .acquire, good := 0, bad := 0, miss := 0, incr := nominal p }

/-- What the step writes before the Tally's windows start anew. -/
def stepWrites (s : State) (p : Part) (ns : Nat) : State :=
  raise ((s.setLcs p (stepped (s.lcs p) p ns)).wr (lcsPage p) LCS_STATUS_STEP_DONE 1) (lcsPage p) Irq.LCS_STEPPED

theorem stepTo_regs_lcs :
    (stepTo s p ns).regs = (stepWrites s p ns).regs ∧ (stepTo s p ns).cfg = (stepWrites s p ns).cfg ∧
      (stepTo s p ns).lcs p = (stepWrites s p ns).lcs p := by
  cases p with
  | tally =>
    obtain ⟨hregs, hcfg, hlcs⟩ := restartSlots_regs_lcs (s := stepWrites s .tally ns)
    exact ⟨hregs, hcfg, hlcs⟩
  | hub => exact ⟨rfl, rfl, rfl⟩

theorem stepTo_lcs : (stepTo s p ns).lcs p = stepped (s.lcs p) p ns := by
  obtain ⟨-, -, hlcs⟩ := stepTo_regs_lcs (s := s) (p := p) (ns := ns)
  rw [hlcs, stepWrites, raise_lcs]
  cases p <;> rfl

theorem stepTo_done : (stepTo s p ns).rd (lcsPage p) LCS_STATUS_STEP_DONE = 1 := by
  obtain ⟨hregs, hcfg, -⟩ := stepTo_regs_lcs (s := s) (p := p) (ns := ns)
  rw [rd_congr hregs hcfg, stepWrites, rd_raise (by decide) (by decide) (by decide), rd_wr_same]
  rfl

theorem stepTo_onlyFields : OnlyFields s (stepTo s p ns)
    (fun k => k = LCS_STATUS_STEP_DONE.key (lcsPage p) 0 ∨ RaiseFields (lcsPage p) Irq.LCS_STEPPED k) := by
  obtain ⟨hregs, hcfg, -⟩ := stepTo_regs_lcs (s := s) (p := p) (ns := ns)
  refine OnlyFields.trans (t := stepWrites s p ns) ?_ (.of_regs hregs hcfg)
  unfold stepWrites
  refine OnlyFields.trans (OnlyFields.wr (.of_regs ?_ ?_) (.inl rfl)) (raise_onlyFields.mono fun _ => .inr) <;> simp

theorem isUnset_iff : s.isUnset p = true ↔ (s.lcs p).servo = .unset := beq_iff_eq

theorem lcs_wr {pg : Page} {f : Fld} {i : Nat} : (s.wr pg f v i).lcs p = s.lcs p := by cases p <;> rfl

/-- A measurement while UNSET shows the offset, and steps where AUTO_STEP is set. -/
theorem measure_unset (hunset : s.isUnset p = true) : measure s p e u v =
    if s.rd (lcsPage p) LCS_CTRL_AUTO_STEP = 1 then
      stepTo ((s.wr (lcsPage p) LCS_OFFSET (offsetWord (some e))).setLcs p { s.lcs p with miss := 0 }) p (((s.lcs p).ps - e) / 1000).toNat
    else (s.wr (lcsPage p) LCS_OFFSET (offsetWord (some e))).setLcs p { s.lcs p with miss := 0 } := by
  have hservo := isUnset_iff.mp hunset
  simp (disch := decide) only [measure, lcs_wr, hservo, if_true, rd_setLcs, rd_wr_off]

end

/-- Settles O16: the step's writes are one Longcase value and STEP_DONE; the restart of the Tally's windows touches neither. -/
theorem longcaseStepsOnce : Obligations.LongcaseStepsOnce := by
  unfold Obligations.LongcaseStepsOnce
  refine ⟨fun s p ag hunset hauto => ?now, fun s p ag hnot => ?refused, fun s p ns => ?loaded, fun s p e u v hunset hauto => ?first,
    fun s p e u v hunset hauto => ?shown⟩
  case now => exact if_pos ⟨hunset, hauto⟩
  case refused => exact if_neg hnot
  case loaded =>
    refine ⟨?_, ?_, ?_, ?_, stepTo_done, stepTo_onlyFields⟩
    · rw [State.now, stepTo_lcs]; rfl
    all_goals rw [stepTo_lcs]; rfl
  case first =>
    rw [measure_unset hunset, if_pos hauto, State.now, stepTo_lcs]
    exact ⟨rfl, rfl⟩
  case shown => rw [measure_unset hunset, if_neg (by rw [hauto]; decide)]

end Sys2Proof.Machine
end

section
/-!
PROOFS. Time of the Tally and of the Hub: the pulses of the Tally's time bus (R75 to R77), HOLDOVER and what expires (R60, R66, R79, R87), the sources
of a Hub (R69 to R74, R83 to R86).
-/
namespace Sys2Proof.Machine
open Reg Sys2Proof.Laws

/-! ### The time bus -/

section
variable {s : State} {status : BitVec 2}

/-- The state in which a pulse is measured or found bad: the announcement is used up. -/
def pulseSeen (s : State) (status : BitVec 2) : State :=
  { s.wr Pg.tLcs LCS_TB_STAT_HOST status.toNat with tally := { s.tally with ann := none, pulseAt := some (s.now .tally) } }

theorem tbPulse_of_valid {a : TbAnn} (ha : s.tally.ann = some a) (hok : a.ok = true) (hstands : 10000 ≤ s.now .tally - a.at_) :
    exec (.tbPulse status) s =
      .next (measure ((pulseSeen s status).wr Pg.tLcs LCS_STATUS_SOURCE 1) .tally (pulseError (pulseSeen s status) a.time) 1 1) := by
  simp only [exec_tbPulse, execTbPulse, ha]
  exact if_pos ⟨hok, hstands⟩

theorem tbPulse_of_bad (hbad : ∀ a, s.tally.ann = some a → ¬ (a.ok = true ∧ 10000 ≤ s.now .tally - a.at_)) :
    exec (.tbPulse status) s = .next (badAnn (pulseSeen s status)) := by
  cases ha : s.tally.ann with
  | none => simp only [exec_tbPulse, execTbPulse, ha]; rfl
  | some a =>
    simp only [exec_tbPulse, execTbPulse, ha]
    exact if_neg (hbad a ha)

end

/-- Settles O18: a pulse has its announcement, or it is a bad one; a missing pulse is a matter of the time since the last. -/
theorem timeBusPulses : Obligations.TimeBusPulses := by
  unfold Obligations.TimeBusPulses
  refine ⟨fun s sec ns beats c => ⟨_, rfl, ?ann⟩, fun s status => ⟨fun a ha hok hstands => tbPulse_of_valid ha hok hstands,
    fun hbad => tbPulse_of_bad hbad⟩, fun s t ht hlate => ?missed, fun s t ht hin => ?within⟩
  case ann => cases s.tally.pulseAt <;> simp [and_assoc]
  case missed =>
    simp only [exec_pulseMiss, execPulseMiss, ht]
    exact if_pos hlate
  case within =>
    simp only [exec_pulseMiss, execPulseMiss, ht]
    exact if_neg (Nat.not_lt.mpr hin)

/-! ### HOLDOVER (R66) -/

section
variable {s : State} {p : Part}

theorem enterHoldover_of_running (h : (s.lcs p).servo = .acquire ∨ (s.lcs p).servo = .locked) : enterHoldover s p =
    raise (setRate (s.setLcs p { s.lcs p with servo := .holdover, slew := false, good := 0, bad := 0 }) p
      (clamp (-500000) 500000 (-(s.lcs p).freq))) (lcsPage p) Irq.LCS_HOLD_IN := by
  rcases h with h | h <;> simp only [enterHoldover, h, State.setLcs_lcs]

theorem enterHoldover_of_idle (h : (s.lcs p).servo = .unset ∨ (s.lcs p).servo = .holdover) : enterHoldover s p = s := by
  rcases h with h | h <;> simp only [enterHoldover, h]

theorem setRate_lcs {rate : Int} : (setRate s p rate).lcs p = { s.lcs p with incr := incrAt p rate } := by
  rw [setRate, lcs_wr, State.setLcs_lcs]

theorem lcsPage_ne_burPage : lcsPage p ≠ burPage (lcsPage p) := by cases p <;> decide

theorem siteQualExpiry_of_any {i : Nat} (hi : i ∈ liveSlots s) (h : 16 ≤ (getSlot s i).verdWins) :
    exec .siteQualExpiry s = .next (s.wr Pg.tLcs LCS_SITE_QUAL 0) :=
  if_pos (List.any_eq_true.mpr ⟨i, hi, decide_eq_true h⟩)

theorem siteQualExpiry_of_none (h : ∀ i ∈ liveSlots s, (getSlot s i).verdWins < 16) : exec .siteQualExpiry s = .next s := by
  refine if_neg fun hany => ?_
  obtain ⟨i, hi, hle⟩ := List.any_eq_true.mp hany
  exact absurd (of_decide_eq_true hle) (Nat.not_le.mpr (h i hi))

end

/-- Settles O19: HOLDOVER is entered from ACQUIRE and LOCKED alone; each expiry is a comparison of times. -/
theorem holdoverAndExpiry : Obligations.HoldoverAndExpiry := by
  unfold Obligations.HoldoverAndExpiry
  refine ⟨⟨fun s hmiss => if_pos hmiss, fun s hmiss => if_neg (Nat.not_lt.mpr hmiss), fun s hall => ?hub, fun s p hrun => ?entered,
      fun s p hidle => enterHoldover_of_idle hidle⟩,
    fun s die diff hdie hne hdiff => if_pos ⟨hdie, hne, hdiff⟩, fun s die diff hdiff => if_neg fun h => absurd h.2.2 (Nat.not_le.mpr hdiff),
    fun s i hi hw => siteQualExpiry_of_any hi hw, fun s h => siteQualExpiry_of_none h, fun s t ht hover => ?switched, fun s t ht hin => ?stays⟩
  case hub => exact if_pos (List.all_eq_true.mpr fun src hsrc => by simpa using hall src hsrc)
  case entered =>
    have hlcs : (enterHoldover s p).lcs p = { s.lcs p with
        servo := .holdover, slew := false, good := 0, bad := 0, incr := incrAt p (clamp (-500000) 500000 (-(s.lcs p).freq)) } := by
      rw [enterHoldover_of_running hrun, raise_lcs, setRate_lcs, State.setLcs_lcs]
    dsimp only
    rw [hlcs]
    refine ⟨rfl, rfl, rfl, ?_⟩
    rw [enterHoldover_of_running hrun]
    exact rd_raise_irq lcsPage_ne_burPage
  case switched =>
    simp only [exec_switchedExpiry, execSwitchedExpiry, ht]
    exact if_pos hover
  case stays =>
    simp only [exec_switchedExpiry, execSwitchedExpiry, ht]
    exact if_neg (Nat.not_le.mpr hin)

/-! ### Sources of a Hub (R69 to R71) -/

section
variable {s : State}

/-- The announce receipt timeout of the domain of a source. -/
theorem announceTimeout_of_source {dom src : Nat} (hsrc : src ≠ 0)
    (h : src = if dom = s.rd Pg.xLcs LCS_SRC_CFG_DOM_A then 2 else if dom = s.rd Pg.xLcs LCS_SRC_CFG_DOM_B then 3
      else if dom = s.rd Pg.xLcs LCS_ROLE_DOM_BOARD then 4 else 0) :
    exec (.announceTimeout dom) s = .next (trackerInvalid (setTracker s src { s.tracker src with annOut := true }) src) := by
  simp only [exec_announceTimeout, execAnnounceTimeout, ← h, hsrc, if_false]

theorem sourceStable_of_first {p : Nat} (hfirst : (higherSources s).head? = some p) (hp : 2 ≤ p) (hvalid : (s.tracker p).valid = true)
    (hstable : (s.tracker p).since + s.rd Pg.xLcs LCS_HOLD_STABLE_MS * 1000000 ≤ s.hub.lcs.ns) :
    exec .sourceStable s = .next (selectSource s p) := by
  obtain ⟨l, hl⟩ := List.head?_eq_some_iff.mp hfirst
  simp [exec_sourceStable, execSourceStable, hl, hp, hvalid, hstable]

theorem selectSource_between {src : Nat} (hsrc : src ≠ 0) (hold : s.rd Pg.xLcs LCS_STATUS_SOURCE ≠ 0)
    (hne : s.rd Pg.xLcs LCS_STATUS_SOURCE ≠ src) : selectSource s src =
      raise { ((s.wr Pg.xLcs LCS_STATUS_SOURCE src).bump Pg.xLcs LCS_SRC_STAT_SWITCHES) with
        hub := { s.hub with switchedAt := some s.hub.lcs.ns } } Pg.xLcs Irq.LCS_SRC_SWITCH := by
  simp only [selectSource, Ne.symm hne, hsrc, hold, if_false]
  rfl

theorem selectSource_none (hold : s.rd Pg.xLcs LCS_STATUS_SOURCE ≠ 0) :
    selectSource s 0 = enterHoldover (s.wr Pg.xLcs LCS_STATUS_SOURCE 0) .hub := by
  simp only [selectSource, Ne.symm hold, if_false, if_true]

/-! ### PTP and time transfer (R70, R83 to R86) -/

theorem ptpMessageRx_of_open {port dom pos iv : Nat} {b : PtpBody} (hsrc : ptpSource s port dom ≠ 0) (hsafe : hubSafe s = false)
    (htest : portTest s port = false) :
    exec (.ptpMessageRx port dom pos iv b) s = .next (ptpRx s (ptpSource s port dom) port dom pos iv b) := by
  simp [exec_ptpMessageRx, execPtpMessageRx, hsrc, hsafe, htest]

theorem ttExchangeTx_of_due {am : Nat} (hrole : s.rd Pg.xLcs LCS_ROLE_TX_B = 1)
    (hdue : ∀ t, s.hub.tt.started = some t → t + 1000000000 / reachDen s ≤ s.hub.lcs.ns) :
    exec (.ttExchangeTx am) s = .next (sendOn { s with hub := { s.hub with
        tt := { s.hub.tt with started := some s.hub.lcs.ns, t1 := some (txStamp s (14 + s.rd Pg.xLcs LCS_REACH_CFG_PORT) am) } } }
      (14 + s.rd Pg.xLcs LCS_REACH_CFG_PORT)
      (.ttFrame (14 + s.rd Pg.xLcs LCS_REACH_CFG_PORT) (txStamp s (14 + s.rd Pg.xLcs LCS_REACH_CFG_PORT) am) none)) := by
  cases hstarted : s.hub.tt.started with
  | none => simp [exec_ttExchangeTx, execTtExchangeTx, hrole, hstarted]
  | some t => simp [exec_ttExchangeTx, execTtExchangeTx, hrole, hstarted, hdue t hstarted]

/-- An exchange that neither jumps nor finds the tracker frozen is a measurement over the path its round trip names. -/
theorem ttDone_of_steady {t1 t2 t3 t4 : Int} (hjump : ∀ old, s.hub.tt.rtt = some old →
      ((t2 - t1) + (t4 - t3) - old).natAbs ≤ s.rd Pg.xLcs LCS_REACH_CFG_RTT_JUMP * 8 * 1000)
    (hrun : s.rd Pg.xLcs LCS_REACH_STAT_TRACKER ≠ 2) : ttDone s t1 t2 t3 t4 =
      let u := { s with hub := { s.hub with tt := { s.hub.tt with t1 := none, rtt := some ((t2 - t1) + (t4 - t3)) } } }
      let path := reachPath u ((t2 - t1) + (t4 - t3))
      let w := setPath (u.wr Pg.xLcs LCS_REACH_STAT_TRACKER 1) path
      trackerMeasure w 5 ((reachAsym w path + (t4 - t3) - (t2 - t1)).tdiv 2) 1000 (reachDen w) := by
  cases hrtt : s.hub.tt.rtt with
  | none => simp only [ttDone, hrtt, hrun, Bool.false_eq_true, if_false]
  | some old => simp only [ttDone, hrtt, hrun, gt_iff_lt, Nat.not_lt.mpr (hjump old hrtt), decide_false, Bool.false_eq_true, if_false]

end

/-- Settles O20: the sources of a Hub change in `selectSource` alone, which `trackerInvalid` and a stable higher source enter; the exchanges are
their branches. -/
theorem hubTimeSources : Obligations.HubTimeSources := by
  unfold Obligations.HubTimeSources
  refine ⟨⟨fun s src h2 h5 hvalid hfrozen hlate => if_pos ⟨h2, h5, hvalid, hfrozen, hlate⟩, fun s dom hA => ?domA, fun s dom hA hB => ?domB,
      fun s dom hA hB hbrd => ?domBoard, fun s src => rfl, fun s p hfirst hp hvalid hstable => sourceStable_of_first hfirst hp hvalid hstable,
      fun s src h => if_pos h.symm, fun s src hsrc hold hne => selectSource_between hsrc hold hne, fun s hold => selectSource_none hold⟩,
    fun s port dom pos iv b hsrc hsafe htest => ptpMessageRx_of_open hsrc hsafe htest,
    fun s src port dom pos iv o c => ⟨rfl, fun rx hrx => ?followUp⟩, fun s src port dom iv rx o c => rfl, fun s port hset hrole => ?ptpTx,
    fun s port hunset => ?ptpUnset, fun s => rfl, fun s am hrole hdue => ttExchangeTx_of_due hrole hdue, fun s t1 t2 t3 pos ht1 => ?done,
    fun s port pos am hrole hport => if_pos ⟨hrole, hport⟩, fun s t1 t2 t3 t4 hjump hrun => ttDone_of_steady hjump hrun⟩
  case domA => exact announceTimeout_of_source (by decide) (by rw [if_pos hA])
  case domB => exact announceTimeout_of_source (by decide) (by rw [if_neg hA, if_pos hB])
  case domBoard => exact announceTimeout_of_source (by decide) (by rw [if_neg hA, if_neg hB, if_pos hbrd])
  case followUp => simp only [ptpRx, hrx]
  case ptpTx =>
    rcases hrole with ⟨hport, hrole⟩ | ⟨hport, hport', hrole⟩
    · simp [exec_ptpMessageTx, execPtpMessageTx, hset, hport, hrole]
    · simp [exec_ptpMessageTx, execPtpMessageTx, hset, Nat.not_lt.mpr hport, hport', hrole]
  case ptpUnset => simp [exec_ptpMessageTx, execPtpMessageTx, hunset]
  case done => simp only [exec_ttExchangeDone, execTtExchangeDone, ht1]

end Sys2Proof.Machine
end

section
/-!
PROOFS. The counting side of a Tally: its resets, chain, unit number and fast clock (R35, R95, R97, R98, R503), the boundaries of windows (R101 to
R104), counters, gauges and power samples (R99, R100, R107, R111), the supply limiter (R113).
-/
namespace Sys2Proof.Machine
open Reg Sys2Proof.Laws

/-- A relation that every step of a loop keeps, and that composes, holds of the whole loop. -/
theorem foldl_keeps {α : Type} {R : State → State → Prop} (hrefl : ∀ s, R s s) (htrans : ∀ {s t u}, R s t → R t u → R s u)
    {f : State → α → State} (hstep : ∀ s x, R s (f s x)) (l : List α) (s : State) : R s (l.foldl f s) := by
  induction l generalizing s with
  | nil => exact hrefl s
  | cons x xs ih => exact htrans (hstep s x) (ih _)

/-! ### TEST MODE (R503) -/

/-- Only fields of the Tally's pages may differ; the Hub and what was sent are as they were. -/
def TallyFieldsFrame (s t : State) : Prop := OnlyFields s t (fun k => k.pg.isTally = true) ∧ t.hub = s.hub ∧ t.out = s.out

section
variable {s t u : State}

theorem TallyFieldsFrame.refl : TallyFieldsFrame s s := ⟨OnlyFields.refl, rfl, rfl⟩

theorem TallyFieldsFrame.trans (h : TallyFieldsFrame s t) (h' : TallyFieldsFrame t u) : TallyFieldsFrame s u := by
  obtain ⟨hcells, hhub, hout⟩ := h
  obtain ⟨hcells', hhub', hout'⟩ := h'
  exact ⟨hcells.trans hcells', hhub'.trans hhub, hout'.trans hout⟩

theorem freeFld_frame {p i : Nat} {f : Fld} : TallyFieldsFrame s (freeFld s (.tally p) f i) :=
  ⟨OnlyFields.wr (OnlyFields.of_regs rfl rfl) rfl, rfl, rfl⟩

theorem foldl_freeFld_frame {α : Type} {p : Nat} {f : α → Fld} {i : α → Nat} {l : List α} :
    TallyFieldsFrame s (l.foldl (fun s x => freeFld s (.tally p) (f x) (i x)) s) :=
  foldl_keeps (R := TallyFieldsFrame) (fun _ => .refl) .trans (fun _ _ => freeFld_frame) l s

theorem freeTallyCells_frame {n : Nat} : TallyFieldsFrame s (freeTallyCells s n) := by
  refine foldl_keeps (R := TallyFieldsFrame) (fun _ => .refl) .trans (fun s p => ?_) _ s
  dsimp only
  split
  · exact .refl
  · exact .trans foldl_freeFld_frame (foldl_keeps (R := TallyFieldsFrame) (fun _ => .refl) .trans (fun _ _ => foldl_freeFld_frame) _ _)

/-- The state in TEST MODE whose fields already hold free values. -/
def testModed (s : State) : State := { s with freeCtr := s.freeCtr + 1, tally := { freeTally s.freeCtr with testMode := true } }

theorem tlyTestMode_eq : exec .tlyTestMode s = .next (testModed (freeTallyCells s 4096)) := by
  rw [exec_tlyTestMode, execTlyTestMode, testModed]

theorem testModed_testMode : (testModed s).tally.testMode = true := rfl

theorem TallyFieldsFrame.testModed (h : TallyFieldsFrame s t) : TallyFieldsFrame s (testModed t) := by
  obtain ⟨hcells, hhub, hout⟩ := h
  exact ⟨hcells.trans (.of_regs rfl rfl), hhub, hout⟩

/-! ### Resets (R97) -/

theorem resetCells_onlyFields {p : RegKey → Bool} : OnlyFields s (resetCells s p) (fun k => p k = true) :=
  fun _ hk => cell_resetCells_of_neg (Bool.eq_false_iff.mpr hk)

/-! ### Chain and fast clock (R95, R98) -/

theorem chainAddress_of_addressed {a : BitVec 5} (h : s.rd Pg.tly TLY_CHAIN_ADDRESSED = 1 ∨ s.tally.chainDead = true) :
    exec (.chainAddress a) s = .next s := if_pos h

theorem chainAddress_of_waiting {a : BitVec 5} (hnew : s.rd Pg.tly TLY_CHAIN_ADDRESSED ≠ 1) (hlive : s.tally.chainDead = false) :
    exec (.chainAddress a) s =
      if a.toNat ≤ 15 then .next { ((s.wr Pg.tly TLY_CHAIN_ADDR a.toNat).wr Pg.tly TLY_CHAIN_ADDRESSED 1) with
        tally := { s.tally with tchOut := some (a.toNat + 1) } }
      else .next { s with tally := { s.tally with chainDead := true } } :=
  if_neg (not_or.mpr ⟨hnew, Bool.eq_false_iff.mp hlive⟩)

theorem tlyUnitWrite_of_locked {u : BitVec 24} (h : s.rd Pg.tly TLY_UNIT_LOCKED = 1) :
    exec (.tlyUnitWrite .regPort u) s = .next (syn s Pg.tly Syn.STATE .regPort false 0x040) := by
  simp only [exec_tlyUnitWrite, execTlyUnitWrite, tlyUnitWrite, ne_eq, not_true, if_false, if_pos h]

theorem tlyUnitWrite_of_accepted {u : BitVec 24} (h : s.rd Pg.tly TLY_UNIT_LOCKED ≠ 1) (hu : u.toNat % 2 ^ 21 < 131072) :
    exec (.tlyUnitWrite .regPort u) s = .next (restartTally ((s.wr Pg.tly TLY_UNIT_UNIT u.toNat).wr Pg.tly TLY_UNIT_LOCKED 1)) := by
  simp only [exec_tlyUnitWrite, execTlyUnitWrite, tlyUnitWrite, ne_eq, not_true, if_false, if_neg h, if_neg (Nat.not_le.mpr hu)]

theorem fclkRequest_of_work (hwork : leadDue s = true ∨ fclkWork s = true) (hreq : s.tally.fclkReq = false) :
    exec .fclkRequest s = .next { s with tally := { s.tally with fclkReq := true, fclkAt := s.now .tally } } := by
  simp only [exec_fclkRequest, execFclkRequest, Bool.or_eq_true, if_pos hwork, raiseFclk, hreq, Bool.false_eq_true, if_false]

theorem fclkAck_of_requested (hreq : s.tally.fclkReq = true) (hack : s.tally.fclkAck = false) :
    exec .fclkAck s =
      let u := { s with tally := { s.tally with fclkAck := true } }
      if decide (s.now .tally > s.tally.fclkAt + 2000) then
        .next (raise ((syn u Pg.tly Syn.TIMEOUT).bump Pg.tly TLY_FCLK_LATE) Pg.tly Irq.TLY_FCLK_LATE)
      else .next u := if_pos ⟨hreq, hack⟩

end

/-! ### Boundaries (R101 to R104) -/

section
variable {s : State}

theorem getSlot_setSlot_same {i : Nat} {t : TSlot} (hi : i < s.tally.slots.length) : getSlot (setSlot s i t) i = t := by
  simp [getSlot, setSlot, hi]

theorem windowBoundary_of_due (h : dueSlots s ≠ []) : exec .windowBoundary s =
    .next (openWindows (((List.range 16).map Page.tally).foldl applyPage (closeWindows s (dueSlots s))) (dueSlots s)) := by
  have he : (dueSlots s).isEmpty = false := List.isEmpty_eq_false_iff.mpr h
  simp only [exec_windowBoundary, execWindowBoundary, tallyInstant, he, Bool.false_eq_true, if_false]

theorem windowBoundary_of_none (h : dueSlots s = []) : exec .windowBoundary s = .next s :=
  if_pos (List.isEmpty_iff.mpr h)

theorem slowSnapshot_cursor {t : Nat} : (slowSnapshot s t).rd Pg.hot HOT_SLOW_CUR =
    (s.rd Pg.hot HOT_SLOW_CUR + s.rd Pg.hot HOT_SLOW_BATCH) % counterCount s.cfg := by
  have hlt : (s.rd Pg.hot HOT_SLOW_CUR + s.rd Pg.hot HOT_SLOW_BATCH) % counterCount s.cfg < 2 ^ 12 :=
    Nat.lt_of_lt_of_le (Nat.mod_lt _ (by unfold counterCount; split <;> decide)) (by unfold counterCount; split <;> decide)
  unfold slowSnapshot
  rw [rd_wr_same]
  exact Nat.mod_eq_of_lt hlt

theorem slowBoundary_of_whole (hw : s.tally.slowWin < windowIndex (s.rd Pg.hot HOT_SLOW_SLOW_S) (s.now .tally)) (hb : mayBuild s = true) :
    let w := windowIndex (s.rd Pg.hot HOT_SLOW_SLOW_S) (s.now .tally)
    exec .slowBoundary s = .next { slowSnapshot s (windowStart w (s.rd Pg.hot HOT_SLOW_SLOW_S)) with
      tally := { (slowSnapshot s (windowStart w (s.rd Pg.hot HOT_SLOW_SLOW_S))).tally with slowWin := w } } := by
  simp only [exec_slowBoundary, execSlowBoundary, hb, if_true]
  exact if_pos hw

theorem sealRecord_without_key {r : WinRec} (h : keyFor s r.slot r.epoch = none) :
    sealRecord s r = raise (syn (setSlot s r.slot { getSlot s r.slot with recDrops := (getSlot s r.slot).recDrops + 1 }) Pg.sealP Syn.STATE)
      Pg.sealP Irq.SEAL_KEY_MISSING { job := r.job, unit := s.rd Pg.tly TLY_UNIT_UNIT, win := r.win } := by
  simp only [sealRecord, h]

end

/-- Settles O21: the resets forget the Tally's fields they do not keep; each event of the chain, the unit number, the fast clock and a boundary
takes the one branch its hypotheses leave. -/
theorem tallyResetsAndBoundaries : Obligations.TallyResetsAndBoundaries := by
  unfold Obligations.TallyResetsAndBoundaries
  refine ⟨⟨fun s => ⟨_, rfl, rfl, ?por, ?porOnly, rfl, rfl, rfl⟩, fun s => ⟨_, rfl, rfl, rfl, rfl, rfl, ?hrst, ?hrstOnly, rfl, rfl⟩,
    fun s a hnew hlive ha => (chainAddress_of_waiting hnew hlive).trans (if_pos ha),
    fun s a hnew hlive ha => (chainAddress_of_waiting hnew hlive).trans (if_neg (Nat.not_le.mpr ha)),
    fun s a h => chainAddress_of_addressed h, fun s u h hu => tlyUnitWrite_of_accepted h hu, fun s u h => tlyUnitWrite_of_locked h,
    fun s => ?testMode, fun s hwork hreq => fclkRequest_of_work hwork hreq,
    fun s hreq hack hin => (fclkAck_of_requested hreq hack).trans (if_neg (by simpa using hin)),
    fun s hreq hack hlate => (fclkAck_of_requested hreq hack).trans (if_pos (by simpa using hlate))⟩,
    fun s h => windowBoundary_of_due h, fun s h => windowBoundary_of_none h, fun s i hi => ?opened,
    fun s hw hb => ⟨slowBoundary_of_whole hw hb, slowSnapshot_cursor⟩, fun s hack => if_pos hack, fun s r h => sealRecord_without_key h,
    fun s r key h => ?sealed⟩
  case por => exact fun k hk => cell_resetCells_of_pos (s := { s with tally := Tally.reset }) (by simp [hk, keepNone])
  case porOnly => exact (OnlyFields.of_regs rfl rfl).trans (resetCells_onlyFields.mono fun k hk => by simpa [keepNone] using hk)
  case hrst => exact fun k hk hkeep => cell_resetCells_of_pos (by simp [hk, hkeep])
  case hrstOnly => exact (OnlyFields.of_regs rfl rfl).trans (resetCells_onlyFields.mono fun k hk => by simpa using hk)
  case testMode =>
    obtain ⟨hcells, hhub, hout⟩ := (freeTallyCells_frame (s := s) (n := 4096)).testModed
    exact ⟨_, tlyTestMode_eq, testModed_testMode, hhub, hout, hcells⟩
  case opened =>
    dsimp only
    rw [openWindow, getSlot_setSlot_same hi]
    exact ⟨rfl, rfl, rfl, rfl, rfl⟩
  case sealed => simp only [sealRecord, h]

end Sys2Proof.Machine
end

section
/-!
PROOFS. Counters, gauges and power samples of a Tally (R99, R100, R107, R111, R122) and the supply limiter (R113).
-/
namespace Sys2Proof.Machine
open Reg Sys2Proof.Laws

/-! ### Counters and gauges -/

section
variable {s t u : State}

theorem counterAdd_of_mode {lanes : List (Nat × Nat × Nat)} {c : Nat} :
    (s.rd Pg.cnt CNT_MAP_DATA0_MODE c = 1 → counterAdd s lanes c = laneSum lanes (s.rd Pg.cnt CNT_MAP_DATA0_LANE c)) ∧
    (s.rd Pg.cnt CNT_MAP_DATA0_MODE c = 2 → counterAdd s lanes c = laneCycles lanes (s.rd Pg.cnt CNT_MAP_DATA0_LANE c)) ∧
    (s.rd Pg.cnt CNT_MAP_DATA0_MODE c = 0 → counterAdd s lanes c = 0) := by
  refine ⟨fun h => if_pos h, fun h => ?_, fun h => ?_⟩ <;> simp [counterAdd, h]

/-- Nothing but registers has changed, and of the Tally's own state nothing at all. -/
def KeepsTally (s t : State) : Prop := t.tally = s.tally

theorem foldl_incr_tally {α : Type} {pg : Page} {f : Fld} {i : α → Nat} {d : State → α → Nat} {l : List α} :
    (l.foldl (fun u x => u.incr pg f (i x) (d u x)) s).tally = s.tally :=
  foldl_keeps (R := KeepsTally) (fun _ => rfl) (fun h h' => Eq.trans h' h) (fun _ _ => State.incr_tally ..) l s

theorem countResidency_tally {cause : Nat} : (countResidency s cause).tally = s.tally := by
  simp only [countResidency, apply_ite State.tally, State.incr_tally, ite_self]

theorem countedTick_evCycles {lanes : List (Nat × Nat × Nat)} {cause : Nat} :
    let v := countResidency ((mappedCounters s).foldl (fun u c => u.incr Pg.cnt CNT_VAL c (counterAdd u lanes c)) s) cause
    (if v.tally.fclkAck = true then v.incr Pg.tBur BUR_AOC 16 else v).tally.evCycles = s.tally.evCycles := by
  dsimp only
  rw [apply_ite State.tally, State.incr_tally, ite_self, countResidency_tally, foldl_incr_tally]

theorem gaugeHostWrite_of_host {ag : Agent} {lo : Word} (h : s.rd Pg.cnt CNT_GAUGE_CFG_SRC (s.rd Pg.cnt CNT_GAUGE_IDX) = 1) :
    exec (.gaugeHostWrite ag lo) s = .next (sampleGauge (s.wr Pg.cnt CNT_GAUGE_WLO lo.toNat) (s.rd Pg.cnt CNT_GAUGE_IDX)
      (toSigned 64 (s.rd Pg.cnt CNT_GAUGE_WHI * 2 ^ 32 + lo.toNat % 2 ^ 32))) :=
  congrArg Host.Outcome.next (if_pos h)

theorem gaugeHostWrite_of_other {ag : Agent} {lo : Word} (h : s.rd Pg.cnt CNT_GAUGE_CFG_SRC (s.rd Pg.cnt CNT_GAUGE_IDX) ≠ 1) :
    exec (.gaugeHostWrite ag lo) s = .next (syn s Pg.cnt Syn.STATE ag false 0x060) :=
  congrArg Host.Outcome.next (if_neg h)

/-! ### What a gauge sample leaves -/

/-- A gauge's sample changes fields of the CNT page and the windows of the job slots, nothing else of the Tally. -/
def GaugeFrame (s t : State) : Prop :=
  OnlyFields s t (fun k => k.pg = Pg.cnt) ∧ t.tally = { s.tally with slots := t.tally.slots }

theorem GaugeFrame.refl : GaugeFrame s s := ⟨OnlyFields.refl, rfl⟩

theorem GaugeFrame.trans (h : GaugeFrame s t) (h' : GaugeFrame t u) : GaugeFrame s u := by
  obtain ⟨hcells, htally⟩ := h
  obtain ⟨hcells', htally'⟩ := h'
  exact ⟨hcells.trans hcells', by rw [htally', htally]⟩

theorem setSlot_gaugeFrame {i : Nat} {w : TSlot} : GaugeFrame s (setSlot s i w) := ⟨.of_regs rfl rfl, rfl⟩

theorem sampleGauge_frame {g : Nat} {v : Int} : GaugeFrame s (sampleGauge s g v) := by
  have hwr : GaugeFrame s (s.wr Pg.cnt gaugeFld (ofSigned 64 v) g) := ⟨OnlyFields.refl.wr rfl, rfl⟩
  refine hwr.trans (foldl_keeps (R := GaugeFrame) (fun _ => .refl) .trans (fun s i => ?_) _ _)
  split
  · exact setSlot_gaugeFrame
  · exact .refl

theorem sampleSrc_frame {src : Nat} {v : Int} : GaugeFrame s (sampleSrc s src v) := by
  refine foldl_keeps (R := GaugeFrame) (fun _ => .refl) .trans (fun s g => ?_) _ s
  split
  · exact sampleGauge_frame
  · exact .refl

/-! ### The limiter (R113) -/

/-- One more sample counts for the limiter. -/
def limCounted (s : State) : State := { s with tally := { s.tally with limCount := s.tally.limCount + 1 } }

/-- A trip: THROTTLE with its cause, counted. -/
def limTripped (s : State) : State :=
  let u := limCounted s
  ((({ u with tally := { u.tally with clean := 0 } }).wr Pg.tPwr PWR_STAT_STATE Lim.THROTTLE).wr Pg.tPwr PWR_STAT_CAUSE (violations u)).bump
    Pg.tPwr PWR_STAT_TRIPS

/-- A clean sample counts. -/
def limClean (s : State) : State :=
  let u := limCounted s
  { u with tally := { u.tally with clean := s.tally.clean + 1 } }

theorem limiterEval_off (h : s.rd Pg.tPwr PWR_STAT_STATE = Lim.OFF) : limiterEval s = s := if_pos h

theorem limiterEval_on (h : s.rd Pg.tPwr PWR_STAT_STATE ≠ Lim.OFF) : limiterEval s =
    if s.rd Pg.tPwr PWR_STAT_STATE = Lim.WATCH then
      if violations (limCounted s) = 0 then limCounted s else raise (limTripped s) Pg.tPwr Irq.PWR_THR_ON
    else if violations (limCounted s) = 0 then
      if s.tally.clean + 1 ≥ s.rd Pg.tPwr PWR_HOLD then raise ((limClean s).wr Pg.tPwr PWR_STAT_STATE Lim.WATCH) Pg.tPwr Irq.PWR_THR_OFF
      else limClean s
    else { limCounted s with tally := { (limCounted s).tally with clean := 0 } } := if_neg h

theorem limiterEval_watch (h : s.rd Pg.tPwr PWR_STAT_STATE = Lim.WATCH) : limiterEval s =
    if violations (limCounted s) = 0 then limCounted s else raise (limTripped s) Pg.tPwr Irq.PWR_THR_ON := by
  rw [limiterEval_on (h ▸ by decide), if_pos h]

theorem limiterEval_throttle (h : s.rd Pg.tPwr PWR_STAT_STATE = Lim.THROTTLE) : limiterEval s =
    if violations (limCounted s) = 0 then
      if s.tally.clean + 1 ≥ s.rd Pg.tPwr PWR_HOLD then raise ((limClean s).wr Pg.tPwr PWR_STAT_STATE Lim.WATCH) Pg.tPwr Irq.PWR_THR_OFF
      else limClean s
    else { limCounted s with tally := { (limCounted s).tally with clean := 0 } } := by
  rw [limiterEval_on (h ▸ by decide), if_neg (h ▸ by decide)]

theorem limiterEval_trip (h : s.rd Pg.tPwr PWR_STAT_STATE = Lim.WATCH) (hv : violations (limCounted s) ≠ 0) :
    limiterEval s = raise (limTripped s) Pg.tPwr Irq.PWR_THR_ON := by
  rw [limiterEval_watch h, if_neg hv]

theorem limiterEval_release (h : s.rd Pg.tPwr PWR_STAT_STATE = Lim.THROTTLE) (hv : violations (limCounted s) = 0)
    (hheld : s.rd Pg.tPwr PWR_HOLD ≤ s.tally.clean + 1) :
    limiterEval s = raise ((limClean s).wr Pg.tPwr PWR_STAT_STATE Lim.WATCH) Pg.tPwr Irq.PWR_THR_OFF := by
  rw [limiterEval_throttle h, if_pos hv, if_pos hheld]

theorem rd_limTripped : (limTripped s).rd Pg.tPwr PWR_STAT_STATE = Lim.THROTTLE ∧
    (limTripped s).rd Pg.tPwr PWR_STAT_CAUSE = violations (limCounted s) % 2 ^ PWR_STAT_CAUSE.w := by
  unfold limTripped
  simp (disch := decide) only [rd_bump_lo, rd_wr_lo, rd_wr_same]
  exact ⟨rfl, trivial⟩

/-- Beside its own status, the causes and the die's counters the limiter leaves every register. -/
theorem rd_limiterEval {pg : Page} {f : Fld} {i : Nat} (hstat : f.off ≠ 0x068) (h1 : f.off ≠ 0x010) (h2 : f.off ≠ 0x098) (h3 : f.off ≠ 0x0E0) :
    (limiterEval s).rd pg f i = s.rd pg f i := by
  have hwr {u : State} {g : Fld} {v : Nat} (hg : g.off = 0x068) : (u.wr Pg.tPwr g v).rd pg f i = u.rd pg f i := rd_wr_off (hg ▸ hstat)
  have htrip : (limTripped s).rd pg f i = s.rd pg f i := (hwr rfl).trans ((hwr rfl).trans (hwr rfl))
  by_cases hoff : s.rd Pg.tPwr PWR_STAT_STATE = Lim.OFF
  · rw [limiterEval_off hoff]
  · rw [limiterEval_on hoff]
    split
    · split
      · rfl
      · exact (rd_raise h1 h2 h3).trans htrip
    · split
      · split
        · exact (rd_raise h1 h2 h3).trans (hwr rfl)
        · rfl
      · rfl

/-- The samples, the energy sum and TEST MODE are not the limiter's. -/
theorem limiterEval_tally : (limiterEval s).tally.nrgWin = s.tally.nrgWin ∧ (limiterEval s).tally.samples = s.tally.samples ∧
    (limiterEval s).tally.testMode = s.tally.testMode := by
  have hraise {u : State} {n : Nat} : (raise u Pg.tPwr n).tally.nrgWin = u.tally.nrgWin ∧ (raise u Pg.tPwr n).tally.samples = u.tally.samples ∧
      (raise u Pg.tPwr n).tally.testMode = u.tally.testMode := by
    obtain ⟨-, -, -, -, -, htally, -⟩ := raise_frame (s := u) (pg := Pg.tPwr) (n := n) (e := {})
    rw [htally]
    exact ⟨rfl, rfl, rfl⟩
  by_cases hoff : s.rd Pg.tPwr PWR_STAT_STATE = Lim.OFF
  · rw [limiterEval_off hoff]
    exact ⟨rfl, rfl, rfl⟩
  · rw [limiterEval_on hoff]
    split
    · split
      · exact ⟨rfl, rfl, rfl⟩
      · exact hraise
    · split
      · split
        · exact hraise
        · exact ⟨rfl, rfl, rfl⟩
      · exact ⟨rfl, rfl, rfl⟩

/-! ### The power sample (R111) -/

theorem sumFirst_take {l : List Nat} {n m : Nat} (h : n ≤ m) : sumFirst (l.take m) n = sumFirst l n := by
  rw [sumFirst, sumFirst, List.take_take, Nat.min_eq_left h]

theorem satWord_mod {x : Nat} : satWord x % 2 ^ 32 = min x 0xFFFFFFFF :=
  Nat.mod_eq_of_lt (Nat.lt_of_le_of_lt (Nat.min_le_right ..) (by decide))

/-- The samples, the energy sum and the shown averages after a sample of power p. -/
def sampled (s : State) (p : Nat) : State :=
  let u := { s with tally := { s.tally with nrgWin := (s.tally.nrgWin + p) % 2 ^ 64, samples := (p :: s.tally.samples).take 10000 } }
  ((u.wr Pg.tPwr PWR_NOW (satWord (p / 1000000))).wr Pg.tPwr PWR_AVG1 (satWord (sumFirst u.tally.samples 1000 / 1000 / 1000000))).wr
    Pg.tPwr PWR_AVG10 (satWord (sumFirst u.tally.samples 10000 / 10000 / 1000000))

theorem rd_sampled {p : Nat} : (sampled s p).rd Pg.tPwr PWR_NOW = min (p / 1000000) 0xFFFFFFFF ∧
    (sampled s p).rd Pg.tPwr PWR_AVG1 = min (sumFirst (p :: s.tally.samples) 1000 / 1000 / 1000000) 0xFFFFFFFF ∧
    (sampled s p).rd Pg.tPwr PWR_AVG10 = min (sumFirst (p :: s.tally.samples) 10000 / 10000 / 1000000) 0xFFFFFFFF := by
  unfold sampled
  simp (disch := decide) only [rd_wr_off, rd_wr_same, sumFirst_take]
  exact ⟨satWord_mod, satWord_mod, satWord_mod⟩

/-- The gauges of voltage, current and power take the sample. -/
def gaugesSampled (s : State) (v i : Nat) : State :=
  sampleSrc (sampleSrc (sampleSrc s 2 ((v * 2 ^ 24 / 1000000 : Nat) : Int)) 3 ((i * 2 ^ 24 / 1000 : Nat) : Int)) 4
    ((v * i * 2 ^ 24 / 1000000000 : Nat) : Int)

theorem powerSample_eq {cv ci : BitVec 16} : exec (.powerSample cv ci) s =
    .next (limiterEval (sampled (gaugesSampled s (cv.toNat * s.rd Pg.tPwr PWR_V_LSB) (ci.toNat * s.rd Pg.tPwr PWR_I_LSB))
      (cv.toNat * s.rd Pg.tPwr PWR_V_LSB * (ci.toNat * s.rd Pg.tPwr PWR_I_LSB)))) := rfl

theorem gaugesSampled_frame {v i : Nat} : GaugeFrame s (gaugesSampled s v i) :=
  (sampleSrc_frame.trans sampleSrc_frame).trans sampleSrc_frame

end

/-- Settles O22: gauges and limiter leave what the sample writes, and the limiter's branch is fixed by its state and the violations. -/
theorem tallyCountersAndLimiter : Obligations.TallyCountersAndLimiter := by
  unfold Obligations.TallyCountersAndLimiter
  refine ⟨⟨fun s lanes ev cause => ?tick, fun s lanes c => counterAdd_of_mode, fun s => ⟨rfl, rfl⟩, fun s ag lo h => gaugeHostWrite_of_host h,
    fun s ag lo h => gaugeHostWrite_of_other h, fun s h => if_pos h, fun s cv ci => ⟨_, powerSample_eq, ?sample⟩⟩,
    fun s h => limiterEval_off h, fun s h => ⟨fun hv => ?clean, fun hv => ?trip⟩, fun s h => ⟨fun hv => ?again, fun hv hlt => ?held, fun hv hle => ?release⟩,
    fun s hon hoff => ?on, fun s hoff => ?off⟩
  case tick =>
    simp only [exec_eventLaneCount, execEventLaneCount]
    rw [countedTick_evCycles]
  case sample =>
    dsimp only
    generalize cv.toNat * s.rd Pg.tPwr PWR_V_LSB = v
    generalize ci.toNat * s.rd Pg.tPwr PWR_I_LSB = i
    obtain ⟨-, hgauges⟩ := gaugesSampled_frame (s := s) (v := v) (i := i)
    generalize gaugesSampled s v i = u at hgauges ⊢
    obtain ⟨hnrg, hsamples, -⟩ := limiterEval_tally (s := sampled u (v * i))
    obtain ⟨hnow, havg1, havg10⟩ := rd_sampled (s := u) (p := v * i)
    have hsame : u.tally.samples = s.tally.samples ∧ u.tally.nrgWin = s.tally.nrgWin := by rw [hgauges]; exact ⟨rfl, rfl⟩
    obtain ⟨hs, hn⟩ := hsame
    rw [hnrg, hsamples, rd_limiterEval (by decide) (by decide) (by decide) (by decide), hnow,
      rd_limiterEval (by decide) (by decide) (by decide) (by decide), havg1,
      rd_limiterEval (by decide) (by decide) (by decide) (by decide), havg10, ← hs, ← hn]
    exact ⟨rfl, rfl, rfl, rfl, rfl⟩
  case clean => exact (limiterEval_watch h).trans (if_pos hv)
  case trip =>
    obtain ⟨hstate, hcause⟩ := rd_limTripped (s := s)
    have hthrottle : (limiterEval s).rd Pg.tPwr PWR_STAT_STATE = Lim.THROTTLE := by
      rw [limiterEval_trip h hv, rd_raise (by decide) (by decide) (by decide), hstate]
    refine ⟨hthrottle, ?_, ?_, fun htest => ?_⟩
    · rw [limiterEval_trip h hv, rd_raise (by decide) (by decide) (by decide), hcause]
      rfl
    · rw [limiterEval_trip h hv, rd_raise_irq (by decide)]
    · obtain ⟨-, -, hmode⟩ := limiterEval_tally (s := s)
      rw [hostThrottle, hmode, htest, hthrottle]
      rfl
  case again => exact (limiterEval_throttle h).trans (if_neg hv)
  case held => exact (limiterEval_throttle h).trans ((if_pos hv).trans (if_neg (Nat.not_le.mpr hlt)))
  case release =>
    rw [limiterEval_release h hv hle]
    refine ⟨?_, rd_raise_irq (by decide)⟩
    rw [rd_raise (by decide) (by decide) (by decide), rd_wr_same]
    rfl
  case on => exact (if_pos hon).trans (if_pos hoff)
  case off => exact if_neg (Bool.eq_false_iff.mp hoff)

end Sys2Proof.Machine
end

section
/-!
PROOFS. The egress buffer, the shaper and the gates of a Tally (R142 to R149).
-/
namespace Sys2Proof.Machine
open Reg Sys2Proof.Laws

section
variable {s : State} {f : EgFrame} {i n c : Nat}

/-! ### The egress buffer (R147) -/

/-- A frame without its place in the calendar. -/
def EgFrame.unplaced (f : EgFrame) : EgFrame := { f with due := none }

/-- Placing frames in the calendar changes nothing else of them. -/
theorem placeHeads_unplaced : (placeHeads s).tally.egress.map EgFrame.unplaced = s.tally.egress.map EgFrame.unplaced := by
  have hfst : s.tally.egress.map EgFrame.unplaced = s.tally.egress.zipIdx.map (fun x => x.1.unplaced) := by
    conv_lhs => rw [← List.zipIdx_map_fst 0 s.tally.egress, List.map_map]
    rfl
  rw [hfst]
  simp only [placeHeads, List.map_map]
  refine List.map_congr_left fun x _ => ?_
  dsimp only [Function.comp_apply]
  split
  · split
    · rfl
    · split
      · split <;> rfl
      · rfl
  · rfl

theorem enqueue_of_room {fs : List EgFrame} (h : frameBytes s.tally.egress + frameBytes fs ≤ bufCap s.cfg) :
    enqueue s fs = (placeHeads (({ s with tally := { s.tally with egress := s.tally.egress ++ fs } }).wr Pg.shp SHP_BUF
      (frameBytes (s.tally.egress ++ fs))), true) := if_pos h

theorem enqueue_of_full {fs : List EgFrame} (h : bufCap s.cfg < frameBytes s.tally.egress + frameBytes fs) :
    enqueue s fs = (raise (s.bump Pg.shp SHP_STAT_DROP) Pg.shp Irq.SHP_DROP, false) := if_neg (Nat.not_le.mpr h)

/-! ### Refills (R143, R146) -/

theorem clsTokens_refill (hc : c < 8) :
    clsTokens (refill s n) c = min (clsTokens s c + n * s.rd Pg.shp SHP_CLS_RATE c) (s.rd Pg.shp SHP_CLS_BURST c * 1024) := by
  simp [clsTokens, refill, refilled, hc]

theorem shpReset_cases {old new burst tokens : Nat} : (old < new → shpReset old new burst tokens = burst * 1024) ∧
    (new < old → shpReset old new burst tokens = 0) ∧ (new = old → shpReset old new burst tokens = min tokens (burst * 1024)) :=
  ⟨fun h => if_pos h, fun h => (if_neg (Nat.lt_asymm h)).trans (if_pos h),
    fun h => (if_neg (h ▸ Nat.lt_irrefl _)).trans (if_neg (h ▸ Nat.lt_irrefl _))⟩

theorem shaperRefill_of_due (hack : s.tally.fclkAck = true) (hlt : s.tally.refillAt < slotNow s) : exec .shaperRefill s =
    if s.tally.shpPend = true then
      let u := shpResetAll s s.tally.gatedRates
      let ceil := min (u.tally.ceilTok + (slotNow s - s.tally.refillAt) * ceilRate u) (u.rd Pg.shp SHP_CEIL_BURST * 1024)
      let v := { u with tally := { u.tally with shpPend := false, refillAt := slotNow u, ceilTok := ceil } }
      .next (placeHeads (raise (v.bump Pg.shp SHP_STAT_FALLBACK) Pg.shp Irq.SHP_FALLBACK))
    else .next (placeHeads (refill s (slotNow s - s.tally.refillAt))) :=
  if_neg (not_or.mpr ⟨by simp [hack], Nat.not_le.mpr hlt⟩)

/-! ### The frame that starts (R144, R149) -/

theorem mayStart_of_startable (h : startable s c = some i) (hf : s.tally.egress[i]? = some f) : mayStart s f = true := by
  unfold startable at h
  split at h
  · next x hx =>
    split at h
    · next hstart =>
      have hi : x.2 = i := Option.some.inj h
      have hmem : (x.1, x.2) ∈ s.tally.egress.zipIdx := List.mem_of_find?_eq_some hx
      have hx' : s.tally.egress[x.2]? = some x.1 := List.mk_mem_zipIdx_iff_getElem?.mp hmem
      rw [hi, hf] at hx'
      rwa [Option.some.inj hx']
    · cases h
  · cases h

theorem mayStart_of_nextStart (h : nextStart s = some i) (hf : s.tally.egress[i]? = some f) : mayStart s f = true := by
  obtain ⟨c, -, hc⟩ := List.mem_filterMap.mp (List.mem_of_head? h)
  exact mayStart_of_startable hc hf

/-- Class, ceiling, calendar and gate allow the frame that may start. -/
theorem mayStart_iff : mayStart s f = true ↔ s.rd Pg.shp SHP_CLS_RATE f.cls ≠ 0 ∧ s.rd Pg.shp SHP_CLS_BURST f.cls ≠ 0 ∧
    counted s f * 1024 ≤ clsTokens s f.cls ∧ (∀ d, f.due = some d → d ≤ slotNow s) ∧ s.rd Pg.shp SHP_CEIL ≠ 0 ∧
    counted s f * 1024 ≤ s.tally.ceilTok ∧ gateOpen s f.cls (counted s f) = true := by
  cases hdue : f.due <;> simp [mayStart, hdue, and_assoc]

theorem frameStart_of_head (hidle : s.tally.sending = none) (hack : s.tally.fclkAck = true) (hi : nextStart s = some i)
    (hf : s.tally.egress[i]? = some f) :
    let u := { s with tally := { s.tally with
      egress := s.tally.egress.eraseIdx i, sending := some f,
      clsTok := s.tally.clsTok.set f.cls (clsTokens s f.cls - counted s f * 1024), ceilTok := s.tally.ceilTok - counted s f * 1024 } }
    exec .frameStart s = .next (placeHeads (u.wr Pg.shp SHP_BUF (frameBytes u.tally.egress))) := by
  have hrun : ¬ (s.tally.sending.isSome = true ∨ s.tally.fclkAck = false) := by simp [hidle, hack]
  simp only [exec_frameStart, execFrameStart, if_neg hrun, hi, hf]

theorem frameSent_of_sending (h : s.tally.sending = some f) : exec .frameSent s =
    .next (lowerFclk ((State.incr { s with tally := { s.tally with sending := none } } Pg.tBur BUR_AOC 18).send (.egress f))) := by
  simp only [exec_frameSent, execFrameSent, h]

end

/-- Settles O25: a refill and a start take their branches by fclk and the calendar, and the frame that starts is one that may. -/
theorem shaperAndGates : Obligations.ShaperAndGates := by
  unfold Obligations.ShaperAndGates
  refine ⟨fun s hack hlt hpend => (shaperRefill_of_due hack hlt).trans (if_neg (by simp [hpend])),
    fun s hack hlt hpend => (shaperRefill_of_due hack hlt).trans (if_pos hpend), fun s hack => ⟨if_pos (.inl hack), if_pos (.inr hack)⟩,
    fun s n c hc => clsTokens_refill hc, fun s n => rfl, fun old new burst tokens => shpReset_cases,
    fun s i f hidle hack hi hf => ⟨mayStart_of_nextStart hi hf, frameStart_of_head hidle hack hi hf⟩, fun s f h => ?may,
    fun s f h => frameSent_of_sending h, fun s => rfl⟩
  case may =>
    obtain ⟨hrate, -, hcls, -, -, hceil, hgate⟩ := mayStart_iff.mp h
    exact ⟨hcls, hceil, hrate, hgate⟩

/-- Settles O26: the frames are appended where they fit, and the calendar places them without changing them. -/
theorem egressBufferIsAllOrNothing : Obligations.EgressBufferIsAllOrNothing := by
  unfold Obligations.EgressBufferIsAllOrNothing
  intro s fs
  refine ⟨fun hroom => ?_, fun hfull => enqueue_of_full hfull, rfl, rfl⟩
  rw [enqueue_of_room hroom]
  exact ⟨rfl, placeHeads_unplaced⟩

end Sys2Proof.Machine
end

section
/-!
PROOFS. The command inlet of a Tally: the checks of a frame and their order (R137), verdicts (R141), keys (R135, R418 to R420), the commands
answered by one RESPONSE (R138, R140).
-/
namespace Sys2Proof.Machine
open Reg Sys2Proof.Laws

/-! ### A bank of registers written entry by entry -/

section
variable {s : State} {pg pg' : Page} {f g : Fld} {v : Nat → Nat} {n i : Nat}

theorem rd_bankWrites_same (hi : i < n) : ((List.range n).foldl (fun s i => s.wr pg f (v i) i) s).rd pg f i = v i % 2 ^ f.w := by
  induction n with
  | zero => exact absurd hi (Nat.not_lt_zero _)
  | succ n ih =>
    rw [List.range_succ, List.foldl_append]
    simp only [List.foldl_cons, List.foldl_nil]
    rcases Nat.lt_succ_iff_lt_or_eq.mp hi with hlt | heq
    · rw [rd_wr_other (fun e => Nat.ne_of_lt hlt (congrArg RegKey.idx e)), ih hlt]
    · rw [heq, rd_wr_same]

theorem rd_bankWrites_off (h : g.off ≠ f.off) : ((List.range n).foldl (fun s i => s.wr pg f (v i) i) s).rd pg' g i = s.rd pg' g i :=
  foldl_keeps (R := fun s t => t.rd pg' g i = s.rd pg' g i) (fun _ => rfl) (fun h h' => Eq.trans h' h) (fun _ _ => rd_wr_off h) _ s

theorem bankWrites_hub_out : ((List.range n).foldl (fun s i => s.wr pg f (v i) i) s).hub = s.hub ∧
    ((List.range n).foldl (fun s i => s.wr pg f (v i) i) s).out = s.out :=
  foldl_keeps (R := fun s t => t.hub = s.hub ∧ t.out = s.out) (f := fun s i => s.wr pg f (v i) i) (fun _ => ⟨rfl, rfl⟩)
    (fun ⟨hhub, hout⟩ ⟨hhub', hout'⟩ => ⟨hhub'.trans hhub, hout'.trans hout⟩) (fun _ _ => ⟨rfl, rfl⟩) _ s

/-- A cause raised on a page of the Tally leaves the Hub. -/
theorem raise_tally_hub {p k : Nat} {e : EvInfo} : (raise s (.tally p) k e).hub = s.hub := by
  rcases raise_eq_or_post (s := s) (pg := .tally p) (n := k) (e := e) with heq | ⟨-, sev, heq⟩ <;> rw [heq] <;> rfl

end

/-! ### The checks of a frame (R137) -/

section
variable {s : State} {f : InFrame} {kind : Nat} {k : Key}

theorem inletHead_kind (h : f.hdr.ver ≠ 1 ∨ f.hdr.kind ≠ kind) : inletHead s f kind = some (.refuse Syn.RANGE false) := if_pos h

theorem inletHead_size (hv : f.hdr.ver = 1) (hk : f.hdr.kind = kind) (h : f.seg ≠ 0 ∨ 2048 < f.hdr.sealedLen ∨ f.bytes ≠ f.hdr.sealedLen) :
    inletHead s f kind = some (.refuse Syn.SIZE false) :=
  (if_neg (by simp [hv, hk])).trans (if_pos h)

theorem inletHead_of_sized (hv : f.hdr.ver = 1) (hk : f.hdr.kind = kind) (hseg : f.seg = 0) (hlen : f.hdr.sealedLen ≤ 2048)
    (hb : f.bytes = f.hdr.sealedLen) : inletHead s f kind =
      if s.rd Pg.tly TLY_UNIT_LOCKED = 0 ∨ f.hdr.unit ≠ s.rd Pg.tly TLY_UNIT_UNIT then some .miss else none :=
  (if_neg (by simp [hv, hk])).trans (if_neg (by simp [hseg, hlen, hb]))

theorem inletCommand_of_head {r : InletRes} (h : inletHead s f Kind.COMMAND = some r) : inletCommand s f = r := by
  simp only [inletCommand, h]

theorem inletCommand_of_no_key (h : inletHead s f Kind.COMMAND = none) (hk : cmdKeyFor s f.hdr.epoch = none) :
    inletCommand s f = .refuse Syn.AUTH false := by
  simp only [inletCommand, h, hk]

theorem inletCommand_of_key (h : inletHead s f Kind.COMMAND = none) (hk : cmdKeyFor s f.hdr.epoch = some k) :
    inletCommand s f = if f.key ≠ k.val ∨ f.intact = false then .refuse Syn.AUTH false
      else if f.hdr.window ≤ s.rd Pg.sealP SEAL_CMD_SEQ then .refuse Syn.AUTH true else .accept k := by
  simp only [inletCommand, h, hk]

/-! ### The bootstrap (R419) -/

variable {anchor epoch : Nat} {sigOk ok : Bool}

theorem bootstrapCheck_of_first (h : inletHead s f Kind.COMMAND = none) (he : f.hdr.epoch = 0) (hcur : s.tally.cmd.cur = none) :
    bootstrapCheck s f anchor sigOk ok kind epoch =
      if s.tally.anchor ≠ some anchor ∨ sigOk = false ∨ s.tally.identity = false ∨ ok = false then .refuse Syn.AUTH false
      else if f.hdr.window ≤ s.rd Pg.sealP SEAL_CMD_SEQ then .refuse Syn.AUTH true
      else if kind ≠ 2 ∨ epoch = 0 then .refuse Syn.RANGE false
      else .accept ⟨epoch, 0⟩ := by
  simp only [bootstrapCheck, h]
  exact if_neg (by simp [he, hcur])

end

/-! ### A verdict (R141) -/

section
variable {s : State} {f : InFrame} {i : Nat} {plain : List Nat}

/-- What an accepted verdict writes before its buffer. -/
def verdictHeader (s : State) (f : InFrame) (i : Nat) (plain : List Nat) : State :=
  let s := s.wr Pg.tLcs LCS_SITE_QUAL (plain.getD 0 0 % 4)
  let s := { s with tally := { s.tally with slots := s.tally.slots.map (fun t => { t with verdWins := 0 }) } }
  let s := setKeys s i (verdictKeys (getKeys s i) f)
  let s := s.wr Pg.sealP SEAL_VERD_W f.hdr.window
  ((s.wr Pg.sealP SEAL_VERD_INFO_SLOT i).wr Pg.sealP SEAL_VERD_INFO_REV f.hdr.rev).wr Pg.sealP SEAL_VERD_INFO_LEN plain.length

theorem verdictAccepted_eq : verdictAccepted s f i plain = raise (verdictBuffer (verdictHeader s f i plain) plain) Pg.sealP Irq.SEAL_VERDICT :=
  rfl

theorem rd_verdictAccepted {pg : Page} {g : Fld} (h : g.off ≠ 0x080) (h1 : g.off ≠ 0x010) (h2 : g.off ≠ 0x098) (h3 : g.off ≠ 0x0E0) :
    (verdictAccepted s f i plain).rd pg g = (verdictHeader s f i plain).rd pg g := by
  rw [verdictAccepted_eq, rd_raise h1 h2 h3]
  exact rd_bankWrites_off h

theorem rd_verdictHeader : (verdictHeader s f i plain).rd Pg.sealP SEAL_VERD_W = f.hdr.window % 2 ^ SEAL_VERD_W.w ∧
    (verdictHeader s f i plain).rd Pg.sealP SEAL_VERD_INFO_SLOT = i % 4 ∧
    (verdictHeader s f i plain).rd Pg.sealP SEAL_VERD_INFO_REV = f.hdr.rev % 2 ^ SEAL_VERD_INFO_REV.w := by
  unfold verdictHeader
  simp (disch := decide) only [rd_wr_off, rd_wr_lo, rd_wr_same]
  exact ⟨trivial, rfl, trivial⟩

/-- Neither the verdict's own cause nor an entry it may post is a field of the LCS page. -/
theorem verdictAccepted_siteQual : (verdictAccepted s f i plain).rd Pg.tLcs LCS_SITE_QUAL = plain.getD 0 0 % 4 := by
  have hno : ¬ RaiseFields Pg.sealP Irq.SEAL_VERDICT (LCS_SITE_QUAL.key Pg.tLcs 0) := by
    rintro (⟨hpg, -⟩ | ⟨hpg, -⟩)
    · exact absurd hpg (by decide)
    · exact absurd hpg (by decide)
  rw [verdictAccepted_eq, raise_onlyFields.rd_eq hno, verdictBuffer, rd_bankWrites_off (by decide), verdictHeader]
  dsimp only
  rw [rd_wr_off (by decide), rd_wr_off (by decide), rd_wr_off (by decide), rd_wr_off (by decide)]
  exact (rd_wr_same ..).trans (Nat.mod_mod ..)

theorem verdictAccepted_buffer {j : Nat} (hj : j < 512) : (verdictAccepted s f i plain).rd Pg.sealP SEAL_VBUF_DATA j =
    ofBe ((List.range 4).map (fun b => plain.getD (4 * j + b) 0)) % 2 ^ SEAL_VBUF_DATA.w := by
  rw [verdictAccepted_eq, rd_raise (by decide) (by decide) (by decide)]
  exact rd_bankWrites_same hj

theorem verdictAccepted_raised : (verdictAccepted s f i plain).rd Pg.sealP (BLK_IRQ_STAT Irq.SEAL_VERDICT) = 1 := by
  rw [verdictAccepted_eq, rd_raise_irq (by decide)]

theorem verdictAccepted_hub_out : (verdictAccepted s f i plain).hub = s.hub ∧ (verdictAccepted s f i plain).out = s.out := by
  obtain ⟨hhub, hout⟩ := bankWrites_hub_out (s := verdictHeader s f i plain) (pg := Pg.sealP) (f := SEAL_VBUF_DATA) (n := 512)
    (v := fun i => ofBe ((List.range 4).map (fun j => plain.getD (4 * i + j) 0)))
  rw [verdictAccepted_eq, raise_out]
  exact ⟨raise_tally_hub.trans hhub, hout⟩

theorem verdictAccept_of_accepted {bytes : List Byte} {k : Key} (h : inletVerdict (s.incr Pg.tBur BUR_AOC 19) f = .accept k)
    (hi : slotOfJob (s.incr Pg.tBur BUR_AOC 19) f.hdr.job = some i) :
    exec (.verdictAccept f bytes) s = .next (verdictAccepted (s.incr Pg.tBur BUR_AOC 19) f i (bytes.map (·.toNat))) := by
  simp only [exec_verdictAccept, execVerdictAccept, h, hi]

end

/-! ### Ends of keys (R135, R420) -/

section
variable {s : State}

theorem prevKeyDiscard_of_over {i : Nat} (hi : i < 4) (hp : (getKeys s i).prev.isSome = true) (h : prevKeyEnd (getKeys s i) ≤ s.now .tally) :
    exec (.prevKeyDiscard i) s = .next (setKeys s i { getKeys s i with prev := none }) := if_pos ⟨hi, hp, h⟩

theorem prevKeyDiscard_of_running {i : Nat} (h : s.now .tally < prevKeyEnd (getKeys s i)) : exec (.prevKeyDiscard i) s = .next s :=
  if_neg fun ⟨_, _, hend⟩ => Nat.not_lt.mpr hend h

theorem cmdKeyOverlapEnd_of_prev {k : Key} {t : Nat} (h : (cmdPromote s).tally.cmd.prev = some (k, t)) : exec .cmdKeyOverlapEnd s =
    if (cmdPromote s).now .tally ≥ t then
      .next { cmdPromote s with tally := { (cmdPromote s).tally with cmd := { (cmdPromote s).tally.cmd with prev := none } } }
    else .next (cmdPromote s) := by
  simp only [exec_cmdKeyOverlapEnd, execCmdKeyOverlapEnd, h]

theorem cmdPromote_of_due {k : Key} {t : Nat} (h : s.tally.cmd.next = some (k, t)) (ht : t ≤ s.now .tally) :
    cmdPromote s = { s with tally := { s.tally with cmd :=
      { cur := some k, prev := s.tally.cmd.cur.map (fun c => (c, t + 10000000000)), next := none } } } := by
  simp only [cmdPromote, h, if_pos ht]

end

/-- Settles O27: each check is reached only where those before it pass; a verdict's buffer and its header are of different registers. -/
theorem inletChecksAndBootstrap : Obligations.InletChecksAndBootstrap := by
  unfold Obligations.InletChecksAndBootstrap
  refine ⟨fun s f => ⟨fun h => inletCommand_of_head (inletHead_kind h), fun hv hk => ⟨fun h => inletCommand_of_head (inletHead_size hv hk h),
      fun hseg hlen hb => ?sized⟩, rfl, rfl⟩,
    fun s f kind epoch anchor kv sigOk ok => ⟨fun x hx => ?boot, fun hh he hcur => ⟨fun h => ?bootRefused, fun ha hsig hid hok hw hkind hep => ?bootAccepted⟩⟩,
    fun s f plain k i h hi => ⟨_, verdictAccept_of_accepted h hi, ?verdict⟩, fun s f plain code b h => ?verdictRefused,
    fun s i hi hp h => prevKeyDiscard_of_over hi hp h, fun s i h => prevKeyDiscard_of_running h,
    fun s k t h => ⟨fun ht => (cmdKeyOverlapEnd_of_prev h).trans (if_pos ht),
      fun ht => (cmdKeyOverlapEnd_of_prev h).trans (if_neg (Nat.not_le.mpr ht))⟩⟩
  case sized =>
    have hhead := inletHead_of_sized (s := s) hv hk hseg hlen hb
    refine ⟨fun h => inletCommand_of_head (hhead.trans (if_pos h)), fun hlock hunit => ?_⟩
    have hnone : inletHead s f Kind.COMMAND = none := hhead.trans (if_neg (by simp [hlock, hunit]))
    refine ⟨fun h => inletCommand_of_no_key hnone h, fun k h => ?_⟩
    have hkey := inletCommand_of_key hnone h
    refine ⟨fun hbad => hkey.trans (if_pos hbad), fun hval hint hw => ?_, fun hval hint hw => ?_⟩
    · exact hkey.trans ((if_neg (by simp [hval, hint])).trans (if_pos hw))
    · exact hkey.trans ((if_neg (by simp [hval, hint])).trans (if_neg (Nat.not_le.mpr hw)))
  case boot => simp only [exec_bootstrap, execBootstrap, hx]
  case bootRefused =>
    exact (bootstrapCheck_of_first hh he hcur).trans (if_pos (h.imp_right Or.inl))
  case bootAccepted =>
    refine ⟨_, (bootstrapCheck_of_first hh he hcur).trans ((if_neg ?_).trans ((if_neg (Nat.not_le.mpr hw)).trans (if_neg ?_)))⟩
    · rintro (h | h | h | h)
      · exact h ha
      · exact Bool.false_ne_true (h.symm.trans hsig)
      · exact Bool.false_ne_true (h.symm.trans hid)
      · exact Bool.false_ne_true (h.symm.trans hok)
    · simp [hkind, hep]
  case verdict =>
    obtain ⟨hw, hslot, hrev⟩ := rd_verdictHeader (s := s.incr Pg.tBur BUR_AOC 19) (f := f) (i := i) (plain := plain.map (·.toNat))
    obtain ⟨hhub, hout⟩ := verdictAccepted_hub_out (s := s.incr Pg.tBur BUR_AOC 19) (f := f) (i := i) (plain := plain.map (·.toNat))
    refine ⟨verdictAccepted_siteQual, ?_, ?_, ?_, verdictAccepted_raised, fun j hj => verdictAccepted_buffer hj, hhub, hout⟩
    · exact (rd_verdictAccepted (by decide) (by decide) (by decide) (by decide)).trans hw
    · exact (rd_verdictAccepted (by decide) (by decide) (by decide) (by decide)).trans hslot
    · exact (rd_verdictAccepted (by decide) (by decide) (by decide) (by decide)).trans hrev
  case verdictRefused => simp only [exec_verdictAccept, execVerdictAccept, h]

/-! ### Commands (R138, R140) -/

section
variable {s : State} {f : InFrame} {op : Nat} {act : State → State × Nat × Nat × List Nat}

theorem runCommand_of_accepted {key : Key} (h : inletCommand ((cmdPromote s).incr Pg.tBur BUR_AOC 19) f = .accept key) :
    runCommand s f op act =
      let r := act (inletAccepted ((cmdPromote s).incr Pg.tBur BUR_AOC 19) f)
      respond r.1 f key op r.2.1 r.2.2.1 r.2.2.2 := by
  simp only [runCommand, h]

theorem runCommand_of_refused {code : Nat} {b : Bool} (h : inletCommand ((cmdPromote s).incr Pg.tBur BUR_AOC 19) f = .refuse code b) :
    runCommand s f op act = inletRefused ((cmdPromote s).incr Pg.tBur BUR_AOC 19) (.refuse code b) := by
  simp only [runCommand, h]

theorem inletAccepted_sequence : (inletAccepted s f).rd Pg.sealP SEAL_CMD_SEQ = f.hdr.window % 2 ^ SEAL_CMD_SEQ.w := by
  unfold inletAccepted
  dsimp only
  split
  · exact (rd_congr rfl rfl ..).trans (rd_wr_same s Pg.sealP SEAL_CMD_SEQ f.hdr.window 0)
  · exact rd_wr_same ..

/-! ### KEYLOAD (R418, R420) -/

variable {job kind epoch appt key i : Nat} {ok : Bool}

theorem keyload_of_range (h : (kind ≠ 1 ∧ kind ≠ 2) ∨ epoch = 0) :
    keyload s job kind epoch appt ok key = cmdRefuse s Pg.sealP Syn.RANGE := if_pos h

theorem keyload_of_kind (hkind : kind = 1 ∨ kind = 2) (hep : epoch ≠ 0) : keyload s job kind epoch appt ok key =
    if s.tally.identity = false ∨ ok = false then cmdRefuse s Pg.sealP Syn.AUTH
    else if kind = 2 then
      (cmdPromote { s with tally := { s.tally with cmd := { s.tally.cmd with next := some (⟨epoch, key⟩, appt) } } }, 0, 1, [])
    else keyload s job kind epoch appt ok key := by
  have hrange : ¬ ((kind ≠ 1 ∧ kind ≠ 2) ∨ epoch = 0) := by omega
  simp only [keyload, if_neg hrange]
  split
  · rfl
  · split <;> rfl

theorem keyload_unauthorised (hkind : kind = 1 ∨ kind = 2) (hep : epoch ≠ 0) :
    keyload s job kind epoch appt false key = cmdRefuse s Pg.sealP Syn.AUTH :=
  (keyload_of_kind hkind hep).trans (if_pos (.inr rfl))

theorem keyload_commandKey (hid : s.tally.identity = true) (hep : epoch ≠ 0) : keyload s job 2 epoch appt true key =
    (cmdPromote { s with tally := { s.tally with cmd := { s.tally.cmd with next := some (⟨epoch, key⟩, appt) } } }, 0, 1, []) := by
  simp [keyload, hid, hep]

theorem keyload_no_slot (hid : s.tally.identity = true) (hep : epoch ≠ 0) (h : slotForKey s job = none) :
    keyload s job 1 epoch appt true key = cmdRefuse s Pg.sealP Syn.ROSTER := by
  simp [keyload, hid, hep, h]

theorem keyload_slot (hid : s.tally.identity = true) (hep : epoch ≠ 0) (h : slotForKey s job = some i) :
    keyload s job 1 epoch appt true key =
      if (getKeys s i).cur.any (fun c => decide (epoch ≤ c.epoch)) = true then cmdRefuse s Pg.sealP Syn.STATE
      else (setKeys s i { getKeys s i with next := some ⟨epoch, key⟩ }, 0, 1, []) := by
  simp [keyload, hid, hep, h]

end

/-- Settles O28: an accepted command runs its action on the state with the sequence taken and responds once; a key finds its place by its kind. -/
theorem inletCommandsAndKeys : Obligations.InletCommandsAndKeys := by
  unfold Obligations.InletCommandsAndKeys
  refine ⟨fun s f => ⟨fun key h => ⟨inletAccepted_sequence, fun page off n data hn hdata => ?write, fun page off n hn => ?read,
      fun page off n data hn => ⟨?writeSize, ?readSize⟩, fun mask appt => congrArg Host.Outcome.next (runCommand_of_accepted h),
      fun kind epoch appt ok kv => congrArg Host.Outcome.next (runCommand_of_accepted h)⟩,
    fun code b h page off n data => ⟨congrArg Host.Outcome.next (runCommand_of_refused h), congrArg Host.Outcome.next (runCommand_of_refused h)⟩⟩,
    fun s job epoch appt key => ⟨fun kind ok h => keyload_of_range h, fun kind hkind hep => keyload_unauthorised hkind hep,
      fun hid hep => ⟨keyload_commandKey hid hep, fun h => keyload_no_slot hid hep h, fun i h hnew => ?next, fun i c h hcur hold => ?old⟩,
      fun k t h ht => cmdPromote_of_due h ht⟩⟩
  case write =>
    have hfits : ¬ (n.toNat > 64 ∨ data.length < n.toNat) := by omega
    simp only [exec_write, execWrite, runCommand_of_accepted h, if_neg hfits]
  case read => simp only [exec_read, execRead, runCommand_of_accepted h, if_neg (Nat.not_lt.mpr hn)]
  case writeSize =>
    have hlong : n.toNat > 64 ∨ data.length < n.toNat := .inl hn
    simp only [exec_write, execWrite, runCommand_of_accepted h, if_pos hlong, cmdRefuse]
  case readSize => simp only [exec_read, execRead, runCommand_of_accepted h, if_pos hn, cmdRefuse]
  case next =>
    refine (keyload_slot hid hep h).trans (if_neg ?_)
    cases hcur : (getKeys s i).cur with
    | none => simp
    | some c => simpa using hnew c hcur
  case old => exact (keyload_slot hid hep h).trans (if_pos (by simp [hcur, hold]))

end Sys2Proof.Machine
end

section
/-!
PROOFS. The digest engine of a Tally (R336 to R339, R360).
-/
namespace Sys2Proof.Machine
open Reg Sys2Proof.Laws

section
variable {s : State} {slot step : Nat} {ag : Agent}

/-! ### A STEP mark (R336, R338) -/

theorem meetsCadence_iff : meetsCadence s slot step = true ↔ s.rd Pg.dgs DGS_CAD_EVERY slot ≠ 0 ∧ s.rd Pg.dgs DGS_CAD_FIRST slot ≤ step ∧
    (step - s.rd Pg.dgs DGS_CAD_FIRST slot) % s.rd Pg.dgs DGS_CAD_EVERY slot = 0 := by
  simp [meetsCadence, and_assoc]

theorem digestMark_idle (h : dgsState s = Dgs.IDLE) : digestMark s slot step =
    if meetsCadence s slot step = true then startDigest s slot step else s := if_pos h

theorem digestMark_replay (h : dgsState s = Dgs.RPL_WAIT ∨ dgsState s = Dgs.REPLAYING) : digestMark s slot step =
    if meetsCadence s slot step = true then busyReport s slot step else s := by
  have hother : dgsState s ≠ Dgs.IDLE ∧ dgsState s ≠ Dgs.RUNNING := by
    rcases h with h | h <;> rw [h] <;> decide
  obtain ⟨hidle, hrunning⟩ := hother
  exact (if_neg hidle).trans (if_neg hrunning)

/-! ### Completion (R338, R339) -/

theorem digestComplete_running {r : DigRun} {err : Bool} {mem : List (Nat × Byte)} (h : dgsState s = Dgs.RUNNING) (hr : s.tally.digRun = some r) :
    exec (.digestComplete err mem) s = .next (runComplete s r err mem) := by
  simp only [exec_digestComplete, execDigestComplete, if_pos h, hr]

theorem digestComplete_replaying {r : DigRpl} {err : Bool} {mem : List (Nat × Byte)} (h : dgsState s = Dgs.REPLAYING)
    (hr : s.tally.digRpl = some r) : exec (.digestComplete err mem) s = .next (replayComplete s r err mem) := by
  have hrunning : dgsState s ≠ Dgs.RUNNING := by rw [h]; decide
  simp only [exec_digestComplete, execDigestComplete, if_neg hrunning, if_pos h, hr]

theorem dgsState_setDgs {v : Nat} (hv : v < 2 ^ DGS_STAT_STATE.w) : dgsState (setDgs s v) = v :=
  (rd_wr_same ..).trans (Nat.mod_eq_of_lt hv)

theorem afterRun_idle (h : s.tally.digRpl = none) : dgsState (afterRun s) = Dgs.IDLE := by
  simp only [afterRun, h]
  exact dgsState_setDgs (by decide)

/-- A held replay then waits for the host. -/
theorem afterRun_held {r : DigRpl} (h : s.tally.digRpl = some r) :
    dgsState (afterRun s) = Dgs.RPL_WAIT ∧ (afterRun s).rd Pg.dgs (BLK_IRQ_STAT Irq.DGS_REPLAY) = 1 := by
  simp only [afterRun, h]
  exact ⟨(rd_raise (by decide) (by decide) (by decide)).trans (dgsState_setDgs (by decide)), rd_raise_irq (by decide)⟩

/-! ### RPL_READY and RPL_DECLINE (R338, R360) -/

theorem rplReady_waiting {r : DigRpl} (hr : s.tally.digRpl = some r) (h : dgsState s = Dgs.RPL_WAIT) : exec (.rplReady .regPort) s =
    .next (raiseFclk (setDgs { s with tally := { s.tally with digRpl := some { r with ready := s.now .tally } } } Dgs.REPLAYING)) := by
  simp only [exec_rplReady, execRplReady, rplReady, ne_eq, not_true, if_false, hr, if_pos h]

theorem rplDecline_waiting {r : DigRpl} (hr : s.tally.digRpl = some r) (h : dgsState s = Dgs.RPL_WAIT) : exec (.rplDecline .regPort) s =
    .next (afterReplay (sendReport s (bareReport r.slot (s.rd Pg.sealP (SEAL_EPOCH r.slot)) r.step Dgs.DECLINED (liveExtents s r.slot) 0
      (s.now .tally) (some (r.id, r.shift))))) := by
  simp only [exec_rplDecline, execRplDecline, rplDecline, ne_eq, not_true, if_false, hr, if_pos h]

theorem rpl_elsewhere (h : dgsState s ≠ Dgs.RPL_WAIT) : exec (.rplReady .regPort) s = .next (syn s Pg.dgs Syn.STATE .regPort false 0x088) ∧
    exec (.rplDecline .regPort) s = .next (syn s Pg.dgs Syn.STATE .regPort false 0x088) := by
  simp only [exec_rplReady, execRplReady, rplReady, exec_rplDecline, execRplDecline, rplDecline, ne_eq, not_true, if_false, if_neg h]
  cases s.tally.digRpl <;> exact ⟨rfl, rfl⟩

theorem rpl_of_other_agent (h : ag ≠ .regPort) : exec (.rplReady ag) s = .next (syn s Pg.dgs Syn.AUTH ag false 0x088) ∧
    exec (.rplDecline ag) s = .next (syn s Pg.dgs Syn.AUTH ag false 0x088) :=
  ⟨congrArg Host.Outcome.next (if_pos h), congrArg Host.Outcome.next (if_pos h)⟩

end

/-- Settles O30, by the state of the engine. -/
theorem digestEngineTransitions : Obligations.DigestEngineTransitions := by
  unfold Obligations.DigestEngineTransitions
  exact ⟨fun s slot step h => ⟨fun hm => (digestMark_idle h).trans (if_pos hm), fun hm => (digestMark_idle h).trans (if_neg (by simp [hm]))⟩,
    fun s slot step h => digestMark_replay h, fun s slot step => meetsCadence_iff,
    fun s r mem h hr => ⟨digestComplete_running h hr, digestComplete_running h hr⟩,
    fun s r err mem h hr => digestComplete_replaying h hr, fun s => ⟨fun h => afterRun_idle h, fun r h => afterRun_held h⟩,
    fun s r hr h => ⟨rplReady_waiting hr h, rplDecline_waiting hr h⟩, fun s h => rpl_elsewhere h, fun s ag h => rpl_of_other_agent h⟩

end Sys2Proof.Machine
end

section
/-!
PROOFS. What the Hub takes in: frames on the fabric ports and reassembly (R170, R174, R195), the checks of a record and its acceptance (R174 to
R176, R179), the sealing of a window (R178 to R181, R189, R190, R199).
-/
namespace Sys2Proof.Machine
open Reg Sys2Proof.Laws

/-! ### Frames and reassembly -/

section
variable {s : State} {d port pos t : Nat} {f : QFrame}

/-- An ingest die outside a freeze takes what is received. -/
theorem not_ingest_held (hd : isXD d = true) (hf : isFrozen s (Pg.ing d) = false) : ¬ ((¬ isXD d = true) ∨ isFrozen s (Pg.ing d) = true) := by
  simp [hd, hf]

theorem qrpFrameRx_of_test (hport : port < 10) (hsafe : hubSafe s = false) (htest : portTest s port = true) :
    exec (.qrpFrameRx port pos f) s = .next (discardFrame s port) :=
  (if_neg (by simp [hport, hsafe])).trans (if_pos htest)

theorem qrpFrameRx_of_intact (hport : port < 10) (hsafe : hubSafe s = false) (htest : portTest s port = false) (hfcs : f.fcs = true) :
    exec (.qrpFrameRx port pos f) s =
      let u := s.incr (Pg.hBur (portDie port)) BUR_AOC 12
      if isFrozen u (Pg.ing (portDie port)) = true then .next (holdFrame u (portDie port) port (rxStamp s port pos / 1000).toNat f)
      else .next (frameIn (drainHeld u (portDie port)) (portDie port) port (rxStamp s port pos / 1000).toNat f) := by
  have htaken : ¬ (port ≥ 10 ∨ hubSafe s = true) := by simp [hport, hsafe]
  simp only [exec_qrpFrameRx, execQrpFrameRx, if_neg htaken, htest, hfcs, Bool.false_eq_true, if_false, if_true]

theorem frameIn_of_bad_fcs (h : f.fcs = false) : frameIn s d port t f = count s d Cnt.NOT_QRP := if_pos h

theorem frameIn_of_intact (hfcs : f.fcs = true) (hudp : f.udp = s.rd (Pg.ing d) ING_CFG_UDP_PORT) : frameIn s d port t f =
    if f.hdr.ver ≠ 1 ∨ ¬ (f.hdr.kind = 1 ∨ f.hdr.kind = 2 ∨ f.hdr.kind = 3) then ingRefuse s d 2 Syn.RANGE Cnt.HDR
    else if f.seg ≥ f.segs ∨ f.hdr.sealedLen > 13916 then ingRefuse s d 3 Syn.SIZE Cnt.SEGMENT
    else putSegment s (ingestDie s d f.hdr.unit t) port t f :=
  (if_neg (by simp [hfcs])).trans (if_neg (not_not.mpr hudp))

theorem frameIn_of_header (hfcs : f.fcs = true) (hudp : f.udp = s.rd (Pg.ing d) ING_CFG_UDP_PORT) (hv : f.hdr.ver = 1)
    (hk : f.hdr.kind = 1 ∨ f.hdr.kind = 2 ∨ f.hdr.kind = 3) : frameIn s d port t f =
      if f.seg ≥ f.segs ∨ f.hdr.sealedLen > 13916 then ingRefuse s d 3 Syn.SIZE Cnt.SEGMENT
      else putSegment s (ingestDie s d f.hdr.unit t) port t f :=
  (frameIn_of_intact hfcs hudp).trans (if_neg (by simp [hv, hk]))

theorem putSegment_of_new (h : (getIng s d).reasm.find? (fun r => sameSet r.hdr f.hdr && r.segs == f.segs) = none) :
    putSegment s d port t f = if bufUsed (getIng s d) + f.len > 4194304 then ingBusy s d
      else noteBuf (setIng s d { getIng s d with reasm := (getIng s d).reasm ++
        [{ hdr := f.hdr, segs := f.segs, parts := [(f.seg, f.len, f.body)], tFirst := t, tLast := t, port }] }) d := by
  simp only [putSegment, h]

theorem putSegment_of_held {r : Reasm} (h : (getIng s d).reasm.find? (fun r => sameSet r.hdr f.hdr && r.segs == f.segs) = some r)
    (hheld : r.holds f.seg = true) : putSegment s d port t f = count s d Cnt.DUP := by
  simp only [putSegment, h, if_pos hheld]

end

/-- Settles O31: a frame takes the branch of the first check that fails. -/
theorem framesAndReassembly : Obligations.FramesAndReassembly := by
  unfold Obligations.FramesAndReassembly
  refine ⟨fun s port pos f hport hsafe htest hfcs =>
      ⟨fun h => (qrpFrameRx_of_intact hport hsafe htest hfcs).trans (if_pos h),
        fun h => (qrpFrameRx_of_intact hport hsafe htest hfcs).trans (if_neg (Bool.eq_false_iff.mp h))⟩,
    fun s port pos f hport hsafe htest => qrpFrameRx_of_test hport hsafe htest,
    fun s d port t f => ⟨fun h => frameIn_of_bad_fcs h, fun hfcs hudp => ⟨fun h => (frameIn_of_intact hfcs hudp).trans (if_pos (.inl h)),
      fun hv hk => ⟨fun h => (frameIn_of_header hfcs hudp hv hk).trans (if_pos h), fun hseg hlen => ?taken⟩⟩⟩,
    fun s d port t f h => ⟨fun hfull => (putSegment_of_new h).trans (if_pos hfull),
      fun hroom => (putSegment_of_new h).trans (if_neg (Nat.not_lt.mpr hroom))⟩,
    fun s d port t f r h hheld => putSegment_of_held h hheld, fun s d hd hf => if_neg (not_ingest_held hd hf)⟩
  case taken => exact (frameIn_of_header hfcs hudp hv hk).trans (if_neg (by omega))

/-! ### The checks of a record -/

/-- R174 checks 10 and 11 on a record of the settings g: its key is held, its data authentic under it. -/
def checkSeal (s : State) (r : Reasm) (g : JobGen) : RecRes :=
  match jobKey s r.hdr.job r.hdr.epoch with
  | none => .refuse 10 Syn.AUTH Cnt.AUTH
  | some key => match r.data with
    | none => .refuse 11 Syn.AUTH Cnt.AUTH
    | some body =>
      if body.intact = false ∨ body.key ≠ key.val ∨ body.hdr ≠ r.hdr ∨ body.plain.length + 16 ≠ r.hdr.sealedLen then
        .refuse 11 Syn.AUTH Cnt.AUTH
      else .pass g body

section
variable {s : State} {d slot : Nat} {r : Reasm} {g : JobGen} {body : Sealed}

theorem checkSeal_of_data {key : HKey} (hkey : jobKey s r.hdr.job r.hdr.epoch = some key) (hdata : r.data = some body) : checkSeal s r g =
    if body.intact = false ∨ body.key ≠ key.val ∨ body.hdr ≠ r.hdr ∨ body.plain.length + 16 ≠ r.hdr.sealedLen then .refuse 11 Syn.AUTH Cnt.AUTH
    else .pass g body := by
  simp only [checkSeal, hkey, hdata]

/-- The checks 6 to 11 of a record, in their order, once its slot and settings are known. -/
theorem checkRecord_of_gen (hlen : r.lengthsOk = true) (hslot : slotOf s d r.hdr.job = some slot)
    (hgen : genAt s d slot r.hdr.job (windowStart (recWin r.hdr) r.hdr.k) = some g) (hwhole : r.hdr.flags % 2 = 0) : checkRecord s d r =
    if windowEnd (recWin r.hdr) r.hdr.k > r.tFirst + 100 then .refuse 6 Syn.RANGE Cnt.FUTURE
    else if r.tLast > lateHorizon g (recWin r.hdr) then .refuse 7 Syn.LATE Cnt.STALE
    else if r.hdr.k ≠ g.k then .refuse 8 Syn.RANGE Cnt.KMISMATCH
    else if ¬ (memberOf s r.hdr.job g.gen r.hdr.unit).any (fun m => m.hub == selfId s) = true then .refuse 9 Syn.ROSTER Cnt.ROSTER
    else if r.hdr.epoch ≠ g.epoch then .refuse 10 Syn.AUTH Cnt.AUTH
    else checkSeal s r g := by
  have hsnap : ¬ r.hdr.flags % 2 = 1 := by omega
  simp only [checkRecord, hlen, hslot, hgen, hsnap, Bool.true_eq_false, if_false]
  rfl

theorem recordRx_of_set {poison : Bool} (hd : isXD d = true) (hf : isFrozen s (Pg.ing d) = false) (hset : firstSet (drainHeld s d) d 1 = some r) :
    (∀ check code cnt, checkRecord (drainHeld s d) d r = .refuse check code cnt →
      exec (.recordRx d poison) s = .next (ingRefuse (takeSet (drainHeld s d) d r) d check code cnt)) ∧
    (∀ g body, checkRecord (drainHeld s d) d r = .pass g body →
      exec (.recordRx d poison) s = .next (finishRecord (takeSet (drainHeld s d) d r) d r g body poison)) := by
  constructor
  · intro check code cnt h
    simp only [exec_recordRx, execRecordRx, if_neg (not_ingest_held hd hf), hset, h]
  · intro g body h
    simp only [exec_recordRx, execRecordRx, if_neg (not_ingest_held hd hf), hset, h]

theorem digestReportRx_of_set {lanes : Nat} {poison : Bool} (hd : isXD d = true) (hf : isFrozen s (Pg.ing d) = false)
    (hset : firstSet (drainHeld s d) d 2 = some r) :
    exec (.digestReportRx d lanes poison) s = .next (digestSet (takeSet (drainHeld s d) d r) d lanes poison r) := by
  simp only [exec_digestReportRx, execDigestReportRx, if_neg (not_ingest_held hd hf), hset]

theorem responseRx_of_set (hd : isXD d = true) (hf : isFrozen s (Pg.ing d) = false)
    (hset : firstSet (drainHeld (promoteSiteKeys s) d) d 3 = some r) :
    exec (.responseRx d) s = .next (responseSet (takeSet (drainHeld (promoteSiteKeys s) d) d r) d r) := by
  simp only [exec_responseRx, execResponseRx, if_neg (not_ingest_held hd hf), hset]

/-! ### Acceptance -/

theorem finishRecord_of_seen {t : TabRec} {poison : Bool} (h : seenRecord (theWin s g (recWin r.hdr)) r.hdr = some t) :
    finishRecord s d r g body poison = if t.body = body then count s d Cnt.DUP
      else raise (ingRefuse s d 12 Syn.STATE Cnt.CONFLICT) (Pg.ing d) Irq.ING_CONFLICT
        { job := g.job, unit := r.hdr.unit, win := r.hdr.window, detail := t.body.hdr.tgen + r.hdr.tgen * 2 ^ 16 } := by
  simp only [finishRecord, h]

theorem finishRecord_of_poison (h : seenRecord (theWin s g (recWin r.hdr)) r.hdr = none) :
    finishRecord s d r g body true = raise (ingRefuse s d 13 Syn.POISON Cnt.POISON) (Pg.ing d) Irq.POISON := by
  simp only [finishRecord, h, if_true]

theorem finishRecord_of_unread (h : seenRecord (theWin s g (recWin r.hdr)) r.hdr = none) (hread : readRecord body.plain = none) :
    finishRecord s d r g body false = ingRefuse s d 14 Syn.RANGE Cnt.HDR := by
  simp only [finishRecord, h, hread, Bool.false_eq_true, if_false]

theorem finishRecord_of_read {v : RecView} (h : seenRecord (theWin s g (recWin r.hdr)) r.hdr = none) (hread : readRecord body.plain = some v) :
    finishRecord s d r g body false = acceptRecord s d g r body v := by
  simp only [finishRecord, h, hread, Bool.false_eq_true, if_false]

theorem acceptRecord_whole {v : RecView} (hwhole : r.hdr.flags % 2 = 0) (hfields : g.fields ≠ []) :
    let w := theWin s g (recWin r.hdr)
    let late := decide (sealDeadline g (recWin r.hdr) < r.tLast)
    let w' := { w with table := w.table ++ [{ body, late, snapshot := false, tLast := r.tLast, die := d }],
                       parts := w.parts.set (d - 56) (addToPartial s g (w.parts.getD (d - 56) (emptyPartial g)) v r.hdr.unit late) }
    acceptRecord s d g r body v =
      count (noteRecord ((putWin s w').incr (Pg.trs d) TRS_BYTES 0 body.plain.length) g r v) d (if late then Cnt.LATE else Cnt.ONTIME) := by
  have hsnap : (r.hdr.flags % 2 == 1) = false := by simp [hwhole]
  have hsome : g.fields.isEmpty = false := List.isEmpty_eq_false_iff.mpr hfields
  simp only [acceptRecord, hsnap, hsome, Bool.false_eq_true, if_false, gt_iff_lt]

end

/-- Settles O32: each check is reached only where those before it pass, and what passes all is accepted by its time. -/
theorem recordsAreCheckedAndAccepted : Obligations.RecordsAreCheckedAndAccepted := by
  unfold Obligations.RecordsAreCheckedAndAccepted
  refine ⟨fun s d poison r hd hf hset => recordRx_of_set hd hf hset, fun s d r slot g hlen hslot hgen hwhole => ?checks,
    fun s d r g body => ⟨fun t poison h => ⟨fun he => (finishRecord_of_seen h).trans (if_pos he), fun hne => (finishRecord_of_seen h).trans (if_neg hne)⟩,
      fun h => ⟨finishRecord_of_poison h, fun hread => finishRecord_of_unread h hread, fun v hread => finishRecord_of_read h hread⟩⟩,
    fun s d r g body v hwhole hfields => acceptRecord_whole hwhole hfields,
    fun s d lanes poison r hd hf => ⟨fun hset => digestReportRx_of_set hd hf hset, fun hset => responseRx_of_set hd hf hset⟩⟩
  have hcheck := checkRecord_of_gen hlen hslot hgen hwhole
  refine ⟨fun hfuture => hcheck.trans (if_pos hfuture), fun hpast => ?_⟩
  replace hcheck := hcheck.trans (if_neg (Nat.not_lt.mpr hpast))
  refine ⟨fun hstale => hcheck.trans (if_pos hstale), fun hin => ?_⟩
  replace hcheck := hcheck.trans (if_neg (Nat.not_lt.mpr hin))
  refine ⟨fun hk => hcheck.trans (if_pos hk), fun hk hother => ?other, fun m hk hm hself => ?member⟩
  case other =>
    refine (hcheck.trans (if_neg (not_not.mpr hk))).trans (if_pos ?_)
    cases hm : memberOf s r.hdr.job g.gen r.hdr.unit with
    | none => simp
    | some m => simpa using hother m hm
  case member =>
    replace hcheck := (hcheck.trans (if_neg (not_not.mpr hk))).trans (if_neg (by simp [hm, hself]))
    refine ⟨fun hep => hcheck.trans (if_pos hep), fun key body hep hkey hdata => ?_⟩
    replace hcheck := (hcheck.trans (if_neg (not_not.mpr hep))).trans (checkSeal_of_data hkey hdata)
    exact ⟨fun hbad => hcheck.trans (if_pos (hbad.imp_right Or.inl)),
      fun hint hkeyval hhdr hsize => hcheck.trans (if_neg (by simp [hint, hkeyval, hhdr, hsize]))⟩

/-! ### Sealing -/

section
variable {s : State} {slot n : Nat} {mism poison : List Nat} {g : JobGen} {p : Snap}

theorem sealDeadline_of_gen (hg : genOfWin (drainAll s) slot n = some g) : exec (.sealDeadline slot n mism poison) s =
    if isFrozen (drainAll s) (Pg.trs (homeDie g)) = true ∨ (drainAll s).now .hub < sealDeadline g n ∨
      (theWin (drainAll s) g n).sealed = true ∨ onTimeWaiting (drainAll s) g n = true then .next (drainAll s)
    else .next (((List.range 8).map (· + 56)).foldl (fun s d => s.incr (Pg.ing d) ING_JOB_STAT_SEALED slot)
      (snapshotWin (drainAll s) { theWin (drainAll s) g n with sealed := true } 0 mism poison)) := by
  refine (exec_sealDeadline ..).trans ?_
  unfold execSealDeadline
  generalize drainAll s = u at hg ⊢
  simp only [hg]

theorem lateHorizon_of_gen (hg : genOfWin (drainAll s) slot n = some g) : exec (.lateHorizon slot n mism poison) s =
    let w := theWin (drainAll s) g n
    if isFrozen (drainAll s) (Pg.trs (homeDie g)) = true ∨ (drainAll s).now .hub < lateHorizon g n ∨ w.sealed = false ∨ w.closed = true then
      .next (drainAll s)
    else if w.parts.any (fun p => decide (p.late > 0)) = true then .next (snapshotWin (drainAll s) { w with closed := true } 1 mism poison)
    else .next (putWin (drainAll s) { w with closed := true }) := by
  refine (exec_lateHorizon ..).trans ?_
  unfold execLateHorizon
  generalize drainAll s = u at hg ⊢
  simp only [hg]

theorem mergeLate_of_snap (hg : genOfWin s slot n = some g) (hp : (theWin s g n).snap = some p) : exec (.mergeLate slot n) s =
    if p.failed ≠ [] ∧ (theWin s g n).mergeLate = false ∧ s.now .hub ≥ sealDeadline g n + 40000 then
      .next (raise (putWin s { theWin s g n with mergeLate := true }) (Pg.trs (homeDie g)) Irq.TRS_MERGE_LATE
        { job := (theWin s g n).job, win := n })
    else .next s := by
  simp only [exec_mergeLate, execMergeLate, hg, hp]

theorem reReductionDone_of_failed {agree : Bool} (hg : genOfWin s slot n = some g) (hp : (theWin s g n).snap = some p) (hf : p.failed ≠ []) :
    exec (.reReductionDone slot n agree) s =
      if agree = true then .next (putWin s { theWin s g n with snap := some { p with
        parts := p.failed.foldl (fun l i => l.set i (reReduce s g (theWin s g n) p.rev i)) p.parts, failed := [] } })
      else .next (jobLane (putWin s { theWin s g n with
        snap := some { p with failed := [] }, flags := Nat.lor (theWin s g n).flags 2 }) (theWin s g n).job n) := by
  simp only [exec_reReductionDone, execReReductionDone, hg, hp, if_neg hf]

end

/-- Settles O34: deadline and horizon act once each, by the window's marks and the time. -/
theorem windowsAreSealed : Obligations.WindowsAreSealed := by
  unfold Obligations.WindowsAreSealed
  refine ⟨fun s slot n mism poison g hg hfree => ⟨fun hdue hopen hwait => ?sealed, fun h => (sealDeadline_of_gen hg).trans (if_pos (.inr (h.imp_right Or.inl))),
      fun hdue hsealed hopen => ⟨fun hlate => ?revised, fun hnone => ?closed⟩,
      fun h => (lateHorizon_of_gen hg).trans (if_pos (.inr (.inr (.inr h))))⟩,
    fun s w rev => rfl, fun s slot n g p hg hp hf => ⟨fun hdue hfirst => (mergeLate_of_snap hg hp).trans (if_pos ⟨hf, hfirst, hdue⟩),
      reReductionDone_of_failed hg hp hf, reReductionDone_of_failed hg hp hf⟩⟩
  case sealed => exact (sealDeadline_of_gen hg).trans (if_neg (by simp [hfree, hdue, hopen, hwait]))
  case revised =>
    refine (lateHorizon_of_gen hg).trans ((if_neg (by simp [hfree, hdue, hsealed, hopen])).trans (if_pos ?_))
    obtain ⟨p, hp, hpos⟩ := hlate
    exact List.any_eq_true.mpr ⟨p, hp, decide_eq_true hpos⟩
  case closed =>
    refine (lateHorizon_of_gen hg).trans ((if_neg (by simp [hfree, hdue, hsealed, hopen])).trans (if_neg ?_))
    rw [List.any_eq_true]
    rintro ⟨p, hp, hpos⟩
    exact Nat.ne_of_gt (of_decide_eq_true hpos) (hnone p hp)

end Sys2Proof.Machine
end

section
/-!
PROOFS. A tile: its record in the state, the sequencer's instructions and CSRs (R228 to R231), the queues of descriptors (R231, R233, R237).
-/
namespace Sys2Proof.Machine
open Reg Sys2Proof.Laws

/-! ### Bits of a word -/

section
variable {x n k : Nat}

theorem bit_eq_testBit : bit x n = x.testBit n := by
  rw [bit, Nat.testBit_eq_decide_div_mod_eq]
  rfl

theorem bit_mod_two_pow (h : n < k) : bit (x % 2 ^ k) n = bit x n := by
  rw [bit_eq_testBit, bit_eq_testBit, Nat.testBit_mod_two_pow, decide_eq_true h, Bool.true_and]

theorem bit_putBit_true : bit (putBit x n true) n = true := by
  unfold putBit
  split
  · next h => exact beq_iff_eq.mp h
  · next h =>
    simp only [bit, beq_iff_eq] at h
    simp only [if_true, bit, beq_iff_eq, Nat.add_div_right _ (Nat.two_pow_pos n)]
    omega

end

/-! ### The record of a tile -/

section
variable {s : State} {t u q : Nat} {x : Tile} {v : TQueue}

theorem find?_putTile (l : List (Nat × Tile)) :
    (putTile l t x).find? (fun y => y.1 == u) = if u = t then some (t, x) else l.find? (fun y => y.1 == u) := by
  induction l with
  | nil => simp only [putTile, List.find?_cons, List.find?_nil]; grind
  | cons y l ih =>
    obtain ⟨w, z⟩ := y
    unfold putTile
    split
    · simp only [List.find?_cons]; grind
    · simp only [List.find?_cons, ih]; grind

theorem getTile_setTile : getTile (setTile s t x) u = if u = t then x else getTile s u := by
  simp only [getTile, setTile, find?_putTile]
  split <;> rfl

theorem getTile_setTile_same : getTile (setTile s t x) t = x := getTile_setTile.trans (if_pos rfl)

theorem getTile_retireInstr {rd n : Nat} : getTile (retireInstr s t rd n) t = { getTile s t with
    x := if rd = 0 then (getTile s t).x else (getTile s t).x.set rd n, pc := ((getTile s t).pc + 4) % 2 ^ 32 } := getTile_setTile_same

theorem getQ_setQ (h : q < x.queues.length) : getQ (setQ x q v) q = v := by
  simp [getQ, setQ, h]

/-- The page of a tile is none of the Bureau's. -/
theorem til_ne_burPage : Pg.til t ≠ burPage (Pg.til t) := fun h => by
  have hnum : 0x040 + t % 32 = 0x014 := congrArg Page.num h
  omega

end

/-! ### The sequencer's instructions (R228 to R231) -/

section
variable {s : State} {t : Nat} {rd : BitVec 5} {rs1 v : Word} {q : BitVec 2}

theorem pushCause_misaligned {x : Tile} {a : Nat} (h : a % 64 ≠ 0) : pushCause x a = some 4 := if_pos h

theorem pushCause_fault {x : Tile} {a : Nat} (ha : a % 64 = 0) (h : 0x400000 < a + 64 ∨ x.poisoned a 64 = true) : pushCause x a = some 5 :=
  (if_neg (not_not.mpr ha)).trans (if_pos h)

theorem pushCause_none {x : Tile} {a : Nat} (ha : a % 64 = 0) (hin : a + 64 ≤ 0x400000) (hp : x.poisoned a 64 = false) : pushCause x a = none :=
  (if_neg (not_not.mpr ha)).trans (if_neg (by simp [sramSize, hin, hp]))

theorem push_traps {c : Nat} (hrun : seqRuns s t = true) (h : pushCause (getTile s t) rs1.toNat = some c) :
    exec (.dpush t rd rs1 q) s = .next (seqTrap s t c) ∧ exec (.dtry t rd rs1 q) s = .next (seqTrap s t c) := by
  simp only [exec_dpush, execDpush, exec_dtry, execDtry, hrun, h, Bool.not_true, Bool.false_eq_true, if_false, and_self]

theorem push_of_room (hrun : seqRuns s t = true) (h : pushCause (getTile s t) rs1.toNat = none)
    (hroom : (getQ (getTile s t) q.toNat).held.length < 16) :
    exec (.dpush t rd rs1 q) s = .next (pushDesc s t rd.toNat rs1.toNat q.toNat) ∧
    exec (.dtry t rd rs1 q) s = .next (pushDesc s t rd.toNat rs1.toNat q.toNat) := by
  simp only [exec_dpush, execDpush, exec_dtry, execDtry, hrun, h, hroom, Bool.not_true, Bool.false_eq_true, if_false, if_true, and_self]

theorem push_of_full (hrun : seqRuns s t = true) (h : pushCause (getTile s t) rs1.toNat = none)
    (hfull : 16 ≤ (getQ (getTile s t) q.toNat).held.length) :
    exec (.dpush t rd rs1 q) s = .next s ∧ exec (.dtry t rd rs1 q) s = .next (retireInstr s t rd.toNat 0xFFFFFFFF) := by
  simp only [exec_dpush, execDpush, exec_dtry, execDtry, hrun, h, if_neg (Nat.not_lt.mpr hfull), Bool.not_true, Bool.false_eq_true, if_false,
    and_self]

theorem dwait_of_done (hrun : seqRuns s t = true) (hdone : ticketDone s t q.toNat (rs1.toNat % 65536) = true) : exec (.dwait t rd rs1 q) s =
    .next (retireInstr s t rd.toNat
      ((((getQ (getTile s t) q.toNat).hist.find? (fun h => h.1 == rs1.toNat % 65536)).map (·.2)).getD 0)) := if_pos ⟨hrun, hdone⟩

theorem dwait_of_open (hopen : ticketDone s t q.toNat (rs1.toNat % 65536) = false) : exec (.dwait t rd rs1 q) s = .next s :=
  if_neg fun ⟨_, hdone⟩ => Bool.false_ne_true (hopen.symm.trans hdone)

theorem tsleep_request (hrun : seqRuns s t = true) : exec (.tsleep t v) s =
    .next (if v.toNat = 1 ∨ v.toNat = 2 then sleepTile (retireInstr s t 0 0) t v.toNat else retireInstr s t 0 0) := if_pos hrun

theorem sequencerException_traps {cause pc mtvec : Word} (hrun : seqRuns s t = true) : exec (.sequencerException t cause pc mtvec) s =
    .next (seqTrap (setTile s t { getTile s t with pc := pc.toNat, mtvec := mtvec.toNat }) t cause.toNat) := if_pos hrun

theorem seqTrap_without_handler {cause : Nat} (h : (getTile s t).mtvec = 0) : seqTrap s t cause =
    raise ((s.wr (Pg.til t) TIL_STAT_SEQ Seq.FAULT).wr (Pg.til t) TIL_SEQ_CAUSE cause) (Pg.til t) Irq.TIL_SEQ_FAULT := if_pos h

theorem seqTrap_to_handler {cause : Nat} (h : (getTile s t).mtvec ≠ 0) : seqTrap s t cause = setTile s t { getTile s t with
    mepc := (getTile s t).pc, mcause := cause, pc := (getTile s t).mtvec / 4 * 4,
    mstatus := putBit (putBit (getTile s t).mstatus 7 (bit (getTile s t).mstatus 3)) 3 false } := if_neg h

theorem exception_to_handler {cause pc mtvec : Word} (hrun : seqRuns s t = true) (h : mtvec ≠ 0) :
    exec (.sequencerException t cause pc mtvec) s =
      .next (setTile (setTile s t { getTile s t with pc := pc.toNat, mtvec := mtvec.toNat }) t { getTile s t with
        mtvec := mtvec.toNat, mepc := pc.toNat, mcause := cause.toNat, pc := mtvec.toNat / 4 * 4,
        mstatus := putBit (putBit (getTile s t).mstatus 7 (bit (getTile s t).mstatus 3)) 3 false }) := by
  have hne : mtvec.toNat ≠ 0 := fun e => h (BitVec.eq_of_toNat_eq e)
  rw [sequencerException_traps hrun, seqTrap_to_handler (by rw [getTile_setTile_same]; exact hne), getTile_setTile_same]

end

/-- Settles O36: an instruction's branch is fixed by what stops the copy, the room of the queue and the ticket. -/
theorem sequencerInstructions : Obligations.SequencerInstructions := by
  unfold Obligations.SequencerInstructions
  refine ⟨fun s t rd rs1 q hrun => ⟨fun h => push_traps hrun (pushCause_misaligned h), fun ha h => push_traps hrun (pushCause_fault ha h),
      fun ha hin hp => ⟨fun hroom => push_of_room hrun (pushCause_none ha hin hp) hroom, fun hfull => push_of_full hrun (pushCause_none ha hin hp) hfull⟩,
      fun hdone => ⟨fun h hfind => ?status, fun hfind => ?gone⟩, fun hopen => dwait_of_open hopen, if_pos hrun⟩,
    fun s t v hrun => ⟨if_pos hrun, fun h => ?sleeps, fun h1 h2 => ?awake, if_pos hrun, if_pos hrun, if_pos hrun⟩,
    fun s t cause pc hrun => ?fault, fun s t cause pc mtvec hrun h => exception_to_handler hrun h, fun s t rd v => getTile_retireInstr,
    fun s t u x => getTile_setTile⟩
  case status => rw [dwait_of_done hrun hdone, hfind]; rfl
  case gone => rw [dwait_of_done hrun hdone, hfind]; rfl
  case sleeps =>
    have hv : v.toNat = 1 ∨ v.toNat = 2 := h.imp (fun e => congrArg BitVec.toNat e) (fun e => congrArg BitVec.toNat e)
    rw [tsleep_request hrun, if_pos hv]
  case awake =>
    have hv : ¬ (v.toNat = 1 ∨ v.toNat = 2) := fun e => e.elim (fun e => h1 (BitVec.eq_of_toNat_eq e)) (fun e => h2 (BitVec.eq_of_toNat_eq e))
    rw [tsleep_request hrun, if_neg hv]
  case fault =>
    rw [sequencerException_traps hrun, seqTrap_without_handler (by rw [getTile_setTile_same]; rfl)]
    rfl

/-! ### Queues (R231, R233, R237) -/

section
variable {s : State} {t code progress ticket : Nat} {d : TDesc} {rest : List TDesc}

theorem descriptorStart_of_waiting {q : BitVec 2} (hheld : (getQ (getTile s t) q.toNat).held = d :: rest)
    (hwait : (getQ (getTile s t) q.toNat).run = .waiting) (hrun : tileRuns s t = true) (hopen : isHalted s t q.toNat = false) :
    exec (.descriptorStart t q) s =
      let v := getQ (getTile s t) q.toNat
      if headCheck s t q.toNat d ≠ 0 then .next (haltQueue (putQ s t q.toNat { v with run := .refused (headCheck s t q.toNat d) }) t q.toNat
        (headCheck s t q.toNat d) d.ticket)
      else if depsMet s t d = true then .next (putQ s t q.toNat { v with run := .running })
      else .next s := by
  simp only [exec_descriptorStart, execDescriptorStart, hwait, hheld, hrun, hopen, and_self, if_true]

/-- A descriptor's dependencies are met where every queue it names has completed the ticket named. -/
theorem depsMet_iff : depsMet s t d = true ↔ ∀ p < 4, bit (dDepV d) p = true → ticketDone s t p (dDep d p) = true := by
  simp only [depsMet, setBits, List.all_eq_true, List.mem_filter, List.mem_range, and_imp]

theorem descriptorComplete_of_last {q : BitVec 2} (hheld : (getQ (getTile s t) q.toNat).held = [d])
    (hdone : (getQ (getTile s t) q.toNat).run = .done code progress false) (hrun : tileRuns s t = true) (hcode : code ≠ Syn.POISON) :
    exec (.descriptorComplete t q) s = .next (serveSleep (completeHead s t q.toNat code progress) t) := by
  simp only [exec_descriptorComplete, execDescriptorComplete, hdone, hheld, hrun, if_true, if_neg hcode, Bool.false_eq_true, if_false, dropFlushed]

variable {q : Nat}

/-- The queue after its head completes. -/
def completedQ (v : TQueue) (d : TDesc) (rest : List TDesc) (code progress : Nat) : TQueue :=
  { v with held := rest, run := .waiting, hist := ((d.ticket, statusWord code progress) :: v.hist).take 32 }

/-- The state in which the head has left its queue and its ticket is the last completed. -/
def ticketCompleted (s : State) (t q : Nat) (d : TDesc) (v : TQueue) : State := (putQ s t q v).wr (Pg.til t) (TIL_QSTAT_DONE q) d.ticket

theorem completeHead_of_held (hheld : (getQ (getTile s t) q).held = d :: rest) : completeHead s t q code progress =
    let u := ticketCompleted s t q d (completedQ (getQ (getTile s t) q) d rest code progress)
    if code ≠ 0 then u.wr (Pg.til t) (TIL_QSTAT_LAST_ERR q) code else u := by
  simp only [completeHead, hheld]
  rfl

theorem completeHead_done (hheld : (getQ (getTile s t) q).held = d :: rest) :
    (completeHead s t q code progress).rd (Pg.til t) (TIL_QSTAT_DONE q) = d.ticket % 65536 := by
  have hdone {v : TQueue} : (ticketCompleted s t q d v).rd (Pg.til t) (TIL_QSTAT_DONE q) = d.ticket % 65536 := rd_wr_same ..
  rw [completeHead_of_held hheld]
  dsimp only
  split
  · exact (rd_wr_lo (show (16 : Nat) ≠ 0 by decide)).trans hdone
  · exact hdone

theorem completeHead_queue (hheld : (getQ (getTile s t) q).held = d :: rest) (hq : q < (getTile s t).queues.length) :
    getQ (getTile (completeHead s t q code progress) t) q = completedQ (getQ (getTile s t) q) d rest code progress := by
  have hput {v : TQueue} : getQ (getTile (ticketCompleted s t q d v) t) q = v := by
    have htile : getTile (ticketCompleted s t q d v) t = setQ (getTile s t) q v := getTile_setTile_same
    rw [htile, getQ_setQ hq]
  rw [completeHead_of_held hheld]
  dsimp only
  split
  · exact hput
  · exact hput

theorem completeHead_lastErr (hheld : (getQ (getTile s t) q).held = d :: rest) (hcode : code < 256) (hne : code ≠ 0) :
    (completeHead s t q code progress).rd (Pg.til t) (TIL_QSTAT_LAST_ERR q) = code := by
  rw [completeHead_of_held hheld]
  dsimp only
  rw [if_pos hne, rd_wr_same]
  exact Nat.mod_eq_of_lt hcode

theorem queueFlush_of_access {ag : Agent} {mask : BitVec 4} (ht : t < tileCount s.cfg) (hf : isFrozen s (Pg.til t) = false) :
    exec (.queueFlush t ag mask) s = .next ((setBits 4 mask.toNat).foldl (fun s q => flushQueue s t q) s) := by
  have hacc : tilAccess s t = 0 := (if_neg (Nat.not_le.mpr ht)).trans (if_neg (Bool.eq_false_iff.mp hf))
  simp only [exec_queueFlush, execQueueFlush, tilWrite, hacc]

theorem flushQueue_of_refused (hheld : (getQ (getTile s t) q).held = [d]) (hrun : (getQ (getTile s t) q).run = .refused code) :
    let u := completeHead (putQ s t q { getQ (getTile s t) q with held := [d] }) t q code 0
    flushQueue s t q = serveSleep (u.wr (Pg.til t) TIL_STAT_QHALT (putBit (u.rd (Pg.til t) TIL_STAT_QHALT) q false)) t := by
  simp only [flushQueue, hheld, hrun, List.map_nil, dropFlushed]

theorem haltQueue_halts (hq : q < 4) : isHalted (haltQueue s t q code ticket) t q = true := by
  unfold isHalted haltQueue
  dsimp only
  rw [rd_raise (by decide) (by decide) (by decide), rd_wr_same, TIL_STAT_QHALT, bit_mod_two_pow hq, bit_putBit_true]

end

/-- Settles O37: a head's start depends on its check and its tickets; completing it rewrites its own queue only. -/
theorem queueHeadsStartAndComplete : Obligations.QueueHeadsStartAndComplete := by
  unfold Obligations.QueueHeadsStartAndComplete
  refine ⟨fun s t q d rest hheld hwait hrun hopen => ?start, fun s t q d code progress hheld hdone hrun hcode =>
      descriptorComplete_of_last hheld hdone hrun hcode,
    fun s t q code progress d rest hq hheld hlen hcode => ?complete, fun s t ag mask ht hf => queueFlush_of_access ht hf,
    fun s t q code d hheld hrun => flushQueue_of_refused hheld hrun, fun s t q code ticket hq => ⟨haltQueue_halts hq, rd_raise_irq til_ne_burPage⟩⟩
  case start =>
    have hstart := descriptorStart_of_waiting hheld hwait hrun hopen
    refine ⟨fun hc => hstart.trans (if_pos hc), fun hc => ?_⟩
    replace hstart := hstart.trans (if_neg (not_not.mpr hc))
    exact ⟨fun hdeps => hstart.trans (if_pos (depsMet_iff.mpr hdeps)),
      fun p hp hbit hopen => hstart.trans (if_neg fun hmet => Bool.false_ne_true (hopen.symm.trans (depsMet_iff.mp hmet p hp hbit)))⟩
  case complete =>
    refine ⟨completeHead_done hheld, ?_, ?_, fun hne => completeHead_lastErr hheld hcode hne⟩
    · rw [completeHead_queue hheld (hlen.symm ▸ hq)]
      rfl
    · rw [completeHead_queue hheld (hlen.symm ▸ hq)]
      rfl

end Sys2Proof.Machine
end

section
/-!
PROOFS. What a copied row changes of the memories (R236, R239, R242, R285), and the 96-bit accumulator of the tree engine (R267, R273).
-/
namespace Sys2Proof.Machine
open Reg Sys2Proof.Laws

/-! ### A row in SRAM and in HBM -/

section
variable {s t u : State} {m : List Host.Cell} {poison : List Nat} {g a k i : Nat} {b : Nat × Bool} {bs : List (Nat × Bool)}

theorem memRead_writePoisoned_other (hk : k < a ∨ a + bs.length ≤ k) : memRead (writePoisoned m poison g a bs).1 k = memRead m k :=
  memRead_writeN_other (by rwa [List.length_map])

theorem memRead_writePoisoned_same (h : Memory.wf m = true) (hb : bs[i]? = some b) :
    memRead (writePoisoned m poison g a bs).1 (a + i) = BitVec.ofNat 8 b.1 := by
  obtain ⟨hi, -⟩ := List.getElem?_eq_some_iff.mp hb
  refine (memRead_writeN_same h i (by rwa [List.length_map])).trans ?_
  rw [List.getD_eq_getElem?_getD, List.getElem?_map, hb]
  rfl

theorem Tile.memRead_write_other {x : Tile} (hk : k < a ∨ a + bs.length ≤ k) : memRead (x.write a bs).sram k = memRead x.sram k :=
  memRead_writePoisoned_other (poison := x.poison) (g := 8) hk

theorem Tile.memRead_write_same {x : Tile} (hx : Memory.wf x.sram = true) (hb : bs[i]? = some b) :
    memRead (x.write a bs).sram (a + i) = BitVec.ofNat 8 b.1 := memRead_writePoisoned_same (poison := x.poison) (g := 8) hx hb

/-- The contents of the HBM and the tiles are as they were. -/
def MemoryFrame (s t : State) : Prop := t.hub.hbm = s.hub.hbm ∧ t.hub.tiles = s.hub.tiles

theorem MemoryFrame.refl : MemoryFrame s s := ⟨rfl, rfl⟩

theorem MemoryFrame.trans (h : MemoryFrame s t) (h' : MemoryFrame t u) : MemoryFrame s u := by
  obtain ⟨hhbm, htiles⟩ := h
  obtain ⟨hhbm', htiles'⟩ := h'
  exact ⟨hhbm'.trans hhbm, htiles'.trans htiles⟩

theorem PostFrame.memory (h : PostFrame s t) : MemoryFrame s t := by
  obtain ⟨-, -, -, -, -, -, hhub⟩ := h
  exact ⟨by rw [hhub], by rw [hhub]⟩

/-- A granule whose error is corrected is counted. -/
def granuleCorrected (s : State) (g : Nat) : State :=
  (s.bump (Pg.mem (mdOf s.cfg (g * 32))) MEM_ECC_CORR).incr (Pg.hBur (mdOf s.cfg (g * 32))) BUR_AOC 9

/-- A granule in uncorrectable error is poisoned, counted and raised. -/
def granulePoisoned (s : State) (g : Nat) : State :=
  let d := mdOf s.cfg (g * 32)
  let s := { s with hub := { s.hub with hbmPoison := setInsert g s.hub.hbmPoison } }
  let s := ((s.bump (Pg.mem d) MEM_ECC_UNCORR).wr (Pg.mem d) MEM_ERR_ADDR (g * 32)).incr (Pg.hBur d) BUR_AOC 10
  raise s (Pg.mem d) Irq.MEM_UNCORR { detail := g * 32 }

theorem findErrors_eq {n : Nat} : findErrors s a n =
    let v := (s.hub.hbmUnc.filter (touches a n)).foldl granulePoisoned ((s.hub.hbmCorr.filter (touches a n)).foldl granuleCorrected s)
    { v with hub := { v.hub with hbmCorr := v.hub.hbmCorr.filter (fun g => !touches a n g),
                                 hbmUnc := v.hub.hbmUnc.filter (fun g => !touches a n g) } } := rfl

/-- No byte changes where an access finds errors (R285). -/
theorem findErrors_memory {n : Nat} : MemoryFrame s (findErrors s a n) := by
  have hcorr {l : List Nat} {s : State} : MemoryFrame s (l.foldl granuleCorrected s) :=
    foldl_keeps (R := MemoryFrame) (f := granuleCorrected) (fun _ => .refl) .trans (fun _ _ => ⟨rfl, rfl⟩) l s
  have hunc {l : List Nat} {s : State} : MemoryFrame s (l.foldl granulePoisoned s) :=
    foldl_keeps (R := MemoryFrame) (f := granulePoisoned) (fun _ => .refl) .trans (fun _ _ => .trans ⟨rfl, rfl⟩ raise_frame.memory) l s
  rw [findErrors_eq]
  exact hcorr.trans (hunc.trans ⟨rfl, rfl⟩)

theorem inject_memory {n : Nat} : MemoryFrame s (inject s a n) := by
  unfold inject
  dsimp only
  split
  · split <;> exact ⟨rfl, rfl⟩
  · exact .refl

/-- Writing to HBM writes its bytes and leaves the tiles. -/
theorem hbmWriteP_memory : (hbmWriteP s a bs).hub.tiles = s.hub.tiles ∧
    ∃ p, (hbmWriteP s a bs).hub.hbm = (writePoisoned s.hub.hbm p 32 a bs).1 := by
  unfold hbmWriteP
  dsimp only
  generalize hv : findErrors _ a bs.length = v
  have hfound : MemoryFrame s v := by
    rw [← hv]
    exact .trans ⟨rfl, rfl⟩ findErrors_memory
  obtain ⟨hhbm, htiles⟩ := hfound
  obtain ⟨hhbm', htiles'⟩ := inject_memory (s := { v with hub := { v.hub with
    hbm := (writePoisoned v.hub.hbm v.hub.hbmPoison 32 a bs).1, hbmPoison := (writePoisoned v.hub.hbm v.hub.hbmPoison 32 a bs).2 } })
    (a := a) (n := bs.length)
  refine ⟨htiles'.trans htiles, v.hub.hbmPoison, hhbm'.trans ?_⟩
  rw [← hhbm]

/-- A row read from anywhere changes no memory. -/
theorem copyReadAt_memory {t sp u rc o n r : Nat} {p : PeerAnswer} : MemoryFrame s (copyReadAt s t sp u rc o n p r).1 := by
  unfold copyReadAt
  split
  · exact .refl
  · split <;> exact .refl
  · exact findErrors_memory
  · split <;> exact .refl

variable {t' r : Nat} {d : TDesc} {p : PeerAnswer} {bad : Bool}

theorem copyRows_of_read (hread : (copyRead s t' d p r).2.1 = 0) :
    let w := copyWrite (copyRead s t' d p r).1 t' d p r (copyRead s t' d p r).2.2
    copyRows t' d p (k + 1) r s bad =
      if w.2 ≠ 0 then (w.1, w.2, r, true) else copyRows t' d p k (r + 1) w.1 (bad || (copyRead s t' d p r).2.2.any (·.2)) :=
  if_neg (not_not.mpr hread)

end

/-! ### The 96-bit accumulator (R267, R273) -/

section
variable {v : Int}

/-- The accumulator is the balanced remainder modulo 2^96. -/
theorem wrap96_eq_bmod : wrap96 v = v.bmod (2 ^ 96) := by
  have hnonneg : 0 ≤ v % ((2 ^ 96 : Nat) : Int) := Int.emod_nonneg _ (by decide)
  have hlt : v % ((2 ^ 96 : Nat) : Int) < ((2 ^ 96 : Nat) : Int) := Int.emod_lt_of_pos _ (by decide)
  unfold wrap96 toSigned ofSigned Int.bmod
  generalize v % ((2 ^ 96 : Nat) : Int) = r at hnonneg hlt ⊢
  obtain ⟨n, rfl⟩ := Int.eq_ofNat_of_zero_le hnonneg
  have hn : n < 2 ^ 96 := by exact_mod_cast hlt
  simp only [Int.toNat_natCast, Nat.mod_eq_of_lt hn]
  norm_num

theorem wrap96_of_range (hlo : -(2 ^ 95) ≤ v) (hhi : v < 2 ^ 95) : wrap96 v = v := by
  rw [wrap96_eq_bmod]
  exact Int.bmod_eq_of_le (by norm_num; omega) (by norm_num; omega)

theorem ofLe_leBytes (n x : Nat) : ofLe (leBytes n x) = x % 256 ^ n := by
  induction n generalizing x with
  | zero => simp [leBytes, ofLe, Nat.mod_one]
  | succ n ih => rw [leBytes, ofLe, ih, Nat.mod_mod, Nat.pow_succ', Nat.mod_mul]

theorem leBytes_length (n x : Nat) : (leBytes n x).length = n := by
  induction n generalizing x with
  | zero => rfl
  | succ n ih => rw [leBytes, List.length_cons, ih]

theorem leBytes_lt {n x b : Nat} (h : b ∈ leBytes n x) : b < 256 := by
  induction n generalizing x with
  | zero => cases h
  | succ n ih =>
    rcases List.mem_cons.mp h with rfl | h
    · exact Nat.mod_lt _ (by decide)
    · exact ih h

theorem accBytes_length : (accBytes v).length = 16 := by
  simp [accBytes, leBytes_length]

theorem accBytes_take : (accBytes v).take 12 = leBytes 12 (ofSigned 96 v) := by
  rw [accBytes, List.take_append_of_le_length (by rw [leBytes_length]), List.take_of_length_le (by rw [leBytes_length])]

theorem accBytes_lt {b : Nat} (h : b ∈ accBytes v) : b < 256 := by
  rcases List.mem_append.mp h with h | h
  · exact leBytes_lt h
  · rw [(List.mem_replicate.mp h).2]
    split <;> decide

theorem toSigned_accBytes : toSigned 96 (ofLe ((accBytes v).take 12)) = wrap96 v := by
  rw [accBytes_take, ofLe_leBytes, wrap96, toSigned, toSigned, show (256 : Nat) ^ 12 = 2 ^ 96 by decide, Nat.mod_mod]

/-- Bytes read one by one from where a list of bytes lies. -/
theorem memReadN_eq_take {m : List Host.Cell} {l : List Nat} {a n : Nat} (hn : n ≤ l.length)
    (h : ∀ i (hi : i < l.length), (memRead m (a + i)).toNat = l[i]) : memReadN m a n = l.take n := by
  induction n generalizing a l with
  | zero => rfl
  | succ n ih =>
    cases l with
    | nil => exact absurd hn (Nat.not_succ_le_zero _)
    | cons b l =>
      have h0 := h 0 (Nat.zero_lt_succ _)
      rw [memReadN, List.take_succ_cons, ih (Nat.le_of_succ_le_succ hn) fun i hi => ?_]
      · rw [Nat.add_zero] at h0
        rw [h0]
        rfl
      · have hs := h (i + 1) (Nat.succ_lt_succ hi)
        rw [show a + (i + 1) = a + 1 + i by omega] at hs
        exact hs

theorem le_written {x : Tile} {a : Nat} (hx : Memory.wf x.sram = true) :
    le (x.write a ((accBytes v).map (fun b => (b, false)))) a 12 = ofLe ((accBytes v).take 12) := by
  refine congrArg ofLe (memReadN_eq_take (by rw [accBytes_length]; decide) fun i hi => ?_)
  have hb : ((accBytes v).map (fun b => (b, false)))[i]? = some ((accBytes v)[i], false) := by simp [hi]
  refine (congrArg BitVec.toNat (Tile.memRead_write_same hx hb)).trans ?_
  rw [BitVec.toNat_ofNat]
  exact Nat.mod_eq_of_lt (accBytes_lt (List.getElem_mem hi))

theorem accAt_written {x : Tile} {base r j : Nat} (hx : Memory.wf x.sram = true) :
    (accAt (x.write (base + 128 * r + 16 * j) ((accBytes v).map (fun b => (b, false)))) base r j).1 = wrap96 v := by
  unfold accAt
  dsimp only
  rw [le_written hx, toSigned_accBytes]

end

/-! ### The TREE descriptor that fails (R276) -/

section
variable {s : State} {t : Nat} {d : TDesc} {tr kind item : Nat}

/-- What a failing tree leaves in the fault registers. -/
def treeFaultWrites (s : State) (t : Nat) (d : TDesc) (tr kind item : Nat) : State :=
  let pg := Pg.hut t
  ((((s.wr pg HUT_FAULT_TREE tr).wr pg HUT_FAULT_ROW 0).wr pg HUT_FAULT_INFO_KIND kind).wr pg HUT_FAULT_INFO_TICKET d.ticket).wr pg
    HUT_FAULT_INFO_ITEM item

theorem tree_of_fault (hrows : tRows d ≠ 0) (h : firstFault (getTile s t) (ensAt (getTile s t) (tEns d)) d = some (tr, kind, item)) :
    ∃ n bound, Machine.tree s t d =
      (raise (treeFaultWrites (hutCount s t n bound) t d tr kind item) (Pg.hut t) Irq.HUT_EVAL_FAULT, Syn.RANGE, 0, true) := by
  simp only [Machine.tree, if_neg hrows, h]
  exact ⟨_, _, rfl⟩

theorem treeFaultWrites_tree : (treeFaultWrites s t d tr kind item).rd (Pg.hut t) HUT_FAULT_TREE = tr % 2 ^ HUT_FAULT_TREE.w := by
  unfold treeFaultWrites
  dsimp only
  rw [rd_wr_off (by decide), rd_wr_off (by decide), rd_wr_off (by decide), rd_wr_lo (by decide), rd_wr_same]

end

/-- Settles O39: every memory is written at the row's place alone; the accumulator is a balanced remainder, which its twelve bytes hold. -/
theorem copiesAndTreeAccumulator : Obligations.CopiesAndTreeAccumulator := by
  unfold Obligations.CopiesAndTreeAccumulator
  refine ⟨⟨fun x a k bs hx => ⟨Tile.memRead_write_other, fun i b hb => Tile.memRead_write_same hx hb⟩, fun s a k bs hm => ?hbm,
      fun s t h u rc o r p bs => ⟨rfl, rfl, fun hrc => if_neg hrc, rfl, fun hserved => if_pos hserved, fun hr hc => if_neg (by omega)⟩,
      fun s t sp u rc o n r p => copyReadAt_memory,
      fun s t k r d p bad hread => ⟨fun hw => (copyRows_of_read hread).trans (if_neg (not_not.mpr hw)), fun hw => (copyRows_of_read hread).trans (if_pos hw)⟩⟩,
    fun u v => ?sum, fun v hlo hhi => wrap96_of_range hlo hhi, fun v => ⟨accBytes_length, toSigned_accBytes⟩, fun x base r j v hx => accAt_written hx,
    fun s t d hrows => if_pos hrows, fun s t d tr kind item hrows h => ?fault⟩
  case hbm =>
    obtain ⟨htiles, p, hhbm⟩ := hbmWriteP_memory (s := s) (a := a) (bs := bs)
    rw [hhbm]
    exact ⟨memRead_writePoisoned_other, fun i b hb => memRead_writePoisoned_same hm hb, htiles⟩
  case sum =>
    rw [wrap96_eq_bmod, wrap96_eq_bmod, wrap96_eq_bmod, wrap96_eq_bmod, Int.bmod_add_bmod, Int.add_comm u v]
    exact ⟨rfl, rfl⟩
  case fault =>
    obtain ⟨n, bound, htree⟩ := tree_of_fault hrows h
    rw [htree]
    obtain ⟨-, htiles⟩ := PostFrame.memory (raise_frame (s := treeFaultWrites (hutCount s t n bound) t d tr kind item) (pg := Pg.hut t)
      (n := Irq.HUT_EVAL_FAULT) (e := {}))
    exact ⟨rfl, htiles, (rd_raise (by decide) (by decide) (by decide)).trans treeFaultWrites_tree⟩

end Sys2Proof.Machine
end

section
/-!
PROOFS. The power states of a tile and the start and halt of its sequencer (R162, R163, R228, R249 to R251, R254, R257).
-/
namespace Sys2Proof.Machine
open Reg Sys2Proof.Laws

/-! ### Requests (R162, R163) -/

section
variable {s : State} {t d : Nat} {ag : Agent} {r : TReq}

theorem tilRequest_of_running (ht : t < tileCount s.cfg) (hp : pstate s t ≠ PS.RETIRED) : tilRequest s t ag r = tileRequest s t r :=
  (if_neg (Nat.not_le.mpr ht)).trans (if_neg hp)

theorem tilRequest_of_retired (ht : t < tileCount s.cfg) (hp : pstate s t = PS.RETIRED) :
    tilRequest s t ag r = if r = .wake then syn s (Pg.til t) Syn.STATE ag false 0x040 else s :=
  (if_neg (Nat.not_le.mpr ht)).trans (if_pos hp)

theorem tileRequest_wake (hf : isFrozen s (Pg.til t) = false) : tileRequest s t .wake = wakeTile s t := if_neg (Bool.eq_false_iff.mp hf)

theorem tileRequest_sleep (hf : isFrozen s (Pg.til t) = false) : tileRequest s t (.sleep d) = sleepTile s t d :=
  if_neg (Bool.eq_false_iff.mp hf)

theorem wakeTile_active (h : pstate s t = PS.ACTIVE) : wakeTile s t = s :=
  (if_neg (by rw [h]; decide)).trans (if_neg (by rw [h]; decide))

theorem wakeTile_sleeping (h : pstate s t = PS.GATED ∨ pstate s t = PS.PARKED) : wakeTile s t =
    setTile ((s.wr (Pg.til t) TIL_STAT_PSTATE PS.WAKING).incr (Pg.hBur (t / 32)) BUR_AOC 6) t { getTile s t with depth := pstate s t } := if_pos h

/-- A request is served no deeper than it asks. -/
theorem servedDepth_le : servedDepth s t d ≤ d := by
  unfold servedDepth
  dsimp only
  split_ifs <;> omega

theorem servedDepth_of_no_schedule (hd : d ≠ 0) (hle : d ≤ s.rd (Pg.til t) TIL_SCHED_SLEEP) (hoff : schedOn s t = false) :
    servedDepth s t d = d := by
  simp only [servedDepth, Nat.min_eq_left hle, if_neg hd, hoff, Bool.not_false, if_true]

theorem sleepTile_parked (h : pstate s t = PS.PARKED) : sleepTile s t d = s := by
  simp only [sleepTile, h]
  exact ite_eq_left_iff.mpr fun _ => rfl

theorem sleepTile_gated (h : pstate s t = PS.GATED) : sleepTile s t 1 = s := by
  have hshallow : ¬ servedDepth s t 1 = 2 := fun e => absurd (servedDepth_le (s := s) (t := t) (d := 1)) (by omega)
  simp only [sleepTile, h, if_neg hshallow, if_true, ite_self]

theorem sleepTile_active (hp : pstate s t = PS.ACTIVE) (hd : d ≠ 0) (hle : d ≤ s.rd (Pg.til t) TIL_SCHED_SLEEP) (hoff : schedOn s t = false) :
    sleepTile s t d = serveSleep (setTile s t { getTile s t with sleep := some d }) t := by
  unfold sleepTile
  dsimp only
  rw [servedDepth_of_no_schedule hd hle hoff, if_neg (not_or.mpr ⟨hd, by rw [hp]; decide⟩), if_neg (by rw [hp]; decide),
    if_neg (by rw [hp]; decide)]

/-- A request is served at once where the queues are empty. -/
theorem serveSleep_of_empty (hp : pstate s t = PS.ACTIVE) (hq : queuesEmpty (getTile s t) = true) (hs : (getTile s t).sleep = some d) :
    serveSleep s t = setTile (s.wr (Pg.til t) TIL_STAT_PSTATE PS.ENTERING) t { getTile s t with sleep := none, depth := d } := by
  simp only [serveSleep, hs, hp, hq, and_self, if_true]

theorem pstate_setTile {u : Nat} {x : Tile} : pstate (setTile s t x) u = pstate s u := rd_setTile ..

theorem pstate_wr {v : Nat} (hv : v < 2 ^ TIL_STAT_PSTATE.w) : pstate (s.wr (Pg.til t) TIL_STAT_PSTATE v) t = v :=
  (rd_wr_same ..).trans (Nat.mod_eq_of_lt hv)

theorem sleepTile_enters (hp : pstate s t = PS.ACTIVE) (hq : queuesEmpty (getTile s t) = true) (hd : d ≠ 0)
    (hle : d ≤ s.rd (Pg.til t) TIL_SCHED_SLEEP) (hoff : schedOn s t = false) :
    pstate (sleepTile s t d) t = PS.ENTERING ∧ (getTile (sleepTile s t d) t).depth = d ∧ (getTile (sleepTile s t d) t).sleep = none := by
  rw [sleepTile_active hp hd hle hoff, serveSleep_of_empty (d := d) (pstate_setTile.trans hp) (by rw [getTile_setTile_same]; exact hq)
    (by rw [getTile_setTile_same]), getTile_setTile_same]
  refine ⟨pstate_setTile.trans (pstate_wr (by decide)), ?_⟩
  rw [getTile_setTile_same]
  exact ⟨rfl, rfl⟩

/-! ### Ends of a change (R162) -/

theorem tileSleepEntered_asleep (ht : t < tileCount s.cfg) (hp : pstate s t = PS.ENTERING) (hq : queuesEmpty (getTile s t) = true)
    (hrun : seqState s t = Seq.RUNNING) (hwake : (getTile s t).wakeP = false) (hsleep : (getTile s t).sleep = none) (hoff : schedOn s t = false) :
    exec (.tileSleepEntered t) s =
      .next (setTile ((s.wr (Pg.til t) TIL_STAT_PSTATE (getTile s t).depth).wr (Pg.til t) TIL_STAT_SEQ Seq.ASLEEP) t (getTile s t)) := by
  have hseq : seqState (s.wr (Pg.til t) TIL_STAT_PSTATE (getTile s t).depth) t = Seq.RUNNING := (rd_wr_lo (by decide)).trans hrun
  have hdue {u : State} {n : Nat} (hu : schedOn u t = false) : wakeDue u t n = false := by simp only [wakeDue, hu, Bool.false_and]
  have hon : schedOn (setTile ((s.wr (Pg.til t) TIL_STAT_PSTATE (getTile s t).depth).wr (Pg.til t) TIL_STAT_SEQ Seq.ASLEEP) t (getTile s t)) t =
      false := by
    rw [← hoff]
    simp (disch := decide) only [schedOn, State.flag, rd_setTile, rd_wr_off]
    rfl
  have hentered : t < tileCount s.cfg ∧ pstate s t = PS.ENTERING ∧ queuesEmpty (getTile s t) = true := ⟨ht, hp, hq⟩
  simp only [exec_tileSleepEntered, execTileSleepEntered, if_pos hentered, if_pos hseq]
  generalize getTile s t = x at *
  cases x
  dsimp only at hwake hsleep
  subst hwake hsleep
  simp only [reduceCtorEq, false_and, if_false, ite_self, hdue hon, Bool.false_eq_true, or_self]

theorem tileWakeDone_runs (ht : t < tileCount s.cfg) (hp : pstate s t = PS.WAKING) (hseq : seqState s t = Seq.ASLEEP)
    (hf : isFrozen s (Pg.til t) = false) :
    exec (.tileWakeDone t) s = .next (serveSleep ((s.wr (Pg.til t) TIL_STAT_PSTATE PS.ACTIVE).wr (Pg.til t) TIL_STAT_SEQ Seq.RUNNING) t) := by
  have hseq' : seqState (s.wr (Pg.til t) TIL_STAT_PSTATE PS.ACTIVE) t = Seq.ASLEEP := (rd_wr_lo (by decide)).trans hseq
  have hf' : isFrozen ((s.wr (Pg.til t) TIL_STAT_PSTATE PS.ACTIVE).wr (Pg.til t) TIL_STAT_SEQ Seq.RUNNING) (Pg.til t) = false := by
    rw [← hf]
    simp (disch := decide) only [isFrozen, State.flag, rd_wr_off]
  simp only [exec_tileWakeDone, execTileWakeDone, ht, hp, and_self, if_true, hseq', hf', Bool.false_eq_true, if_false]

/-! ### The TIL page (R228, R254, R257) -/

theorem tilWrite_of_access {off : Nat} {f : State → State} (ht : t < tileCount s.cfg) (hf : isFrozen s (Pg.til t) = false) :
    tilWrite s t off ag f = f s := by
  have hacc : tilAccess s t = 0 := (if_neg (Nat.not_le.mpr ht)).trans (if_neg (Bool.eq_false_iff.mp hf))
  simp only [tilWrite, hacc]

theorem seqStart_of_halted (hp : pstate s t ≠ PS.RETIRED) (hseq : seqState s t = Seq.HALTED) : seqStart s t ag =
    setTile (s.wr (Pg.til t) TIL_STAT_SEQ Seq.RUNNING) t { getTile s t with pc := s.rd (Pg.til t) TIL_SEQ_CFG * 4 } :=
  if_neg (not_or.mpr ⟨hp, not_not.mpr hseq⟩)

theorem retireTile_states : pstate (retireTile s t) t = PS.RETIRED ∧ seqState (retireTile s t) t = Seq.HALTED := by
  refine ⟨pstate_wr (by decide), ?_⟩
  unfold retireTile seqState
  dsimp only
  rw [rd_wr_lo (by decide), rd_wr_lo (by decide), rd_wr_same]
  rfl

/-! ### The instants of the schedule (R249, R251) -/

theorem scheduledWake_of_due (ht : t < tileCount s.cfg) (hf : isFrozen s (Pg.til t) = false) (hp : pstate s t = PS.GATED ∨ pstate s t = PS.PARKED)
    (hdue : wakeDue s t (pstate s t) = true) : exec (.scheduledWake t) s = .next (wakeTile s t) := by
  have hstates : pstate s t ≠ PS.ENTERING ∧ pstate s t ≠ PS.RETIRED := by
    rcases hp with hp | hp <;> rw [hp] <;> decide
  obtain ⟨hent, hret⟩ := hstates
  have hwake : t < tileCount s.cfg ∧ pstate s t ≠ PS.RETIRED ∧ (pstate s t = PS.GATED ∨ pstate s t = PS.PARKED ∨ pstate s t = PS.ENTERING) ∧
      wakeDue s t (pstate s t) = true := ⟨ht, hret, hp.imp_right Or.inl, hdue⟩
  simp only [exec_scheduledWake, execScheduledWake, if_neg hent, if_pos hwake, tileRequest_wake hf]

theorem activeInstant_of_new {n : Nat} (hn : lastActive s t = some n) (ht : t < tileCount s.cfg) (hf : isFrozen s (Pg.til t) = false)
    (hon : schedOn s t = true) (hp : pstate s t ≠ PS.RETIRED) (hnew : (getTile s t).active ≠ some n) (hheld : TReq.active n ∉ (getTile s t).held) :
    exec (.activeInstant t) s = .next (wakeLateRule (activeInstant s t n false) t) := by
  simp only [exec_activeInstant, execActiveInstant, hn]
  exact (if_pos ⟨ht, hon, hp, hnew, hheld⟩).trans (congrArg Host.Outcome.next (if_neg (Bool.eq_false_iff.mp hf)))

theorem activeInstant_awake {n : Nat} (hp : pstate s t = PS.ACTIVE) : activeInstant s t n false = setTile s t { getTile s t with
    twin := n % 2 ^ 32, tevent := Nat.lor (getTile s t).tevent 1, active := some n, wakeRun := 0 } := by
  simp only [activeInstant, hp, bne_self_eq_false, Bool.false_and, Bool.false_eq_true, if_false]

end

/-- Settles O40: each request acts by the tile's power state. -/
theorem tilePowerStates : Obligations.TilePowerStates := by
  unfold Obligations.TilePowerStates
  refine ⟨fun s t ag ht hf => ⟨fun hp => ?retired, fun hp => ?active, fun hp => ?sleeping, fun hp => ?asks, fun hp => ?parked, fun hp => ?gated⟩,
    fun s t d hp hq hd hle hoff => ⟨_, rfl, sleepTile_enters hp hq (by omega) hle hoff⟩,
    fun s t ht hp hq hrun hwake hsleep hoff _ => tileSleepEntered_asleep ht hp hq hrun hwake hsleep hoff,
    fun s t ht hp hseq hf => tileWakeDone_runs ht hp hseq hf, fun s t ag v ht hf => ?page, fun s t => retireTile_states,
    fun s t ht hf => ⟨fun hp hdue => scheduledWake_of_due ht hf hp hdue,
      fun n hn hon hp hnew hheld => activeInstant_of_new hn ht hf hon hp hnew hheld⟩, fun s t n hp => activeInstant_awake hp⟩
  case retired =>
    simp only [exec_wake, execWake, exec_gate, execGate, exec_park, execPark, tilRequest_of_retired ht hp, reduceCtorEq, if_false, if_true, and_self]
  case active =>
    rw [exec_wake, execWake, tilRequest_of_running ht (by rw [hp]; decide), tileRequest_wake hf, wakeTile_active hp]
  case sleeping =>
    have hne : pstate s t ≠ PS.RETIRED := by rcases hp with hp | hp <;> rw [hp] <;> decide
    rw [exec_wake, execWake, tilRequest_of_running ht hne, tileRequest_wake hf, wakeTile_sleeping hp]
  case asks =>
    simp only [exec_gate, execGate, exec_park, execPark, tilRequest_of_running ht hp, tileRequest_sleep hf, and_self]
  case parked =>
    have hne : pstate s t ≠ PS.RETIRED := by rw [hp]; decide
    simp only [exec_gate, execGate, exec_park, execPark, tilRequest_of_running ht hne, tileRequest_sleep hf, sleepTile_parked hp, and_self]
  case gated =>
    have hne : pstate s t ≠ PS.RETIRED := by rw [hp]; decide
    simp only [exec_gate, execGate, tilRequest_of_running ht hne, tileRequest_sleep hf, sleepTile_gated hp]
  case page =>
    simp only [exec_seqStart, execSeqStart, exec_seqHalt, execSeqHalt, exec_mboxInWrite, execMboxInWrite, exec_tileRetire, execTileRetire,
      tilWrite_of_access ht hf]
    exact ⟨fun hp hseq => congrArg Host.Outcome.next (seqStart_of_halted hp hseq), fun h => congrArg Host.Outcome.next (if_pos h),
      fun hseq => congrArg Host.Outcome.next (if_neg hseq), trivial, fun hag => congrArg Host.Outcome.next (if_pos hag),
      congrArg Host.Outcome.next (if_neg (by simp))⟩

end Sys2Proof.Machine
end

section
/-!
PROOFS. The verdict of a job's window: the lower median (R311), the ring (R316), the frame of a unit (R319), the assembly instant, issue, revision and
abandonment (R251, R321, R355).
-/
namespace Sys2Proof.Machine
open Reg Sys2Proof.Laws

/-! ### The lower median (R311) -/

section
variable {x : Int} {l m : List Int}

theorem insertBy_perm : (insertBy (fun y => y) x l).Perm (x :: l) := by
  induction l with
  | nil => exact .refl _
  | cons a t ih =>
    unfold insertBy
    split
    · exact .refl _
    · exact (ih.cons a).trans (.swap x a t)

theorem insertBy_sorted (h : l.Pairwise (· ≤ ·)) : (insertBy (fun y => y) x l).Pairwise (· ≤ ·) := by
  induction l with
  | nil => exact List.pairwise_singleton ..
  | cons a t ih =>
    obtain ⟨ha, ht⟩ := List.pairwise_cons.mp h
    unfold insertBy
    split
    · next hlt => exact List.pairwise_cons.mpr ⟨fun b hb => (List.mem_cons.mp hb).elim (fun e => by omega) (fun hb => by have := ha b hb; omega), h⟩
    · next hge =>
      refine List.pairwise_cons.mpr ⟨fun b hb => ?_, ih ht⟩
      rcases List.mem_cons.mp (insertBy_perm.mem_iff.mp hb) with rfl | hb
      · omega
      · exact ha b hb

theorem foldl_insertBy (acc : List Int) (hacc : acc.Pairwise (· ≤ ·)) :
    (l.foldl (fun acc x => insertBy (fun y => y) x acc) acc).Perm (l ++ acc) ∧
    (l.foldl (fun acc x => insertBy (fun y => y) x acc) acc).Pairwise (· ≤ ·) := by
  induction l generalizing acc with
  | nil => exact ⟨.refl _, hacc⟩
  | cons a t ih =>
    obtain ⟨hperm, hsorted⟩ := ih _ (insertBy_sorted (x := a) hacc)
    exact ⟨hperm.trans ((insertBy_perm.append_left t).trans List.perm_middle), hsorted⟩

/-- Sorting gives the one ascending list of the same values. -/
theorem sortBy_of_perm (h : l.Perm m) : sortBy (fun y => y) l = sortBy (fun y => y) m := by
  obtain ⟨hl, hls⟩ := foldl_insertBy (l := l) [] List.Pairwise.nil
  obtain ⟨hm, hms⟩ := foldl_insertBy (l := m) [] List.Pairwise.nil
  rw [List.append_nil] at hl hm
  exact (hl.trans (h.trans hm.symm)).eq_of_pairwise' hls hms

theorem lowerMedian_of_perm (h : l.Perm m) : lowerMedian l = lowerMedian m := by
  rw [lowerMedian, lowerMedian, sortBy_of_perm h, h.length_eq]

end

/-! ### Records and frames (R316 to R319) -/

section
variable {r : VRec} {e : VEntry} {m : Member} {ms : List Member} {es : List VEntry}

@[simp] theorem beBytes_length (n x : Nat) : (beBytes n x).length = n := by
  rw [beBytes, List.length_reverse, leBytes_length]

theorem VEntry.bytes_length : e.bytes.length = 24 := by
  simp [VEntry.bytes]

theorem VHead.bytes_length {h : VHead} : h.bytes.length = 64 := by
  simp [VHead.bytes]

theorem flatMap_bytes_length : (es.flatMap VEntry.bytes).length = 24 * es.length := by
  induction es with
  | nil => rfl
  | cons e es ih => rw [List.flatMap_cons, List.length_append, VEntry.bytes_length, ih, List.length_cons]; omega

/-- At most 82 entries follow the header. -/
theorem framePlain_length_le : (framePlain r m ms).length ≤ 2032 := by
  have hle : (frameEntries r.entries m ms).length ≤ 82 := List.length_take_le ..
  unfold framePlain
  dsimp only
  rw [List.length_append, VHead.bytes_length, flatMap_bytes_length]
  omega

theorem inRing_putRing {j : HJob} : inRing (putRing j r) r.win r.rev = true := by
  simp [inRing, putRing]

end

/-! ### Assembly, issue, abandonment (R251, R321) -/

section
variable {s : State} {slot n : Nat} {j : HJob} {g : JobGen} {p : VPolicy}

/-- What the assembly instant does with one tile of the set (R251, R253, R356). -/
def assembleTile (job n : Nat) (s : State) (t : Nat) : State :=
  let x := getTile s t
  if isFrozen s (Pg.til t) then s
  else if x.doneWins.contains (n % 2 ^ 32) then setTile s t { x with doneRun := 0 }
  else
    let s := setTile s t { x with doneRun := if x.doneRun ≥ 2 then 0 else x.doneRun + 1 }
    let s := syn (s.bump (Pg.til t) TIL_LATE_DONE) (Pg.til t) Syn.LATE
    let s := raise s (Pg.til t) Irq.TIL_DONE_LATE { job, win := n, detail := t }
    if x.doneRun ≥ 2 then tileJobFault s t else s

theorem verdictAssembly_of_job (h : verdictJob s slot n = some (j, g, p)) : exec (.verdictAssembly slot n) s =
    if s.now .hub < asmInstant g n ∨ j.asm > n then .next s
    else .next ((tileSet s slot).foldl (assembleTile j.job n) (modJob s j.job (fun j => { j with asm := n + 1 }))) := by
  simp only [exec_verdictAssembly, execVerdictAssembly, h]
  rfl

theorem verdictAssembly_of_due (h : verdictJob s slot n = some (j, g, p)) (hdue : asmInstant g n ≤ s.now .hub) (hasm : j.asm ≤ n) :
    exec (.verdictAssembly slot n) s =
      .next ((tileSet s slot).foldl (assembleTile j.job n) (modJob s j.job (fun j => { j with asm := n + 1 }))) :=
  (verdictAssembly_of_job h).trans (if_neg (by omega))

theorem assembleTile_of_late {job t : Nat} (hf : isFrozen s (Pg.til t) = false) (hdone : (getTile s t).doneWins.contains (n % 2 ^ 32) = false)
    (hrun : (getTile s t).doneRun < 2) : assembleTile job n s t =
      raise (syn ((setTile s t { getTile s t with doneRun := (getTile s t).doneRun + 1 }).bump (Pg.til t) TIL_LATE_DONE) (Pg.til t) Syn.LATE)
        (Pg.til t) Irq.TIL_DONE_LATE { job, win := n, detail := t } := by
  have hfew : ¬ (getTile s t).doneRun ≥ 2 := Nat.not_le.mpr hrun
  simp only [assembleTile, hf, hdone, hfew, Bool.false_eq_true, if_false]

variable {scores : List Score} {peers : List (Nat × Nat)}

theorem verdictIssue_first (h : verdictJob s slot n = some (j, g, p)) : exec (.verdictIssue slot n 0 scores peers) s =
    if 0 ≠ 0 ∨ inRing j n 0 = true ∨ s.now .hub < asmInstant g n ∨ s.now .hub ≥ abandonAt g n then .next s
    else if j.missing.contains n = true ∨ j.faultWaits = true ∨ j.recovery.isSome = true then
      .next (modJob s j.job (fun x => putRing { x with missing := x.missing.filter (fun w => w != n) } (missingRec s j g n 0)))
    else if ¬ setDone s j g n peers = true then .next s
    else .next (issueVerdict s j g p n scores peers) := by
  simp only [exec_verdictIssue, execVerdictIssue, h, zero_ne_one, if_false]

theorem verdictIssue_due (h : verdictJob s slot n = some (j, g, p)) (hnew : inRing j n 0 = false) (hfrom : asmInstant g n ≤ s.now .hub)
    (hto : s.now .hub < abandonAt g n) : exec (.verdictIssue slot n 0 scores peers) s =
      if j.missing.contains n = true ∨ j.faultWaits = true ∨ j.recovery.isSome = true then
        .next (modJob s j.job (fun x => putRing { x with missing := x.missing.filter (fun w => w != n) } (missingRec s j g n 0)))
      else if ¬ setDone s j g n peers = true then .next s
      else .next (issueVerdict s j g p n scores peers) :=
  (verdictIssue_first h).trans (if_neg (by simp [hnew, hfrom, hto]))

theorem verdictIssue_revision (h : verdictJob s slot n = some (j, g, p)) (hfirst : inRing j n 0 = true) (hnew : inRing j n 1 = false)
    (hrev : issuedRev (theWin s g n) 1 = some 1) (hdue : lateHorizon g n ≤ s.now .hub) :
    exec (.verdictIssue slot n 1 scores peers) s = .next (reviseVerdict s j g p n scores peers) := by
  simp only [exec_verdictIssue, execVerdictIssue, h, if_true]
  exact if_pos ⟨hfirst, by simp [hnew], hrev, hdue⟩

theorem verdictAbandon_of_job (h : verdictJob s slot n = some (j, g, p)) : exec (.verdictAbandon slot n) s =
    if s.now .hub < abandonAt g n ∨ inRing j n 0 = true then .next s
    else .next (modJob s j.job (fun x => putRing x (missingRec s j g n 0))) := by
  simp only [exec_verdictAbandon, execVerdictAbandon, h]

end

/-- Settles O41: the instants and the ring decide what a command does; the record's size is bounded by its entries. -/
theorem verdictsAreIssuedOnce : Obligations.VerdictsAreIssuedOnce := by
  unfold Obligations.VerdictsAreIssuedOnce
  refine ⟨fun s slot n j g p h => ⟨fun hdue hasm hset => ?noTile, fun t hdue hasm hset hf hdone hrun => ?oneTile,
      fun hout => (verdictAssembly_of_job h).trans (if_pos hout),
      fun scores peers => ⟨fun hnew hfrom hto => ⟨fun hmiss => (verdictIssue_due h hnew hfrom hto).trans (if_pos hmiss), fun hmiss hwait hrec => ?issue⟩,
        fun hring => (verdictIssue_first h).trans (if_pos (.inr (.inl hring))),
        fun hring hnew hrev hdue => ⟨verdictIssue_revision h hring hnew hrev hdue, rfl⟩⟩,
      fun hdue hnew => (verdictAbandon_of_job h).trans (if_neg (by simp [hdue, hnew])),
      fun hearly => (verdictAbandon_of_job h).trans (if_pos (.inl hearly))⟩,
    fun j r => inRing_putRing, fun l m hperm => lowerMedian_of_perm hperm, fun r m ms => framePlain_length_le, fun e => VEntry.bytes_length,
    fun h => VHead.bytes_length⟩
  case noTile => rw [verdictAssembly_of_due h hdue hasm, hset, List.foldl_nil]
  case oneTile =>
    rw [verdictAssembly_of_due h hdue hasm, hset, List.foldl_cons, List.foldl_nil]
    exact congrArg Host.Outcome.next (assembleTile_of_late hf hdone hrun)
  case issue =>
    have hissue := (verdictIssue_due (scores := scores) (peers := peers) h hnew hfrom hto).trans
      (if_neg (by rw [hmiss, hwait, hrec]; decide))
    exact ⟨fun hdone => hissue.trans (if_neg (not_not.mpr hdone)), fun hopen => hissue.trans (if_pos (by simp [hopen]))⟩

end Sys2Proof.Machine
end

section
/-!
PROOFS. Check windows, self-tests and the recovery of a job's partition (R353 to R357), the entries they leave with a job (R351, R356).
-/
namespace Sys2Proof.Machine
open Reg Sys2Proof.Laws

/-! ### The record of a job -/

section
variable {s : State} {job code win : Nat} {tile : Option Nat} {j : HJob} {f : HJob → HJob}

/-- Changing a job's record changes what is found of it. -/
theorem hjob_modJob (hf : ∀ x, (f x).job = x.job) (h : hjob s job = some j) : hjob (modJob s job f) job = some (f j) := by
  simp only [hjob, modJob] at h ⊢
  generalize s.hub.jobs = l at h
  induction l with
  | nil => cases h
  | cons x xs ih =>
    rw [List.find?_cons] at h
    by_cases hx : x.job = job
    · rw [beq_iff_eq.mpr hx] at h
      rw [List.map_cons, if_pos hx, List.find?_cons, hf x, beq_iff_eq.mpr hx, Option.some.inj h]
    · rw [beq_eq_false_iff_ne.mpr hx] at h
      rw [List.map_cons, if_neg hx, List.find?_cons, beq_eq_false_iff_ne.mpr hx]
      exact ih h

theorem hjob_hubFault (h : hjob s job = some j) : hjob (hubFault s job code tile win) job = some { j with pend := j.pend ++ [(0,
    { type := 0x17, code, flags := 0, unit := jobWide, a := s.rd (Pg.cab 56) CAB_STATE_HUB_INDEX * 2 ^ 48 + tile.getD 0x7FF * 2 ^ 32,
      b := win })] } :=
  hjob_modJob (fun _ => rfl) h

theorem hjob_partitionFault (h : hjob s job = some j) : hjob (partitionFault s job) job = some { j with
    faults := j.faults + 1, firstFault := (if j.faults = 0 then s.now .hub else j.firstFault), faultWaits := true } :=
  hjob_modJob (fun _ => rfl) h

end

/-! ### The check tile (R353) -/

section
variable {s : State} {slot n check : Nat} {peer : List Nat} {j : HJob} {im : HImage}

theorem checkWindow_of_open {regions : Option ((Nat × Nat) × (Nat × Nat))} (hj : hjobAt s slot = some j) (him : j.image = some im)
    (hcheck : im.place.check = some check) (hslot : n % 64 = slot % 64) (hnew : j.checked.contains n = false) (hclosed : windowEnd n j.k ≤ s.now .hub)
    (hrec : j.recovery = none) : exec (.checkWindow slot n regions peer) s = .next (match regions with
      | none => tellSet (loadCheck s im check (checkRankOf im n)) slot (0xC1 * 2 ^ 24 + checkRankOf im n * 2 ^ 11 + check)
      | some (own, chk) => compareCheck s j im n check own chk peer) := by
  have hopen : ¬ (n % 64 ≠ slot % 64 ∨ j.checked.contains n = true ∨ s.now .hub < windowEnd n j.k ∨ j.recovery.isSome = true) := by
    rw [hnew, hrec]
    simp [hslot, hclosed]
  simp only [exec_checkWindow, execCheckWindow, hj, him, hcheck, if_neg hopen]
  cases regions <;> rfl

theorem compareCheck_of_own {own chk : Nat × Nat} {p : Place} (hp : rankPlace im (checkRankOf im n) = some p) (hown : p.hub = ownIndex s) :
    compareCheck s j im n check own chk peer =
      if (Tile.read (getTile s p.tile) own.1 own.2).map (·.1) = (Tile.read (getTile s check) chk.1 chk.2).map (·.1) then
        modJob (tellSet s j.slot 0xC2000000) j.job (fun j => { j with checked := n :: j.checked })
      else checkFails (tellSet s j.slot 0xC2000000) j n (some p.tile) check := by
  have htile : ((rankPlace im (checkRankOf im n)).filter (fun p => p.hub == ownIndex s)).map (·.tile) = some p.tile := by
    rw [hp, Option.filter_some, if_pos (beq_iff_eq.mpr hown)]
    rfl
  simp only [compareCheck, htile]

end

/-! ### Self-tests (R354) -/

section
variable {s : State} {t : Nat}

theorem selftestChunk_of_due {ok : Bool} (ht : t < tileCount s.cfg) (hp : pstate s t ≠ PS.RETIRED) (hf : isFrozen s (Pg.til t) = false)
    (hroom : testRoom s t = true) (hdue : testDue s t = true) : exec (.selftestChunk t ok) s =
      if ok = true then .next (setTest s t (if (testOf s t).2.1 ≥ 15 then (s.now .hub, 0, (testOf s t).2.2)
        else ((testOf s t).1, (testOf s t).2.1 + 1, (testOf s t).2.2)))
      else .next (failTile s t) :=
  if_neg (by simp [ht, hp, hf, hroom, hdue])

theorem selftestChunk_not_due {ok : Bool} (hdue : testDue s t = false) : exec (.selftestChunk t ok) s = .next s :=
  if_pos (.inr (.inr (.inr (.inr hdue))))

theorem testOf_setTest {x : Nat × Nat × Option Nat} : testOf (setTest s t x) t = x := by
  simp [testOf, setTest]

theorem chargeTile_of_uncharged (h : isCharged s t = false) : chargeTile s t =
    setTest s t ((testOf s t).1, (testOf s t).2.1, some (s.now .hub + 86400000000000)) := if_neg (Bool.eq_false_iff.mp h)

theorem isCharged_chargeTile (h : isCharged s t = false) : isCharged (chargeTile s t) t = true := by
  have hnow {x : Nat × Nat × Option Nat} : (setTest s t x).now .hub = s.now .hub := rfl
  rw [chargeTile_of_uncharged h, isCharged, testOf_setTest, hnow, Option.any_some, decide_eq_true_eq]
  omega

end

/-! ### Recovery (R356, R357) -/

section
variable {s : State} {job kind : Nat} {j : HJob} {im : HImage} {g : JobGen} {place : Option Placement} {peer : Option Nat}

theorem partitionRecovery_of_waiting (hj : hjob s job = some j) (him : j.image = some im) (hg : jobNow s j = some g) (hwait : j.faultWaits = true)
    (hrec : j.recovery = none) : exec (.partitionRecovery job place peer) s =
      if enginesBusy s ≥ 2 then .next s else .next ((recoverJob s j g im place peer).getD s) := by
  simp only [exec_partitionRecovery, execPartitionRecovery, hj, him, hg, hwait, hrec, Bool.true_eq_false, Option.isSome_none, Bool.false_eq_true,
    false_or]

theorem recoverJob_third (h : 3 ≤ j.faults) : recoverJob s j g im place peer = resetSet s j g im :=
  (if_neg (by omega)).trans (if_neg (by omega))

theorem recoverJob_first {new : HImage} (h : j.faults ≤ 1) (hnew : placeImage s j g im.img place = .ok new) :
    recoverJob s j g im place peer = replaceSet s j g im new := by
  simp only [recoverJob, if_pos h, hnew]

theorem partitionRecoveryDone_of_placed {x : Option Placement} (hj : hjob s job = some j) (hrec : j.recovery = some (kind, x))
    (him : j.image = some im) (hplaced : kind = 2 ∨ ∀ y ∈ ownPlaces s im, inPlace s j.slot y = true) :
    exec (.partitionRecoveryDone job) s = .next (modJob (hubFault s job (recoveryFault kind) none (windowIndex j.k j.firstFault)) job
      (fun j => { j with recovery := none })) := by
  have hall : (if kind = 2 then [] else ownPlaces s im).all (inPlace s j.slot) = true := by
    split
    · rfl
    · next hk => exact List.all_eq_true.mpr (hplaced.resolve_left hk)
  simp only [exec_partitionRecoveryDone, execPartitionRecoveryDone, hj, hrec, him, hall, Bool.not_true, Bool.false_eq_true, if_false]

end

/-- Settles O42: what a command does follows from the job's image, the tile's test record and the count of faults. -/
theorem checksSelftestsAndRecovery : Obligations.ChecksSelftestsAndRecovery := by
  unfold Obligations.ChecksSelftestsAndRecovery
  refine ⟨fun s slot n check peer j im hj him hcheck hslot hnew hclosed hrec => ⟨?load, fun own chk => ?compare⟩,
    fun s j im n check t own chk peer p hp hown ht => ?regions,
    fun s t ht hp hf hroom hdue => ⟨(selftestChunk_of_due ht hp hf hroom hdue).trans (if_neg (by decide)), fun hfew => ?chunk, fun hlast => ?pass⟩,
    fun s t _ hdue => selftestChunk_not_due hdue, fun s t => ⟨fun h => if_pos h, fun h => ⟨isCharged_chargeTile h, ?charged⟩⟩,
    fun s job j im g place peer hj him hg hwait hrec => ⟨fun hfree u hu => ?recovers,
      fun hbusy => (partitionRecovery_of_waiting hj him hg hwait hrec).trans (if_pos hbusy), fun h => recoverJob_third h,
      fun h new hnew => recoverJob_first h hnew⟩,
    fun s job kind j im x hj hrec him hplaced => partitionRecoveryDone_of_placed hj hrec him hplaced,
    fun s job code win tile j hj => ⟨hjob_hubFault hj, hjob_partitionFault hj⟩⟩
  case load => rw [checkWindow_of_open hj him hcheck hslot hnew hclosed hrec]
  case compare => rw [checkWindow_of_open hj him hcheck hslot hnew hclosed hrec]
  case regions =>
    subst ht
    exact ⟨fun he => (compareCheck_of_own hp hown).trans (if_pos he), fun hne => (compareCheck_of_own hp hown).trans (if_neg hne)⟩
  case chunk => rw [selftestChunk_of_due ht hp hf hroom hdue, if_pos rfl, if_neg (Nat.not_le.mpr hfew)]
  case pass => rw [selftestChunk_of_due ht hp hf hroom hdue, if_pos rfl, if_pos (Nat.le_of_eq hlast.symm)]
  case charged => rw [chargeTile_of_uncharged h, testOf_setTest]
  case recovers => rw [partitionRecovery_of_waiting hj him hg hwait hrec, if_neg (Nat.not_le.mpr hfree), hu, Option.getD_some]

end Sys2Proof.Machine
end

section
/-!
PROOFS. The fleet tape: a window is taped in order, frames are compared with their content, entries and frames read back (R289 to R303).
-/
namespace Sys2Proof.Machine
open Reg Sys2Proof.Laws

/-! ### Little-endian fields at their places -/

section
variable {n x k : Nat} {l : List Nat}

theorem drop_leBytes_append (h : n ≤ k) : (leBytes n x ++ l).drop k = l.drop (k - n) := by
  rw [List.drop_append, leBytes_length, List.drop_eq_nil_of_le (by rw [leBytes_length]; exact h), List.nil_append]

theorem take_leBytes_append : (leBytes n x ++ l).take n = leBytes n x :=
  List.take_left' (leBytes_length n x)

theorem take_leBytes : (leBytes n x).take n = leBytes n x :=
  List.take_of_length_le (leBytes_length n x).le

theorem ofLe_leBytes_of_lt (h : x < 256 ^ n) : ofLe (leBytes n x) = x := by
  rw [ofLe_leBytes, Nat.mod_eq_of_lt h]

end

/-! ### Index entries (R296) -/

theorem TEntry.bytes_length (e : TEntry) : e.bytes.length = 64 := by
  simp only [TEntry.bytes, List.length_append, leBytes_length]

/-- The byte of an entry that holds its state below its poison bit. -/
theorem stateByte_read {st : Nat} (p : Bool) (h : st < 8) :
    (st + 128 * b2n p) % 256 % 8 = st ∧ bit ((st + 128 * b2n p) % 256) 7 = p := by
  cases p <;> simp only [b2n, bit, beq_eq_false_iff_ne, beq_iff_eq] <;> constructor <;> simp <;> omega

theorem readEntry_bytes {e : TEntry} (hseq : e.seq < 2 ^ 64) (hjob : e.job < 2 ^ 32) (hk : e.k < 256) (hstate : e.state < 8)
    (hentries : e.entries < 65536) (hfirst : e.first < 2 ^ 64) (hlast : e.last < 2 ^ 64) (hstream : e.stream < 2 ^ 64)
    (hofs : e.ofs < 2 ^ 32) (hclen : e.clen < 2 ^ 32) (hulen : e.ulen < 2 ^ 32) (hsecs : e.secs < 2 ^ 64) (hnanos : e.nanos < 2 ^ 32) :
    readEntry e.bytes = e := by
  obtain ⟨hst, hp⟩ := stateByte_read e.poison hstate
  simp only [Nat.reducePow] at hseq hjob hfirst hlast hstream hofs hclen hulen hsecs hnanos
  simp only [readEntry, TEntry.bytes, List.append_assoc, List.drop_zero, drop_leBytes_append, take_leBytes_append, take_leBytes,
    ofLe_leBytes, Nat.reduceLeDiff, Nat.reduceSub, Nat.reducePow, Nat.mod_eq_of_lt, hseq, hjob, hk, hentries, hfirst, hlast, hstream, hofs,
    hclen, hulen, hsecs, hnanos, hst, hp]

/-! ### Frames of a Raw block (R293) -/

section
variable {c : List Nat}

theorem contentSum_length : (contentSum c).length = 4 :=
  leBytes_length 4 _

/-- The header of a last block of type Raw: its last-block bit, type and size. -/
theorem rawHeader_read {n : Nat} (h : n ≤ 65536) :
    ofLe (leBytes 3 (1 + n * 8)) = 1 + n * 8 ∧ bits (1 + n * 8) 2 1 = 0 ∧ (1 + n * 8) / 8 = n ∧ (1 + n * 8) % 2 = 1 := by
  refine ⟨ofLe_leBytes_of_lt (by omega), ?_, by omega, by omega⟩
  simp only [bits]
  omega

theorem zstdHead_small {n : Nat} (h : n ≤ 255) : zstdHead n = [0x28, 0xB5, 0x2F, 0xFD, 0x24, n] := by
  rw [zstdHead, if_pos h]
  rfl

theorem zstdHead_large {n : Nat} (h : ¬ n ≤ 255) : zstdHead n = [0x28, 0xB5, 0x2F, 0xFD, 0x64] ++ leBytes 2 (n - 256) := by
  rw [zstdHead, if_neg h]
  rfl

theorem decodeFrame_rawFrame (h : c.length ≤ 65536) : decodeFrame (rawFrame c) = some c := by
  obtain ⟨hread, htype, hsize, hlast⟩ := rawHeader_read h
  by_cases hn : c.length ≤ 255
  · simp [decodeFrame, rawFrame, zstdHead_small hn, hread, htype, hsize, hlast, leBytes_length, contentSum_length]
    omega
  · have hsum : ofLe (leBytes 2 (c.length - 256)) = c.length - 256 := ofLe_leBytes_of_lt (by omega)
    have hn' : c.length - 256 + 256 = c.length := by omega
    simp [decodeFrame, rawFrame, zstdHead_large hn, drop_leBytes_append, hread, htype, hsize, hlast, leBytes_length,
      contentSum_length, hsum, hn']
    omega

theorem emitted_rawFrame (h : c.length ≤ 65536) : emitted (rawFrame c) = true := by
  obtain ⟨hread, htype, -, -⟩ := rawHeader_read h
  by_cases hn : c.length ≤ 255
  · simp [emitted, rawFrame, zstdHead_small hn, take_leBytes_append, hread, htype]
  · simp [emitted, rawFrame, zstdHead_large hn, take_leBytes_append, drop_leBytes_append, hread, htype]

end

/-! ### Taping and compression -/

section
variable {s : State} {slot n m i eng : Nat} {poison : List Nat} {g : JobGen} {j : HJob} {w : JobWin} {b : TBlock} {frame : List Nat}

theorem tapeWindow_waits (hg : genOfWin s slot n = some g) (hj : findJob s g.job = some j) (hw : findWin s slot g.job n = some w)
    (h : w.closed = false ∨ w.taped = true ∨ isFrozen s (tapPg j.tableMd) = true ∨ (getTap s j.tableMd).ready = false) :
    exec (.tapeWindow slot n poison) s = .next s := by
  simp only [exec_tapeWindow, execTapeWindow, hg, hj, hw]
  refine if_pos ?_
  tauto

theorem tapeWindow_empty (hg : genOfWin s slot n = some g) (hj : findJob s g.job = some j) (hw : findWin s slot g.job n = some w)
    (hclosed : w.closed = true) (htaped : w.taped = false) (hfrozen : isFrozen s (tapPg j.tableMd) = false)
    (hready : (getTap s j.tableMd).ready = true) (htable : w.table = [])
    (hearlier : ∀ v ∈ s.hub.wins, v.slot = slot → v.job = g.job → v.win < n → v.taped = true) :
    exec (.tapeWindow slot n poison) s = .next (flushBlock (flushBlock (closeSummaries (putWin
      (tapeEntry (markerEntry s g w).1 g.job g.k 0 n (markerEntry s g w).2) { w with taped := true }) g.job g.k n)
        j.tableMd g.job g.k 0) j.tableMd g.job g.k 1) := by
  have hnone : s.hub.wins.any (fun v => v.slot == slot && v.job == g.job && decide (v.win < n) && !v.taped) = false := by
    simp only [List.any_eq_false, Bool.and_eq_true, beq_iff_eq, decide_eq_true_eq, Bool.not_eq_true']
    rintro v hv ⟨⟨⟨hslot, hjob⟩, hwin⟩, hwaits⟩
    exact Bool.false_ne_true (hwaits.symm.trans (hearlier v hv hslot hjob hwin))
  simp only [exec_tapeWindow, execTapeWindow, hg, hj, hw, htable]
  exact if_neg (by simp [hclosed, htaped, hnone, hfrozen, hready])

/-- A frame an engine of the die ends its work with is judged; who may not work on the block changes nothing. -/
theorem blockCompressDone_of_engine (hb : (getTap s m).work[i]? = some b) (hm : m < 8) (htap : isFrozen s (tapPg m) = false)
    (hcmp : isFrozen s (cmpPg m) = false) (heng : (enginesIn s m).contains eng = true) (hnew : b.tries.contains eng = false) :
    exec (.blockCompressDone m i eng frame) s =
      if (if 2 ≤ b.tries.length then frame == rawFrame b.content else emitted frame && decodeFrame frame == some b.content) = true then
        .next (releaseWins (b.tries.foldl (fun s e => chargeEngine s m e) (commitBlock
          (setTap (s.incr (cmpPg m) CMP_CIN 0 b.content.length) m { getTap s m with work := (getTap s m).work.eraseIdx i }) m b frame)) b.job)
      else if 2 ≤ b.tries.length then
        .next (releaseWins (loseBlock (setTap (raise ((s.incr (cmpPg m) CMP_CIN 0 b.content.length).bump (cmpPg m) CMP_FAIL_VERIFY) (cmpPg m)
          Irq.CMP_VERIFY_FAIL { job := b.job, win := b.first, detail := eng }) m
            { getTap s m with work := (getTap s m).work.eraseIdx i }) m b) b.job)
      else .next (setTap (raise ((s.incr (cmpPg m) CMP_CIN 0 b.content.length).bump (cmpPg m) CMP_FAIL_VERIFY) (cmpPg m)
        Irq.CMP_VERIFY_FAIL { job := b.job, win := b.first, detail := eng }) m
          { getTap s m with work := (getTap s m).work.set i { b with tries := b.tries ++ [eng] } }) := by
  simp only [exec_blockCompressDone, execBlockCompressDone, hb]
  exact if_neg (by simp only [heng, hnew, htap, hcmp]; simp [hm])

end

/-! ### The soft reset of a tape page (R303) -/

section
variable {s : State} {m : Nat} {t : TapMd}

theorem getTap_setTap_same (h : m < s.hub.taps.length) : getTap (setTap s m t) m = t := by
  simp only [getTap, setTap, List.getD_eq_getElem?_getD, List.getElem?_set_self h, Option.getD_some]

theorem PostFrame.taps {s' : State} (h : PostFrame s s') : s'.hub.taps = s.hub.taps := by
  obtain ⟨-, -, -, -, -, -, hhub⟩ := h
  rw [hhub]

theorem taps_endScan {st : Nat} : (endScan s m st).hub.taps.length = s.hub.taps.length := by
  rw [endScan, raise_frame.taps]
  exact List.length_set

theorem getTap_softTap (h : m < s.hub.taps.length) : getTap (softTap s m) m =
    { getTap s m with work := [], scan := none, low := [false, false], ready := false } := by
  have hscan : m < (if (getTap s m).scan.isSome then endScan s m ScanSt.ABORTED else s).hub.taps.length := by
    split
    · rw [taps_endScan]
      exact h
    · exact h
  exact getTap_setTap_same hscan

end

/-- Settles O43: a window that may be taped is, in its frames' order, by the branches of the three commands; an entry and a Raw-block frame
read back field by field. -/
theorem tapeCommitsVerifiedFrames : Obligations.TapeCommitsVerifiedFrames := by
  unfold Obligations.TapeCommitsVerifiedFrames
  refine ⟨?taping, ?compression, ?entries, ?rawFrames, ?recovery, ?softReset⟩
  case taping =>
    intro s slot n poison g j w hg hj hw
    exact ⟨tapeWindow_waits hg hj hw, tapeWindow_empty hg hj hw⟩
  case compression =>
    intro s m i eng frame b hm hb htap hcmp heng hnew
    have h := blockCompressDone_of_engine (frame := frame) hb hm htap hcmp heng hnew
    exact ⟨fun hgood => h.trans (if_pos hgood),
      fun hbad hfew => h.trans ((if_neg (Bool.eq_false_iff.mp hbad)).trans (if_neg (Nat.not_le.mpr hfew))),
      fun hbad hmany => h.trans ((if_neg (Bool.eq_false_iff.mp hbad)).trans (if_pos hmany))⟩
  case entries =>
    intro e hseq hjob hk hstate hentries hfirst hlast hstream hofs hclen hulen hsecs hnanos
    exact ⟨readEntry_bytes hseq hjob hk hstate hentries hfirst hlast hstream hofs hclen hulen hsecs hnanos, e.bytes_length⟩
  case rawFrames => exact fun c hc => ⟨decodeFrame_rawFrame hc, emitted_rawFrame hc⟩
  case recovery => exact fun s m hm => if_neg (Nat.not_le.mpr hm)
  case softReset =>
    intro s m _ htap
    rw [getTap_softTap htap]
    exact ⟨rfl, rfl, rfl⟩

end Sys2Proof.Machine
end

section
/-!
PROOFS. Scans of the tape and their delivery (R298 to R300, R306), patrol and injection (R286, R305), engines returned to service (R307).
-/
namespace Sys2Proof.Machine
open Reg Sys2Proof.Laws

/-! ### Sums of bits -/

section
variable {p : Nat → Bool} {n : Nat}

/-- The sum of the bits below n that a test selects is the word with those bits. -/
theorem bitSum_spec : ((List.range n).filter p).foldl (fun a e => a + 2 ^ e) 0 < 2 ^ n ∧
    ∀ e, (((List.range n).filter p).foldl (fun a e => a + 2 ^ e) 0).testBit e = (decide (e < n) && p e) := by
  induction n with
  | zero => exact ⟨Nat.one_pos, fun e => Nat.zero_testBit e⟩
  | succ n ih =>
    rw [List.range_succ, List.filter_append, List.foldl_append]
    generalize ((List.range n).filter p).foldl (fun a e => a + 2 ^ e) 0 = x at ih
    obtain ⟨hlt, hbits⟩ := ih
    cases hp : p n
    · rw [List.filter_singleton, hp]
      refine ⟨Nat.lt_of_lt_of_le hlt (Nat.pow_le_pow_right two_pos (Nat.le_succ n)), fun e => (hbits e).trans ?_⟩
      rcases eq_or_ne e n with rfl | he
      · simp [hp]
      · have hlt' : e < n + 1 ↔ e < n := by omega
        simp only [hlt']
    · rw [List.filter_singleton, hp]
      refine ⟨by simp only [cond_true, List.foldl_cons, List.foldl_nil, Nat.pow_succ]; omega, fun e => ?_⟩
      simp only [cond_true, List.foldl_cons, List.foldl_nil, Nat.add_comm x]
      rcases Nat.lt_trichotomy e n with he | rfl | he
      · rw [Nat.testBit_two_pow_add_gt he, hbits]
        simp [he, Nat.lt_succ_of_lt he]
      · rw [Nat.testBit_two_pow_add_eq, hbits]
        simp [hp]
      · rw [Nat.testBit_eq_false_of_lt (Nat.lt_of_lt_of_le (by rw [Nat.pow_succ] at *; omega) (Nat.pow_le_pow_right two_pos he))]
        simp [Nat.not_lt.mpr he]

end

/-! ### The command word (R306) -/

section
variable {v : Nat}

/-- Setting START leaves the fields of the word above it. -/
theorem putStart_fields : bit (putBit v 0 true) 0 = true ∧ bit (putBit v 0 true) 1 = bit v 1 ∧
    bits (putBit v 0 true) 4 4 = bits v 4 4 ∧ bits (putBit v 0 true) 5 5 = bits v 5 5 ∧ bits (putBit v 0 true) 31 16 = bits v 31 16 := by
  refine ⟨bit_putBit_true, ?_⟩
  unfold putBit
  split
  · exact ⟨rfl, rfl, rfl, rfl⟩
  · next h =>
    simp only [bit, beq_iff_eq] at h
    simp only [if_true, bit, bits]
    refine ⟨?_, ?_, ?_, ?_⟩
    · congr 1; omega
    all_goals omega

/-- Setting ABORT leaves START and the fields above it. -/
theorem putAbort_fields : bit (putBit v 1 true) 1 = true ∧ bit (putBit v 1 true) 0 = bit v 0 ∧
    bits (putBit v 1 true) 31 16 = bits v 31 16 := by
  refine ⟨bit_putBit_true, ?_⟩
  unfold putBit
  split
  · exact ⟨rfl, rfl⟩
  · next h =>
    simp only [bit, beq_iff_eq] at h
    simp only [if_true, bit, bits]
    exact ⟨by congr 1; omega, by omega⟩

end

section
variable {s : State} {m : Nat} {ag : Agent} {v : Word}

theorem scanStart_of_ready (hm : m < 8) (hfrozen : isFrozen s (tapPg m) = false) (habort : bit v.toNat 1 = false)
    (htimeout : bits v.toNat 31 16 ≠ 0) (hidle : scanState s m ≠ ScanSt.RUNNING) (hready : (getTap s m).ready = true) :
    exec (.scanStart m ag v) s = .next (Machine.scanStart (((s.wr (tapPg m) TAP_SCAN_CTRL_TIER (bits v.toNat 4 4)).wr (tapPg m)
      TAP_SCAN_CTRL_DELIVER (bits v.toNat 5 5)).wr (tapPg m) TAP_SCAN_CTRL_TIMEOUT (bits v.toNat 31 16)) m ag) := by
  obtain ⟨hstart, habort', htier, hdeliver, htimeout'⟩ := putStart_fields (v := v.toNat)
  refine (if_neg (Nat.not_le.mpr hm)).trans (congrArg Host.Outcome.next ?_)
  simp [scanCtrlWrite, hstart, habort', htier, hdeliver, htimeout', hfrozen, habort, htimeout, hidle, hready]

theorem scanAbort_of_running (hm : m < 8) (hfrozen : isFrozen s (tapPg m) = false) (hstart : bit v.toNat 0 = false) :
    exec (.scanAbort m ag v) s = .next (
      if bits v.toNat 31 16 = 0 ∧ scanState s m ≠ ScanSt.RUNNING then syn s (tapPg m) Syn.RANGE ag false TAP_SCAN_CTRL_STATE.off
      else if scanState s m = ScanSt.RUNNING then endScan s m ScanSt.ABORTED
      else syn s (tapPg m) Syn.STATE ag false TAP_SCAN_CTRL_STATE.off) := by
  obtain ⟨habort, hstart', htimeout⟩ := putAbort_fields (v := v.toNat)
  refine (if_neg (Nat.not_le.mpr hm)).trans (congrArg Host.Outcome.next ?_)
  simp [scanCtrlWrite, habort, hstart', htimeout, hstart, hfrozen]

theorem scanSpan_counters : scanFrom ((s.wr (tapPg m) TAP_SCAN_CNT 0).wr (tapPg m) TAP_SCAN_SKIP 0) m = scanFrom s m ∧
    scanTo ((s.wr (tapPg m) TAP_SCAN_CNT 0).wr (tapPg m) TAP_SCAN_SKIP 0) m = scanTo s m := by
  constructor <;> simp (disch := decide) only [scanFrom, scanTo, rd_wr_off]

theorem scanRefuse_state {code : Nat} : (scanRefuse s m code ag).rd (tapPg m) TAP_SCAN_CTRL_STATE = ScanSt.ABORTED := by
  rw [scanRefuse, rd_raise (by decide) (by decide) (by decide), rd_syn (by decide) (by decide) (by decide) (by decide) (by decide), rd_wr_same]
  rfl

end

/-! ### Engines (R307) -/

section
variable {s : State} {m v : Nat}

theorem engineEnable_cabinet : engineEnable s (cmpPg m) .cabinet v = (s.wr (cmpPg m) CMP_ENG_EN (v % 2 ^ 16)).wr (cmpPg m) CMP_ENG_OUT
    (((setBits 16 (s.rd (cmpPg m) CMP_ENG_OUT)).filter (fun e => !bit v e)).foldl (fun a e => a + 2 ^ e) 0) :=
  rfl

theorem engineEnable_out {e : Nat} (he : e < 16) (h : bit v e = true) :
    bit ((engineEnable s (cmpPg m) .cabinet v).rd (cmpPg m) CMP_ENG_OUT) e = false := by
  rw [engineEnable_cabinet, rd_wr_same, setBits, List.filter_filter]
  refine (bit_mod_two_pow (k := CMP_ENG_OUT.w) he).trans ?_
  rw [bit_eq_testBit, bitSum_spec.2, h]
  simp

end

/-- Settles O44: each command by its branches, once the word's fields, the scan of the die and its ring are known. -/
theorem scansPatrolAndInjection : Obligations.ScansPatrolAndInjection := by
  unfold Obligations.ScansPatrolAndInjection
  refine ⟨?start, ?settings, ?abort, ?delivery, ?patrol, ?injection, ?enableWrite, ?enable⟩
  case start =>
    intro s m ag v hm hfrozen habort htimeout hidle hready
    exact scanStart_of_ready hm hfrozen habort htimeout hidle hready
  case settings =>
    intro s m ag
    refine ⟨fun h => if_pos h, fun h hsize => (if_neg (Nat.not_lt.mpr h)).trans (if_pos hsize), scanRefuse_state,
      fun h hsize hin hmd => ?_⟩
    obtain ⟨hfrom, hto⟩ := scanSpan_counters (s := s) (m := m)
    exact (if_neg (Nat.not_lt.mpr h.le)).trans ((if_neg (Nat.not_lt.mpr hsize)).trans
      ((if_neg (not_or.mpr ⟨not_not.mpr hin, not_not.mpr hmd⟩)).trans (if_pos (.inr (hfrom.trans (h.trans hto.symm))))))
  case abort =>
    intro s m ag v hm hfrozen hstart
    rw [scanAbort_of_running hm hfrozen hstart]
    exact ⟨fun h => by simp [h], fun h htimeout => by simp [h, htimeout]⟩
  case delivery =>
    intro s m eng1 f1 f2 sc hm hsc hfrozen
    have hrun : ¬ (m ≥ 8 ∨ isFrozen s (tapPg m) = true) := by simp [hm, hfrozen]
    simp only [exec_scanDeliver, execScanDeliver, exec_scanTimeout, execScanTimeout, hsc, if_neg hrun]
    refine ⟨fun h => if_pos h, fun h hend => (if_neg (Nat.not_lt.mpr h)).trans (if_pos hend), fun h hnext => ?_, fun h => if_pos h,
      fun h => if_neg (Nat.not_le.mpr h)⟩
    exact ⟨fun hfull => (if_neg (Nat.not_lt.mpr h)).trans ((if_neg (Nat.not_le.mpr hnext)).trans (if_pos hfull)),
      fun hroom => (if_neg (Nat.not_lt.mpr h)).trans ((if_neg (Nat.not_le.mpr hnext)).trans (if_neg (Nat.not_le.mpr hroom)))⟩
  case patrol =>
    intro s m hm hhours hdue
    exact if_neg (by simp [hm, hhours, hdue])
  case injection =>
    intro s m ag v hm
    have hpage : ¬ m ≥ 8 := Nat.not_le.mpr hm
    exact ⟨fun h => (if_neg hpage).trans (congrArg Host.Outcome.next (if_pos h)),
      fun h => (if_neg hpage).trans (congrArg Host.Outcome.next ((if_neg (not_not.mpr rfl)).trans (if_pos h))),
      fun h => (if_neg hpage).trans (congrArg Host.Outcome.next ((if_neg (not_not.mpr rfl)).trans (if_neg h)))⟩
  case enableWrite =>
    intro s pg ag v hblk hfrozen
    exact (if_neg (not_not.mpr hblk)).trans (if_neg (Bool.eq_false_iff.mp hfrozen))
  case enable =>
    intro s m v
    refine ⟨?_, fun e he h => engineEnable_out he h⟩
    rw [engineEnable_cabinet]
    simp (disch := decide) only [rd_wr_off, rd_wr_same]
    exact Nat.mod_mod _ _

end Sys2Proof.Machine
end

section
/-!
PROOFS. The wait of a replay (R346) where the Hub holds two records of one job: the units it names are those of the record found first, and the
model writes them into each of the records.
-/
namespace Sys2Proof.Machine
open Reg Sys2Proof.Laws

/-! ### A Hub with two records of job 7 -/

/-- A digest of unit 5 for step 1, with a status and a sum. -/
def twinReport (status a : Nat) : DRep := { unit := 5, epoch := 0, status, shard := true, a, b := 0, bins := [], mark := 0 }

/-- A comparison of step 1, with its partial sent. -/
def twinCmp (round : Nat) (r : DRep) : DCmp :=
  { step := 1, round, epoch := 0, shift := 0, first := 0, siteFirst := 0, reports := [r], sent := true, partials := [], decided := none }

/-- The replay of step 1, ordered at 1 ns, whose wait is not over. -/
def twinReplay : Rpl := { step := 1, id := 1, shift := 0, epoch := 0, ordered := 1, waited := false, named := [] }

/-- The record found first holds the replay's comparison only. -/
def twinFirst : HJob :=
  { HJob.new 7 0 3 0 with
    cmps := [twinCmp 1 (twinReport 5 0)]
    rpl := some twinReplay
    dpol := [(0, { every := 0, reportWait := 0, replayWait := 0, obsH := 0, testS := 0 })] }

/-- The other record also holds the comparison of round 0, from which the replay's sum differs. -/
def twinSecond : HJob := { twinFirst with cmps := twinCmp 0 (twinReport 0 1) :: twinFirst.cmps }

def twinGen : JobGen :=
  { from_ := 0, slot := 0, job := 7, k := 3, late := 0, home := 0, pg := 0, sealO := 0, verdO := 0, hold := 0, gen := 0, epoch := 0, fields := [] }

def twinMember : Member := { unit := 5, hub := selfId State.reset, slot := 0, rgroup := 0, pgroup := 0, shard := [], lite := false }

/-- A Hub at 1 ns that serves unit 5 of job 7 and holds both records. -/
def twinState : State :=
  { State.reset with hub :=
    { Hub.reset with
      lcs := { (Longcase.reset .hub) with ns := 1 }
      jobs := [twinFirst, twinSecond]
      ing := [{ IngDie.reset with gens := [twinGen] }]
      rosters := [{ job := 7, gen := 0, k := 3, epoch := 0, groups := 1, members := [twinMember], leads := [] }] } }

/-- The units each record of a job names after a step. -/
def namesAfter : Host.Outcome State Fault Refusal → List (List (Nat × Nat × Nat × Nat))
  | .next s => s.hub.jobs.map (fun j => ((j.rpl).map (·.named)).getD [])
  | _ => []

/-- The wait's end names the units by the first record, none, in both. -/
theorem names_of_twinWait : namesAfter (exec (.replayWaitExpiry 7) twinState) = [[], []] := by
  decide

/-- Refutes O45: in its clause on the replay's wait the named units are computed from the record being changed (its `fun j` hides the job's
`j`), and on `twinState`, with a second record of the job, that names unit 5 where the model names none. -/
theorem not_digestOutcomesAndWaits : ¬ Obligations.DigestOutcomesAndWaits := by
  unfold Obligations.DigestOutcomesAndWaits
  rintro ⟨-, -, -, -, hreplays, -, -⟩
  obtain ⟨hwait, -, -⟩ := hreplays twinState 7 twinFirst twinReplay (twinCmp 1 (twinReport 5 0)) twinGen (by decide) rfl (by decide)
  have hnames := names_of_twinWait
  rw [hwait rfl (by decide) rfl (by decide)] at hnames
  exact absurd hnames (by decide)

end Sys2Proof.Machine
end

section
/-!
PROOFS. The gateway status pages: the edges of the protection lines and the pauses of the Reach sender (R380, R381), the update of a page's lines
(R385, R386).
-/
namespace Sys2Proof.Machine
open Reg Sys2Proof.Laws

/-! ### The edges and the pause (R381) -/

section
variable {s s' : State} {l t : Nat} {r : RchPort}

theorem PostFrame.rch (h : PostFrame s s') : s'.hub.rch = s.hub.rch := by
  obtain ⟨-, -, -, -, -, -, hhub⟩ := h
  rw [hhub]

theorem getRch_setRch_same (h : l < s.hub.rch.length) : getRch (setRch s l r) l = r := by
  simp only [getRch, setRch, List.getD_eq_getElem?_getD, List.getElem?_set_self h, Option.getD_some]

theorem pauseReach_of_running (hlink : rchState s l ≠ Rch.DISABLED) (hpause : (getRch s l).pause = none) :
    pauseReach s l t = rchCount (raise ((setRch s l { getRch s l with pause := some (t, t) }).wr (Pg.rch l) RCH_STATE_PAUSED 1) (Pg.rch l)
      Irq.RCH_PAUSE) l RCnt.PAUSES := by
  simp only [pauseReach, if_neg hlink, hpause]

theorem getRch_pauseReach (hl : l < s.hub.rch.length) (hlink : rchState s l ≠ Rch.DISABLED) (hpause : (getRch s l).pause = none) :
    getRch (pauseReach s l t) l = { getRch s l with pause := some (t, t) } := by
  rw [pauseReach_of_running hlink hpause, getRch, rchCount, State.incr_hub, raise_frame.rch]
  exact getRch_setRch_same hl

theorem paused_pauseReach (hlink : rchState s l ≠ Rch.DISABLED) (hpause : (getRch s l).pause = none) :
    (pauseReach s l t).rd (Pg.rch l) RCH_STATE_PAUSED = 1 := by
  rw [pauseReach_of_running hlink hpause, rchCount, rd_incr_off (by decide), rd_raise (by decide) (by decide) (by decide), rd_wr_same]
  rfl

/-- The page after a rising edge: its level, its counter and its time, and the edge kept for the cross-check. -/
def risen (s : State) (l : Nat) : State :=
  let u := ((s.wr (gsiPg l) GSI_PSE_LEVEL 1).bump (gsiPg l) GSI_PSE_RISES).wr (gsiPg l) GSI_PSE_T (time96 (edgeTime s l))
  setRch u l { getRch u l with rises := (getRch u l).rises ++ [edgeTime s l] }

theorem rd_setRch {pg : Page} {f : Fld} : (setRch s l r).rd pg f = s.rd pg f :=
  rfl

theorem rd_risen {pg : Page} {f : Fld} (h8 : f.off ≠ 0x068) (hC : f.off ≠ 0x06C) : (risen s l).rd pg f = s.rd pg f := by
  rw [risen, rd_setRch, rd_wr_off hC, rd_bump_off h8, rd_wr_off h8]

/-- A rising edge on a port that is not the time-transfer port changes no path. -/
theorem pseRise_of_low (hl : l < 2) (hlevel : s.rd (gsiPg l) GSI_PSE_LEVEL = 0)
    (hport : s.rd Pg.xLcs LCS_ROLE_TX_B ≠ 1 ∨ s.rd Pg.xLcs LCS_REACH_CFG_PORT ≠ l) :
    exec (.pseRise l) s = .next (pauseReach (raise (risen s l) (gsiPg l) Irq.GSI_PSE_RISE) l (edgeTime s l)) := by
  have hother : ¬ ((raise (risen s l) (gsiPg l) Irq.GSI_PSE_RISE).rd Pg.xLcs LCS_ROLE_TX_B = 1 ∧
      (raise (risen s l) (gsiPg l) Irq.GSI_PSE_RISE).rd Pg.xLcs LCS_REACH_CFG_PORT = l) := by
    rw [rd_raise (by decide) (by decide) (by decide), rd_raise (by decide) (by decide) (by decide), rd_risen (by decide) (by decide),
      rd_risen (by decide) (by decide)]
    exact not_and_or.mpr hport
  rw [exec_pseRise, execPseRise, if_neg (by simp [hl, hlevel])]
  exact congrArg (fun u => Host.Outcome.next (pauseReach u l (edgeTime s l))) (if_neg hother)

theorem pauseTimeout_of_pause {e : Nat} (hp : (getRch s l).pause = some (e, t)) : exec (.pauseTimeout l) s =
    if l ≥ 2 ∨ isFrozen s (Pg.rch l) = true ∨ s.now .hub < t + s.rd (Pg.rch l) RCH_RTO_PSE_MAX_MS * 1000000 then .next s
    else .next (raise (endPause s l) (gsiPg l) Irq.GSI_PSE_STUCK) := by
  simp only [exec_pauseTimeout, execPauseTimeout, hp]

end

/-! ### The lines of a page (R385) -/

/-- The record of revision 0 of a line's unit. -/
def gsiRecord (s : State) (l : Nat) (w : JobWin) (i : Nat) : Option RecView :=
  (w.table.find? (fun t => t.body.hdr.unit == s.rd (gsiPg l) GSI_LINE_CFG_UNIT i && !t.late && !t.snapshot)).bind (fun t => readRecord t.body.plain)

/-- A line is updated from its record, or counted as missing. -/
def gsiLineUpdate (s : State) (l : Nat) (w : JobWin) (u : State) (i : Nat) : State :=
  match gsiRecord s l w i with
  | some v => lineRecord u l i v
  | none => lineMissing u l i

/-- The page with the lines that have a role updated from a window, which it notes. -/
def gsiUpdated (s : State) (l n : Nat) (w : JobWin) : State :=
  let u := ((List.range 8).filter (fun i => s.rd (gsiPg l) GSI_LINE_CFG_ROLE i != 0)).foldl (gsiLineUpdate s l w) s
  setRch u l { getRch u l with gsiWin := some n }

section
variable {s : State} {l slot n : Nat} {g : JobGen}

theorem gsiLineUpdate_eq {w : JobWin} : gsiLineUpdate s l w =
    fun u i => ((gsiRecord s l w i).map (fun v => lineRecord u l i v)).getD (lineMissing u l i) := by
  funext u i
  unfold gsiLineUpdate
  cases gsiRecord s l w i <;> rfl

section
variable (hl : l < 2) (hg : genOfWin s slot n = some g) (hjob : s.rd (gsiPg l) GSI_JOB ≠ 0) (hsame : g.job = s.rd (gsiPg l) GSI_JOB)
  (hsealed : (theWin s g n).sealed = true) (hnew : ∀ m, (getRch s l).gsiWin = some m → m < n)
include hl hg hjob hsame hsealed hnew

theorem gsiUpdate_of_carrier {i : Nat} (hcarrier : ((List.range 8).filter (fun i => s.rd (gsiPg l) GSI_LINE_CFG_ROLE i != 0)).find?
      (fun i => s.rd (gsiPg l) GSI_LINE_CFG_ROLE i == 1) = some i) :
    exec (.gsiUpdate l slot n) s = .next (crossCheck (gsiUpdated s l n (theWin s g n)) l n g.k
      (((gsiRecord s l (theWin s g n) i).map (fun v => hotOf v 5)).getD 0 != 0)) := by
  simp only [exec_gsiUpdate, execGsiUpdate, hg, hcarrier]
  refine if_neg ?_
  cases hwin : (getRch s l).gsiWin with
  | none => simp [hl, hjob, hsame, hsealed]
  | some m => simp [hl, hjob, hsame, hsealed, hnew m hwin]

theorem gsiUpdate_of_no_carrier (hcarrier : ((List.range 8).filter (fun i => s.rd (gsiPg l) GSI_LINE_CFG_ROLE i != 0)).find?
      (fun i => s.rd (gsiPg l) GSI_LINE_CFG_ROLE i == 1) = none) :
    exec (.gsiUpdate l slot n) s = .next (gsiUpdated s l n (theWin s g n)) := by
  simp only [exec_gsiUpdate, execGsiUpdate, hg, hcarrier]
  refine if_neg ?_
  cases hwin : (getRch s l).gsiWin with
  | none => simp [hl, hjob, hsame, hsealed]
  | some m => simp [hl, hjob, hsame, hsealed, hnew m hwin]

end

end

/-- Settles O47: each edge and each wait by its branch; a page's update line by line, its CARRIER line checked after them. -/
theorem gatewayPages : Obligations.GatewayPages := by
  unfold Obligations.GatewayPages
  refine ⟨?rise, ?fall, ?timeout, ?pause, ?update, ?missing⟩
  case rise => exact fun s l hl hlevel hport => pseRise_of_low hl hlevel hport
  case fall =>
    intro s l hl hlevel
    exact ⟨if_pos (.inr hlevel), if_neg (by simp [hl, hlevel])⟩
  case timeout =>
    intro s l e t hl hp hfrozen
    have h := pauseTimeout_of_pause hp
    exact ⟨fun hdue => h.trans (if_neg (by simp [hl, hfrozen, hdue])), fun hearly => h.trans (if_pos (.inr (.inr hearly)))⟩
  case pause =>
    intro s l t _ hport hlink hpause
    have hr := getRch_pauseReach (t := t) hport hlink hpause
    exact ⟨by rw [hr], paused_pauseReach hlink hpause, by simp [maySend, hr]⟩
  case update =>
    intro s l slot n g hl hg hjob hsame hsealed hnew
    refine ⟨fun i hcarrier => (gsiUpdate_of_carrier hl hg hjob hsame hsealed hnew hcarrier).trans ?_,
      fun hcarrier => (gsiUpdate_of_no_carrier hl hg hjob hsame hsealed hnew hcarrier).trans ?_⟩ <;>
    · rw [gsiUpdated, gsiLineUpdate_eq]
      rfl
  case missing =>
    intro s l i _
    rw [lineMissing, rd_bump_lo (by decide), rd_wr_same]
    rfl

end Sys2Proof.Machine
end

section
/-!
PROOFS. The key store: INSTALL, ERASE, zeroize and the end of a PREVIOUS key (R417, R420, R421, R430 to R432).
-/
namespace Sys2Proof.Machine
open Reg Sys2Proof.Laws

section
variable {s : State} {d i js kind job epoch val lo n : Nat} {ag : Agent}

/-! ### The words of SEC_LOAD_CTRL -/

theorem installWord_op : bits (1 * 2 ^ 28) 31 28 = 1 := by decide

theorem eraseWord_fields (slot : BitVec 12) : bits (2 * 2 ^ 28 + slot.toNat) 31 28 = 2 ∧ bits (2 * 2 ^ 28 + slot.toNat) 11 0 = slot.toNat := by
  have h := slot.isLt
  simp only [bits]
  omega

theorem install_cabinet (hd : isXD d = true) : exec (.install d .cabinet) s =
    .next (installRecord (hbmFetch s (secAddr s d) 152).1 d .cabinet ((hbmFetch s (secAddr s d) 152).2.map (·.1))) := by
  refine (if_neg (not_not.mpr hd)).trans (congrArg Host.Outcome.next ?_)
  simp only [secLoadWrite, installWord_op]
  exact if_neg (not_not.mpr rfl)

theorem erase_cabinet (hd : isXD d = true) (slot : BitVec 12) : exec (.erase d .cabinet slot) s =
    .next (eraseKey s d .cabinet slot.toNat) := by
  obtain ⟨hop, hslot⟩ := eraseWord_fields slot
  refine (if_neg (not_not.mpr hd)).trans (congrArg Host.Outcome.next ?_)
  simp only [secLoadWrite, hop, hslot]
  exact if_neg (not_not.mpr rfl)

theorem zeroize_of_die {v : Word} (hd : isXD d = true) : exec (.zeroize d ag v) s = .next (zeroizeWrite s d ag v.toNat) :=
  if_neg (not_not.mpr hd)

/-! ### The places of the store (R417) -/

theorem freeKeySlot_spec (h : freeKeySlot s lo n = some i) : keyAt s i = none ∧ lo ≤ i ∧ i < lo + n := by
  obtain ⟨j, hj, rfl⟩ := List.mem_map.mp (List.mem_of_find?_eq_some h)
  have hlt := List.mem_range.mp hj
  exact ⟨Option.isNone_iff_eq_none.mp (List.find?_some (p := fun i => (keyAt s i).isNone) h), by omega, by omega⟩

theorem epochs_below (h : (s.hub.keys.filter (fun k => k.kind == kind && (kind != 1 || k.job == job))).any (fun k => decide (epoch ≤ k.epoch)) = false) :
    ∀ k ∈ s.hub.keys, k.kind = kind → (kind = 1 → k.job = job) → k.epoch < epoch := by
  intro k hk hkind hjob
  have hheld : k ∈ s.hub.keys.filter (fun k => k.kind == kind && (kind != 1 || k.job == job)) := by
    refine List.mem_filter.mpr ⟨hk, ?_⟩
    by_cases h1 : kind = 1
    · simp [hkind, hjob h1]
    · simp [hkind, h1]
  have hnot := List.any_eq_false.mp h k hheld
  simpa using hnot

theorem keyPlace_ok (h : keyPlace s kind job epoch = .ok (i, js)) :
    keyAt s i = none ∧ (∀ k ∈ s.hub.keys, k.kind = kind → (kind = 1 → k.job = job) → k.epoch < epoch) ∧
      (kind = 1 → js * 8 ≤ i ∧ i < js * 8 + 8) ∧ (kind ≠ 1 → 2048 ≤ i ∧ i < 2064) := by
  simp only [keyPlace] at h
  split at h
  · next hkind =>
    split at h
    · cases h
    · next js' hslot =>
      split at h
      · cases h
      · next i' hfree =>
        split at h
        · cases h
        · next hold =>
          obtain ⟨rfl, rfl⟩ := Prod.mk.inj (Except.ok.inj h)
          obtain ⟨hnone, hlo, hhi⟩ := freeKeySlot_spec hfree
          exact ⟨hnone, epochs_below (Bool.eq_false_iff.mpr hold), fun _ => ⟨hlo, hhi⟩, fun hne => absurd hkind hne⟩
  · next hkind =>
    split at h
    · cases h
    · next i' hfree =>
      split at h
      · cases h
      · next hold =>
        obtain ⟨rfl, rfl⟩ := Prod.mk.inj (Except.ok.inj h)
        obtain ⟨hnone, hlo, hhi⟩ := freeKeySlot_spec hfree
        exact ⟨hnone, epochs_below (Bool.eq_false_iff.mpr hold), fun h1 => absurd h1 hkind, fun _ => ⟨hlo, hhi⟩⟩

/-- The key that enters a free place is found there. -/
theorem keyAt_addKey (h : keyAt s i = none) : keyAt (addKey s i kind js job epoch val) i =
    some { slot := i, kind, jslot := js, job, epoch, val, state := KSt.NEXT, appt := none, until_ := 0 } := by
  simp only [keyAt, addKey, setHKeys] at h ⊢
  rw [List.find?_append, h]
  simp

end

/-- Settles O49: the operations by the fields of their words, the record's key by its kind and place, the discard by the end of the overlap. -/
theorem keyStoreOperations : Obligations.KeyStoreOperations := by
  unfold Obligations.KeyStoreOperations
  refine ⟨?operations, ?records, ?added, ?place, ?discard⟩
  case operations =>
    intro s d hd
    refine ⟨install_cabinet hd, fun slot h => ?_, fun slot h => ?_, ?_, fun v hv => ?_, fun ag hag => ⟨?_, fun slot => ?_, fun v => ?_⟩⟩
    · exact (erase_cabinet hd slot).trans (congrArg Host.Outcome.next (if_neg (Nat.not_lt.mpr h)))
    · exact (erase_cabinet hd slot).trans (congrArg Host.Outcome.next (if_pos h))
    · exact (zeroize_of_die hd).trans (congrArg Host.Outcome.next ((if_neg (not_not.mpr rfl)).trans (if_pos rfl)))
    · exact (zeroize_of_die hd).trans (congrArg Host.Outcome.next ((if_neg (not_not.mpr rfl)).trans
        (if_neg fun h => hv (BitVec.eq_of_toNat_eq h))))
    · exact (if_neg (not_not.mpr hd)).trans (congrArg Host.Outcome.next (if_pos hag))
    · exact (if_neg (not_not.mpr hd)).trans (congrArg Host.Outcome.next (if_pos hag))
    · exact (zeroize_of_die hd).trans (congrArg Host.Outcome.next (if_pos hag))
  case records =>
    intro s d r
    refine ⟨fun hid => if_pos hid, fun hid hlo hhi => ?_⟩
    refine (if_neg (not_not.mpr hid)).trans ((if_neg (by omega)).trans ?_)
    cases Config.unwrap r <;> rfl
  case added =>
    intro s i kind js job epoch val h
    exact ⟨_, keyAt_addKey h, rfl, rfl, rfl, rfl, rfl, by simp [addKey, setHKeys]⟩
  case place => exact fun s kind job epoch i js h => keyPlace_ok h
  case discard =>
    intro s slot k hk hprevious
    simp only [exec_keyDiscard, execKeyDiscard, hk]
    exact ⟨fun h => if_pos ⟨hprevious, h⟩, fun h => if_neg fun ⟨_, hover⟩ => Nat.not_lt.mpr hover h⟩

end Sys2Proof.Machine
end

section
/-!
PROOFS. The Bureau: firmware posts (R436), the store (R438), the lookups (R441).
-/
namespace Sys2Proof.Machine
open Reg Sys2Proof.Laws

/-! ### What leaves the stores (R433) -/

/-- Both stores are as they were. -/
def StoreFrame (s t : State) : Prop := ∀ p, burStore t p = burStore s p

section
variable {s t u : State} {p : Part} {e : BurEntry} {a n : Nat}

theorem StoreFrame.refl : StoreFrame s s := fun _ => rfl

theorem StoreFrame.trans (h : StoreFrame s t) (h' : StoreFrame t u) : StoreFrame s u := fun p => (h' p).trans (h p)

theorem StoreFrame.of_parts (htally : t.tally.burStore = s.tally.burStore) (hhub : t.hub.burStore = s.hub.burStore) : StoreFrame s t
  | .tally => htally
  | .hub => hhub

theorem PostFrame.store (h : PostFrame s t) : StoreFrame s t := by
  obtain ⟨-, -, -, -, -, htally, hhub⟩ := h
  exact .of_parts (by rw [htally]) (by rw [hhub])

theorem StoreFrame.wr {pg : Page} {f : Fld} {v i : Nat} : StoreFrame s (s.wr pg f v i) := .of_parts rfl rfl

theorem findErrors_store : StoreFrame s (findErrors s a n) := by
  have hcorr {l : List Nat} {s : State} : StoreFrame s (l.foldl granuleCorrected s) :=
    foldl_keeps (R := StoreFrame) (f := granuleCorrected) (fun _ => .refl) .trans (fun _ _ => .of_parts rfl rfl) l s
  have hunc {l : List Nat} {s : State} : StoreFrame s (l.foldl granulePoisoned s) :=
    foldl_keeps (R := StoreFrame) (f := granulePoisoned) (fun _ => .refl) .trans
      (fun _ _ => .trans (.of_parts rfl rfl) raise_frame.store) l s
  rw [findErrors_eq]
  exact hcorr.trans (hunc.trans (.of_parts rfl rfl))

theorem inject_store : StoreFrame s (inject s a n) := by
  unfold inject
  dsimp only
  split
  · split <;> exact .of_parts rfl rfl
  · exact .refl

theorem hbmWrite_store {bs : List Nat} : StoreFrame s (hbmWrite s a bs) := by
  unfold hbmWrite hbmWriteP
  dsimp only
  generalize hv : findErrors _ a _ = v
  have hfound : StoreFrame s v := by
    rw [← hv]
    exact .trans (.of_parts rfl rfl) findErrors_store
  exact hfound.trans (.trans (.of_parts rfl rfl) inject_store)

theorem spill_store : StoreFrame s (spill s e) := by
  unfold spill
  dsimp only
  split
  · exact .refl
  · exact hbmWrite_store

theorem burEvents_store : StoreFrame s (burEvents s e) :=
  foldl_keeps (R := StoreFrame) (f := fun s (x : Session) => s.send (.bureauEvent x.id e)) (fun _ => .refl) .trans (fun _ _ => .of_parts rfl rfl) _ s

theorem raise_store {pg : Page} {k : Nat} {i : EvInfo} : StoreFrame s (raise s pg k i) :=
  raise_frame.store

theorem burStore_setStore {l : List BurEntry} : burStore (setStore s p l) p = l := by
  cases p <;> rfl

theorem setLeapDone_store {b : Bool} : StoreFrame s (setLeapDone s p b) := fun q => by cases p <;> cases q <;> rfl

/-! ### The store (R438) -/

/-- The entry as it stands in the store: the next SEQ and its calendar fields. -/
def placed (s : State) (p : Part) (e : BurEntry) : BurEntry :=
  let c := calendar s p e.sec
  let d := c.2.2.2
  { e with seq := s.rd (storePage p) BUR_HEAD, prov := c.2.1, leap := c.2.2.1, utcOfs := ofSigned 8 c.1, year := d.1,
           month := d.2.1, day := d.2.2.1, hour := d.2.2.2.1, minute := d.2.2.2.2.1, second := d.2.2.2.2.2 }

/-- An entry of the Hub is copied to the spill ring and told to the sessions. -/
def storeCopies (u : State) (e : BurEntry) : Part → State
  | .tally => u
  | .hub => burEvents (spill u e) e

theorem storeCopies_store : StoreFrame u (storeCopies u e p) :=
  match p with
  | .tally => .refl
  | .hub => spill_store.trans burEvents_store

theorem place_eq : place s p e =
    let x := placed s p e
    let v := storeCopies (setStore (s.incr (storePage p) BUR_HEAD) p (burStore (s.incr (storePage p) BUR_HEAD) p ++ [x])) x p
    let w := if x.sev ≥ v.rd (storePage p) BUR_CFG then raise v (storePage p) Irq.BUR_HIGH else v
    if x.prov ∧ w.rd (storePage p) BUR_LEAP_CNT ≠ 0 ∧ x.sec ≥ leapExp w p ∧ leapDone w p = false then
      setLeapDone (raise w (storePage p) Irq.BUR_LEAP_EXPIRED) p true
    else w := by
  cases p <;> rfl

theorem burStore_place : burStore (place s p e) p = burStore s p ++ [placed s p e] := by
  have hentry : burStore (setStore (s.incr (storePage p) BUR_HEAD) p (burStore (s.incr (storePage p) BUR_HEAD) p ++ [placed s p e])) p =
      burStore s p ++ [placed s p e] := by
    rw [burStore_setStore]
    exact congrArg (· ++ [placed s p e]) (StoreFrame.wr p)
  refine Eq.trans ?_ hentry
  rw [place_eq]
  dsimp only
  generalize setStore _ p _ = u
  have hcopied : StoreFrame u (storeCopies u (placed s p e) p) := storeCopies_store
  generalize storeCopies u (placed s p e) p = v at hcopied ⊢
  have hhigh : StoreFrame u (if (placed s p e).sev ≥ v.rd (storePage p) BUR_CFG then raise v (storePage p) Irq.BUR_HIGH else v) := by
    split
    · exact hcopied.trans raise_store
    · exact hcopied
  generalize (if (placed s p e).sev ≥ v.rd (storePage p) BUR_CFG then raise v (storePage p) Irq.BUR_HIGH else v) = w at hhigh ⊢
  split
  · exact (hhigh.trans (raise_store.trans setLeapDone_store)) p
  · exact hhigh p

theorem bureauPost_of_next (h : nextPost s p = some (e, u)) : exec (.bureauPost p) s = .next (storePost u p e) := by
  simp only [exec_bureauPost, execBureauPost, h]

theorem storePost_of_room (hroom : (burStore u p).length < storeCap u.cfg p) : storePost u p e = place u p e := by
  simp only [storePost, if_pos hroom]

theorem storePost_displaces {v : BurEntry} (hfull : storeCap u.cfg p ≤ (burStore u p).length)
    (hv : (burStore u p).find? (fun v => v.sev ≤ e.sev) = some v) :
    storePost u p e = place (setStore (u.bump (storePage p) BUR_CNT_EVICTED v.sev) p ((burStore u p).erase v)) p e := by
  simp only [storePost, hv]
  exact if_neg (Nat.not_lt.mpr hfull)

theorem storePost_drops (hfull : storeCap u.cfg p ≤ (burStore u p).length) (hall : ∀ v ∈ burStore u p, e.sev < v.sev) :
    storePost u p e = raise (u.bump (storePage p) BUR_CNT_DROPPED e.sev) (storePage p) Irq.BUR_DROP := by
  have hnone : (burStore u p).find? (fun v => v.sev ≤ e.sev) = none := by
    rw [List.find?_eq_none]
    intro v hv
    simpa using hall v hv
  simp only [storePost, hnone]
  exact if_neg (Nat.not_lt.mpr hfull)

/-! ### Lookups (R441) -/

section
variable {ag : Agent} (hbusy : s.rd (storePage p) BUR_RD_STAT_BUSY ag.code = 1)
include hbusy

theorem bureauLookupDone_found (he : (burStore s p).find? (fun e => decide (s.rd (storePage p) BUR_RD_SEQ_HI ag.code * 2 ^ 32 +
      s.rd (storePage p) BUR_RD_SEQ_LO ag.code ≤ e.seq)) = some e) :
    exec (.bureauLookupDone p ag) s = .next (captureEntry ((s.wr (storePage p) BUR_RD_STAT_BUSY 0 ag.code).wr (storePage p)
      BUR_RD_STAT_FOUND 1 ag.code) (storePage p) ag e.bytes) := by
  have hstore : burStore (s.wr (storePage p) BUR_RD_STAT_BUSY 0 ag.code) p = burStore s p := StoreFrame.wr p
  simp only [exec_bureauLookupDone, execBureauLookupDone, if_pos hbusy, hstore, he]

theorem bureauLookupDone_not_found (h : ∀ e ∈ burStore s p, e.seq < s.rd (storePage p) BUR_RD_SEQ_HI ag.code * 2 ^ 32 +
      s.rd (storePage p) BUR_RD_SEQ_LO ag.code) :
    exec (.bureauLookupDone p ag) s = .next ((s.wr (storePage p) BUR_RD_STAT_BUSY 0 ag.code).wr (storePage p) BUR_RD_STAT_FOUND 0 ag.code) := by
  have hstore : burStore (s.wr (storePage p) BUR_RD_STAT_BUSY 0 ag.code) p = burStore s p := StoreFrame.wr p
  have hnone : (burStore s p).find? (fun e => decide (s.rd (storePage p) BUR_RD_SEQ_HI ag.code * 2 ^ 32 +
      s.rd (storePage p) BUR_RD_SEQ_LO ag.code ≤ e.seq)) = none := by
    rw [List.find?_eq_none]
    intro e he
    rw [decide_eq_true_eq, Nat.not_le]
    exact h e he
  simp only [exec_bureauLookupDone, execBureauLookupDone, if_pos hbusy, hstore, hnone]

end

end

/-- Settles O50: a post by its agent and severity, the store by its room and the entry it gives up, a lookup by what the store holds. -/
theorem bureauStoreAndLookups : Obligations.BureauStoreAndLookups := by
  unfold Obligations.BureauStoreAndLookups
  refine ⟨?posts, ?nothing, ?store, ?entry, ?lookup, ?lookupDone, ?noLookup⟩
  case posts =>
    intro s pg ag sev detail hblk
    refine ⟨fun hag hsev => (if_pos hblk).trans (congrArg Host.Outcome.next (if_pos ⟨hag, hsev⟩)),
      fun h => (if_pos hblk).trans (congrArg Host.Outcome.next (if_neg fun ⟨hag, hsev⟩ => ?_))⟩
    exact h.elim (fun hne => hne hag) (fun hle => Nat.not_lt.mpr hle hsev)
  case nothing =>
    intro s p h
    simp only [exec_bureauPost, execBureauPost, h]
  case store =>
    intro s u p e h
    refine ⟨fun hroom => ?_, fun hfull => ⟨fun hall => ?_, fun v hv => ?_⟩⟩ <;> rw [bureauPost_of_next h]
    · rw [storePost_of_room hroom]
    · rw [storePost_drops hfull hall]
    · rw [storePost_displaces hfull hv]
  case entry => exact fun s p e => ⟨placed s p e, burStore_place, rfl, rfl, rfl, rfl, rfl, rfl⟩
  case lookup => exact fun s p ag hi => rfl
  case lookupDone =>
    intro s p ag hbusy
    exact ⟨fun e he => bureauLookupDone_found hbusy he, bureauLookupDone_not_found hbusy⟩
  case noLookup => exact fun s p ag h => if_neg h

end Sys2Proof.Machine
end

section
/-!
PROOFS. The trace units: their states, comparators and lines (R449 to R452); a unit's freeze and its ends (R453).
-/
namespace Sys2Proof.Machine
open Reg Sys2Proof.Laws

/-! ### Causes once raised -/

section
variable {s : State} {pg pg' : Page} {n : Nat}

/-- A posted entry clears no cause. -/
theorem rd_post_irq {code sev : Nat} {fw host : Bool} {pl : List Nat} (h : s.rd pg (BLK_IRQ_STAT n) = 1) :
    (post s pg' code sev fw host pl).rd pg (BLK_IRQ_STAT n) = 1 := by
  have hcount : (s.incr (burPage pg') BUR_AOC 2).rd pg (BLK_IRQ_STAT n) = 1 := (rd_incr_off (show (0x010 : Nat) ≠ 0x0E0 by decide)).trans h
  unfold post
  split
  · exact hcount
  · next d p =>
    dsimp only
    split
    · by_cases hkey : (BLK_IRQ_STAT n).key pg 0 = (BLK_IRQ_STAT Irq.BUR_DROP).key (Pg.hBur d) 0
      · obtain ⟨hpg, -, -, hlo⟩ := RegKey.mk.inj hkey
        obtain rfl : n = Irq.BUR_DROP := hlo
        rw [hpg]
        rw [rd_wr_same]
        rfl
      · rw [rd_wr_other hkey, rd_bump_off (show (0x010 : Nat) ≠ 0x098 by decide)]
        exact hcount
    · exact hcount

theorem rd_raise_cause {e : EvInfo} : (raise s pg n e).rd pg (BLK_IRQ_STAT n) = 1 := by
  have hbit : (s.wr pg (BLK_IRQ_STAT n) 1).rd pg (BLK_IRQ_STAT n) = 1 := by
    rw [rd_wr_same]
    rfl
  rcases raise_eq_or_post with heq | ⟨-, sev, heq⟩ <;> rw [heq]
  · exact hbit
  · exact rd_post_irq hbit

end

/-! ### The states of a trace unit (R450) -/

section
variable {s : State} {pg : Page} {ag : Agent} {i : Nat}

theorem traceArm_of_trc (h : isTrc s pg = true) : exec (.traceArm pg ag) s = .next (trcArm s pg ag) := if_pos h

theorem traceStop_of_trc (h : isTrc s pg = true) : exec (.traceStop pg ag) s = .next (trcStopWrite s pg ag) := if_pos h

theorem traceClear_of_trc (h : isTrc s pg = true) : exec (.traceClear pg ag) s = .next (trcClear s pg ag) := if_pos h

/-- The unit with its pointers and its comparator record cleared, as ARM leaves them. -/
def trcCleared (s : State) (pg : Page) : State :=
  setTrc ((((s.wr pg TRC_WPTR 0).wr pg TRC_STAT_WRAPPED 0).wr pg TRC_STAT_TRIGGERED 0).wr pg TRC_STAT_TRIG_CMP 0) pg Trc.reset

theorem trcArm_of_checked (hidle : trcState s pg = TrcSt.IDLE) (hen : s.rd pg BLK_CTRL_EN ≠ 0)
    (hbuf : trcBytes s pg = 0 ∨ pg.isTally = true ∨ inRegion s.cfg .chest (trcBase s pg) (trcBytes s pg) = true)
    (hpost : s.rd pg TRC_POST * 1024 ≤ trcBytes s pg) (hsrc : ∀ i < 32, bit (s.rd pg TRC_SRC_LO) i = true → i < sourcesOf pg) :
    trcArm s pg ag = if trcHas (trcCleared s pg) pg 0 = true then (trcCleared s pg).wr pg TRC_STAT_STATE TrcSt.ARMED
      else trcRun (trcCleared s pg) pg := by
  have hany : (List.range 32).any (fun i => bit (s.rd pg TRC_SRC_LO) i && decide (i ≥ sourcesOf pg)) = false := by
    simp only [List.any_eq_false, Bool.and_eq_true, decide_eq_true_eq, ge_iff_le]
    rintro i hi ⟨hbit, hge⟩
    exact Nat.not_lt.mpr hge (hsrc i (List.mem_range.mp hi) hbit)
  have hregion : ¬ (¬ pg.isTally = true ∧ trcBytes s pg ≠ 0 ∧ ¬ inRegion s.cfg .chest (trcBase s pg) (trcBytes s pg) = true) := by
    rintro ⟨hhub, hsize, hout⟩
    exact hbuf.elim hsize (Or.elim · hhub hout)
  refine (if_neg (not_or.mpr ⟨not_not.mpr hidle, hen⟩)).trans ((if_neg hregion).trans ((if_neg (Nat.not_lt.mpr hpost)).trans ?_))
  exact if_neg (Bool.eq_false_iff.mp hany)

theorem trcRun_of_buffer (h : trcBytes s pg ≠ 0) : trcRun s pg = s.wr pg TRC_STAT_STATE TrcSt.RUN := by
  refine if_neg fun h0 => h (Eq.trans ?_ h0)
  rw [trcBytes, trcBytes, rd_wr_off (by decide)]

/-- A comparator that fires acts as its ACTION says. -/
theorem traceComparator_of_met {i : BitVec 3} (htrc : isTrc s pg = true) (hmet : trcMeets s pg i.toNat = true) :
    exec (.traceComparator pg i) s =
      if s.rd pg TRC_CMP_CFG_ACTION i.toNat = 0 then (if trcState s pg = TrcSt.ARMED then .next (trcRun s pg) else .next s)
      else if s.rd pg TRC_CMP_CFG_ACTION i.toNat = 1 then
        (if trcState s pg = TrcSt.RUN then .next (s.wr pg TRC_STAT_STATE TrcSt.ARMED) else .next s)
      else (if trcState s pg = TrcSt.RUN then .next (trcTrigger s pg i.toNat) else .next s) := by
  refine (if_neg (by simp [htrc, hmet])).trans ?_
  generalize s.rd pg TRC_CMP_CFG_ACTION i.toNat = a
  match a with
  | 0 => rfl
  | 1 => rfl
  | _ + 2 => rfl

theorem trcHold_shown : trcState (trcHold s pg) pg = TrcSt.HOLD ∧ (trcHold s pg).rd pg (BLK_IRQ_STAT Irq.TRC_HOLD) = 1 := by
  refine ⟨?_, rd_post_irq rd_raise_cause⟩
  rw [trcState, trcHold, traceEntry, rd_post (by decide) (by decide) (by decide)]
  refine (rd_raise (by decide) (by decide) (by decide)).trans ((rd_wr_same ..).trans ?_)
  rfl

theorem packLines_length {ps : List (List Nat)} {cur l : List Nat} (hps : ∀ p ∈ ps, p.length ≤ 64) (hcur : cur.length ≤ 64)
    (hl : l ∈ packLines ps cur) : l.length ≤ 64 := by
  induction ps generalizing cur with
  | nil =>
    rw [packLines] at hl
    split at hl
    · cases hl
    · rw [List.mem_singleton.mp hl]
      exact hcur
  | cons p ps ih =>
    have hrest : ∀ q ∈ ps, q.length ≤ 64 := fun q hq => hps q (List.mem_cons_of_mem p hq)
    rw [packLines] at hl
    split at hl
    · next hfits => exact ih hrest (by rw [List.length_append]; exact hfits) hl
    · rcases List.mem_cons.mp hl with rfl | hl
      · exact hcur
      · exact ih hrest (hps p List.mem_cons_self) hl

end

/-! ### The freeze of a unit (R453) -/

/-- The frozen bits of the FRZ pages read the same. -/
def FrozenKept (s t : State) : Prop := ∀ pg, t.rd pg FRZ_STAT_FROZEN = s.rd pg FRZ_STAT_FROZEN

section
variable {s t u : State} {frz : Page} {i n : Nat}

theorem FrozenKept.refl : FrozenKept s s := fun _ => rfl

theorem FrozenKept.trans (h : FrozenKept s t) (h' : FrozenKept t u) : FrozenKept s u := fun pg => (h' pg).trans (h pg)

theorem FrozenKept.of_regs (hregs : t.regs = s.regs) (hcfg : t.cfg = s.cfg) : FrozenKept s t := fun _ => rd_congr hregs hcfg _ _ _

theorem raise_frozen {pg : Page} {e : EvInfo} : FrozenKept s (raise s pg n e) := fun _ => rd_raise (by decide) (by decide) (by decide)

theorem syn_frozen {pg : Page} {code off detail : Nat} {ag : Agent} {st : Bool} : FrozenKept s (syn s pg code ag st off detail) :=
  fun _ => rd_syn (by decide) (by decide) (by decide) (by decide) (by decide)

theorem freezeEntry_frozen {detail sev : Nat} : FrozenKept s (freezeEntry s frz detail sev) :=
  fun _ => rd_post (by decide) (by decide) (by decide)

theorem queueRecord_frozen {snap : Bool} : FrozenKept s (queueRecord s i n snap) := by
  unfold queueRecord
  generalize windowRecord s i n snap = r
  generalize (if snap = true then 2 ^ 55 else 2 ^ 56) = bound
  dsimp only
  split
  · exact syn_frozen
  · split
    · refine .trans ?_ raise_frozen
      refine .trans ?_ syn_frozen
      exact .of_regs rfl rfl
    · exact .of_regs rfl rfl

theorem snapshots_frozen : FrozenKept s (snapshots s) :=
  foldl_keeps (R := FrozenKept) (fun _ => .refl) .trans (fun u i => by
    split
    · exact queueRecord_frozen
    · exact .refl) _ s

theorem rd_releaseUnit {auto : Bool} {detail sev : Nat} : (releaseUnit s frz auto detail sev).rd frz FRZ_STAT_FROZEN = 0 := by
  rw [releaseUnit, freezeEntry_frozen, rd_wr_lo (by decide), rd_wr_same]
  rfl

/-- The pages of a unit that stop at its freeze are marked one by one. -/
theorem foldl_freeze_frozen {l : List Page} :
    FrozenKept s (l.foldl (fun s pg => raise (s.wr pg BLK_STAT_FROZEN 1) pg Irq.FRZ) s) :=
  foldl_keeps (R := FrozenKept) (fun _ => .refl) .trans (fun _ _ => .trans (fun _ => rd_wr_off (by decide)) raise_frozen) l s

theorem rd_freezeUnit : (freezeUnit s frz).rd frz FRZ_STAT_FROZEN = 1 := by
  unfold freezeUnit
  dsimp only
  rw [freezeEntry_frozen]
  have hmarked : ∀ v : State, v.rd frz FRZ_STAT_FROZEN = 1 → (if frz.isTally = true then snapshots v else v).rd frz FRZ_STAT_FROZEN = 1 := by
    intro v hv
    split
    · exact (snapshots_frozen frz).trans hv
    · exact hv
  refine hmarked _ ((foldl_freeze_frozen frz).trans ?_)
  simp (disch := decide) only [rd_wr_off, rd_wr_lo, rd_bump_off, rd_wr_same]
  rfl

end

/-- Settles O51: each write and comparator by the unit's state, the ends of a freeze by its instant. -/
theorem traceUnitsAndFreezes : Obligations.TraceUnitsAndFreezes := by
  unfold Obligations.TraceUnitsAndFreezes
  refine ⟨⟨?states, ?comparators, ?packets, ?idle, ?hold, ?lines⟩, ?ends, ?running, ?released, ?frozen⟩
  case states =>
    intro s pg ag htrc
    rw [traceArm_of_trc htrc, traceStop_of_trc htrc, traceClear_of_trc htrc]
    refine ⟨fun hidle hen hbuf hpost hsrc => ?_, fun h => congrArg Host.Outcome.next (if_pos (.inl h)), fun h => congrArg Host.Outcome.next (if_pos h),
      fun h => congrArg Host.Outcome.next (if_neg ?_), fun h => congrArg Host.Outcome.next (if_pos h),
      fun h => congrArg Host.Outcome.next (if_neg h)⟩
    · rw [trcArm_of_checked hidle hen hbuf hpost hsrc]
      exact ⟨fun hhas => congrArg Host.Outcome.next (if_pos hhas),
        fun hhas hbytes => congrArg Host.Outcome.next ((if_neg (Bool.eq_false_iff.mp hhas)).trans (trcRun_of_buffer hbytes))⟩
    · rcases h with h | h <;> rw [h] <;> decide
  case comparators =>
    intro s pg i htrc hmet
    have h := traceComparator_of_met htrc hmet
    refine ⟨fun h0 harmed hbytes => ?_, fun h1 hrun => ?_, fun h2 hrun => ?_, fun htrig => if_pos htrig⟩
    · refine h.trans ((if_pos h0).trans ((if_pos harmed).trans (congrArg Host.Outcome.next (if_neg hbytes))))
    · exact h.trans ((if_neg (by rw [h1]; decide)).trans ((if_pos h1).trans (if_pos hrun)))
    · exact h.trans ((if_neg (by rw [h2]; decide)).trans ((if_neg (by rw [h2]; decide)).trans (if_pos hrun)))
  case packets =>
    intro s pg htrc hrun
    exact ⟨fun packets => if_neg (by simp [htrc, hrun]), fun lost syncs hlost => if_neg (by simp [htrc, hrun, hlost])⟩
  case idle => exact fun s pg h => ⟨fun packets => if_pos (.inr h), fun lost syncs => if_pos (.inr (.inl h))⟩
  case hold => exact fun s pg => trcHold_shown
  case lines => exact fun ps l hps hl => packLines_length (cur := []) hps (Nat.zero_le 64) hl
  case ends =>
    intro s pg hblk hfrozen
    refine ⟨fun htimed hdue => if_pos ⟨hblk, hfrozen, htimed, hdue⟩, fun h => if_neg ?_, fun hdue => if_pos ⟨hblk, hfrozen, hdue⟩,
      fun h => if_neg fun ⟨_, _, hdue⟩ => Nat.not_lt.mpr hdue h⟩
    rintro ⟨-, -, htimed, hdue⟩
    exact h.elim (fun hne => hne htimed) (Nat.not_lt.mpr hdue)
  case running =>
    intro s pg h
    have hnot : s.rd pg FRZ_STAT_FROZEN ≠ 1 := by rw [h]; decide
    exact ⟨if_neg fun ⟨_, hfrozen, _⟩ => hnot hfrozen, if_neg fun ⟨_, hfrozen, _⟩ => hnot hfrozen⟩
  case released => exact fun s pg auto detail sev => rd_releaseUnit
  case frozen => exact fun s pg => rd_freezeUnit

end Sys2Proof.Machine
end

section
/-!
PROOFS. The resets of a Hub and its boot without identity (R468, R469, R484); the cabinet chain, the two complexes and CAB_CTRL (R471, R473, R487);
the peer ports (R166).
-/
namespace Sys2Proof.Machine
open Reg Sys2Proof.Laws

/-! ### Resets and boot -/

section
variable {s : State} {k : RegKey} {b : BootIn} {d d' role phase fail : Nat}

theorem cell_packageReset : (packageReset s).cell k = (resetCells s (fun k => !k.pg.isTally && !packageKeeps k)).cell k :=
  rfl

theorem cell_powerOn : (powerOn s).cell k = (resetCells s (fun k => !k.pg.isTally)).cell k :=
  rfl

/-- What a complex shows after its state is set; the other complex's page is left. -/
theorem setState_shown (hrole : role < 4) (hfail : fail < 256) :
    cabRole (setState s d role phase fail) d = role ∧ (setState s d role phase fail).rd (Pg.cab d) CAB_STATE_FAIL = fail := by
  constructor
  · simp (disch := decide) only [cabRole, setState, rd_wr_lo, rd_wr_same]
    exact Nat.mod_eq_of_lt hrole
  · rw [setState, rd_wr_same]
    exact Nat.mod_eq_of_lt hfail

theorem rd_setState_other {pg : Page} {f : Fld} (h : pg ≠ Pg.cab d) : (setState s d role phase fail).rd pg f = s.rd pg f := by
  rw [setState, rd_wr_page h, rd_wr_page h, rd_wr_page h]

/-- The phases 0 to 3 before a complex is chosen: the boot counted, the journal empty, the identity shown on every engine. -/
def identityFailed (s : State) (b : BootIn) : State :=
  let s := { s with cfg := { s.cfg with qh40 := b.qh40 } }
  let c := s.hub.cabinet
  [56, 57, 58, 59, 60, 61, 62, 63].foldl (fun s d => s.wr (Pg.sec d) SEC_STAT_ID 2)
    (setCabinet s { c with boots := (c.boots + 1) % 2 ^ 16, nextId := 1, journal := [] })

theorem runBoot_without_identity (h0 : b.identity.getD 0 false = false) (h1 : b.identity.getD 1 false = false) :
    runBoot s b = setState (setState (identityFailed s b) 56 Role.SAFE 1 BFail.IDENTITY) 57 Role.SAFE 1 BFail.IDENTITY := by
  unfold runBoot
  simp only [h0, h1, if_true]
  rfl

theorem boots_setState : (setState s d role phase fail).hub.cabinet.boots = s.hub.cabinet.boots :=
  rfl

theorem boots_identityFailed : (identityFailed s b).hub.cabinet.boots = (s.hub.cabinet.boots + 1) % 2 ^ 16 :=
  rfl

end

/-- Settles O52: a register by the pages the reset clears, the rest by the reset's own record, the boot by its branch without identity. -/
theorem resetsOfTheHub : Obligations.ResetsOfTheHub := by
  unfold Obligations.ResetsOfTheHub
  refine ⟨fun s b => ⟨rfl, rfl⟩, ?cells, ?state, ?identity⟩
  case cells =>
    intro s k
    rw [cell_packageReset, cell_powerOn]
    refine ⟨fun hk => ⟨cell_resetCells_of_neg (by simp [hk]), cell_resetCells_of_neg (by simp [hk])⟩, fun hk =>
      ⟨cell_resetCells_of_pos (by simp [hk]), fun hkept => cell_resetCells_of_neg (by simp [hkept]),
        fun hkept => cell_resetCells_of_pos (by simp [hk, hkept])⟩⟩
  case state => exact fun s => ⟨rfl, rfl, rfl, rfl, rfl, rfl, rfl, rfl, rfl, rfl, rfl, rfl, rfl, rfl, rfl⟩
  case identity =>
    intro s b h0 h1
    rw [runBoot_without_identity h0 h1]
    obtain ⟨hrole, hfail⟩ := setState_shown (s := identityFailed s b) (d := 56) (phase := 1) (show Role.SAFE < 4 by decide)
      (show BFail.IDENTITY < 256 by decide)
    obtain ⟨hrole', hfail'⟩ := setState_shown (s := setState (identityFailed s b) 56 Role.SAFE 1 BFail.IDENTITY) (d := 57) (phase := 1)
      (show Role.SAFE < 4 by decide) (show BFail.IDENTITY < 256 by decide)
    exact ⟨(rd_setState_other (by decide)).trans hrole, hrole', (rd_setState_other (by decide)).trans hfail, hfail',
      by rw [boots_setState, boots_setState, boots_identityFailed]⟩

/-! ### The chain and the heartbeats (R471, R473) -/

section
variable {s : State} {d : Nat} {ag : Agent} {v : Word} {back : Bool}

theorem chainFrame_of_booted {index : BitVec 4} (h : s.hub.cabinet.boot = none) : exec (.chainFrame index 1) s =
    if s.flag (Pg.cab 56) CAB_STATE_INDEXED = true ∧ index.toNat + 1 ≠ s.rd (Pg.cab 56) CAB_STATE_HUB_INDEX then
      .next (raise s (absentPage s .hub) Irq.CAB_CHAIN { detail := index.toNat })
    else .next s := by
  simp only [exec_chainFrame, execChainFrame, h]
  exact if_neg (not_not.mpr rfl)

theorem hbMissed_of_late {t : Nat} (h : s.hub.cabinet.hbAt = some t) : 10 ≤ hbMissed s ↔ t + 10000001 ≤ s.now .hub := by
  simp only [hbMissed, h]
  omega

/-! ### The STANDBY complex takes over (R473, R474) -/

theorem complexIn_mem {role : Nat} (h : complexIn s role = some d) : d = 56 ∨ d = 57 := by
  simpa using List.mem_of_find?_eq_some h

/-- The state whose journal the new ACTIVE complex resumes. -/
def takenOver (s : State) (d : Nat) : State :=
  let s := setState (setState s d Role.ACTIVE 7 0) (113 - d) Role.STANDBY 3 0
  let s := setCabinet s { s.hub.cabinet with sessions := [], hbAt := some (s.now .hub) }
  raise (s.bump (Pg.cab d) CAB_PEER_TAKEOVERS) (Pg.cab d) Irq.CAB_TAKEOVER

theorem takeOver_of_standby (h : complexIn s Role.STANDBY = some d) : takeOver s true = resumeJournal (takenOver s d) := by
  simp only [takeOver, h]
  rfl

theorem rd_takenOver {pg : Page} {f : Fld} (h10 : f.off ≠ 0x010) (h98 : f.off ≠ 0x098) (hE0 : f.off ≠ 0x0E0) (h4C : f.off ≠ 0x04C) :
    (takenOver s d).rd pg f = (setState (setState s d Role.ACTIVE 7 0) (113 - d) Role.STANDBY 3 0).rd pg f := by
  rw [takenOver, rd_raise h10 h98 hE0, rd_bump_off h4C, rd_setCabinet]

theorem takenOver_shown (hd : d = 56 ∨ d = 57) : cabRole (takenOver s d) d = Role.ACTIVE ∧ cabRole (takenOver s d) (113 - d) = Role.STANDBY ∧
    (takenOver s d).hub.cabinet.sessions = [] ∧ (takenOver s d).rd (Pg.cab d) (BLK_IRQ_STAT Irq.CAB_TAKEOVER) = 1 := by
  have hother : Pg.cab d ≠ Pg.cab (113 - d) := by rcases hd with rfl | rfl <;> decide
  refine ⟨?_, ?_, ?_, rd_raise_cause⟩
  · rw [cabRole, rd_takenOver (by decide) (by decide) (by decide) (by decide), rd_setState_other hother]
    exact (setState_shown (show Role.ACTIVE < 4 by decide) (show 0 < 256 by decide)).1
  · rw [cabRole, rd_takenOver (by decide) (by decide) (by decide) (by decide)]
    exact (setState_shown (show Role.STANDBY < 4 by decide) (show 0 < 256 by decide)).1
  · obtain ⟨-, -, -, -, -, -, hhub⟩ := raise_frame (s := (setCabinet (setState (setState s d Role.ACTIVE 7 0) (113 - d) Role.STANDBY 3 0)
      { (setState (setState s d Role.ACTIVE 7 0) (113 - d) Role.STANDBY 3 0).hub.cabinet with
        sessions := [], hbAt := some ((setState (setState s d Role.ACTIVE 7 0) (113 - d) Role.STANDBY 3 0).now .hub) }).bump (Pg.cab d)
          CAB_PEER_TAKEOVERS) (pg := Pg.cab d) (n := Irq.CAB_TAKEOVER) (e := {})
    rw [takenOver, hhub]
    rfl

/-! ### CAB_CTRL (R486, R487) -/

theorem pageBlk_cab {c : Parts} (hd : d = 56 ∨ d = 57) : pageBlk c (Pg.cab d) = some .cab := by
  obtain ⟨lite, qh40, hubIndex⟩ := c
  rcases hd with rfl | rfl <;> cases qh40 <;> rfl

theorem pageBlk_no_cab {c : Parts} : pageBlk c (Pg.cab 58) = none := by
  obtain ⟨lite, qh40, hubIndex⟩ := c
  cases qh40 <;> rfl

theorem cabSwitchover_of_cab (hd : d = 56 ∨ d = 57) :
    exec (.cabSwitchover d ag v back) s = .next (cabCtrlWrite s d ag (putBit v.toNat 0 true) back none) :=
  if_pos (pageBlk_cab hd)

theorem resetPkg_of_cab {b : BootIn} (hd : d = 56 ∨ d = 57) :
    exec (.resetPkg d ag v b) s = .next (cabCtrlWrite s d ag (putBit v.toNat 1 true) false (some b)) :=
  if_pos (pageBlk_cab hd)

theorem cabCtrlWrite_refused {w code : Nat} {boot : Option BootIn} (h : cabCtrlRefusal s ag w = code) (hcode : code ≠ 0) :
    cabCtrlWrite s d ag w back boot = syn s (Pg.cab d) code ag false 0x064 := by
  simp only [cabCtrlWrite, h]
  exact if_pos hcode

theorem cabCtrlWrite_accepted {w : Nat} {boot : Option BootIn} (h : cabCtrlRefusal s ag w = 0) : cabCtrlWrite s d ag w back boot =
    if bit w 0 = true then takeOver s back else if bit w 1 = true then boot.elim (packageReset s) (runBoot (packageReset s)) else s := by
  simp only [cabCtrlWrite, h]
  cases boot <;> rfl

/-- A switchover with its code is refused where no complex is STANDBY. -/
theorem cabCtrlRefusal_switchover : cabCtrlRefusal s .cabinet 0x51530001 = if (complexIn s Role.STANDBY).isNone = true then Syn.STATE else 0 :=
  rfl

end

/-- Settles O53: each command by its branches; the two complexes are those of XD0 and XD1, whose pages differ. -/
theorem chainAndComplexes : Obligations.ChainAndComplexes := by
  unfold Obligations.ChainAndComplexes
  refine ⟨fun s index type h => if_pos h, ?booting, ?booted, ?enum, ?heartbeat, ?missed, ?none, ?standby, ?ctrl⟩
  case booting =>
    intro s index b d hb hd
    simp only [exec_chainFrame, execChainFrame, hb, hd]
    exact if_neg (not_not.mpr rfl)
  case booted =>
    intro s index h
    rw [chainFrame_of_booted h]
    exact ⟨fun hindexed hne => if_pos ⟨beq_iff_eq.mpr hindexed, hne⟩, fun heq => if_neg fun ⟨_, hne⟩ => hne heq⟩
  case enum =>
    intro s hindexed hdue
    refine if_pos ⟨beq_iff_eq.mpr hindexed, ?_⟩
    cases h : s.hub.cabinet.chainTx with
    | none => rfl
    | some t => exact decide_eq_true (hdue t h)
  case heartbeat =>
    intro s hactive hdue
    refine if_pos ⟨hactive, ?_⟩
    cases h : s.hub.cabinet.hbAt with
    | none => rfl
    | some t => exact decide_eq_true (hdue t h)
  case missed =>
    intro s back t h
    exact ⟨fun hlate => if_pos ((hbMissed_of_late h).mpr hlate),
      fun hearly => if_neg fun hmissed => by have := (hbMissed_of_late h).mp hmissed; omega⟩
  case none =>
    intro s back h
    simp only [takeOver, h]
  case standby => exact fun s d h => ⟨takenOver s d, takeOver_of_standby h, takenOver_shown (complexIn_mem h)⟩
  case ctrl =>
    intro s d v back b hd
    refine ⟨fun ag hag => ?_, fun hstandby => ?_, fun hnone => ?_, ?_, ?_, fun ag => if_neg ?_⟩
    · rw [cabSwitchover_of_cab hd, resetPkg_of_cab hd, cabCtrlWrite_refused (if_pos hag) (by decide), cabCtrlWrite_refused (if_pos hag) (by decide)]
      exact ⟨rfl, rfl⟩
    · have hok : cabCtrlRefusal s .cabinet 0x51530001 = 0 := by
        rw [cabCtrlRefusal_switchover, if_neg (by simp [Option.isSome_iff_ne_none.mp hstandby])]
      exact (cabSwitchover_of_cab hd).trans (congrArg Host.Outcome.next (cabCtrlWrite_accepted hok))
    · have hrefused : cabCtrlRefusal s .cabinet 0x51530001 = Syn.STATE := by
        rw [cabCtrlRefusal_switchover, hnone]
        rfl
      exact (cabSwitchover_of_cab hd).trans (congrArg Host.Outcome.next (cabCtrlWrite_refused hrefused (by decide)))
    · exact (cabSwitchover_of_cab hd).trans (congrArg Host.Outcome.next (cabCtrlWrite_refused (code := Syn.RANGE) rfl (by decide)))
    · exact (resetPkg_of_cab hd).trans (congrArg Host.Outcome.next (cabCtrlWrite_accepted rfl))
    · rw [pageBlk_no_cab]
      decide

/-! ### The peer ports (R166) -/

section
variable {s : State} {p : Nat} {x : PeerPort}

theorem peerHelloTx_of_port (hx : s.hub.peers[p]? = some x) (hsafe : hubSafe s = false) (hp : p ≠ ownIndex s)
    (hup : s.hub.aligned.getD (10 + p) false = true) (hdue : ∀ t, x.tx = some t → t + 1000000 ≤ s.now .hub) :
    exec (.peerHelloTx p) s = .next (sendOn (setPeer s p { x with tx := some (s.now .hub) }) (10 + p)
      (.peerHello p (s.rd (Pg.cab 56) CAB_BOARD_BOARD_ID) (ownIndex s))) := by
  simp only [exec_peerHelloTx, execPeerHelloTx, hx, hsafe, hup]
  refine if_neg ?_
  cases htx : x.tx with
  | none => simp [hp]
  | some t => simp [hp, hdue t htx]

theorem peerHello_of_port {board hub port : Nat} (hx : s.hub.peers[p]? = some x) (hsafe : hubSafe s = false) (htest : portTest s (10 + p) = false) :
    exec (.peerHello p board hub port) s = .next (peerHelloIn s p x board hub port) := by
  simp only [exec_peerHello, execPeerHello, hx, hsafe, htest]
  rfl

/-- A hello of another peer than the one expected. -/
theorem peerHelloIn_miswired {board hub port : Nat}
    (h : board ≠ s.rd (Pg.cab 56) CAB_BOARD_BOARD_ID ∨ hub ≠ p ∨ port ≠ ownIndex s) :
    peerHelloIn s p x board hub port =
      if x.st = 1 then peerLost (if x.st = 2 then setPeer s p { x with st := 2, rx := s.now .hub }
        else cabEntry (setPeer s p { x with st := 2, rx := s.now .hub }) 4 6 { unit := hub, detail := port }) p
      else if x.st = 2 then setPeer s p { x with st := 2, rx := s.now .hub }
      else cabEntry (setPeer s p { x with st := 2, rx := s.now .hub }) 4 6 { unit := hub, detail := port } :=
  if_neg fun ⟨hboard, hhub, hport, _⟩ => h.elim (· hboard) (Or.elim · (· hhub) (· hport))

theorem peerHelloLoss_of_port (hx : s.hub.peers[p]? = some x) : exec (.peerHelloLoss p) s =
    if x.st = 0 ∨ s.now .hub < x.rx + 4000000 then .next s
    else .next (if x.st = 1 then peerLost (setPeer s p { x with st := 0 }) p else setPeer s p { x with st := 0 }) := by
  simp only [exec_peerHelloLoss, execPeerHelloLoss, hx]

end

/-- Settles O54: a hello by the peer it names, what becomes of the port by the state it had. -/
theorem peerPortsFollowHellos : Obligations.PeerPortsFollowHellos := by
  unfold Obligations.PeerPortsFollowHellos
  refine ⟨?hellos, ?loss⟩
  case hellos =>
    intro s p x hx hsafe
    refine ⟨fun hp hup hdue => peerHelloTx_of_port hx hsafe hp hup hdue, fun htest hp => ⟨?_, fun board hub port hother => ?_⟩⟩
    · exact (peerHello_of_port hx hsafe htest).trans (congrArg Host.Outcome.next (if_pos ⟨rfl, rfl, rfl, hp⟩))
    · rw [peerHello_of_port hx hsafe htest, peerHelloIn_miswired hother]
      exact ⟨fun h => by simp [h], fun h => by simp [h], fun h => by simp [h]⟩
  case loss =>
    intro s p x hx
    rw [peerHelloLoss_of_port hx]
    exact ⟨fun hlate h => by simp [h, hlate], fun hlate h => by simp [h, hlate], fun hearly => if_pos (.inr hearly)⟩

end Sys2Proof.Machine
end

section
/-!
PROOFS. Electrical test: TST_MODE, generators and checkers (R497 to R500, R505), a UCIe module that loses a half (R501), lane alignment (R81).
-/
namespace Sys2Proof.Machine
open Reg Sys2Proof.Laws

/-! ### The sources of a Hub leave the test pages -/

/-- Registers of XD0's LCS page, causes and counters of Bureau entries. -/
def LcsFields (k : RegKey) : Prop := k.pg = Pg.xLcs ∨ k.off = 0x010 ∨ k.off = 0x098 ∨ k.off = 0x0E0

section
variable {s : State} {d port src : Nat}

theorem raise_lcsFields {pg : Page} {n : Nat} {e : EvInfo} : OnlyFields s (raise s pg n e) LcsFields :=
  raise_onlyFields.mono fun k hk => by
    rcases hk with ⟨-, hoff, -⟩ | ⟨-, hoff⟩
    · exact .inr (.inl hoff)
    · unfold LcsFields
      omega

theorem enterHoldover_lcsFields : OnlyFields s (enterHoldover s .hub) LcsFields := by
  unfold enterHoldover
  split
  · exact .trans (.wr (.of_regs rfl rfl) (.inl rfl)) raise_lcsFields
  · exact .trans (.wr (.of_regs rfl rfl) (.inl rfl)) raise_lcsFields
  · exact .refl

theorem selectSource_lcsFields : OnlyFields s (selectSource s src) LcsFields := by
  have hsource : OnlyFields s (s.wr Pg.xLcs LCS_STATUS_SOURCE src) LcsFields := OnlyFields.refl.wr (.inl rfl)
  unfold selectSource
  dsimp only
  split
  · exact .refl
  · split
    · exact hsource.trans enterHoldover_lcsFields
    · split
      · exact hsource
      · exact ((hsource.bump (.inl rfl)).trans (.of_regs rfl rfl)).trans raise_lcsFields

theorem trackerInvalid_lcsFields : OnlyFields s (trackerInvalid s src) LcsFields := by
  have htracker {t : Tracker} : OnlyFields s (setTracker s src t) LcsFields :=
    ((OnlyFields.of_regs rfl rfl).wr (.inl rfl)).wr (.inl rfl)
  unfold trackerInvalid
  dsimp only
  split
  · exact htracker.trans selectSource_lcsFields
  · exact htracker

theorem portTrackersOut_lcsFields : OnlyFields s (portTrackersOut s port) LcsFields := by
  unfold portTrackersOut
  refine foldl_keeps (R := fun s t => OnlyFields s t LcsFields) (fun _ => .refl) .trans (fun s src => ?_) [2, 3, 4] s
  split
  · exact trackerInvalid_lcsFields
  · exact .refl

/-! ### TST_MODE (R498, R501) -/

/-- A module runs in a width, retrained. -/
def noteWidth (w : Nat) (s : State) (e : Nat × Nat) : State :=
  let k := tstKey 2 e.2 0
  ((s.wr (Pg.tst e.1) TST_LINK_WIDTH w k).bump (Pg.tst e.1) TST_LINK_RETRAINS k).wr (Pg.tst e.1) TST_LINK_UP (b2n (w != 3)) k

theorem setWidth_eq {m w : Nat} : setWidth s d m w = if linkWidth s d m = w then s else (linkEnds s.cfg d m).foldl (noteWidth w) s :=
  rfl

theorem noteWidth_onlyFields {w : Nat} {e : Nat × Nat} : OnlyFields s (noteWidth w s e) (fun k => k.off = 0x05C) := by
  unfold noteWidth
  exact ((OnlyFields.refl.wr (p := fun k => k.off = 0x05C) rfl).bump rfl).wr rfl

/-- A change of width writes TST_LINK alone. -/
theorem setWidth_onlyFields {m w : Nat} : OnlyFields s (setWidth s d m w) (fun k => k.off = 0x05C) := by
  rw [setWidth_eq]
  split
  · exact .refl
  · exact foldl_keeps (R := fun s t => OnlyFields s t (fun k => k.off = 0x05C)) (fun _ => .refl) .trans
      (fun _ _ => noteWidth_onlyFields) _ s

/-- The fields of TST_MODE as an accepted write leaves them, before what follows from them. -/
def modeWritten (s : State) (d v : Nat) : State :=
  let k := unitKey (tstSel s d)
  ((s.wr (Pg.tst d) TST_MODE_LOOP (bits v 1 0) k).wr (Pg.tst d) TST_MODE_HALF (bits v 9 8) k).wr (Pg.tst d) TST_MODE_TEST (bits v 31 31) k

/-- What follows from an accepted write of TST_MODE writes no TST_MODE. -/
theorem rd_tstModeWrite {v k : Nat} {f : Fld} (hf : f.off = 0x044) (h : tstModeRefusal s d .cabinet v = 0) :
    (tstModeWrite s d .cabinet v).rd (Pg.tst d) f k = (modeWritten s d v).rd (Pg.tst d) f k := by
  have hpage : Pg.tst d ≠ Pg.xLcs := by simp [Pg.tst, Pg.xLcs]
  have hlcs : ¬ LcsFields (f.key (Pg.tst d) k) := by
    rintro (hpg | hoff)
    · exact hpage hpg
    · simp only [Fld.key, hf] at hoff
      omega
  have hport {u : State} {p : Nat} : (if bit v 31 = true then portTrackersOut u p else u).rd (Pg.tst d) f k = u.rd (Pg.tst d) f k := by
    split
    · exact portTrackersOut_lcsFields.rd_eq hlcs
    · rfl
  unfold tstModeWrite
  simp only [h]
  rw [if_neg (not_not.mpr rfl)]
  split
  · refine setWidth_onlyFields.rd_eq ?_
    simp only [Fld.key, hf]
    decide
  · rw [hport]
    split
    · exact rd_wr_page hpage
    · rfl

/-! ### Generators and checkers (R499, R500) -/

section
variable {ag : Agent} {kind index lane errs : Nat}

theorem inject_of_page (hd : pageBlk s.cfg (Pg.tst d) = some .tst) : exec (.inject d ag) s =
    if ag ≠ .cabinet then .next (syn s (Pg.tst d) Syn.AUTH ag false TST_GEN_PATTERN.off)
    else if ¬ tstHolds s.cfg d (tstSel s d) = true then .next (syn s (Pg.tst d) Syn.ABSENT ag false TST_GEN_PATTERN.off)
    else .next (tstInject s d) :=
  if_neg (not_not.mpr hd)

theorem clear_of_page (hd : pageBlk s.cfg (Pg.tst d) = some .tst) : exec (.clear d ag) s =
    if ag ≠ .cabinet then .next (syn s (Pg.tst d) Syn.AUTH ag false TST_CHK_PATTERN.off)
    else if ¬ tstHolds s.cfg d (tstSel s d) = true then .next (syn s (Pg.tst d) Syn.ABSENT ag false TST_CHK_PATTERN.off)
    else .next (tstClear s d) :=
  if_neg (not_not.mpr hd)

theorem tstModeWrite_of_agent {v : Nat} (h : ag ≠ .cabinet) :
    tstModeWrite s d ag v = syn s (Pg.tst d) Syn.AUTH ag false TST_MODE_LOOP.off := by
  have hrefused : tstModeRefusal s d ag v = Syn.AUTH := if_pos h
  simp only [tstModeWrite, hrefused]
  exact if_pos (by decide)

end

/-! ### A UCIe module on half its lanes (R501) -/

section
variable {m half w : Nat} {e : Nat × Nat} {l : List (Nat × Nat)}

/-- A half is noted as failed at each end of its link, with no test of the other half. -/
def noteHalf (half : Nat) (s : State) (e : Nat × Nat) : State :=
  { s.wr (Pg.tst e.1) TST_MODE_HALF 0 (tstKey 2 e.2 0) with
    hub := { s.hub with halfFails := if s.hub.halfFails.contains (e.1, e.2, half) then s.hub.halfFails else s.hub.halfFails ++ [(e.1, e.2, half)] } }

/-- The change of width is raised at an end. -/
def raiseWidth (w : Nat) (s : State) (e : Nat × Nat) : State :=
  raise s (Pg.tst e.1) Irq.TST_HALF_WIDTH { unit := e.1, detail := e.2 * 4 + w }

theorem halfFail_eq : halfFail s d m half =
    let u := (linkEnds s.cfg d m).foldl (noteHalf half) s
    let w := widthFor u d m 0
    let v := (linkEnds s.cfg d m).foldl (raiseWidth w) (setWidth u d m w)
    if w = 3 then moduleDown v d m else v :=
  rfl

theorem noteHalf_linkWidth {x : Nat × Nat} : linkWidth (noteHalf half s x) d m = linkWidth s d m :=
  rd_wr_off (by decide)

theorem foldl_noteHalf_kept : linkWidth (l.foldl (noteHalf half) s) d m = linkWidth s d m ∧
    (l.foldl (noteHalf half) s).cfg = s.cfg := by
  induction l generalizing s with
  | nil => exact ⟨rfl, rfl⟩
  | cons x l ih =>
    obtain ⟨hwidth, hcfg⟩ := ih (s := noteHalf half s x)
    exact ⟨hwidth.trans noteHalf_linkWidth, hcfg⟩

theorem noteHalf_failed {x : Nat × Nat} {n : Nat} : halfFailed (noteHalf half s x) d m n = true ↔
    halfFailed s d m n = true ∨ x = (d, m) ∧ n = half := by
  simp only [halfFailed, noteHalf, List.contains_eq_mem, decide_eq_true_eq]
  split
  · next h =>
    constructor
    · exact .inl
    · rintro (hmem | ⟨rfl, rfl⟩)
      · exact hmem
      · exact h
  · simp only [List.mem_append, List.mem_singleton, Prod.mk.injEq]
    constructor
    · rintro (hmem | ⟨hd, hm, hn⟩)
      · exact .inl hmem
      · exact .inr ⟨Prod.ext hd.symm hm.symm, hn⟩
    · rintro (hmem | ⟨rfl, rfl⟩)
      · exact .inl hmem
      · exact .inr ⟨rfl, rfl, rfl⟩

theorem foldl_noteHalf_failed {n : Nat} : halfFailed (l.foldl (noteHalf half) s) d m n = true ↔
    halfFailed s d m n = true ∨ (d, m) ∈ l ∧ n = half := by
  induction l generalizing s with
  | nil => simp
  | cons x l ih =>
    rw [List.foldl_cons, ih, noteHalf_failed, List.mem_cons]
    constructor
    · rintro ((h | ⟨rfl, rfl⟩) | ⟨hmem, rfl⟩)
      · exact .inl h
      · exact .inr ⟨.inl rfl, rfl⟩
      · exact .inr ⟨.inr hmem, rfl⟩
    · rintro (h | ⟨rfl | hmem, rfl⟩)
      · exact .inl (.inl h)
      · exact .inl (.inr ⟨rfl, rfl⟩)
      · exact .inr ⟨hmem, rfl⟩

theorem linkEnds_self (h : (across s.cfg d m).isSome = true) : (d, m) ∈ linkEnds s.cfg d m := by
  obtain ⟨e, he⟩ := Option.isSome_iff_exists.mp h
  simp only [linkEnds, he]
  exact List.mem_cons_self

/-- The width of a module whose one half failed: that of the other half. -/
theorem widthFor_of_half (hhalf : half ≤ 1) (hfailed : halfFailed s d m half = true) (hother : halfFailed s d m (1 - half) = false) :
    widthFor s d m 0 = 2 - half := by
  obtain rfl | rfl : half = 0 ∨ half = 1 := by omega
  · simp only [widthFor, hfailed, show halfFailed s d m 1 = false from hother]
    rfl
  · simp only [widthFor, hfailed, show halfFailed s d m 0 = false from hother]
    rfl

theorem noteWidth_linkWidth (hw : w < 4) {x : Nat × Nat} :
    linkWidth (noteWidth w s x) e.1 e.2 = if e = x then w else linkWidth s e.1 e.2 := by
  rw [linkWidth, noteWidth, rd_wr_lo (by decide), rd_bump_lo (by decide)]
  split
  · next h =>
    rw [h, rd_wr_same]
    exact Nat.mod_eq_of_lt hw
  · next h =>
    refine rd_wr_other fun hkey => h ?_
    obtain ⟨hpage, -, hbank, -⟩ := RegKey.mk.inj hkey
    simp only [Pg.tst, Page.hub.injEq, and_true] at hpage
    simp only [tstKey] at hbank
    exact Prod.ext hpage (by omega)

theorem foldl_noteWidth_linkWidth (hw : w < 4) (he : e ∈ l ∨ linkWidth s e.1 e.2 = w) :
    linkWidth (l.foldl (noteWidth w) s) e.1 e.2 = w := by
  induction l generalizing s with
  | nil => exact he.resolve_left (List.not_mem_nil)
  | cons x l ih =>
    refine ih ?_
    rw [noteWidth_linkWidth hw]
    split
    · exact .inr rfl
    · next hne =>
      rcases he with he | he
      · exact .inl ((List.mem_cons.mp he).resolve_left hne)
      · exact .inr he

theorem foldl_raiseWidth_linkWidth : linkWidth (l.foldl (raiseWidth w) s) d m = linkWidth s d m :=
  foldl_keeps (R := fun s t => linkWidth t d m = linkWidth s d m) (fun _ => rfl) (fun h h' => h'.trans h)
    (fun _ _ => rd_raise (by decide) (by decide) (by decide)) l s

/-- Raising a cause leaves another that is set. -/
theorem rd_raise_keeps_cause {pg pg' : Page} {n n' : Nat} {i : EvInfo} (h : s.rd pg (BLK_IRQ_STAT n) = 1) :
    (raise s pg' n' i).rd pg (BLK_IRQ_STAT n) = 1 := by
  have hbit : (s.wr pg' (BLK_IRQ_STAT n') 1).rd pg (BLK_IRQ_STAT n) = 1 := by
    by_cases hkey : (BLK_IRQ_STAT n).key pg 0 = (BLK_IRQ_STAT n').key pg' 0
    · obtain ⟨hpg, -, -, hlo⟩ := RegKey.mk.inj hkey
      obtain rfl : n = n' := hlo
      rw [hpg, rd_wr_same]
      rfl
    · exact (rd_wr_other hkey).trans h
  rcases raise_eq_or_post with heq | ⟨-, sev, heq⟩ <;> rw [heq]
  · exact hbit
  · exact rd_post_irq hbit

theorem foldl_raiseWidth_cause (he : e ∈ l ∨ s.rd (Pg.tst e.1) (BLK_IRQ_STAT Irq.TST_HALF_WIDTH) = 1) :
    (l.foldl (raiseWidth w) s).rd (Pg.tst e.1) (BLK_IRQ_STAT Irq.TST_HALF_WIDTH) = 1 := by
  induction l generalizing s with
  | nil => exact he.resolve_left (List.not_mem_nil)
  | cons x l ih =>
    refine ih ?_
    rcases he with he | he
    · rcases List.mem_cons.mp he with rfl | he
      · exact .inr rd_raise_cause
      · exact .inl he
    · exact .inr (rd_raise_keeps_cause he)

/-- A first half that fails leaves its module on the other, and says so at both ends. -/
theorem halfFail_shown (hlink : (across s.cfg d m).isSome = true) (hhalf : half ≤ 1) (hother : halfFailed s d m (1 - half) = false)
    (hfull : linkWidth s d m = 0) (he : e ∈ linkEnds s.cfg d m) : linkWidth (halfFail s d m half) e.1 e.2 = 2 - half ∧
      (halfFail s d m half).rd (Pg.tst e.1) (BLK_IRQ_STAT Irq.TST_HALF_WIDTH) = 1 := by
  rw [halfFail_eq]
  dsimp only
  generalize hu : (linkEnds s.cfg d m).foldl (noteHalf half) s = u
  obtain ⟨hkept, hcfg⟩ : linkWidth u d m = linkWidth s d m ∧ u.cfg = s.cfg := by
    rw [← hu]
    exact foldl_noteHalf_kept
  have hfailed : halfFailed u d m half = true := by
    rw [← hu]
    exact foldl_noteHalf_failed.mpr (.inr ⟨linkEnds_self hlink, rfl⟩)
  have hgood : halfFailed u d m (1 - half) = false := by
    rw [← hu, ← Bool.not_eq_true, foldl_noteHalf_failed, hother]
    rintro (h | ⟨-, h⟩)
    · cases h
    · omega
  have hwidth : widthFor u d m 0 = 2 - half := widthFor_of_half hhalf hfailed hgood
  have hchanged : setWidth u d m (2 - half) = (linkEnds s.cfg d m).foldl (noteWidth (2 - half)) u := by
    rw [setWidth_eq, if_neg (by rw [hkept, hfull]; omega), hcfg]
  rw [hwidth, if_neg (by omega), hchanged]
  refine ⟨foldl_raiseWidth_linkWidth.trans (foldl_noteWidth_linkWidth (by omega) (.inl he)), foldl_raiseWidth_cause (.inl he)⟩

end

/-! ### Lane alignment (R81) -/

/-- The port's alignment and its LINK_UP. -/
def linkNoted (s : State) (port : Nat) (up : Bool) : State :=
  { s with hub := { s.hub with aligned := s.hub.aligned.set port up } }.wr (Pg.tst (portDie port)) TST_LINK_UP (b2n up) (portKey port)

theorem laneAlignment_of_port {port deskew : Nat} {up : Bool} (h : port < 18) : exec (.laneAlignment port up deskew) s =
    if port ≥ 16 then .next ((linkNoted s port up).wr (Pg.cab (portDie port)) (if port = 16 then CAB_MGMT_MA_UP else CAB_MGMT_MB_UP) (b2n up))
    else if up = true then .next ((linkNoted s port up).wr Pg.xLcs (LCS_TSC_STAT_DESKEW port) deskew)
    else .next (linkNoted s port up) :=
  if_neg (Nat.not_le.mpr h)

end

/-- Settles O55: the commands of a TST page by agent and selection; the width of a module by a walk over the ends of its link. -/
theorem electricalTest : Obligations.ElectricalTest := by
  unfold Obligations.ElectricalTest
  refine ⟨?commands, ?mode, ?checkers, ?halves, ?alignment⟩
  case commands =>
    intro s d hd
    refine ⟨fun ag v hag => ⟨?_, ?_, ?_⟩, fun v => if_pos hd, fun hholds => ⟨fun h0 => ?_, fun hne => ?_, ?_⟩, fun hholds => ⟨?_, ?_⟩⟩
    · exact (if_pos hd).trans (congrArg Host.Outcome.next (tstModeWrite_of_agent hag))
    · exact (inject_of_page hd).trans (if_pos hag)
    · exact (clear_of_page hd).trans (if_pos hag)
    · exact (inject_of_page hd).trans ((if_neg (not_not.mpr rfl)).trans ((if_neg (not_not.mpr hholds)).trans
        (congrArg Host.Outcome.next (if_pos h0))))
    · exact (inject_of_page hd).trans ((if_neg (not_not.mpr rfl)).trans ((if_neg (not_not.mpr hholds)).trans
        (congrArg Host.Outcome.next (if_neg hne))))
    · exact (clear_of_page hd).trans ((if_neg (not_not.mpr rfl)).trans (if_neg (not_not.mpr hholds)))
    · exact (inject_of_page hd).trans ((if_neg (not_not.mpr rfl)).trans (if_pos (Bool.eq_false_iff.mp hholds)))
    · exact (clear_of_page hd).trans ((if_neg (not_not.mpr rfl)).trans (if_pos (Bool.eq_false_iff.mp hholds)))
  case mode =>
    intro s d v h
    dsimp only
    rw [rd_tstModeWrite rfl h, rd_tstModeWrite rfl h, rd_tstModeWrite rfl h, modeWritten]
    simp (disch := decide) only [rd_wr_lo, rd_wr_same]
    refine ⟨?_, ?_, ?_⟩ <;> exact Nat.mod_mod _ _
  case checkers =>
    intro s d kind index lane hholds
    refine ⟨fun hpattern hfree => if_neg ?_, fun errs hlocked => if_neg ?_, fun errs hfree => if_pos (.inr hfree)⟩
    · simp [hholds, hpattern, hfree]
    · simp [hholds, hlocked]
  case halves =>
    intro s d m half hlink hhalf hnew
    refine ⟨if_neg ?_, fun hother hfull e he => halfFail_shown hlink hhalf hother hfull he⟩
    obtain ⟨x, hx⟩ := Option.isSome_iff_exists.mp hlink
    simp [hx, hnew, hhalf]
  case alignment =>
    intro s port deskew up hport
    rw [laneAlignment_of_port hport]
    refine ⟨fun hlow hup => ?_, fun hlow hdown => ?_, ?_, ?_⟩
    · exact (if_neg (Nat.not_le.mpr hlow)).trans (if_pos hup)
    · exact (if_neg (Nat.not_le.mpr hlow)).trans (if_neg (Bool.eq_false_iff.mp hdown))
    · rintro rfl
      rfl
    · rintro rfl
      rfl

end Sys2Proof.Machine
end

section
/-!
PROOFS. Management sessions: what opens and closes them (R424, R469, R475), who is refused what in them (R426, R469, R477).
-/
namespace Sys2Proof.Machine
open Reg Sys2Proof.Laws

/-! ### Requests (R469, R477) -/

/-- The session's time of last use is renewed. -/
def used (s : State) (ses : Nat) : State := modSession s ses (fun x => { x with last := s.now .hub })

section
variable {s : State} {ses op req job : Nat} {opOnly : Bool} {x : Session} {f : State → Session → State} {g : State → Nat → State}

theorem request_without_session (h : findSession s ses = none) : request s ses op req opOnly f = .next s := by
  simp only [request, h]

theorem operation_without_session (h : findSession s ses = none) : operation s ses op req job g = .next s :=
  request_without_session h

/-- A session in SAFE is served HELLO, BOOT_STATUS and IMAGE_WRITE. -/
theorem request_of_anon (h : findSession s ses = some x) (hanon : x.anon = true) (hop : [0x01, 0x02, 0x70].contains op = false) :
    request s ses op req opOnly f = .next ((used s ses).send (.reply x.id op req Syn.AUTH .empty)) := by
  simp only [request, h, hanon, hop, deny, Bool.or_true]
  rfl

theorem jobRequest_of_anon (h : findSession s ses = some x) (hanon : x.anon = true) (hop : [0x01, 0x02, 0x70].contains op = false) :
    jobRequest s ses op req job f = .next ((used s ses).send (.reply x.id op req Syn.AUTH .empty)) :=
  request_of_anon h hanon hop

theorem operation_of_anon (h : findSession s ses = some x) (hanon : x.anon = true) (hop : [0x01, 0x02, 0x70].contains op = false) :
    operation s ses op req job g = .next ((used s ses).send (.reply x.id op req Syn.AUTH .empty)) :=
  request_of_anon h hanon hop

theorem deny_tenant {u : State} (hoper : x.operator = false) (hanon : x.anon = false) : deny u x op req =
    (setCabinet u { u.hub.cabinet with denied := u.hub.cabinet.denied + 1 }).send (.reply x.id op req Syn.AUTH .empty) := by
  simp only [deny, hoper, hanon]
  rfl

theorem request_of_named (h : findSession s ses = some x) (hanon : x.anon = false) : request s ses op req opOnly f =
    if (opOnly && !x.operator) = true then .next (deny (used s ses) x op req) else .next (f (used s ses) x) := by
  simp only [request, h, hanon]
  rfl

theorem request_operators_only (h : findSession s ses = some x) (hoper : x.operator = false) (hanon : x.anon = false) :
    request s ses op req true f = .next (deny (used s ses) x op req) :=
  (request_of_named h hanon).trans (if_pos (by rw [hoper]; rfl))

theorem operation_operators_only (h : findSession s ses = some x) (hoper : x.operator = false) (hanon : x.anon = false) :
    operation s ses op req job g = .next (deny (used s ses) x op req) :=
  request_operators_only h hoper hanon

theorem jobRequest_of_other (h : findSession s ses = some x) (hoper : x.operator = false) (hanon : x.anon = false)
    (hjob : x.jobs.contains job = false) : jobRequest s ses op req job f = .next (deny (used s ses) x op req) := by
  refine (request_of_named h hanon).trans (congrArg Host.Outcome.next (if_pos ?_))
  rw [hoper, hjob]
  rfl

theorem subscribe_of_named {journal : Bool} {bureau : Option Nat} (h : findSession s ses = some x) (hanon : x.anon = false) :
    exec (.subscribe ses req journal bureau) s = .next (
      if (bureau.isSome && !x.operator) = true then deny (used s ses) x 0x61 req
      else if bureau.any (fun t => decide (t > 7)) = true then replyTo (used s ses) ses 0x61 req Syn.RANGE .empty
      else replyTo (modSession (used s ses) ses (fun x => { x with journal, bureau })) ses 0x61 req 0 .empty) :=
  (exec_subscribe ..).trans (request_of_named h hanon)

end

/-! ### Handshakes (R424, R475) -/

section
variable {s : State} {port cert : Nat} {chains : Bool} {role : Option (List Nat)}

theorem sessionOpen_bad_settings : exec (.mgmtSessionOpen port false chains role cert) s = .next s :=
  if_pos (.inr (.inr (.inr rfl)))

section
variable (hport : port < 2) (hup : s.hub.aligned.getD (16 + port) false = true) (htest : portTest s (16 + port) = false)
include hport hup htest

theorem sessionOpen_of_port : exec (.mgmtSessionOpen port true chains role cert) s =
    if hubSafe s = true then
      (if s.rd (Pg.sec 56) SEC_STAT_ID = 1 ∧ sessionRoom s false = true then .next (addSession s port false true [] 0) else .next s)
    else if (complexIn s Role.ACTIVE).isNone = true ∨ chains = false then .next s
    else .next (role.elim (if sessionRoom s true = true then addSession s port true false [] cert else s)
      (fun jobs => if (decide (jobs.length ≤ 16) && sessionRoom s false) = true then addSession s port false false jobs cert else s)) := by
  refine (if_neg ?_).trans ?_
  · rw [hup, htest]
    simp [hport]
  · cases role <;> rfl

/-- A handshake whose chain is good on a Hub that serves. -/
theorem sessionOpen_of_active (hsafe : hubSafe s = false) (hactive : (complexIn s Role.ACTIVE).isSome = true) :
    exec (.mgmtSessionOpen port true true role cert) s = .next (role.elim
      (if sessionRoom s true = true then addSession s port true false [] cert else s)
      (fun jobs => if (decide (jobs.length ≤ 16) && sessionRoom s false) = true then addSession s port false false jobs cert else s)) := by
  refine (sessionOpen_of_port hport hup htest).trans ((if_neg (Bool.eq_false_iff.mp hsafe)).trans (if_neg ?_))
  simp [Option.isSome_iff_ne_none.mp hactive]

end

theorem sessionRoom_operator : sessionRoom s true = true ↔ (s.hub.cabinet.sessions.filter (fun x => x.operator)).length < 8 := by
  simp [sessionRoom]

theorem sessionRoom_tenant : sessionRoom s false = true ↔ (s.hub.cabinet.sessions.filter (fun x => !x.operator)).length < 56 := by
  simp [sessionRoom]

end

/-- Settles O56: a handshake by its branches, each refusal by the one rule its kind of request has. -/
theorem managementSessions : Obligations.ManagementSessions := by
  unfold Obligations.ManagementSessions
  refine ⟨?opening, fun s => ⟨sessionRoom_operator, sessionRoom_tenant⟩, ?idle, ?noSession, ?refusals⟩
  case opening =>
    intro s port cert hport hup htest
    refine ⟨fun hsafe hactive => ⟨fun hroom => ?_, fun hfull => ?_, fun jobs hjobs => ⟨fun hroom => ?_, fun hfull => ?_⟩, fun role => ?_⟩,
      fun hsafe hid hroom chains role => ?_, fun chains role => sessionOpen_bad_settings⟩
    · exact (sessionOpen_of_active hport hup htest hsafe hactive).trans (congrArg Host.Outcome.next (if_pos hroom))
    · exact (sessionOpen_of_active hport hup htest hsafe hactive).trans (congrArg Host.Outcome.next (if_neg (Bool.eq_false_iff.mp hfull)))
    · exact (sessionOpen_of_active hport hup htest hsafe hactive).trans (congrArg Host.Outcome.next (if_pos (by simp [hjobs, hroom])))
    · exact (sessionOpen_of_active hport hup htest hsafe hactive).trans (congrArg Host.Outcome.next (if_neg (by simp [hfull])))
    · exact (sessionOpen_of_port hport hup htest).trans ((if_neg (Bool.eq_false_iff.mp hsafe)).trans (if_pos (.inr rfl)))
    · exact (sessionOpen_of_port hport hup htest).trans ((if_pos hsafe).trans (if_pos ⟨hid, hroom⟩))
  case idle =>
    intro s ses x h
    simp only [exec_sessionIdle, execSessionIdle, h]
    exact ⟨fun hidle => if_pos hidle, fun hrecent => if_neg (Nat.not_le.mpr hrecent)⟩
  case noSession =>
    intro s ses h
    refine ⟨?_, fun req => (exec_hello ..).trans (request_without_session h), fun req job appt => (exec_jobDelete ..).trans (operation_without_session h)⟩
    simp only [exec_sessionIdle, execSessionIdle, h]
  case refusals =>
    intro s ses req x h hoper
    refine ⟨fun hanon => ?_, fun hanon => ?_⟩
    · have hdeny (op : Nat) := deny_tenant (u := used s ses) (op := op) (req := req) hoper hanon
      refine ⟨fun a unit count => ?_, fun from_ => ?_, fun job appt => ?_, fun tile => ?_, fun journal t => ?_, fun job lo hi hjob => ⟨?_, ?_, ?_⟩⟩
      · exact (exec_regRead ..).trans ((request_operators_only h hoper hanon).trans (congrArg Host.Outcome.next (hdeny _)))
      · exact (exec_bureauRead ..).trans ((request_operators_only h hoper hanon).trans (congrArg Host.Outcome.next (hdeny _)))
      · exact (exec_jobDelete ..).trans ((operation_operators_only h hoper hanon).trans (congrArg Host.Outcome.next (hdeny _)))
      · exact (exec_retire ..).trans ((operation_operators_only h hoper hanon).trans (congrArg Host.Outcome.next (hdeny _)))
      · exact (subscribe_of_named h hanon).trans (congrArg Host.Outcome.next ((if_pos (by rw [hoper]; rfl)).trans (hdeny _)))
      · exact (exec_verdictsGet ..).trans ((jobRequest_of_other h hoper hanon hjob).trans (congrArg Host.Outcome.next (hdeny _)))
      · exact (exec_summaryGet ..).trans ((jobRequest_of_other h hoper hanon hjob).trans (congrArg Host.Outcome.next (hdeny _)))
      · exact (exec_energyGet ..).trans ((jobRequest_of_other h hoper hanon hjob).trans (congrArg Host.Outcome.next (hdeny _)))
    · exact ⟨fun a unit count => (exec_regRead ..).trans (request_of_anon h hanon rfl),
        fun journal bureau => (exec_subscribe ..).trans (request_of_anon h hanon rfl),
        fun job lo hi => (exec_verdictsGet ..).trans (jobRequest_of_anon h hanon rfl),
        fun tile => (exec_retire ..).trans (operation_of_anon h hanon rfl)⟩

end Sys2Proof.Machine
end

section
/-!
PROOFS. The management operations that make no journal entry and the SPDM requests, of an operator's session (R424 to R427, R442, R476, R477).
-/
namespace Sys2Proof.Machine
open Reg Sys2Proof.Laws

theorem seesEntry_of_operator {x : Session} {e : JEntry} (hoper : x.operator = true) : seesEntry x e = true := by
  rw [seesEntry, hoper, Bool.true_or]

section
variable {s : State} {ses op req job : Nat} {opOnly : Bool} {x : Session} {f : State → Session → State} {h : State → State × MBody}
  (hx : findSession s ses = some x) (hoper : x.operator = true) (hanon : x.anon = false)
include hx hoper hanon

/-! ### The three kinds of request -/

theorem request_of_operator : request s ses op req opOnly f = .next (f (used s ses) x) :=
  (request_of_named hx hanon).trans (if_neg (by simp [hoper]))

theorem jobRequest_of_operator (hne : job ≠ 0) : jobRequest s ses op req job f = .next (f (used s ses) x) :=
  (request_of_operator hx hoper hanon).trans (congrArg Host.Outcome.next ((if_neg (by simp [hoper])).trans (if_neg hne)))

theorem spdm_of_operator : spdm s ses req opOnly h = .next ((h (used s ses)).1.send (.reply ses 0 req 0 (h (used s ses)).2)) :=
  request_of_operator hx hoper hanon

/-! ### Registers, the journal, a job's views -/

theorem regRead_of_hub {a : RegAddr} {unit count d p : Nat} (hcount : count ≤ 256) (ha : addrPage a = .hub d p) :
    exec (.regRead ses req a unit count) s = .next ((readHubWords (.hub d p) (addrOff a) count (used s ses)).1.send (.reply ses 0x10 req
      (readHubWords (.hub d p) (addrOff a) count (used s ses)).2.1 (.words (readHubWords (.hub d p) (addrOff a) count (used s ses)).2.2))) := by
  refine (exec_regRead ..).trans ((request_of_operator hx hoper hanon).trans (congrArg Host.Outcome.next ?_))
  simp only [ha, gt_iff_lt, Nat.not_lt.mpr hcount, if_false]
  rfl

theorem regRead_of_tally {a : RegAddr} {unit count p : Nat} (hcount : count ≤ 256) (ha : addrPage a = .tally p)
    (hdown : canCommand (used s ses) = false) :
    exec (.regRead ses req a unit count) s = .next ((used s ses).send (.reply ses 0x10 req Syn.STATE .empty)) := by
  refine (exec_regRead ..).trans ((request_of_operator hx hoper hanon).trans (congrArg Host.Outcome.next ?_))
  simp only [ha, gt_iff_lt, Nat.not_lt.mpr hcount, if_false]
  simp only [readUnit, hdown]
  rfl

theorem journalGet_found {id reqId : Nat} {e : JEntry} (he : jentry (used s ses) id = some e) :
    exec (.journalGet ses req (some id) reqId) s = .next ((used s ses).send (.reply ses 0x40 req 0 (.entry e))) := by
  refine (exec_journalGet ..).trans ((request_of_operator hx hoper hanon).trans (congrArg Host.Outcome.next ?_))
  simp only [he]
  exact if_pos (seesEntry_of_operator hoper)

theorem journalGet_absent {id reqId : Nat} (he : jentry (used s ses) id = none) :
    exec (.journalGet ses req (some id) reqId) s = .next ((used s ses).send (.reply ses 0x40 req Syn.ABSENT .empty)) := by
  refine (exec_journalGet ..).trans ((request_of_operator hx hoper hanon).trans (congrArg Host.Outcome.next ?_))
  simp only [he]
  rfl

theorem journalList_of_operator {st from_ count : Nat} (hcount : count ≤ 1024) (hst : st ≤ 4) :
    exec (.journalList ses req st from_ count) s = .next ((used s ses).send (.reply ses 0x41 req 0
      (.entries (((used s ses).hub.cabinet.journal.reverse.filter (fun e => e.st == st && decide (e.id ≥ from_))).take count)))) := by
  refine (exec_journalList ..).trans ((request_of_operator hx hoper hanon).trans (congrArg Host.Outcome.next ?_))
  simp only [gt_iff_lt, Nat.not_lt.mpr hcount, Nat.not_lt.mpr hst, if_false, seesEntry_of_operator hoper, Bool.and_true]
  rfl

theorem verdictsGet_of_job {lo hi : Nat} {j : HJob} (hne : job ≠ 0) (hj : hjob (used s ses) job = some j) :
    exec (.verdictsGet ses req job lo hi) s = .next ((used s ses).send (.reply ses 0x50 req 0
      (.verdicts (j.ring.filter (fun r => decide (lo ≤ r.win) && decide (r.win ≤ hi))).reverse))) := by
  refine (exec_verdictsGet ..).trans ((jobRequest_of_operator hx hoper hanon hne).trans (congrArg Host.Outcome.next ?_))
  simp only [hj, hoper]
  rfl

theorem summaryGet_of_job {lo hi : Nat} {j : HJob} (hne : job ≠ 0) (hj : hjob (used s ses) job = some j) :
    exec (.summaryGet ses req job lo hi) s = .next ((used s ses).send (.reply ses 0x51 req 0 (.summaries (t1Summaries (used s ses) job lo hi)))) := by
  refine (exec_summaryGet ..).trans ((jobRequest_of_operator hx hoper hanon hne).trans (congrArg Host.Outcome.next ?_))
  simp only [hj, hoper]
  rfl

theorem energyGet_of_interval {lo hi a b : Nat} (hne : job ≠ 0) (hlo : lo % 100000000 = 0) (hhi : hi % 100000000 = 0) (hlt : lo < hi)
    (ha : energyAt (used s ses) job lo = some a) (hb : energyAt (used s ses) job hi = some b) :
    exec (.energyGet ses req job lo hi) s = .next ((used s ses).send (.reply ses 0x52 req 0 (.power (powerOf (b - a) (hi - lo))))) := by
  refine (exec_energyGet ..).trans ((jobRequest_of_operator hx hoper hanon hne).trans (congrArg Host.Outcome.next ?_))
  simp only [ha, hb]
  exact if_neg (by omega)

theorem energyGet_refused {lo hi : Nat} (hne : job ≠ 0) (h : lo % 100000000 ≠ 0 ∨ hi % 100000000 ≠ 0 ∨ hi ≤ lo) :
    exec (.energyGet ses req job lo hi) s = .next ((used s ses).send (.reply ses 0x52 req Syn.RANGE .empty)) :=
  (exec_energyGet ..).trans ((jobRequest_of_operator hx hoper hanon hne).trans (congrArg Host.Outcome.next (if_pos h)))

theorem subscribe_of_operator {journal : Bool} {bureau : Option Nat} (hb : ∀ t, bureau = some t → t ≤ 7) :
    exec (.subscribe ses req journal bureau) s =
      .next ((modSession (used s ses) ses (fun x => { x with journal, bureau })).send (.reply ses 0x61 req 0 .empty)) := by
  refine (subscribe_of_named hx hanon).trans (congrArg Host.Outcome.next ((if_neg (by simp [hoper])).trans (if_neg ?_)))
  cases bureau with
  | none => exact Bool.false_ne_true
  | some t => simpa using hb t rfl

/-! ### SPDM (R425) -/

theorem getCertificate_held {slot c : Nat} (hc : certOf (used s ses) slot = some c) :
    exec (.getCertificate ses req slot) s = .next ((used s ses).send (.reply ses 0 req 0 (.certificate slot c))) := by
  refine (exec_getCertificate ..).trans ((spdm_of_operator hx hoper hanon).trans ?_)
  simp only [hc]

theorem challenge_held {slot c nonce : Nat} (hc : certOf (used s ses) slot = some c) (hid : (used s ses).rd (Pg.sec 56) SEC_STAT_ID = 1) :
    exec (.challenge ses req slot nonce) s = .next ((used s ses).send (.reply ses 0 req 0 (.challenge slot nonce))) := by
  refine (exec_challenge ..).trans ((spdm_of_operator hx hoper hanon).trans ?_)
  simp only [hc, if_pos hid]

theorem certificate_not_held {slot nonce : Nat} (hc : certOf (used s ses) slot = none) :
    exec (.getCertificate ses req slot) s = .next ((used s ses).send (.reply ses 0 req 0 .invalidRequest)) ∧
      exec (.challenge ses req slot nonce) s = .next ((used s ses).send (.reply ses 0 req 0 .invalidRequest)) := by
  refine ⟨(exec_getCertificate ..).trans ((spdm_of_operator hx hoper hanon).trans ?_),
    (exec_challenge ..).trans ((spdm_of_operator hx hoper hanon).trans ?_)⟩ <;>
    simp only [hc]

theorem getMeasurements_of_index {index : Nat} (hlo : 1 ≤ index) (hhi : index ≤ 5) : exec (.getMeasurements ses req index) s =
    .next ((used s ses).send (.reply ses 0 req 0 (.measurements [index] ((used s ses).hub.cabinet.cabImg[(used s ses).hub.cabinet.bootCopy % 2]?)
      (used s ses).hub.cabinet.config (used s ses).hub.retired (loadedModels (used s ses))))) := by
  refine (exec_getMeasurements ..).trans ((spdm_of_operator hx hoper hanon).trans ?_)
  have hone : index ≠ 0xFF := by omega
  simp only [spdmMeasure, if_neg hone, if_pos (And.intro hlo hhi)]
  rfl

theorem setCertificate_of_operator {slot cert : Nat} : exec (.setCertificate ses req slot cert) s =
    if slot = 1 ∧ (used s ses).hub.cabinet.tlsKey = true then
      .next ((setCabinet (used s ses) { (used s ses).hub.cabinet with slot1 := some cert }).send (.reply ses 0 req 0 .certificateSet))
    else .next ((used s ses).send (.reply ses 0 req 0 .invalidRequest)) := by
  refine (exec_setCertificate ..).trans ((spdm_of_operator hx hoper hanon).trans ?_)
  dsimp only
  split <;> rfl

end

/-! ### Power (R427) -/

theorem powerOf_tens {nj d : Nat} : powerOf nj d % 10 = 0 :=
  Nat.mul_mod_left _ _

theorem powerOf_mul_le {nj d : Nat} : powerOf nj d * d ≤ nj := by
  rw [powerOf, Nat.mul_assoc]
  exact Nat.div_mul_le_self nj (10 * d)

/-- Settles O57: each operation by the rule of its kind of request, applied to what it does with the state and the session. -/
theorem managementReadsAndSpdm : Obligations.ManagementReadsAndSpdm := by
  unfold Obligations.ManagementReadsAndSpdm
  refine ⟨?requests, fun nj d => ⟨powerOf_tens, fun _ => powerOf_mul_le⟩⟩
  case requests =>
    intro s ses req x hx hoper hanon
    have hreq {op : Nat} {opOnly : Bool} (f : State → Session → State) :
        request s ses op req opOnly f = .next (f (used s ses) x) := request_of_operator hx hoper hanon
    have hspdm {opOnly : Bool} (h : State → State × MBody) :
        spdm s ses req opOnly h = .next ((h (used s ses)).1.send (.reply ses 0 req 0 (h (used s ses)).2)) := spdm_of_operator hx hoper hanon
    refine ⟨(exec_hello ..).trans (hreq _), (exec_bootStatus ..).trans (hreq _), ?size, ?hub, ?tally, ?found, ?absent, ?list, ?views, ?energy,
      ?refused, fun from_ => (exec_bureauRead ..).trans (hreq _), ?subscribe, (exec_getVersion ..).trans (hspdm _),
      (exec_getCapabilities ..).trans (hspdm _), fun offered => (exec_negotiateAlgorithms ..).trans (hspdm _),
      (exec_getDigests ..).trans (hspdm _), ?certificate, ?noCertificate, ?measurements, (exec_getCsr ..).trans (hspdm _), ?setCertificate⟩
    case size =>
      intro a unit count hcount
      exact (exec_regRead ..).trans ((hreq _).trans (congrArg Host.Outcome.next (if_pos hcount)))
    case hub => exact fun a unit count d p hcount ha => regRead_of_hub hx hoper hanon hcount ha
    case tally => exact fun a unit count p hcount ha hdown => regRead_of_tally hx hoper hanon hcount ha hdown
    case found => exact fun id e reqId he => journalGet_found hx hoper hanon he
    case absent => exact fun id reqId he => journalGet_absent hx hoper hanon he
    case list => exact fun st from_ count hcount hst => journalList_of_operator hx hoper hanon hcount hst
    case views =>
      exact fun job j lo hi hne hj => ⟨verdictsGet_of_job hx hoper hanon hne hj, summaryGet_of_job hx hoper hanon hne hj⟩
    case energy =>
      exact fun job lo hi a b hne hlo hhi hlt ha hb => energyGet_of_interval hx hoper hanon hne hlo hhi hlt ha hb
    case refused => exact fun job lo hi hne h => energyGet_refused hx hoper hanon hne h
    case subscribe => exact fun journal bureau hb => subscribe_of_operator hx hoper hanon hb
    case certificate =>
      exact fun slot c hc => ⟨getCertificate_held hx hoper hanon hc, fun hid nonce => challenge_held hx hoper hanon hc hid⟩
    case noCertificate => exact fun slot nonce hc => certificate_not_held hx hoper hanon hc
    case measurements => exact fun index hlo hhi => getMeasurements_of_index hx hoper hanon hlo hhi
    case setCertificate =>
      intro slot cert
      have h := setCertificate_of_operator (req := req) (slot := slot) (cert := cert) hx hoper hanon
      exact ⟨fun hslot hkey => h.trans (if_pos ⟨hslot, hkey⟩),
        fun hno => h.trans (if_neg fun ⟨hslot, hkey⟩ => hno.elim (· hslot) fun hnokey => Bool.false_ne_true (hnokey.symm.trans hkey))⟩

end Sys2Proof.Machine
end

section
/-!
PROOFS. The command journal: the entry of an accepted operation, its ends (R478, R480, R481, R483), the commit point (R47), the commands without
an answer (R482, R508).
-/
namespace Sys2Proof.Machine
open Reg Sys2Proof.Laws

/-! ### Entries -/

section
variable {s v : State} {ses op req job id : Nat} {e : JEntry} {f : JEntry → JEntry}

/-- The entry an accepted operation makes, at the head of the journal. -/
theorem entry_of_accepts (h : Accepts s ses op req job v id) : ∃ e, jentry v id = some e ∧ e.op = op ∧ e.req = req ∧ e.job = job ∧ e.st = 0 ∧
    e.accepted = s.now .hub ∧ e.steps = [] ∧ v.hub.cabinet.nextId = s.hub.cabinet.nextId + 1 ∧
    v.hub.cabinet.journal = e :: s.hub.cabinet.journal ∧ v.regs = s.regs := by
  obtain ⟨x, -, -, -, -, -, rfl, rfl⟩ := h
  refine ⟨newEntry (used s ses) (journalId s.hub.cabinet.boots s.hub.cabinet.nextId) op job req x.cert x.id, ?_, rfl, rfl, rfl, rfl, rfl, rfl,
    rfl, rfl, rfl⟩
  exact List.find?_cons_of_pos (beq_iff_eq.mpr rfl)

theorem jentry_id (h : jentry s id = some e) : e.id = id :=
  beq_iff_eq.mp (List.find?_some (p := fun e : JEntry => e.id == id) h)

theorem journal_putJEntry : (putJEntry s e).hub.cabinet.journal = s.hub.cabinet.journal.map (fun x => if x.id = e.id then e else x) := by
  unfold putJEntry jevent
  dsimp only
  split
  · split <;> rfl
  · rfl

/-- An entry that is there is found as it was written last. -/
theorem jentry_putJEntry {e' : JEntry} (hid : e'.id = id) (h : jentry s id = some e) : jentry (putJEntry s e') id = some e' := by
  rw [jentry, journal_putJEntry, hid]
  unfold jentry at h
  generalize s.hub.cabinet.journal = l at h
  induction l with
  | nil => cases h
  | cons x xs ih =>
    by_cases hx : x.id = id
    · rw [List.map_cons, if_pos hx]
      exact List.find?_cons_of_pos (beq_iff_eq.mpr hid)
    · rw [List.find?_cons_of_neg (by simp [hx])] at h
      rw [List.map_cons, if_neg hx, List.find?_cons_of_neg (by simp [hx])]
      exact ih h

theorem modEntry_of_entry (h : jentry s id = some e) : modEntry s id f = putJEntry s (f e) := by
  simp only [modEntry, h]

theorem jentry_modEntry (hf : (f e).id = e.id) (h : jentry s id = some e) : jentry (modEntry s id f) id = some (f e) := by
  rw [modEntry_of_entry h]
  exact jentry_putJEntry (hf.trans (jentry_id h)) h

/-! ### Requests that make no new entry (R478, R483) -/

section
variable {x : Session} {g : State → Nat → State}

theorem operation_of_operator (hx : findSession s ses = some x) (hoper : x.operator = true) (hanon : x.anon = false) :
    operation s ses op req job g = .next (journalled (used s ses) x op req job g) :=
  request_of_operator hx hoper hanon

theorem journalled_repeated {u : State} (h : repeated u x req = some e) :
    journalled u x op req job g = u.send (.reply x.id op req 0 (.entry e)) := by
  simp only [journalled, h]
  rfl

theorem journalled_full {u : State} (h : repeated u x req = none) (hroom : journalRoom u = none) : journalled u x op req job g =
    (raise u (Pg.cab (servingDie u)) Irq.CAB_JRNL_FULL).send (.reply x.id op req Syn.SIZE .empty) := by
  simp only [journalled, h, hroom]
  rfl

end

end

/-! ### The commit point (R47) -/

section
variable {s u : State} {id unit seq : Nat} {e : JEntry} {others : Bool} {c : CmdOut}

/-- The site keys are promoted without a change of time. -/
theorem now_promoteSiteKeys : (promoteSiteKeys s).now .hub = s.now .hub := by
  unfold promoteSiteKeys
  extract_lets due
  generalize s.hub.keys.filter due = l
  induction l generalizing s with
  | nil => rfl
  | cons n l ih => exact ih.trans rfl

theorem commitPoint_of_entry (h : jentry s id = some e) : exec (.commitPoint id others) s = .next (commitPoint (promoteSiteKeys s) e others) := by
  simp only [exec_commitPoint, execCommitPoint, h]

section
variable (hfinal : e.final = false) (hcancelled : e.cancelled = false) (happt : e.appt ≠ 0)
include hfinal hcancelled happt

theorem commitPoint_open (hcommitted : e.committed = false) : commitPoint u e others =
    if u.now .hub + e.lead < e.appt then u
    else if (allArmed u e && others) = true then putJEntry (commitHook u e) { e with committed := true }
    else cancelChange u e (firstSyn e Syn.TIMEOUT) :=
  (if_neg (by simp [hfinal, hcancelled, happt])).trans (if_neg (by simp [hcommitted]))

theorem commitPoint_committed (hcommitted : e.committed = true) : commitPoint u e others =
    if u.now .hub < e.appt then u
    else if e.pages.any (fun pg => isArmed u pg && apptTime u pg == e.appt) = true then u else readBack u e :=
  (if_neg (by simp [hfinal, hcancelled, happt])).trans (if_pos hcommitted)

end

/-! ### Commands without an answer (R482, R508) -/

theorem responseTimeout_of_primary (hc : findCmd (promoteSiteKeys s) unit seq = some c) (hprimary : c.primary = true) :
    exec (.responseTimeout unit seq) s =
      if c.last + 5000000 ≤ s.now .hub ∧ canCommand (promoteSiteKeys s) = true then .next (retry (promoteSiteKeys s) c)
      else .next (promoteSiteKeys s) := by
  simp only [exec_responseTimeout, execResponseTimeout, hc, hprimary, true_and, now_promoteSiteKeys, ge_iff_le]

end

/-- Settles O58: an entry by what its writes leave in the journal, the commit point by its branches, the follow-up by the attempts made. -/
theorem journalEntriesAndCommitPoint : Obligations.JournalEntriesAndCommitPoint := by
  unfold Obligations.JournalEntriesAndCommitPoint
  refine ⟨fun s v ses op req job id h _ => entry_of_accepts h, ?ends, ?requests, ?unknown, ?commit, ?timeout⟩
  case ends => exact fun s id code e h => ⟨jentry_modEntry rfl h, jentry_modEntry rfl h⟩
  case requests =>
    intro s ses req job unit x e hx hoper hanon
    have hop {g : State → Nat → State} := operation_of_operator (op := 0x33) (req := req) (job := job) (g := g) hx hoper hanon
    exact ⟨fun h => (exec_obsClear ..).trans (hop.trans (congrArg Host.Outcome.next (journalled_repeated h))),
      fun h hroom => (exec_obsClear ..).trans (hop.trans (congrArg Host.Outcome.next (journalled_full h hroom)))⟩
  case unknown =>
    intro s id h others
    simp only [exec_commitPoint, execCommitPoint, h]
  case commit =>
    intro s id e others h
    dsimp only
    rw [commitPoint_of_entry h, ← now_promoteSiteKeys]
    refine ⟨fun hover => congrArg Host.Outcome.next (if_pos hover), fun hfinal happt hcancelled hopen => ?_,
      fun hfinal hcancelled hcommitted => ⟨fun hearly => ?_, fun hdue happt hpages => ?_⟩⟩
    · rw [commitPoint_open hfinal hcancelled happt hopen]
      refine ⟨fun hearly => congrArg Host.Outcome.next (if_pos hearly), fun hdue => ⟨fun harmed hothers => ?_, fun hnot => ?_⟩⟩
      · exact congrArg Host.Outcome.next ((if_neg (Nat.not_lt.mpr hdue)).trans (if_pos (by rw [harmed, hothers]; rfl)))
      · refine congrArg Host.Outcome.next ((if_neg (Nat.not_lt.mpr hdue)).trans (if_neg ?_))
        rcases hnot with hnot | hnot <;> simp [hnot]
    · rw [commitPoint_committed hfinal hcancelled (Nat.ne_of_gt (Nat.zero_lt_of_lt hearly)) hcommitted, if_pos hearly]
    · have hnone : e.pages.any (fun pg => isArmed (promoteSiteKeys s) pg && apptTime (promoteSiteKeys s) pg == e.appt) = false := by
        simp only [List.any_eq_false, Bool.and_eq_true]
        rintro pg hpg ⟨harmed, -⟩
        exact Bool.false_ne_true ((hpages pg hpg).symm.trans harmed)
      rw [commitPoint_committed hfinal hcancelled happt hcommitted, if_neg (Nat.not_lt.mpr hdue), hnone]
      rfl
  case timeout =>
    intro s unit seq c u hc hprimary
    have h := responseTimeout_of_primary hc hprimary
    refine ⟨fun hearly => h.trans (if_neg fun ⟨hdue, _⟩ => Nat.not_lt.mpr hdue hearly), fun hdue hcan => ?_⟩
    rw [h, if_pos ⟨hdue, hcan⟩]
    exact ⟨fun hrounds => congrArg Host.Outcome.next (if_pos hrounds),
      fun hrounds hboots => congrArg Host.Outcome.next ((if_neg (Nat.not_lt.mpr hrounds)).trans (if_pos hboots)),
      fun hrounds hboots => congrArg Host.Outcome.next ((if_neg (Nat.not_lt.mpr hrounds)).trans (if_neg (Nat.not_lt.mpr hboots)))⟩

end Sys2Proof.Machine
end

section
/-!
PROOFS. The changes of a job (R34, R37, R38, R45 to R48, R247, R308, R415, R416, R477, R479): an accepted operation runs its checks on the state
with its entry, and the first check that fails ends the entry.
-/
namespace Sys2Proof.Machine
open Reg Sys2Proof.Laws

/-! ### Accepted operations -/

section
variable {s u v : State} {ses op req job id : Nat} {x : Session} {f : State → Nat → State}

theorem journalled_new (hrep : repeated u x req = none) (hlen : u.hub.cabinet.journal.length < 65536) : journalled u x op req job f =
    f ((enterJournal u op job req x.cert x.id).1.send (.reply x.id op req 0 (.journalId (enterJournal u op job req x.cert x.id).2)))
      (enterJournal u op job req x.cert x.id).2 := by
  have hroom : journalRoom u = some u := if_pos hlen
  simp only [journalled, hrep, hroom]
  rfl

/-- An accepted operation goes on from the state with its entry. -/
theorem operation_of_accepts (h : Accepts s ses op req job v id) : operation s ses op req job f = .next (f v id) := by
  obtain ⟨x, hx, hoper, hanon, hrep, hlen, rfl, rfl⟩ := h
  exact (operation_of_operator hx hoper hanon).trans (congrArg Host.Outcome.next (journalled_new hrep hlen))

end

/-! ### Appointments and policies -/

theorem apptCheck_eq_zero {s : State} {lead t : Nat} {ks : List Nat} : apptCheck s lead ks t = 0 ↔
    (∀ k ∈ ks, isBoundary k t = true) ∧ s.now .hub < t ∧ s.now .hub + lead ≤ t := by
  by_cases hks : ks.any (fun k => !isBoundary k t) = true
  · have hnot : ¬ ∀ k ∈ ks, isBoundary k t = true := by simpa using hks
    rw [apptCheck, if_pos hks]
    exact ⟨fun h => absurd h (by decide), fun ⟨hall, _⟩ => absurd hall hnot⟩
  · have hall : ∀ k ∈ ks, isBoundary k t = true := by simpa using hks
    rw [apptCheck, if_neg hks]
    by_cases ht : t ≤ s.now .hub ∨ t < s.now .hub + lead
    · rw [if_pos ht]
      exact ⟨fun h => absurd h (by decide), fun ⟨_, hnow, hlead⟩ => by omega⟩
    · rw [if_neg ht]
      exact ⟨fun _ => ⟨hall, by omega, by omega⟩, fun _ => rfl⟩

/-- A policy that is given and passes its check is not refused. -/
theorem any_refused_of_passes {α : Type} {o : Option α} {p : α → Bool} (h : ∀ x, o = some x → p x = true) : o.any (fun x => !p x) = false := by
  cases o with
  | none => rfl
  | some x => exact congrArg (!·) (h x rfl)

/-! ### The changes -/

section
variable {s v : State} {ses req job id : Nat} {appt : Option Nat} {j : HJob} {g : JobGen}

theorem blocked_eq_false {pages : List Page} (hcan : canCommand v = true) (hfree : anyArmed v pages = false) :
    ¬ (!canCommand v || anyArmed v pages) = true := by
  simp [hcan, hfree]

theorem jobWithGen (hj : hjob v job = some j) (hg : jobNow v j = some g) :
    (hjob v job).bind (fun j => (jobNow v j).map (fun g => (j, g))) = some (j, g) := by
  simp only [hj, hg, Option.bind_some, Option.map_some]

theorem jobCreate_of_accepts {k pg md slot : Nat} {roster : Roster} {vp : VPolicy} {dp : DPolicy} {kp : KPolicy} {fields : List TField}
    (h : Accepts s ses 0x20 req job v id) (hslot : freeJobSlot v = some slot) :
    let r := { roster with job, k, gen := 1, epoch := 1 }
    let lead := leadOfHubs v job (r.members.map (·.hub))
    let ks := k :: sharedKs v job (appt.getD (v.now .hub + lead)) (r.members.map (·.unit))
    let t := pickAppt v lead ks appt
    let c := createCheck v r (otherRosters v job t) vp dp kp fields pg md slot
    exec (.jobCreate ses req job roster k vp dp kp fields pg md appt) s = .next (
      if c ≠ 0 then abort v id c
      else if apptCheck v lead ks t ≠ 0 then abort v id (apptCheck v lead ks t)
      else if (!canCommand v || anyArmed v jobPages) = true then abort v id Syn.STATE
      else createJob v id slot t lead r vp dp kp fields pg md) := by
  refine (exec_jobCreate ..).trans ((operation_of_accepts h).trans (congrArg Host.Outcome.next ?_))
  simp only [hslot]

theorem rosterChange_of_accepts {roster : Roster} {addrs : List (Nat × List Nat)} (h : Accepts s ses 0x21 req job v id)
    (hj : hjob v job = some j) (hg : jobNow v j = some g) :
    let r := { roster with job, gen := g.gen + 1, epoch := g.epoch + 1 }
    let old := winMembers v g
    let lead := leadOfHubs v job ((old ++ r.members).map (·.hub))
    let ks := g.k :: r.k :: sharedKs v job (appt.getD (v.now .hub + lead)) ((old ++ r.members).map (·.unit))
    let t := pickAppt v lead ks appt
    let c := rosterCheck r (otherRosters v job t)
    exec (.rosterChange ses req job roster addrs appt) s = .next (
      if c ≠ 0 then abort v id c
      else if (r.epoch ≥ 2 ^ 32 || r.gen ≥ 2 ^ 32 || !addrsGiven v old r.members addrs ||
          (polAt j.kpol (v.now .hub)).any (fun p => !kpolCheck v p { g with k := r.k })) = true then abort v id Syn.RANGE
      else if apptCheck v lead ks t ≠ 0 then abort v id (apptCheck v lead ks t)
      else if (!canCommand v || anyArmed v jobPages) = true then abort v id Syn.STATE
      else changeRoster v id t lead j g old r addrs) := by
  refine (exec_rosterChange ..).trans ((operation_of_accepts h).trans (congrArg Host.Outcome.next ?_))
  simp only [jobWithGen hj hg]

theorem policySet_of_accepts {vp : Option VPolicy} {dp : Option DPolicy} {kp : Option KPolicy} (h : Accepts s ses 0x22 req job v id)
    (hj : hjob v job = some j) (hg : jobNow v j = some g) :
    let hubs := otherHubs v (winMembers v g)
    let lead := leadOfHubs v job hubs
    let t := pickAppt v lead [g.k] appt
    exec (.policySet ses req job vp dp kp appt) s = .next (
      if (vp.any (fun x => !vpolCheck x || !vpolFloor x j ((servedMembers v g).map (·.unit))) || dp.any (fun x => !dpolCheck x) ||
          kp.any (fun x => !kpolCheck v x g)) = true then abort v id Syn.RANGE
      else if apptCheck v lead [g.k] t ≠ 0 then abort v id (apptCheck v lead [g.k] t)
      else startChange v id t lead [] hubs (fun e =>
        { e with newJob := some { j with vpol := (vp.map (fun x => (t, x))).toList, dpol := (dp.map (fun x => (t, x))).toList,
                                         kpol := (kp.map (fun x => (t, x))).toList } })) := by
  refine (exec_policySet ..).trans ((operation_of_accepts h).trans (congrArg Host.Outcome.next ?_))
  simp only [jobWithGen hj hg]

theorem jobDelete_of_accepts (h : Accepts s ses 0x23 req job v id) (hj : hjob v job = some j) (hg : jobNow v j = some g) :
    let ms := winMembers v g
    let lead := leadOfHubs v job (ms.map (·.hub))
    let ks := g.k :: sharedKs v job (appt.getD (v.now .hub + lead)) (ms.map (·.unit))
    let t := pickAppt v lead ks appt
    exec (.jobDelete ses req job appt) s = .next (
      if apptCheck v lead ks t ≠ 0 then abort v id (apptCheck v lead ks t)
      else if (!canCommand v || anyArmed v (jobPages ++ (tileSet v j.slot).map Pg.til)) = true then abort v id Syn.STATE
      else deleteJob v id t lead j g) := by
  refine (exec_jobDelete ..).trans ((operation_of_accepts h).trans (congrArg Host.Outcome.next ?_))
  simp only [jobWithGen hj hg]

theorem jobDelete_without_job (h : Accepts s ses 0x23 req job v id) (hj : hjob v job = none) :
    exec (.jobDelete ses req job appt) s = .next (abort v id Syn.ABSENT) := by
  refine (exec_jobDelete ..).trans ((operation_of_accepts h).trans (congrArg Host.Outcome.next ?_))
  simp only [hj, Option.bind_none]

/-- What IMAGE_LOAD does with the placement it finds, or with the code that says why there is none. -/
def imagePlaced (w : State) (id : Nat) (j : HJob) (g : JobGen) : Except Nat HImage → State
  | .error c => abort w id c
  | .ok im => loadImage w id j g im

theorem imageLoad_of_accepts {x : Weaja} {b : Option BindSet} {place : Option Placement} (h : Accepts s ses 0x24 req job v id)
    (hj : hjob v job = some j) (hg : jobNow v j = some g) :
    let w := (b.map (installBind v)).getD v
    exec (.imageLoad ses req job x b place) s = .next (
      if (b.map bindCheck).getD 0 ≠ 0 then abort v id ((b.map bindCheck).getD 0)
      else if imageCheck w x ≠ 0 then abort w id (imageCheck w x)
      else if (j.recovery.isSome || j.faultWaits) = true then abort w id Syn.STATE
      else imagePlaced w id j g (placeImage w j g x place)) := by
  refine (exec_imageLoad ..).trans ((operation_of_accepts h).trans (congrArg Host.Outcome.next ?_))
  simp only [jobWithGen hj hg]
  cases placeImage ((b.map (installBind v)).getD v) j g x place <;> rfl

theorem keyRoll_of_job (hj : hjob s job = some j) (hg : jobNow s j = some g) :
    let every := ((polAt j.kpol (s.now .hub)).map (fun (p : KPolicy) => p.rollS)).getD 0 * 1000000000
    let last := ((s.hub.cabinet.rolls.find? (fun x => x.1 == job)).map (·.2)).getD 0
    exec (.keyRoll job) s = if every = 0 ∨ s.now .hub < last + every ∨ rolling s job = true then .next s else .next (rollJob s j g) := by
  simp only [exec_keyRoll, execKeyRoll, jobWithGen hj hg]

end

/-- Settles O59: each change by the order of its checks. -/
theorem changesOfAJob : Obligations.ChangesOfAJob := by
  unfold Obligations.ChangesOfAJob
  refine ⟨?create, ?roster, ?policy, ?delete, ?image, fun s v ses req job id h hj appt => jobDelete_without_job h hj, ?roll,
    fun s lead t ks => apptCheck_eq_zero⟩
  case create =>
    intro s v ses req job id k pg md slot roster vp dp kp fields appt h r lead ks t hslot c
    have hexec := jobCreate_of_accepts (k := k) (pg := pg) (md := md) (roster := roster) (vp := vp) (dp := dp) (kp := kp) (fields := fields)
      (appt := appt) h hslot
    refine ⟨fun hc => hexec.trans (congrArg Host.Outcome.next (if_pos hc)),
      fun hc ht => hexec.trans (congrArg Host.Outcome.next ((if_neg (not_not.mpr hc)).trans (if_pos ht))),
      fun hc ht hcan hfree => hexec.trans (congrArg Host.Outcome.next ?_)⟩
    exact (if_neg (not_not.mpr hc)).trans ((if_neg (not_not.mpr ht)).trans (if_neg (blocked_eq_false hcan hfree)))
  case roster =>
    intro s v ses req job id roster addrs appt j g h hj hg r old lead ks t
    have hexec := rosterChange_of_accepts (roster := roster) (addrs := addrs) (appt := appt) h hj hg
    refine ⟨fun hc => hexec.trans (congrArg Host.Outcome.next (if_pos hc)),
      fun hc hepoch hgen haddrs hkpol ht hcan hfree => hexec.trans (congrArg Host.Outcome.next ?_)⟩
    refine (if_neg (not_not.mpr hc)).trans ((if_neg ?_).trans ((if_neg (not_not.mpr ht)).trans (if_neg (blocked_eq_false hcan hfree))))
    have hany := any_refused_of_passes hkpol
    simp only [ge_iff_le, Bool.or_eq_true, decide_eq_true_eq, Bool.not_eq_true', not_or, Nat.not_le]
    exact ⟨⟨⟨hepoch, hgen⟩, by rw [haddrs]; exact Bool.noConfusion⟩, Bool.eq_false_iff.mp hany⟩
  case policy =>
    intro s v ses req job id vp dp kp appt j g h hj hg hubs lead t hvp hdp hkp
    have hexec := policySet_of_accepts (vp := vp) (dp := dp) (kp := kp) (appt := appt) h hj hg
    have hpass : ¬ (vp.any (fun x => !vpolCheck x || !vpolFloor x j ((servedMembers v g).map (·.unit))) || dp.any (fun x => !dpolCheck x) ||
        kp.any (fun x => !kpolCheck v x g)) = true := by
      have hfloor := any_refused_of_passes (p := fun x => vpolCheck x && vpolFloor x j ((servedMembers v g).map (·.unit)))
        (fun x hx => Bool.and_eq_true_iff.mpr (hvp x hx))
      simp only [Bool.not_and] at hfloor
      simp [hfloor, any_refused_of_passes hdp, any_refused_of_passes hkp]
    exact ⟨fun ht => hexec.trans (congrArg Host.Outcome.next ((if_neg hpass).trans (if_pos ht))),
      fun ht => hexec.trans (congrArg Host.Outcome.next ((if_neg hpass).trans (if_neg (not_not.mpr ht))))⟩
  case delete =>
    intro s v ses req job id appt j g h hj hg ms lead ks t ht hcan hfree
    exact (jobDelete_of_accepts h hj hg).trans (congrArg Host.Outcome.next
      ((if_neg (not_not.mpr ht)).trans (if_neg (blocked_eq_false hcan hfree))))
  case image =>
    intro s v ses req job id x b place j g h hj hg w
    have hexec := imageLoad_of_accepts (x := x) (b := b) (place := place) h hj hg
    refine ⟨fun y hb hy => ?_, fun hb => ?_⟩
    · subst hb
      exact hexec.trans (congrArg Host.Outcome.next (if_pos hy))
    · have hbind : ¬ (b.map bindCheck).getD 0 ≠ 0 := by
        cases b with
        | none => exact not_not.mpr rfl
        | some y => exact not_not.mpr (hb y rfl)
      refine ⟨fun hc => hexec.trans (congrArg Host.Outcome.next ((if_neg hbind).trans (if_pos hc))), fun hc hrec hwaits => ?_⟩
      have hplace : exec (.imageLoad ses req job x b place) s = .next (imagePlaced w id j g (placeImage w j g x place)) :=
        hexec.trans (congrArg Host.Outcome.next ((if_neg hbind).trans ((if_neg (not_not.mpr hc)).trans (if_neg (by simp [hrec, hwaits])))))
      exact ⟨fun c he => hplace.trans (by rw [he]; rfl), fun im hok => hplace.trans (by rw [hok]; rfl)⟩
  case roll =>
    intro s job j g hj hg every last
    have hexec := keyRoll_of_job hj hg
    refine ⟨fun hevery hdue hidle => hexec.trans (if_neg ?_), fun hno => hexec.trans (if_pos hno)⟩
    rintro (hzero | hearly | hrolling)
    · exact hevery hzero
    · exact Nat.not_lt.mpr hdue hearly
    · exact Bool.false_ne_true (hidle.symm.trans hrolling)

end Sys2Proof.Machine
end

section
/-!
PROOFS. The other journalled operations (R254, R302, R315, R350, R420, R421, R453, R469, R473, R477, R484): what each does with its entry once it is
accepted.
-/
namespace Sys2Proof.Machine
open Reg Sys2Proof.Laws

section
variable {s v : State} {ses req id : Nat}

/-! ### REG_WRITE -/

section
variable {a : RegAddr} {unit : Nat} {words : List Word} (h : Accepts s ses 0x11 req 0 v id)
include h

theorem regWrite_too_long (hlen : 256 < words.length) : exec (.regWrite ses req a unit words) s = .next (abort v id Syn.SIZE) :=
  (exec_regWrite ..).trans ((operation_of_accepts h).trans (congrArg Host.Outcome.next (if_pos (by simpa using hlen))))

theorem regWrite_of_hub {d p : Nat} (hlen : words.length ≤ 256) (ha : addrPage a = .hub d p) :
    exec (.regWrite ses req a unit words) s = .next (writeHub v id (.hub d p) (addrOff a) (words.map (·.toNat))) := by
  refine (exec_regWrite ..).trans ((operation_of_accepts h).trans (congrArg Host.Outcome.next ((if_neg (by simpa using hlen)).trans ?_)))
  simp only [ha]

theorem regWrite_of_tally {p : Nat} (hlen : words.length ≤ 256) (ha : addrPage a = .tally p) :
    exec (.regWrite ses req a unit words) s = .next (writeUnit v id unit p (addrOff a) (words.map (·.toNat))) := by
  refine (exec_regWrite ..).trans ((operation_of_accepts h).trans (congrArg Host.Outcome.next ((if_neg (by simpa using hlen)).trans ?_)))
  simp only [ha]

end

/-! ### FREEZE, SCAN_EXPORT, CORRELATE, OBS_CLEAR -/

theorem freeze_of_accepts {t : Nat} {units dies : List Nat} {release : Option Nat} (h : Accepts s ses 0x30 req 0 v id) :
    let a := freezeAction 2000000 t release
    exec (.freeze ses req units dies t release) s = .next (
      if release.any (fun r => decide (r ≤ t)) = true then abort v id Syn.RANGE
      else if apptCheck v 2000000 [] t ≠ 0 then abort v id (apptCheck v 2000000 [] t)
      else if (anyArmed v (dies.map Pg.hFrz) || (!units.isEmpty && !canCommand v)) = true then abort v id Syn.STATE
      else startChange (stageFreeze v (dies.map Pg.hFrz) a.1 a.2.1) id t 2000000 (dies.map Pg.hFrz) [] (fun e =>
        { e with result := a.2.2, steps := units.flatMap (fun u => freezeSteps u a.1 a.2.1 t) })) :=
  (exec_freeze ..).trans (operation_of_accepts h)

theorem not_release_before {t : Nat} {release : Option Nat} (h : ∀ r, release = some r → t < r) :
    ¬ release.any (fun r => decide (r ≤ t)) = true := by
  cases release with
  | none => exact Bool.false_ne_true
  | some r => simpa using h r rfl

theorem scanExport_of_accepts {tier job lo hi rate : Nat} {ports : List Nat} (h : Accepts s ses 0x31 req job v id) (htier : tier ≤ 1)
    (hspan : lo ≤ hi) (hhi : hi < 2 ^ 64) (hsome : ports ≠ []) (hports : ∀ p ∈ ports, p ≤ 9) :
    exec (.scanExport ses req tier job lo hi ports rate) s = .next ((siteKey (promoteSiteKeys v) 3).elim (abort v id Syn.STATE) (fun k =>
      if (List.range 8).any (fun m => (getTap v m).scan.isSome || !(getTap v m).ready || isFrozen v (tapPg m)) = true then abort v id Syn.STATE
      else
        let u := (List.range 8).foldl (exportSet tier job lo hi) (startEntry (promoteSiteKeys v) id (fun e => e))
        let w := (List.range 8).foldl (exportDie tier k.epoch ports) u
        endEntry ((List.range 8).foldl (fun s m => endScan s m ScanSt.DONE) w) id Jr.DONE 0 [])) := by
  have hports' : ports.any (fun p => decide (p > 9)) = false := by simpa using hports
  refine (exec_scanExport ..).trans ((operation_of_accepts h).trans (congrArg Host.Outcome.next ((if_neg ?_).trans ?_)))
  · rw [hports', List.isEmpty_eq_false_iff.mpr hsome]
    simp only [Bool.false_eq_true, or_false]
    omega
  · cases siteKey (promoteSiteKeys v) 3 <;> rfl

theorem correlate_of_accepts {lo hi threshold : Nat} {field : TField} (h : Accepts s ses 0x32 req 0 v id) (hfield : fieldCheck field = 0)
    (hspan : lo ≤ hi) (hthreshold : threshold < 2 ^ 32) : exec (.correlate ses req field lo hi threshold) s = .next (
      if (!anyFreeTile v) = true then abort v id Syn.SIZE
      else startEntry (setCabinet v { v.hub.cabinet with
        searches := v.hub.cabinet.searches ++ [{ entry := id, field, from_ := lo, to_ := hi, threshold }] }) id (fun e => e)) :=
  (exec_correlate ..).trans ((operation_of_accepts h).trans (congrArg Host.Outcome.next (if_neg (by omega))))

/-! ### RETIRE, KEY_INSTALL -/

theorem retire_of_accepts {tile : Nat} (h : Accepts s ses 0x34 req 0 v id) : exec (.retire ses req tile) s = .next (
    if tile ≥ tileCount v.cfg then abort v id Syn.ABSENT
    else if pstate v tile = PS.RETIRED then abort v id Syn.STATE
    else endEntry (retireForGood (startEntry v id (fun e => e)) tile) id Jr.DONE 0 []) :=
  (exec_retire ..).trans (operation_of_accepts h)

theorem keyInstall_of_accepts {kind epoch : Nat} {record : List Byte} {appt : Option Nat} (h : Accepts s ses 0x35 req 0 v id) :
    let r := record.map (·.toNat)
    let t := pickAppt v 2000000 [0] appt
    exec (.keyInstall ses req kind epoch record appt) s = .next (
      if (kind ≠ 2 ∧ kind ≠ 3) ∨ r.length ≠ 152 ∨ r.headD 0 ≠ kind ∨ ofBe ((r.drop 8).take 4) ≠ epoch ∨ epoch = 0 then abort v id Syn.RANGE
      else if apptCheck v 2000000 [] t ≠ 0 then abort v id (apptCheck v 2000000 [] t)
      else if v.isUnset .hub = true then abort v id Syn.STATE
      else installSite (promoteSiteKeys v) id kind epoch t r) :=
  (exec_keyInstall ..).trans (operation_of_accepts h)

/-! ### IMAGE_WRITE (R469) -/

/-- What IMAGE_WRITE does with its entry. -/
def imageWritten (version : Nat) (ok : Bool) (cfg : Option CfgImage) (s : State) (id : Nat) : State :=
  if ok = false then abort s id Syn.AUTH else endEntry (writeCopy (startEntry s id (fun e => e)) version cfg) id Jr.DONE 0 []

theorem imageWrite_of_accepts {version : Nat} {ok : Bool} {cfg : Option CfgImage} (h : Accepts s ses 0x70 req 0 v id) :
    exec (.imageWrite ses req version ok cfg) s = .next (imageWritten version ok cfg v id) := by
  obtain ⟨x, hx, hoper, hanon, hrep, hlen, rfl, rfl⟩ := h
  exact (exec_imageWrite ..).trans ((request_of_operator hx hoper hanon).trans (congrArg Host.Outcome.next (journalled_new hrep hlen)))

/-- A session in SAFE is served what it may ask. -/
theorem request_of_anon_served {op : Nat} {opOnly : Bool} {x : Session} {f : State → Session → State} (hx : findSession s ses = some x)
    (hanon : x.anon = true) (hop : [0x01, 0x02, 0x70].contains op = true) : request s ses op req opOnly f = .next (f (used s ses) x) := by
  simp only [request, hx, hanon, hop]
  rfl

theorem imageWrite_of_anon {version : Nat} {ok : Bool} {cfg : Option CfgImage} {x : Session} (hx : findSession s ses = some x)
    (hanon : x.anon = true) (hrep : repeated (used s ses) x req = none) (hlen : (used s ses).hub.cabinet.journal.length < 65536) :
    exec (.imageWrite ses req version ok cfg) s = .next (imageWritten version ok cfg
      ((enterJournal (used s ses) 0x70 0 req x.cert x.id).1.send
        (.reply x.id 0x70 req 0 (.journalId (enterJournal (used s ses) 0x70 0 req x.cert x.id).2)))
      (enterJournal (used s ses) 0x70 0 req x.cert x.id).2) :=
  (exec_imageWrite ..).trans ((request_of_anon_served hx hanon rfl).trans (congrArg Host.Outcome.next (journalled_new hrep hlen)))

/-! ### SWITCHOVER, RESET -/

theorem switchover_of_accepts {back : Bool} (h : Accepts s ses 0x71 req 0 v id) : exec (.switchover ses req back) s = .next (
    if (complexIn v Role.STANDBY).isNone = true then abort v id Syn.STATE
    else takeOver (endEntry (startEntry v id (fun e => e)) id Jr.DONE 0 []) back) :=
  (exec_switchover ..).trans (operation_of_accepts h)

theorem reset_of_accepts {kind : Nat} {b : BootIn} (h : Accepts s ses 0x72 req 0 v id) : exec (.reset ses req kind b) s = .next (
    if kind ≠ 1 then abort v id Syn.RANGE else runBoot (packageReset v) b) :=
  (exec_reset ..).trans (operation_of_accepts h)

end

/-- Settles O60: each order by the branches of what it does with its entry. -/
theorem journalledOrders : Obligations.JournalledOrders := by
  unfold Obligations.JournalledOrders
  refine ⟨?regWrite, ?freeze, ?scanExport, ?correlate, ?obsClear, ?retire, ?keyInstall, ?imageWrite, ?safeImageWrite, ?switchover, ?reset⟩
  case regWrite =>
    intro s v ses req id unit a words h
    refine ⟨regWrite_too_long h, fun d p hlen ha => ?_, fun p hlen ha hcan => ?_⟩
    · refine ⟨fun hdone => ?_, fun hcode hnone => ?_, fun hcode hsome => ?_⟩ <;> refine (regWrite_of_hub h hlen ha).trans (congrArg Host.Outcome.next ?_)
      · exact if_pos hdone
      · exact (if_neg hcode).trans (congrArg (endEntry _ id · _ []) (if_pos hnone))
      · exact (if_neg hcode).trans (congrArg (endEntry _ id · _ []) (if_neg hsome))
    · refine (regWrite_of_tally h hlen ha).trans (congrArg Host.Outcome.next ?_)
      simp only [writeUnit, hcan, List.length_map]
      rfl
  case freeze =>
    intro s v ses req id t units dies release h pages a
    have hexec := freeze_of_accepts (t := t) (units := units) (dies := dies) (release := release) h
    refine ⟨fun ⟨r, hr, hrt⟩ => hexec.trans (congrArg Host.Outcome.next (if_pos (by simp [hr, hrt]))), fun hrel hlate => ?_,
      fun hrel hlead hfree hunits => ?_⟩
    · have hcheck : apptCheck v 2000000 [] t = Syn.LATE := (if_neg Bool.false_ne_true).trans (if_pos (.inr hlate))
      refine hexec.trans (congrArg Host.Outcome.next ((if_neg (not_release_before hrel)).trans ?_))
      rw [hcheck]
      rfl
    · have hcheck : apptCheck v 2000000 [] t = 0 := apptCheck_eq_zero.mpr ⟨fun k hk => absurd hk List.not_mem_nil, by omega, hlead⟩
      refine hexec.trans (congrArg Host.Outcome.next ((if_neg (not_release_before hrel)).trans ((if_neg (not_not.mpr hcheck)).trans (if_neg ?_))))
      rcases hunits with hunits | hcan
      · simp [pages, hfree, hunits]
      · simp [pages, hfree, hcan]
  case scanExport =>
    intro s v ses req id tier job lo hi rate ports h htier hspan hhi hsome hports
    have hexec := scanExport_of_accepts (rate := rate) h htier hspan hhi hsome hports
    refine ⟨fun hkey => hexec.trans (by rw [hkey]; rfl), fun k hkey hidle => ?_⟩
    have hnone : ¬ (List.range 8).any (fun m => (getTap v m).scan.isSome || !(getTap v m).ready || isFrozen v (tapPg m)) = true := by
      simp only [Bool.not_eq_true, List.any_eq_false, List.mem_range]
      intro m hm
      obtain ⟨hscan, hready, hfrozen⟩ := hidle m hm
      simp [hscan, hready, hfrozen]
    rw [hexec, hkey]
    exact congrArg Host.Outcome.next (if_neg hnone)
  case correlate =>
    intro s v ses req id lo hi threshold field h hfield hspan hthreshold
    have hexec := correlate_of_accepts h hfield hspan hthreshold
    exact ⟨fun hfree => hexec.trans (congrArg Host.Outcome.next (if_neg (by simp [hfree]))),
      fun hfull => hexec.trans (congrArg Host.Outcome.next (if_pos (by simp [hfull])))⟩
  case obsClear =>
    intro s v ses req id job unit h
    have hexec {f : State → Nat → State} := operation_of_accepts (f := f) h
    refine ⟨fun hj => ?_, fun j hj => ?_⟩ <;> refine (exec_obsClear ..).trans (hexec.trans ?_) <;> simp only [hj]
  case retire =>
    intro s v ses req id tile h
    have hexec := retire_of_accepts (tile := tile) h
    exact ⟨fun hout => hexec.trans (congrArg Host.Outcome.next (if_pos hout)),
      fun hin hret => hexec.trans (congrArg Host.Outcome.next ((if_neg (Nat.not_le.mpr hin)).trans (if_pos hret))),
      fun hin hret => hexec.trans (congrArg Host.Outcome.next ((if_neg (Nat.not_le.mpr hin)).trans (if_neg hret)))⟩
  case keyInstall =>
    intro s v ses req id kind epoch record appt h r t
    have hexec := keyInstall_of_accepts (kind := kind) (epoch := epoch) (record := record) (appt := appt) h
    refine ⟨fun htwo hthree => hexec.trans (congrArg Host.Outcome.next (if_pos (.inl ⟨htwo, hthree⟩))), fun hkind hlen hhead hepoch hpos => ?_⟩
    have hform : ¬ ((kind ≠ 2 ∧ kind ≠ 3) ∨ r.length ≠ 152 ∨ r.headD 0 ≠ kind ∨ ofBe ((r.drop 8).take 4) ≠ epoch ∨ epoch = 0) := by
      rintro (hno | hno | hno | hno | hno)
      · exact hkind.elim hno.1 hno.2
      · exact hno hlen
      · exact hno hhead
      · exact hno hepoch
      · exact hpos hno
    exact ⟨fun ht => hexec.trans (congrArg Host.Outcome.next ((if_neg hform).trans (if_pos ht))),
      fun ht hset => hexec.trans (congrArg Host.Outcome.next ((if_neg hform).trans ((if_neg (not_not.mpr ht)).trans
        (if_neg (Bool.eq_false_iff.mp hset)))))⟩
  case imageWrite => exact fun s v ses req id version cfg h => ⟨imageWrite_of_accepts h, imageWrite_of_accepts h⟩
  case safeImageWrite =>
    intro s ses req version cfg x hx hanon u r hrep hlen
    exact imageWrite_of_anon hx hanon hrep hlen
  case switchover =>
    intro s v ses req id back h
    have hexec := switchover_of_accepts (back := back) h
    exact ⟨fun hnone => hexec.trans (congrArg Host.Outcome.next (if_pos (Option.isNone_iff_eq_none.mpr hnone))),
      fun hsome => hexec.trans (congrArg Host.Outcome.next (if_neg (mt Option.isNone_iff_eq_none.mp hsome)))⟩
  case reset =>
    intro s v ses req id kind b h
    have hexec := reset_of_accepts (kind := kind) (b := b) h
    exact ⟨fun hone => hexec.trans (congrArg Host.Outcome.next (if_neg (not_not.mpr hone))),
      fun hother => hexec.trans (congrArg Host.Outcome.next (if_pos hother))⟩

end Sys2Proof.Machine
end

section
/-!
PROOFS. The machine: its step by its queue, the state after reset, the write of one register field.
-/
namespace Sys2Proof.Machine
open Reg Sys2Proof.Laws

/-! ### The step -/

section
variable {s : State} {c : Instr} {rest : List Instr}

theorem step_of_pending (h : s.pending = c :: rest) : step s = exec c { s with pending := rest } := by
  simp only [step, h]

theorem step_of_empty (h : s.pending = []) : step s = .next (idle s) := by
  simp only [step, h]

end

/-- Settles O1: a step by the two forms of the queue. -/
theorem frontCommandIsExecuted : Obligations.FrontCommandIsExecuted := by
  unfold Obligations.FrontCommandIsExecuted
  exact ⟨fun c rest s => step_of_pending rfl, fun s h => step_of_empty h⟩

/-! ### The state after reset -/

/-- An empty journal has IDs in order. -/
theorem journalIds_of_empty {c : Cabinet} (hnext : 1 ≤ c.nextId) (hempty : c.journal = []) : JournalIds c :=
  ⟨hnext, [], by rw [hempty]; rfl, .nil, fun _ h => absurd h List.not_mem_nil⟩

/-- Settles O7: registers, journal, HBM and tiles start empty. -/
theorem resetMeetsTheInvariants : Obligations.ResetMeetsTheInvariants := by
  unfold Obligations.ResetMeetsTheInvariants
  exact ⟨List.nodup_nil, journalIds_of_empty Nat.le.refl rfl, rfl, fun _ h => absurd h List.not_mem_nil⟩

/-! ### The write of a field -/

/-- Settles O8: what a written field reads, and that the write is of one cell of the registers. -/
theorem fieldWriteChangesOneField : Obligations.FieldWriteChangesOneField := by
  unfold Obligations.FieldWriteChangesOneField
  exact fun s pg f v i => ⟨rd_wr_same .., fun k hk => cell_wr_other hk, OnlyRegs.refl.wr⟩

end Sys2Proof.Machine
end
